-- ==== Sys2Proof/Word.lean ====
section
/-! DEFINITION. Word.lean: the word types of the block and their plainest arithmetic. -/

namespace Sys2Proof

/-- One byte. -/
abbrev Byte := BitVec 8

/-- A sparse table keyed by a number: keys rising, no repeats; an absent key reads a default. -/
abbrev Tab (α : Type) := List (Nat × α)

end Sys2Proof
end

