-- ==== Sys2Proof/Config.lean ====
section
/-! DEFINITION. Config.lean: the figures of the three variants (00_scope.md Table 0-1). -/

namespace Sys2Proof

/-- The ordered variant of the module (R1). -/
inductive Variant where
  | xkp02 | xkp04 | xkp08
  deriving DecidableEq, Repr, Inhabited

/-- Highest die number: keel 0 and 1, 3 or 7 tiles (R14). -/
def Variant.tiles : Variant → Nat
  | .xkp02 => 1 | .xkp04 => 3 | .xkp08 => 7

/-- ID.PART: dies of the package (Table 0-1). -/
def Variant.part : Variant → Nat
  | .xkp02 => 2 | .xkp04 => 4 | .xkp08 => 8

/-- String ports bonded out (Table 0-1). -/
def Variant.ports : Variant → Nat
  | .xkp02 => 4 | .xkp04 => 8 | .xkp08 => 16

/-- The bit of a PART field that names the variant (Tables 3-9, 5-7). -/
def Variant.partBit : Variant → Nat
  | .xkp02 => 0 | .xkp04 => 1 | .xkp08 => 2

/-- Sum of RET_SIZE over the station, in bytes (R166 condition 4). -/
def Variant.retainBytes : Variant → Nat
  | .xkp02 => 0x200000 | .xkp04 => 0x400000 | .xkp08 => 0x800000

/-- Maximum input power, W (Table 17-7, RUN). -/
def Variant.maxPowerW : Variant → Nat
  | .xkp02 => 38 | .xkp04 => 62 | .xkp08 => 110

/-- Maximum input power in DORMANT, tenths of a watt (Table 0-1). -/
def Variant.dormantTenthW : Variant → Nat
  | .xkp02 => 50 | .xkp04 => 55 | .xkp08 => 65

/-- LPDDR5 with inline ECC, GiB (Table 0-1). -/
def Variant.dramGiB : Variant → Nat
  | .xkp02 => 4 | .xkp04 => 8 | .xkp08 => 16

/-- PCIe device ID of the endpoint (Table 0-1, R50). -/
def Variant.deviceId : Variant → BitVec 16
  | .xkp02 => 0x0202 | .xkp04 => 0x0204 | .xkp08 => 0x0208

/-- Cycle cores, four per tile (Table 0-1). -/
def Variant.cores (v : Variant) : Nat := 4 * v.tiles

/-- Loop capacity, 512 per tile (Table 0-1). -/
def Variant.loopCapacity (v : Variant) : Nat := 512 * v.tiles

/-- Cells, 8 192 per string port (Table 0-1). -/
def Variant.cells (v : Variant) : Nat := 8192 * v.ports

/-- Backup memory for the user is fitted (R531). -/
def Variant.hasBkup : Variant → Bool
  | .xkp08 => false | _ => true

/-- Free value: the share of the load, in 10 mA units, that feed A carries of a total when two good feeds
stand within 0.5 V of each other (R522: not defined). No body: nothing constrains it. -/
opaque Config.loadShare : Nat → Nat → Nat

/-- Free values: a word that the module measures at its terminals and that no command brings (R496), or that the spec
leaves open. Applied to the count of free values drawn so far. No body: nothing constrains it. -/
opaque Config.freeWord : Nat → BitVec 32

end Sys2Proof
end

