-- ==== Sys2Proof/Parts.lean ====
section
/-! DEFINITION. Parts.lean: the parts of the state that a station shares and that a joining module receives: keys, the
program with its tasks, loops, cell plan and cell records (R107, R385). -/

namespace Sys2Proof

/-- Tone state at an end (Table 8-13). -/
inductive Tone where
  | none | healthy | origin (i : BitVec 10) | fault
  deriving DecidableEq, Repr, Inhabited

/-- A chain frame that the string engine starts in the free time of a sweep (R278). -/
inductive ChainSend where
  | heartbeat (echo : Nat)
  | cfg (sat : Nat)
  | bal (sat : Nat)
  | balStop
  | enum (pos : Nat)
  deriving DecidableEq, Repr, Inhabited

end Sys2Proof

namespace Sys2Proof.Machine

/-- A sparse byte memory in canonical form: addresses rising, no byte listed that equals 0, which is what an
unlisted address reads as (R187: bytes that no block covers start as 0). -/
abbrev Mem := List Host.Cell

inductive Holder where
  | host | sideband | free
  deriving DecidableEq, Repr, Inhabited

/-- A key slot (R99, R102). -/
structure KeySlot where
  present : Bool := false
  key : BitVec 128 := 0
  mask : BitVec 16 := 0
  counter : BitVec 64 := 0
  deriving DecidableEq, Repr, Inhabited

structure Verifier where
  iterations : Nat := 10000
  salt : List Byte := []
  derived : List Byte := []
  deriving DecidableEq, Repr, Inhabited

/-- A variable entry (Table 5-5). -/
structure VarEntry where
  handle : BitVec 32 := 0
  width : Nat := 1
  value : BitVec 64 := 0
  deriving DecidableEq, Repr, Inhabited

/-- A binding (Table 5-11). -/
structure Bind where
  space : Nat := 0
  kind : Nat := 0
  width : Nat := 8
  offset : Nat := 0
  ref : BitVec 64 := 0
  deriving DecidableEq, Repr, Inhabited

/-- A task table entry (Table 5-1) with its bindings. -/
structure TaskDef where
  task : Nat := 0
  die : Nat := 1
  priority : Nat := 0
  grace : Nat := 20
  horizon : Nat := 50
  period : Nat := 10
  harvest : Nat := 1
  budget : Nat := 10
  entry : Nat := 0
  inSize : Nat := 0
  outSize : Nat := 0
  varSize : Nat := 0
  retSize : Nat := 0
  conSize : Nat := 0
  instSize : Nat := 0
  stkSize : Nat := 0
  binds : List Bind := []
  deriving DecidableEq, Repr, Inhabited

/-- An instance table entry (Table 5-10). -/
structure Inst where
  id : BitVec 64 := 0
  handle : BitVec 32 := 0
  kind : Nat := 1
  size : Nat := 32
  deriving DecidableEq, Repr, Inhabited

/-- A retain map entry (Table 5-9). -/
structure Retain where
  hash : BitVec 64 := 0
  handle : BitVec 32 := 0
  length : Nat := 1
  deriving DecidableEq, Repr, Inhabited

/-- A program image after its structure check (R185 to R189). -/
structure Image where
  crc : BitVec 32 := 0
  part : BitVec 32 := 0
  imageId : BitVec 64 := 0
  version : BitVec 32 := 0
  keySlot : Nat := 1
  built : BitVec 64 := 0
  code : List (BitVec 32) := []
  const : List (BitVec 32 × List Byte) := []
  init : List (BitVec 32 × List Byte) := []
  retain : List Retain := []
  insts : List Inst := []
  tasks : List TaskDef := []
  deriving DecidableEq, Repr, Inhabited

/-- A force (R179), with the module time at which it was accepted. -/
structure Force where
  acc : Nat := 0
  handle : BitVec 32 := 0
  width : Nat := 1
  value : BitVec 64 := 0
  deriving DecidableEq, Repr, Inhabited

/-- The spaces that a cycle may write (R158). -/
structure Spaces where
  out : Mem := []
  var : Mem := []
  ret : Mem := []
  inst : Mem := []
  stk : Mem := []
  deriving DecidableEq, Repr, Inhabited

/-- A task's cycle in execution (R193, R194, R157 to R160). `lat`: the latency of its mirrored image in a follower, ns
(R357). -/
structure Cyc where
  n : Nat := 0
  start : Nat := 0
  spec : Bool := false
  regs : Tab (BitVec 64) := []
  preds : BitVec 16 := 0
  pc : Nat := 0
  img : Mem := []
  sp : Spaces := {}
  written : List (Nat × Nat) := []
  readSet : List Nat := []
  filterFull : Bool := false
  divZero : Bool := false
  divZeroPc : Nat := 0
  trap : Option (Nat × Nat) := none
  done : Bool := false
  held : Bool := false
  warned : Bool := false
  prior : Bool := false
  charged : Nat := 0
  lat : Nat := 0
  deriving DecidableEq, Repr, Inhabited

/-- A committed unit in MRAM (R128). -/
structure RetUnit where
  crc : BitVec 32 := 0
  ret : Mem := []
  insts : Mem := []
  modes : Tab Nat := []
  deriving DecidableEq, Repr, Inhabited

/-- A task at run time: committed spaces (its checkpoint, R152), latched image, cycle, TASK_STATUS words. `loopIn`: words of
VARIABLE loop destinations with their output instants, and `loopInOld` what they replaced (Table 7-9, R9). -/
structure Task where
  img : Mem := []
  con : Mem := []
  sp : Spaces := {}
  outForced : Mem := []
  loopIn : Tab (Nat × BitVec 32) := []
  loopInOld : Tab (Nat × BitVec 32) := []
  mirrored : Option (Nat × Mem) := none
  mirrorLat : Nat := 0
  nextN : Nat := 0
  cyc : Option Cyc := none
  everLatched : Bool := false
  harvested : Bool := false
  seen : Tab Nat := []
  lastCharged : Nat := 0
  maxCharged : Nat := 0
  warnings : Nat := 0
  cycles : Nat := 0
  squashes : Nat := 0
  confirmed : Nat := 0
  fault : BitVec 32 := 0
  overruns : Nat := 0
  lastHarvest : Nat := 0
  skipped : Nat := 0
  deriving DecidableEq, Repr, Inhabited

/-- An online-change set (R73, R176 to R178). -/
structure OcSet where
  rid : Nat := 0
  entries : List VarEntry := []
  acc : Nat := 0
  left : List Nat := []
  harvests : Nat := 0
  lastHarvest : Nat := 0
  forced : Bool := false
  deriving DecidableEq, Repr, Inhabited

/-- The program: `forces` is the table that commands change, `effForces` what acts on the images (R180, R181), since
`refreshed` in MAINTENANCE (R141). `startMt` and `startKind` are its last restart (Table 6-9). -/
structure Prog where
  stored : Option Image := none
  loaded : Option Image := none
  storing : Option (Nat × Image) := none
  admitted : Bool := false
  anchor : Nat := 0
  tasks : Tab Task := []
  units : Tab RetUnit := []
  forces : List Force := []
  effForces : List Force := []
  released : List (BitVec 32 × Nat) := []
  storedForces : List Force := []
  refreshed : Nat := 0
  startMt : Nat := 0
  startKind : Nat := 3
  running : List OcSet := []
  waiting : List OcSet := []
  deriving DecidableEq, Repr, Inhabited

/-- The parameter block of a loop (Table 7-4), binary32 words. -/
structure LoopPar where
  spConst : BitVec 32 := 0
  spScale : BitVec 32 := 0
  spOffset : BitVec 32 := 0
  spRate : BitVec 32 := 0
  k0 : BitVec 32 := 0
  k1 : BitVec 32 := 0
  k2 : BitVec 32 := 0
  k3 : BitVec 32 := 0
  k4 : BitVec 32 := 0
  k5 : BitVec 32 := 0
  outMin : BitVec 32 := 0
  outMax : BitVec 32 := 0
  outRate : BitVec 32 := 0
  manOut : BitVec 32 := 0
  clampScale : BitVec 32 := 0
  outStart : BitVec 32 := 0
  deriving DecidableEq, Repr, Inhabited

/-- Header of a loop record (Table 7-3) with its parameter block. -/
structure LoopRec where
  handle : BitVec 16 := 0
  type : Nat := 1
  ctrl : Nat := 0
  period : Nat := 20
  samplePhase : Nat := 0
  outputPhase : Nat := 16
  sampleSrc : BitVec 32 := 0
  spSrc : BitVec 32 := 0
  dest : BitVec 32 := 0
  clamp : BitVec 8 := 0
  ext : Nat := 0xFF
  par : LoopPar := {}
  deriving DecidableEq, Repr, Inhabited

/-- A state-space extension block (Table 7-7). -/
structure Ext where
  die : Nat := 1
  index : Nat := 0
  nx : Nat := 1
  nu : Nat := 1
  ny : Nat := 1
  sample2 : BitVec 32 := 0
  dest2 : BitVec 32 := 0
  outMin : BitVec 32 := 0
  outMax : BitVec 32 := 0
  outRate : BitVec 32 := 0
  a : List (BitVec 32) := []
  b : List (BitVec 32) := []
  c : List (BitVec 32) := []
  d : List (BitVec 32) := []
  x : List (BitVec 32) := []
  out2 : BitVec 32 := 0
  deriving DecidableEq, Repr, Inhabited

/-- What a loop latched at its sample instant (R241, R244, R237, R239): sample, second sample, set-point source value,
destination report, discharge and charge limits of its clamp, and the inner loop's set-point when it tracks. -/
structure LoopSmp where
  mt : Nat := 0
  y : BitVec 32 := 0
  s2 : BitVec 32 := 0
  lost : Bool := false
  sp : BitVec 32 := 0
  spLost : Bool := false
  destSat : Bool := false
  dyn : Option (BitVec 32 × BitVec 32) := none
  dynBad : Bool := false
  track : Option (BitVec 32) := none
  deriving DecidableEq, Repr, Inhabited

/-- The record of a loop as its last commit left it, which LOOP_READ shows (R266). -/
structure LoopShown where
  par : LoopPar := {}
  integ : BitVec 32 := 0
  dstate : BitVec 32 := 0
  prev : BitVec 32 := 0
  out : BitVec 32 := 0
  sp : BitVec 32 := 0
  pv : BitVec 32 := 0
  status : BitVec 32 := 3
  count : Nat := 0
  x : List (BitVec 32) := []
  out2 : BitVec 32 := 0
  deriving DecidableEq, Repr, Inhabited

/-- A loop in effect. `rNext` is the set-point of the run-ahead; `pend` what its destinations take at the output
instant, none for their safe state. -/
structure Loop where
  lrec : LoopRec := {}
  par : LoopPar := {}
  ext : Option Ext := none
  mode : Nat := 0
  integ : BitVec 32 := 0
  dstate : BitVec 32 := 0
  prev : BitVec 32 := 0
  out : BitVec 32 := 0
  sp : BitVec 32 := 0
  pv : BitVec 32 := 0
  status : BitVec 32 := 3
  count : Nat := 0
  uraw : BitVec 32 := 0
  rNext : BitVec 32 := 0
  initialised : Bool := false
  srcLost : Bool := false
  spLost : Bool := false
  spRateOn : Bool := false
  saturated : Bool := false
  paramSeq : Nat := 0
  smp : Option LoopSmp := none
  pend : Option (Nat × Option (BitVec 32 × BitVec 32)) := none
  parRun : Option (Nat × LoopPar × Nat) := none
  parWait : Option (Nat × LoopPar × Nat) := none
  modeReqs : List (Nat × Nat × Nat) := []
  shown : LoopShown := {}
  deriving DecidableEq, Repr, Inhabited

structure LoopSet where
  recs : List LoopRec := []
  exts : List Ext := []
  deriving DecidableEq, Repr, Inhabited

structure Loops where
  stored : LoopSet := {}
  admitted : Bool := false
  window : Tab (Nat × List Byte) := []
  loops : Tab Loop := []
  modesMram : Tab Nat := []
  deriving DecidableEq, Repr, Inhabited

/-- A port entry of the cell plan's string section (Table 8-16). -/
structure PortPlan where
  port : Nat := 0
  store : Bool := false
  sats : Nat := 1
  cellMask : BitVec 16 := 0
  lastMask : BitVec 16 := 0
  openDelay : Nat := 10
  cfg : List Byte := []
  deriving DecidableEq, Repr, Inhabited

/-- A chemistry table (Table 9-1). -/
structure Chem where
  id : Nat := 0
  crc : BitVec 32 := 0
  capNom : BitVec 32 := 0
  vMax : BitVec 32 := 0
  vMin : BitVec 32 := 0
  iChg : BitVec 32 := 0
  iDis : BitVec 32 := 0
  tGrid : List (BitVec 32) := []
  resOhm : List (BitVec 32) := []
  resPol : List (BitVec 32) := []
  capPol : List (BitVec 32) := []
  derChg : List (BitVec 32) := []
  derDis : List (BitVec 32) := []
  qSoc : BitVec 32 := 0
  qPol : BitVec 32 := 0
  qRes : BitVec 32 := 0
  measVar : BitVec 32 := 0
  socMin : BitVec 32 := 0
  socMax : BitVec 32 := 0
  probeVar : BitVec 32 := 0
  anchorVar : BitVec 32 := 0
  dsocMin : BitVec 32 := 0
  capGain : BitVec 32 := 0
  ocv : List (BitVec 32) := []
  deriving DecidableEq, Repr, Inhabited

/-- An estimation entry (Table 9-3). -/
structure EstPlan where
  port : Nat := 0
  chem : Nat := 0
  place : Nat := 0
  iSrc : BitVec 32 := 0
  iScale : BitVec 32 := 0
  iOffset : BitVec 32 := 0
  capInit : BitVec 32 := 0
  socInit : BitVec 32 := 0
  curMax : BitVec 32 := 0
  deriving DecidableEq, Repr, Inhabited

/-- A cell plan (Tables 8-15, 9-2). -/
structure CellPlan where
  sweepPeriod : Nat := 10
  sweepPhase : Nat := 0
  portMask : BitVec 16 := 0
  ports : List PortPlan := []
  plantRule : Nat := 0
  minValid : Nat := 1
  staleSweeps : Nat := 1
  thermHigh : Bool := false
  ests : List EstPlan := []
  deriving DecidableEq, Repr, Inhabited

/-- A cell: filter state, last sample and capacity accumulator (Tables 9-4, 9-5, R332). -/
structure Cell where
  sample : Nat := 1
  path : Nat := 0
  init : Bool := false
  gated : Bool := false
  limit : Bool := false
  open_ : Bool := false
  band : Nat := 0
  nsCount : Nat := 0
  volt : BitVec 32 := 0
  temp : BitVec 32 := 0
  soc : BitVec 32 := 0
  vpol : BitVec 32 := 0
  res : BitVec 32 := 0
  cap : BitVec 32 := 0
  soh : BitVec 32 := 0
  cur : BitVec 32 := 0
  p00 : BitVec 32 := 0
  p01 : BitVec 32 := 0
  p02 : BitVec 32 := 0
  p11 : BitVec 32 := 0
  p12 : BitVec 32 := 0
  p22 : BitVec 32 := 0
  sAnchor : BitVec 32 := 0xBF800000
  qAcc : BitVec 64 := 0
  deriving DecidableEq, Repr, Inhabited

/-- A quantity block (Table 9-7). -/
structure Quant where
  min : BitVec 32 := 0
  max : BitVec 32 := 0
  mean : BitVec 32 := 0
  spread : BitVec 32 := 0
  minCell : BitVec 32 := 0xFFFFFFFF
  maxCell : BitVec 32 := 0xFFFFFFFF
  deriving DecidableEq, Repr, Inhabited

/-- An aggregate item (Table 9-6). `sop`: twelve words, 2, 10 and 60 s in turn. -/
structure Agg where
  flags : BitVec 8 := 0
  validStrings : Nat := 0
  sampled : Nat := 0
  notSampled : Nat := 0
  current : BitVec 32 := 0
  volt : Quant := {}
  temp : Quant := {}
  soc : Quant := {}
  res : Quant := {}
  soh : Quant := {}
  sop : List (BitVec 32) := List.replicate 12 0
  contactor : Nat := 0xFF
  sampleMt : Nat := 0
  seq : Nat := 0
  deriving DecidableEq, Repr, Inhabited

/-- String current of a port (R325): sum (binary64) and count on the 100 us grid since the last sample instant, whether
its source was lost there, the loss episode of R328, the sample instant of the last estimation (R329), and whether module time has
been stepped since (R521). -/
structure Cur where
  sum : BitVec 64 := 0
  cnt : Nat := 0
  lost : Bool := false
  episode : Bool := false
  lastEst : Option Nat := none
  stepped : Bool := false
  deriving DecidableEq, Repr, Inhabited

/-- A contactor plan entry (Table 9-12). -/
structure Contactor where
  port : Nat := 0
  preUsed : Bool := false
  negUsed : Bool := false
  preDo : Nat := 0xFF
  posDo : Nat := 0
  negDo : Nat := 0xFF
  fbDi : Nat := 0xFF
  req : BitVec 32 := 0
  busSrc : BitVec 32 := 0
  busScale : BitVec 32 := 0
  matchV : BitVec 32 := 0
  preTime : Nat := 10
  overlap : Nat := 10
  fbTime : Nat := 10
  iOpen : BitVec 32 := 0
  openWait : Nat := 0
  deriving DecidableEq, Repr, Inhabited

/-- An entry of the running contactor plan with its state (Table 9-13) and the instant of its entry. -/
structure ContactorRun where
  plan : Contactor := {}
  state : Nat := 0
  since : Nat := 0
  leaving : Bool := false
  deriving DecidableEq, Repr, Inhabited

/-- What the estimation of a sweep gave for a port, until its publication (R334). -/
structure EstDone where
  mt : Nat := 0
  seq : Nat := 0
  port : Nat := 0
  cells : Tab Cell := []
  item : Agg := {}
  deriving DecidableEq, Repr, Inhabited

/-- What a publication shows: cell records, items per port, the last good ones, and the plant's (R334). -/
structure PubSet where
  cells : Tab Cell := []
  agg : Tab Agg := []
  good : Tab Agg := []
  plant : Agg := {}
  plantGood : Option Agg := none
  deriving DecidableEq, Repr, Inhabited

/-- Cells: the plan and what estimation keeps; `fin`: estimations that are not published yet. `pubNow` is the instant of the last publication on the module's clock, and
`pubOld` what stood before it. -/
structure Cells where
  plan : Option CellPlan := none
  seqNext : Nat := 0
  seqMt : Option Nat := none
  chems : Tab Chem := []
  work : Tab Cell := []
  fin : List EstDone := []
  pub : Tab Cell := []
  mram : Tab Cell := []
  curs : Tab Cur := []
  aggPub : Tab Agg := []
  aggGood : Tab Agg := []
  plantPub : Agg := {}
  plantGood : Option Agg := none
  sopStr : Tab Bool := []
  sopPlant : Bool := false
  lastPub : Nat := 0
  pubNow : Nat := 0
  pubOld : PubSet := {}
  lastCommit : Nat := 0
  conts : List ContactorRun := []
  contWait : List (Nat × Nat × BitVec 32 × List Contactor) := []
  contCrc : BitVec 32 := 0
  deriving DecidableEq, Repr, Inhabited

/-- What the last sweep gave for a satellite (Table 8-7), by satellite index. -/
structure SatSample where
  state : Nat := 1
  path : Nat := 0
  band : Nat := 0
  status : BitVec 16 := 0
  cells : List (BitVec 32) := []
  temp0 : BitVec 16 := 0
  temp1 : BitVec 16 := 0
  probe : List (BitVec 32) := []
  deriving DecidableEq, Repr, Inhabited

/-- A balancing plan (R288). -/
structure BalPlan where
  rid : Nat := 0
  acc : Nat := 0
  endMt : Nat := 0
  masks : Tab (BitVec 16) := []
  deriving DecidableEq, Repr, Inhabited

/-- A command frame of a chain that waits for its reply (R277). -/
structure ChainWait where
  f : ChainSend := .balStop
  endB : Bool := false
  sentAt : Nat := 0
  again : Bool := false
  deriving DecidableEq, Repr, Inhabited

/-- A command frame that the far end has not seen yet: when it is overdue there, its command and payload (R270, R302). -/
structure FarFrame where
  due : Nat := 0
  cmd : Nat := 0
  payload : List Byte := []
  deriving DecidableEq, Repr, Inhabited

/-- A READ under way: the end it left, when, its first position, and how many satellites it reads (R276). -/
structure ReadRun where
  endB : Bool := false
  sentAt : Nat := 0
  first : Nat := 0
  count : Nat := 0
  deriving DecidableEq, Repr, Inhabited

/-- One sweep of a port: its count, sample instant, command end, probe group, READs, blocks, and the string current that
belongs to it (R271, R283, R294, R325). A dead sweep is one of a port that does not sweep (R280). -/
structure Sweep where
  seq : Nat := 0
  mt : Nat := 0
  cmdB : Bool := false
  both : Bool := false
  probe : Option Nat := none
  skip : Bool := false
  dead : Bool := false
  readSent : Bool := false
  reads : List ReadRun := []
  got : Tab SatSample := []
  closed : Bool := false
  estimated : Bool := false
  ia : BitVec 32 := 0
  im : BitVec 32 := 0
  im4 : BitVec 32 := 0
  noPrev : Bool := false
  lost : Bool := false
  trip : Bool := false
  deriving DecidableEq, Repr, Inhabited

/-- A string port (Tables 8-18 to 8-20) with its sweeps (newest first), enumeration, balancing and trip source. `stopEnds`:
ends from which the broadcast that stops balancing is still to leave (R290); `toneWhole`: both ends have been HEALTHY since
the last break, `alarmed`: that break has its event (R305); `suspect`: an end has left HEALTHY (R302); `lastGot`: the satellites that the last sweep reached (R376); `lineUntil`,
`lastCast`: when the line falls idle, and when the last broadcast frame left, on the module's clock (Table 8-1, R292). -/
structure Port where
  found : Nat := 0
  tripSrc : Nat := 0
  chain : Nat := 0
  toneA : Tone := .none
  toneB : Tone := .none
  toneFarAt : Nat := 0
  reachA : Option Nat := none
  reachB : Option Nat := none
  seq : Nat := 0
  sweepMt : Nat := 0
  infoPath : Nat := 0
  infoNot : Nat := 0
  hbPeriod : Nat := 0x32
  crcErr : Nat := 0
  timeouts : Nat := 0
  satResets : Nat := 0
  breaks : Nat := 0
  sweeps : List Sweep := []
  balOn : Tab (BitVec 16) := []
  balPhased : List Nat := []
  balPlan : Option BalPlan := none
  balActive : Bool := false
  balWait : List BalPlan := []
  balTodo : List Nat := []
  stopEnds : List Bool := []
  probing : Bool := false
  probeGroup : Nat := 0
  probeSent : Nat := 0
  probeRid : Option Nat := none
  probeT0 : Nat := 0
  delays : Tab (Option Nat × Option Nat) := []
  delaysB : Tab Nat := []
  rbal : Tab Nat := []
  uids : List (BitVec 64) := []
  enumRid : Option Nat := none
  enumerating : Bool := false
  enumA : Nat := 0
  enumB : Nat := 0
  enumDoneA : Bool := false
  enumDoneB : Bool := false
  ready : Bool := false
  cfgTodo : List Nat := []
  remeasure : List Nat := []
  resetSeen : List Nat := []
  timeoutSeen : List Nat := []
  broken : Bool := false
  wholeRun : Nat := 0
  gapSince : Option Nat := none
  toneWhole : Bool := false
  alarmed : Bool := false
  suspect : Bool := false
  lastGot : List Nat := []
  farDue : List FarFrame := []
  lineUntil : Nat := 0
  lastCast : Nat := 0
  awaiting : Option ChainWait := none
  hbNextA : Nat := 0
  hbNextB : Nat := 0
  hbSeqA : Option Nat := none
  hbSeqB : Option Nat := none
  deriving DecidableEq, Repr, Inhabited

/-- The state image that a lead sends to a joining module; the last of its delta carries the join instant (R385, R386). -/
structure StateImage where
  prog : Prog := {}
  loops : Loops := {}
  cells : Cells := {}
  ports : Tab Port := []
  slots : Tab KeySlot := []
  verifier : Option Verifier := none
  holder : Holder := .host
  helmCause : Nat := 0
  startRun : Bool := false
  startWarm : Bool := true
  dormantCtrl : Nat := 0
  drillMinutes : Nat := 0x5A0
  joinAt : Option Nat := none
  deriving DecidableEq, Repr, Inhabited

end Sys2Proof.Machine
end

