-- ==== Sys2Proof/Syntax.lean ====
section
/-! DEFINITION. Syntax.lean: the commands of the block, one constructor per row of spec/opcode_table.json, and the
operand types they carry. An event row carries the instant `at`, in ns of the model's clock, and what its environment
supplies; a request row carries the number of the request it carries out; a cycle-core row carries the task and the
fields of its format. -/

namespace Sys2Proof

/-- Format A fields of a cycle-core instruction, MAJOR and FUNC apart (Table 6-1). -/
structure FmtA where
  pred : BitVec 4
  rd : BitVec 5
  rs1 : BitVec 5
  rs2 : BitVec 5
  deriving DecidableEq, Repr

/-- Format I fields, MAJOR and SUB apart (Table 6-1). -/
structure FmtI where
  pred : BitVec 4
  rd : BitVec 5
  imm : BitVec 16
  deriving DecidableEq, Repr

/-- Format B fields, MAJOR and OP apart (Table 6-1). -/
structure FmtB where
  pred : BitVec 4
  off : BitVec 20
  deriving DecidableEq, Repr

/-- Format T fields, MAJOR and KIND apart (Table 6-1). -/
structure FmtT where
  pred : BitVec 4
  dst : BitVec 5
  ps : BitVec 4
  ibase : BitVec 3
  index : BitVec 10
  deriving DecidableEq, Repr

/-- Format M fields, MAJOR apart (Table 6-1). -/
structure FmtM where
  pred : BitVec 4
  rd : BitVec 5
  w : BitVec 2
  base : BitVec 3
  space : BitVec 3
  off : BitVec 12
  deriving DecidableEq, Repr

/-- A submission descriptor as fetched from host memory (Table 2-8). -/
structure Desc where
  opcode : BitVec 16 := 0
  flags : BitVec 16 := 0
  tag : BitVec 32 := 0
  target : BitVec 64 := 0
  bufAddr : BitVec 64 := 0
  bufLen : BitVec 32 := 0
  aux : BitVec 32 := 0
  counter : BitVec 64 := 0
  keySlot : Byte := 0
  resv : BitVec 56 := 0
  cmac : BitVec 128 := 0
  deriving DecidableEq, Repr, Inhabited

/-- The address a side-band request comes from and its response goes to (R83). -/
structure Peer where
  addr : BitVec 128 := 0
  port : BitVec 16 := 0
  deriving DecidableEq, Repr, Inhabited

/-- The carrier identity EEPROM as the sentry core found it (Table 17-4, R566, R567). -/
structure Eeprom where
  valid : Bool := true
  slots : Nat := 2
  refPresent : Bool := false
  refFreq : Bool := false
  refDelay : Nat := 0
  powerW : Nat := 110
  deriving DecidableEq, Repr, Inhabited

/-- What the sentry core finds in its stores at power-up (R127 steps 1 to 4, R544). -/
structure BootCheck where
  ee : Eeprom := { refDelay := 1 }
  tripOk : Bool := true
  safetyOk : Bool := true
  slotAOk : Bool := true
  slotBOk : Bool := true
  unfinished : Nat := 0
  deriving DecidableEq, Repr, Inhabited

/-- What an IPv6 packet carries to the side-band port: a UDP datagram, an ICMPv6 echo request, or a neighbour solicitation
(R82, R83). -/
inductive SbContent where
  | udp (port : BitVec 16) (bytes : List Byte)
  | echo (data : List Byte)
  | solicit (target : BitVec 128)
  deriving DecidableEq, Repr, Inhabited

/-- An IPv6 packet that reaches the side-band port: its destination, whether it is a fragment, and its content (R82). -/
structure SbPacket where
  dst : BitVec 128 := 0
  fragment : Bool := false
  content : SbContent
  deriving DecidableEq, Repr, Inhabited

/-- A ring port that reports a loss: the port, and whether its PHY still reports link up (R427, R430). -/
structure PortLoss where
  east : Bool := false
  phyUp : Bool := false
  deriving DecidableEq, Repr, Inhabited

/-- What the partner reports over the twin link (R384, R564, R355). -/
structure Partner where
  serial : BitVec 64 := 0
  variant : Variant := .xkp08
  step : Nat := 2
  proto : Nat := 1
  slotId : BitVec 6 := 0
  role : Nat := 0xF
  tripCrc : BitVec 32 := 0
  safetyCrc : BitVec 32 := 0
  keysEmpty : Bool := true
  keysEqual : Bool := true
  mode : Nat := 4
  marksUs : Nat := 0
  hostLink : Bool := false
  deriving DecidableEq, Repr, Inhabited

/-- A frame received at a ring port (Table 12-1): header fields, payload, and whether its FCS and CRC are good. -/
structure RingFrame where
  version : Nat := 1
  kind : Nat := 1
  cls : Nat := 1
  src : Nat := 0
  station : Nat := 0
  hold : Bool := false
  wrapped : Bool := false
  hops : Nat := 127
  seq : BitVec 32 := 0
  cycle : BitVec 32 := 0
  stamp : BitVec 64 := 0
  payload : List Byte := []
  fcsOk : Bool := true
  crcOk : Bool := true
  deriving DecidableEq, Repr, Inhabited

/-- A CAN frame (Tables 13-2, 13-6). -/
structure CanFrame where
  id : BitVec 32 := 0
  dlc : Nat := 0
  esi : Bool := false
  rtr : Bool := false
  data : List Byte := []
  deriving DecidableEq, Repr, Inhabited

/-- How a frame that a channel sent ended on the bus (R459, R460, ISO 11898-1). -/
inductive CanEnd where
  | acked | noAck | lostArb | error (code : Nat)
  deriving DecidableEq, Repr, Inhabited

/-- A counted edge of a pulse input (R489, R491). -/
inductive PulseEdge where
  | up | down | z | both | overRate
  deriving DecidableEq, Repr, Inhabited

/-- Front panel keys (Table 16-6). -/
inductive Key where
  | mode | select | up | down
  deriving DecidableEq, Repr, Inhabited

/-- An item that the lead mirrors to its follower (R356, R359, R385); `selfTest` tells the lead of a mismatch (R363). `request` is a station-scoped opcode that the lead
accepted at module time mt, with its operands; `instant` the module time that the lead chose for the transition of such an opcode (R120). -/
inductive Mirror where
  | taskImage (task n : Nat) (mt : Nat) (bytes : List Byte)
  | loopSample (handle mt : Nat) (y s2 sp : BitVec 32) (lost spLost destSat : Bool)
  | counter (slot : Nat) (value : BitVec 64) (side : Bool)
  | helm (holder cause : Nat)
  | modeChange (mode cause task : Nat)
  | regWrite (off : Nat) (value : BitVec 32)
  | request (op mt : Nat) (target : BitVec 64) (aux : BitVec 32) (buf : List Byte)
  | block (port : Nat) (endB : Bool) (bytes : List Byte)
  | current (port mt : Nat) (amps : BitVec 32) (lost : Bool)
  | canFrame (ch : Nat) (mt : Nat) (f : CanFrame) (own : Bool)
  | ringFrame (f : RingFrame)
  | canSent (ch : Nat)
  | state (x : Machine.StateImage)
  | time (mt : Nat)
  | selfTest
  | instant (op mt : Nat)
  | chainSend (port : Nat) (endB : Bool) (bytes : List Byte)
  | chainIn (port : Nat) (endB : Bool) (rtt : Nat) (bytes : List Byte)
  | port (n : Nat) (p : Machine.Port)
  | contTick (mt : Nat) (ins : List (BitVec 32 × Option Bool))
  | contStates (states : List Nat)
  deriving DecidableEq, Repr, Inhabited

/-- Digest kinds (Table 10-2). -/
inductive DigestKind where
  | harvest | loop | sweep
  deriving DecidableEq, Repr, Inhabited

/-- Self-diagnosis checks (Table 10-4), coded in this order for event data. -/
inductive Check where
  | ecc | lockstep | clock | supply | dieLink | selfTest | aliveWatchdog | prsnt
  deriving DecidableEq, Repr, Inhabited

/-- The commands of the block, in the order of spec/opcode_table.json. -/
inductive Instr where
  | ctxEnable (t : Nat) (n : Fin 256) (w : BitVec 32) (memFailAt : Option Nat)
  | ctxDisable (t : Nat) (n : Fin 256) (w : BitVec 32)
  | submissionDoorbell (t : Nat) (off size : Nat) (v : BitVec 32)
  | completionDoorbell (t : Nat) (off size : Nat) (v : BitVec 32)
  | descriptorFetch (t : Nat) (n : Fin 256) (desc : Option Desc) (buf : Option (List Byte)) (bufWriteOk : Bool)
  | descriptorRelease (t : Nat) (rid : Nat)
  | irqHoldoffExpiry (t : Nat) (vec : Fin 64)
  | pcieLinkDown (t : Nat)
  | pcieLinkUp (t : Nat) (gen width : Nat)
  | modeStatus (rid : Nat)
  | modeSet (rid : Nat)
  | restart (rid : Nat)
  | equinox (rid : Nat)
  | drillNow (rid : Nat)
  | detach (rid : Nat)
  | rejoin (rid : Nat)
  | tilePower (rid : Nat)
  | tileReset (rid : Nat)
  | drainEnd (t : Nat) (die : Fin 8) (outstanding : Nat)
  | staleReply (t : Nat) (die : Fin 8) (epoch : Byte)
  | progInfo (rid : Nat)
  | progLoad (rid : Nat)
  | progExchange (rid : Nat)
  | onlineChange (rid : Nat)
  | forceSet (rid : Nat)
  | forceRelease (rid : Nat)
  | forceList (rid : Nat)
  | varRead (rid : Nat)
  | varSubscribe (rid : Nat) (handle : BitVec 32)
  | subCancel (rid : Nat)
  | taskStatus (rid : Nat)
  | loopAdmit (rid : Nat)
  | loopParam (rid : Nat)
  | loopMode (rid : Nat)
  | loopRead (rid : Nat)
  | loopSubscribe (rid : Nat) (handle : BitVec 32)
  | cellPlan (rid : Nat)
  | chemLoad (rid : Nat)
  | strEnum (rid : Nat)
  | balPlan (rid : Nat)
  | contactorPlan (rid : Nat)
  | probeSweep (rid : Nat)
  | cellSubscribe (rid : Nat) (handle : BitVec 32)
  | cellRead (rid : Nat)
  | ringStatus (rid : Nat)
  | bypassForce (rid : Nat)
  | dropSubscribe (rid : Nat) (handle : BitVec 32)
  | canSchedule (rid : Nat)
  | canSend (rid : Nat)
  | canSubscribe (rid : Nat) (handle : BitVec 32)
  | recRead (rid : Nat)
  | recSubscribe (rid : Nat) (handle : BitVec 32)
  | recConfig (rid : Nat)
  | timeRead (rid : Nat)
  | timeSet (rid : Nat)
  | rtcAlarm (rid : Nat)
  | helmStatus (rid : Nat)
  | helmRelease (rid : Nat)
  | helmTake (rid : Nat)
  | helmSeize (rid : Nat)
  | keyLoad (rid : Nat)
  | keyErase (rid : Nat)
  | counterRead (rid : Nat)
  | pwdLogin (rid : Nat)
  | pwdLogout (rid : Nat)
  | pwdSet (rid : Nat)
  | tripConfig (rid : Nat)
  | safetyConfig (rid : Nat)
  | tripReset (rid : Nat) (high low : Bool)
  | tripStatus (rid : Nat)
  | safetyStatus (rid : Nat)
  | fwInfo (rid : Nat)
  | fwWrite (rid : Nat)
  | fwActivate (rid : Nat)
  | dspWrite (rid : Nat)
  | dspStatus (rid : Nat)
  | fioRead (rid : Nat)
  | fioSubscribe (rid : Nat) (handle : BitVec 32)
  | fioTest (rid : Nat)
  | fioTrim (rid : Nat)
  | sidebandDatagram (t : Nat) (peer : Peer) (packet : SbPacket)
  | sidebandDequeue (t : Nat)
  | sbLinkChange (t : Nat) (ok lowAmpl : Bool)
  | sbConfigWrite (t : Nat) (w : BitVec 32)
  | helmTimeout (t : Nat)
  | sbIdle (t : Nat)
  | mirrorTimeout (t : Nat)
  | presenceWindow (t : Nat)
  | presenceWindowEnd (t : Nat)
  | sessionTimeout (t : Nat)
  | lockoutEnd (t : Nat)
  | supplyGood (t : Nat) (b : BootCheck)
  | recoveryKeySequence (t : Nat)
  | roleWaitEnd (t : Nat)
  | claimDrive (t : Nat)
  | claimSeen (t : Nat)
  | claimRelease (t : Nat)
  | restartInstant (t : Nat)
  | holdInstant (t : Nat)
  | recoveryReset (t : Nat)
  | activateReset (t : Nat)
  | leaveRecovery (t : Nat)
  | moduleReset (t : Nat)
  | cycleStart (t : Nat) (task : Fin 64)
  | harvestPoint (t : Nat) (task : Fin 64)
  | speculationStart (t : Nat) (task : Fin 64)
  | budgetWarning (t : Nat) (task : Fin 64) (charged : Nat)
  | watchdogTrip (t : Nat) (task : Fin 64) (charged : Nat)
  | add (task : Fin 64) (f : FmtA)
  | sub (task : Fin 64) (f : FmtA)
  | mul (task : Fin 64) (f : FmtA)
  | mulh (task : Fin 64) (f : FmtA)
  | mulhu (task : Fin 64) (f : FmtA)
  | div (task : Fin 64) (f : FmtA)
  | divu (task : Fin 64) (f : FmtA)
  | rem (task : Fin 64) (f : FmtA)
  | remu (task : Fin 64) (f : FmtA)
  | min (task : Fin 64) (f : FmtA)
  | max (task : Fin 64) (f : FmtA)
  | and (task : Fin 64) (f : FmtA)
  | or (task : Fin 64) (f : FmtA)
  | xor (task : Fin 64) (f : FmtA)
  | andn (task : Fin 64) (f : FmtA)
  | shl (task : Fin 64) (f : FmtA)
  | shr (task : Fin 64) (f : FmtA)
  | sar (task : Fin 64) (f : FmtA)
  | bfx (task : Fin 64) (f : FmtA)
  | bfxs (task : Fin 64) (f : FmtA)
  | bfi (task : Fin 64) (f : FmtA)
  | ceq (task : Fin 64) (f : FmtA)
  | cne (task : Fin 64) (f : FmtA)
  | clt (task : Fin 64) (f : FmtA)
  | cle (task : Fin 64) (f : FmtA)
  | cltu (task : Fin 64) (f : FmtA)
  | cleu (task : Fin 64) (f : FmtA)
  | btst (task : Fin 64) (f : FmtA)
  | pand (task : Fin 64) (f : FmtA)
  | por (task : Fin 64) (f : FmtA)
  | pxor (task : Fin 64) (f : FmtA)
  | pandn (task : Fin 64) (f : FmtA)
  | pget (task : Fin 64) (f : FmtA)
  | pset (task : Fin 64) (f : FmtA)
  | fadd (task : Fin 64) (d : Bool) (f : FmtA)
  | fsub (task : Fin 64) (d : Bool) (f : FmtA)
  | fmul (task : Fin 64) (d : Bool) (f : FmtA)
  | fdiv (task : Fin 64) (d : Bool) (f : FmtA)
  | fsqrt (task : Fin 64) (d : Bool) (f : FmtA)
  | fma (task : Fin 64) (d : Bool) (f : FmtA)
  | fmin (task : Fin 64) (d : Bool) (f : FmtA)
  | fmax (task : Fin 64) (d : Bool) (f : FmtA)
  | fneg (task : Fin 64) (d : Bool) (f : FmtA)
  | fabs (task : Fin 64) (d : Bool) (f : FmtA)
  | fceq (task : Fin 64) (d : Bool) (f : FmtA)
  | fclt (task : Fin 64) (d : Bool) (f : FmtA)
  | fcle (task : Fin 64) (d : Bool) (f : FmtA)
  | fcun (task : Fin 64) (d : Bool) (f : FmtA)
  | ftoi (task : Fin 64) (d : Bool) (f : FmtA)
  | ftrunc (task : Fin 64) (d : Bool) (f : FmtA)
  | itof (task : Fin 64) (d : Bool) (f : FmtA)
  | fcvt (task : Fin 64) (d : Bool) (f : FmtA)
  | li (task : Fin 64) (f : FmtI)
  | lih1 (task : Fin 64) (f : FmtI)
  | lih2 (task : Fin 64) (f : FmtI)
  | lih3 (task : Fin 64) (f : FmtI)
  | addi (task : Fin 64) (f : FmtI)
  | andi (task : Fin 64) (f : FmtI)
  | ori (task : Fin 64) (f : FmtI)
  | xori (task : Fin 64) (f : FmtI)
  | shli (task : Fin 64) (f : FmtI)
  | shri (task : Fin 64) (f : FmtI)
  | sari (task : Fin 64) (f : FmtI)
  | br (task : Fin 64) (f : FmtB)
  | call (task : Fin 64) (f : FmtB)
  | ret (task : Fin 64) (f : FmtA)
  | endCycle (task : Fin 64) (f : FmtA)
  | fence (task : Fin 64) (f : FmtA)
  | tsr (task : Fin 64) (f : FmtA)
  | ton (task : Fin 64) (f : FmtT)
  | tof (task : Fin 64) (f : FmtT)
  | tp (task : Fin 64) (f : FmtT)
  | rtrig (task : Fin 64) (f : FmtT)
  | ftrig (task : Fin 64) (f : FmtT)
  | tet (task : Fin 64) (f : FmtT)
  | ldu (task : Fin 64) (f : FmtM)
  | lds (task : Fin 64) (f : FmtM)
  | st (task : Fin 64) (f : FmtM)
  | loopSample (t : Nat) (handle : BitVec 16)
  | loopCommit (t : Nat) (handle : BitVec 16)
  | loopOutput (t : Nat) (handle : BitVec 16)
  | sampleSend (t : Nat) (port : Fin 16)
  | readSend (t : Nat) (port : Fin 16)
  | blockReceive (t : Nat) (port : Fin 16) (endB : Bool) (bytes : List Byte)
  | blockMissing (t : Nat) (port : Fin 16) (lastA firstB : Option Nat)
  | chainFrameSend (t : Nat) (port : Fin 16) (endB : Bool) (f : ChainSend)
  | chainReply (t : Nat) (port : Fin 16) (endB : Bool) (rtt : Nat) (bytes : List Byte)
  | replyTimeout (t : Nat) (port : Fin 16)
  | enumTimeout (t : Nat) (port : Fin 16) (endB : Bool)
  | balEnd (t : Nat) (port : Fin 16)
  | toneStateChange (t : Nat) (port : Fin 16) (endB : Bool) (tone : Tone)
  | toneReport (t : Nat) (port : Fin 16) (endB : Bool) (tone : Tone)
  | toneReportStale (t : Nat) (port : Fin 16)
  | loopOpen (t : Nat) (port : Fin 16)
  | currentLatch (t : Nat) (port : Fin 16)
  | estimation (t : Nat) (port : Fin 16)
  | publication (t : Nat)
  | cellCommit (t : Nat)
  | contactorTick (t : Nat)
  | tripInputEdge (t : Nat) (n : Fin 8) (level : Bool) (stableNs : Nat)
  | dieTemperature (t : Nat) (die : Fin 8) (deg : BitVec 16)
  | pulseTest (t : Nat) (n : Fin 8) (opened closed : Bool)
  | switchFault (t : Nat) (n : Fin 8) (high : Bool) (durNs : Nat)
  | safetyPeriod (t : Nat)
  | lockstepMismatch (t : Nat)
  | proofDue (t : Nat) (src : Fin 32)
  | ringCycleOpen (t : Nat)
  | c1Slot (t : Nat) (slot : Fin 64) (leftAt : Nat)
  | linkFrameSend (t : Nat)
  | dataFrameReceive (t : Nat) (east : Bool) (f : RingFrame)
  | blockFrameReceive (t : Nat) (east : Bool) (f : RingFrame)
  | dropImageReceive (t : Nat) (east : Bool) (f : RingFrame)
  | tripFrameReceive (t : Nat) (east : Bool) (f : RingFrame)
  | syncReceive (t : Nat) (east : Bool) (f : RingFrame)
  | linkFrameReceive (t : Nat) (east : Bool) (f : RingFrame)
  | serviceFrameReceive (t : Nat) (east : Bool) (f : RingFrame)
  | tripFrameSend (t : Nat)
  | syncTimeout (t : Nat)
  | linkLost (t : Nat) (port : PortLoss)
  | unwrap (t : Nat)
  | valueLost (t : Nat) (id : BitVec 16)
  | dropLost (t : Nat) (node : Fin 64)
  | apply (t : Nat) (w : BitVec 32)
  | relaySense (t : Nat) (eastClosed westClosed : Bool)
  | canEnable (t : Nat) (ch : Fin 8) (w : BitVec 32)
  | canDisable (t : Nat) (ch : Fin 8) (w : BitVec 32)
  | canIntegrated (t : Nat) (ch : Fin 8)
  | recover (t : Nat) (ch : Fin 8)
  | canSlotOpen (t : Nat) (ch : Fin 8) (slot : Fin 32) (busIdle : Bool)
  | canSlotClose (t : Nat) (ch : Fin 8)
  | canFrameSent (t : Nat) (ch : Fin 8) (stamp : Nat) (res : CanEnd) (tec : Nat) (tdcv : Option (BitVec 7))
  | canFrameReceive (t : Nat) (ch : Fin 8) (stamp : Nat) (f : CanFrame) (err : Nat) (rec : Nat)
  | canSendExpiry (t : Nat) (ch : Fin 8)
  | canRxTimeout (t : Nat) (ch : Fin 8) (filter : Nat)
  | streamRecordTimeout (t : Nat) (sub : BitVec 32)
  | diDebounce (t : Nat) (n : Fin 32) (level : Bool) (stableNs : Nat)
  | wireBreak (t : Nat) (n : Fin 32) (current : BitVec 32) (durNs : Nat)
  | doShort (t : Nat) (n : Fin 16) (milliamp durNs : Nat)
  | doRetry (t : Nat) (n : Fin 16) (holds : Bool)
  | mismatch (t : Nat) (n : Fin 16) (readback : Bool) (durNs : Nat)
  | clConversion (t : Nat) (n : Fin 8) (raw : BitVec 32)
  | miswire (t : Nat) (n : Fin 8) (milliamp : Nat) (reverse : Bool) (durNs : Nat)
  | miswireRetry (t : Nat) (n : Fin 8) (holds : Bool)
  | faiAperture (t : Nat) (volts : List (BitVec 32))
  | pulseEdge (t : Nat) (n : Fin 4) (e : PulseEdge)
  | lineFault (t : Nat) (n : Fin 4) (line : Fin 3) (low : Bool) (durNs : Nat)
  | stalled (t : Nat) (n : Fin 4)
  | wdExpired (t : Nat) (group : Nat) (ch : Fin 16)
  | wdRefresh (t : Nat) (group : Nat) (ch : Fin 16)
  | fioSubscribeSample (t : Nat) (sub : BitVec 32)
  | springRamp (t : Nat) (die : Fin 8) (due : Option Nat)
  | autumnRamp (t : Nat) (die : Fin 8) (due : Option Nat)
  | rampStep (t : Nat) (die : Fin 8) (busy : Bool)
  | asyncWake (t : Nat) (die : Fin 8)
  | winterLoss (t : Nat) (gapNs : Nat)
  | clockMonitorWindow (t : Nat) (int25 refclk internal : Nat)
  | stoppedClock (t : Nat) (die : Fin 8)
  | refclkDelayExpiry (t : Nat)
  | feedGood (t : Nat) (b : Bool) (millivolt durNs : Nat) (tenMilliamp : Nat)
  | feedLost (t : Nat) (b : Bool) (millivolt durNs : Nat)
  | railFault (t : Nat) (rail : Nat) (durNs : Nat)
  | prsntNDeassert (t : Nat)
  | powerDownReset (t : Nat)
  | backupLost (t : Nat) (millivolt durNs : Nat)
  | osf (t : Nat) (gapNs : Nat)
  | rtcCheck (t : Nat) (drift : Int)
  | rtcCommit (t : Nat)
  | alarmFire (t : Nat)
  | wakeTimeout (t : Nat)
  | slewEnd (t : Nat)
  | heartbeatSend (t : Nat)
  | heartbeatMissed (t : Nat)
  | heartbeatConfirm (t : Nat) (alive : Bool)
  | twinLinkUp (t : Nat) (lanes : BitVec 4) (p : Partner)
  | laneDown (t : Nat) (lane : Fin 4)
  | mirrorReceive (t : Nat) (m : Mirror) (latency : Nat)
  | readbackDiff (t : Nat) (group : Nat) (ch : Fin 16) (durNs : Nat)
  | digestCompare (t : Nat) (kind : DigestKind) (id : Nat) (lead : BitVec 64)
  | selfTestDone (t : Nat) (own partner : Bool)
  | eccError (t : Nat) (die : Fin 8) (link : Bool)
  | leadAliveWatchdog (t : Nat)
  | yieldSafeTimeout (t : Nat)
  | yieldNAssert (t : Nat) (check : Nat)
  | leadAliveDeassert (t : Nat)
  | thaw (t : Nat)
  | equinoxInstant (t : Nat)
  | equinoxClaim (t : Nat)
  | equinoxWindowEnd (t : Nat)
  | drillDue (t : Nat)
  | drillPostponed (t : Nat)
  | drillCheck (t : Nat) (terminal : Bool)
  | exchangeImageStored (t : Nat) (x : Nat)
  | mappingInstant (t : Nat)
  | syncTransferDone (t : Nat) (ok : Bool) (j : Nat)
  | joinInstant (t : Nat)
  | recordWrite (t : Nat) (verified : Bool)
  | summaryRecord (t : Nat) (code : BitVec 12)
  | frameStart (t : Nat) (temp : BitVec 16)
  | frameCheck (t : Nat) (scan : BitVec 32)
  | keyPress (t : Nat) (key : Key) (pressed : Bool)
  | tripPageReset (t : Nat) (high low : Bool)
  | ejectHold (t : Nat)
  | menuTimeout (t : Nat)
  | ejectLeverPulled (t : Nat)
  | ejectRetry (t : Nat)
  | ejectCancel (t : Nat)
  | counterClear (t : Nat) (off : Nat) (v : BitVec 32)
  | rtcSecRead (t : Nat)
  | clkMtRead (t : Nat)
  | piStatusRead (t : Nat) (n : Fin 4)
  | bkupWrite (t : Nat) (n : Fin 32) (v : BitVec 32)
  | regionWrite (t : Nat) (n : Fin 16) (v : BitVec 64)
  | registerWrite (t : Nat) (off size : Nat) (v : BitVec 64)
  | keelBroughtUp (t : Nat)
  | leadAliveReadEnd (t : Nat) (asserted : Bool)
  | startSequenceComplete (t : Nat) (imageOk : Bool) (restartAt : Nat)
  | flashStoreDone (t : Nat) (ok : Bool)
  | passwordCheckDone (t : Nat)
  | mirrorAck (t : Nat) (rid : Nat)
  | heartbeatReceive (t : Nat) (p : Partner)
  | winterRecovered (t : Nat) (goodCycles : Nat)
  | pllLocked (t : Nat) (die : Fin 8)
  | correctedLinkError (t : Nat) (die : Fin 8)
  | ringLinkUp (t : Nat) (east : Bool)
  | busOffRecovered (t : Nat) (ch : Fin 8)
  | basicCycleOpen (t : Nat) (ch : Fin 8)
  | fioTestSettled (t : Nat) (readback : BitVec 32)
  | clTrimHold (t : Nat) (n : Fin 8) (select up : Bool)
  | forceRefresh (t : Nat)
  deriving DecidableEq, Repr

end Sys2Proof
end

