-- ==== Sys2Proof/Machine/State.lean ====
section
/-! DEFINITION. Machine/State.lean: everything the spec gives the module, as plain data. A field's default value is
its value in State.reset: the spec's reset value, or, for a stored, factory or strap value, the one that the log names
(log 2, 4, 5). INVENTORY.md lists every field with its rule. -/

namespace Sys2Proof.Machine

/-- The block has no fault: a command that the module does not carry out completes with a status, is ignored and
counted, or has no effect (R67, R58, R84, R8), so no step faults and no constructor is needed. -/
inductive Fault where
  deriving DecidableEq, Repr

/-- Why a step has no meaning. Raised by a Dispatch arm only. -/
inductive Refusal where
  /-- a command that has no meaning yet; raised by its Dispatch arm; safe (the machine stops). -/
  | notModelled (mnemonic : String)
  deriving DecidableEq, Repr

/-! ### What leaves the module -/

/-- One thing that left the module: newest first in `State.out` (log 3). -/
inductive Output where
  | completion (ctx slot : Nat) (tag : BitVec 32) (status flags : Nat) (result : BitVec 64)
  | bufWrite (rid : Nat) (addr : BitVec 64) (bytes : List Byte)
  | record (ctx slot : Nat) (bytes : List Byte)
  | msix (vec : Nat)
  | sbResponse (peer : Peer) (bytes : List Byte)
  | readValue (off : Nat) (value : BitVec 64)
  | chain (port : Nat) (endB : Bool) (bytes : List Byte)
  | ring (east : Bool) (f : RingFrame)
  | can (ch : Nat) (f : CanFrame)
  | heartbeat (mt : Nat)
  | tones (port : Nat) (endB : Bool) (state : Tone)
  | toneDrive (port : Nat) (endB : Bool) (on : Bool)
  | mirror (m : Mirror)
  | ack
  | digest (kind : DigestKind) (id : Nat) (value : BitVec 64)
  | nonMaskable
  | echoReply (to_ from_ : BitVec 128) (data : List Byte)
  | neighbourAdvert (to_ target : BitVec 128) (mac : BitVec 48)
  deriving DecidableEq, Repr

/-! ### Factory, strap and carrier values -/

/-- Values fixed outside the module's run: variant, factory values (R580), SLOT_ID pins (Table 1-10), firmware
version of the twin protocol, ROM values. Reset values: log 4. -/
structure Cfg where
  variant : Variant := .xkp08
  serial : BitVec 64 := 1
  slotId : BitVec 6 := 0
  sbMac : BitVec 48 := 0x010000000000
  ringMac : BitVec 48 := 0x020000000000
  proto : BitVec 8 := 1
  faultCrc : BitVec 32 := 0
  fwKeyX : BitVec 256 := 0
  fwKeyY : BitVec 256 := 0
  ee : Eeprom := {}
  deriving DecidableEq, Repr, Inhabited

/-! ### Host interface (02_host_rings.md) -/

inductive CtxState where
  | disabled | active | stopped | error
  deriving DecidableEq, Repr, Inhabited

/-- A queue context entry (Tables 2-5 to 2-7). `memFailAt`: the instant from which host memory refuses the module's writes
to its rings, none while it accepts them. -/
structure Ctx where
  sqBase : BitVec 64 := 0
  cqBase : BitVec 64 := 0
  enable : Bool := false
  stream : Bool := false
  cls : Nat := 0
  depthLog : Nat := 0
  recLog : Nat := 0
  vector : Nat := 0
  epoch : Nat := 0
  reason : Nat := 0
  phase : Bool := false
  state : CtxState := .disabled
  sqHead : Nat := 0
  sqTail : Nat := 0
  cqTail : Nat := 0
  cqHead : Nat := 0
  inflight : Nat := 0
  drops : Nat := 0
  loss : Bool := false
  memFailAt : Option Nat := none
  deriving DecidableEq, Repr, Inhabited

/-- Where a request came from. -/
inductive Src where
  | host (ctx : Nat)
  | side (peer : Peer)
  deriving DecidableEq, Repr, Inhabited

/-- A request between its checks and its completion (R66): waiting for its target, ready for step 9, or running
(its effect has begun and its completion is still to come). -/
inductive ReqPhase where
  | waiting | ready | running
  deriving DecidableEq, Repr, Inhabited

/-- A fetched descriptor, or a side-band request in hand, past steps 1 to 8 of R67. `key` is the key that step 4 checked
its CMAC with (R85). -/
structure Req where
  rid : Nat := 0
  src : Src := .host 0
  opcode : Nat := 0
  flags : BitVec 16 := 0
  tag : BitVec 32 := 0
  target : BitVec 64 := 0
  bufAddr : BitVec 64 := 0
  aux : BitVec 32 := 0
  counter : BitVec 64 := 0
  keySlot : Nat := 0
  key : BitVec 128 := 0
  buf : List Byte := []
  raw : List Byte := []
  phase : ReqPhase := .waiting
  acc : Nat := 0
  bufOk : Bool := true
  needAck : Bool := false
  mirrorAt : Nat := 0
  mirrored : Bool := false
  held : Option (Nat × Nat × BitVec 64) := none
  deriving DecidableEq, Repr, Inhabited

/-- A CAN receive filter (Table 13-3). -/
structure CanFilter where
  id : BitVec 32 := 0
  mask : BitVec 32 := 0
  own : Bool := false
  fdOnly : Bool := false
  classicOnly : Bool := false
  timeoutMs : Nat := 0
  deriving DecidableEq, Repr, Inhabited

/-- A subscription (R72): its opcode, context, what it names, and its partly filled record (R465, R497). -/
structure Sub where
  handle : BitVec 32 := 0
  opcode : Nat := 0
  ctx : Nat := 0
  target : Nat := 0
  param : Nat := 0
  content : Nat := 0
  entries : List VarEntry := []
  filters : List CanFilter := []
  seq : Nat := 0
  count : Nat := 0
  items : List (List Byte) := []
  firstAt : Nat := 0
  firstMt : Nat := 0
  deriving DecidableEq, Repr, Inhabited

/-- One MSI-X vector: its entry in BAR4's table (message address and data, mask bit), its bit of the pending-bit array
(R49, R50), and its hold-off (R62). -/
structure Vec where
  addr : BitVec 64 := 0
  data : BitVec 32 := 0
  masked : Bool := false
  pending : Bool := false
  last : Option Nat := none
  deferred : Bool := false
  deriving DecidableEq, Repr, Inhabited

structure HostIf where
  link : Bool := false
  speed : Nat := 0
  width : Nat := 0
  engine : Bool := false
  linkEpoch : Nat := 0
  eventVector : Nat := 0
  eventCause : BitVec 6 := 0
  irqHoldoff : Nat := 0
  doorbellDrop : Nat := 0
  fetchAt : Option Nat := none
  ctxs : Tab Ctx := []
  reqs : List Req := []
  nextRid : Nat := 0
  vecs : Tab Vec := []
  subs : List Sub := []
  deriving DecidableEq, Repr, Inhabited

/-! ### Side-band, helm, security (03_sideband_and_authority.md) -/

structure Mgmt where
  holder : Holder := .host
  lastCause : Nat := 0
  helmTimeout : Nat := 0x14
  autoTake : Bool := true
  sbIdle : Nat := 0x3C
  hostDownAt : Option Nat := some 0
  partnerLink : Bool := false
  lastSbAuth : Nat := 0
  sbLink : Bool := false
  sbAmpl : Bool := false
  lowAmpl : Bool := false
  anOff : Bool := false
  sbDrops : Nat := 0
  sbAddr : BitVec 128 := 0
  sbPrefix : Nat := 0x40
  sbQueue : List (Peer × List Byte) := []
  sbInHand : Option Nat := none
  replay : List (Peer × List Byte × List Byte) := []
  presenceEnd : Option Nat := none
  granted : Option Nat := none
  seizeTick : Option Nat := none
  deriving DecidableEq, Repr, Inhabited

/-- A password session (R110). -/
structure Session where
  side : Bool := false
  slot : Nat := 0
  last : Nat := 0
  deriving DecidableEq, Repr, Inhabited

structure Sec where
  slots : Tab KeySlot := [(0, { present := true, mask := 0x40 })]
  authFails : Nat := 0
  stale : Nat := 0
  verifier : Option Verifier := none
  fails : Nat := 0
  lockEnd : Option Nat := none
  session : Option Session := none
  pwdCheck : Option Nat := none
  fwActiveB : Bool := false
  fwAValid : Bool := true
  fwBValid : Bool := false
  fwPending : Option Bool := none
  fwMinVersion : Nat := 0
  fwVersionA : Nat × BitVec 64 := (0, 0)
  fwVersionB : Nat × BitVec 64 := (0, 0)
  fwSigA : List Byte := []
  fwSigB : List Byte := []
  fwChunks : Option (List Byte) := none
  fwStore : Option (Nat × Bool × List Byte) := none
  activateAt : Option Nat := none
  deriving DecidableEq, Repr, Inhabited

/-! ### Modes and roles (04_modes_and_start.md) -/

inductive Mode where
  | dormant | startup | run | hold | maintenance | recovery
  deriving DecidableEq, Repr, Inhabited

inductive Role where
  | simplex | lead | follow | syncing | yielded
  deriving DecidableEq, Repr, Inhabited

/-- A mode transition under way (R124, R125): to HOLD from RUN, at the hold instant that a pair's lead chose (R120); a restart
(warm or cold); or to RECOVERY, once the records up to `seq` are written (R584). -/
inductive Trans where
  | toHold (cause : Nat) (task : Nat) (rid : Option Nat) (instant : Option Nat)
  | restart (warm : Bool) (rid : Option Nat) (cause : Nat)
  | toRecovery (at_ cause seq : Nat)
  deriving DecidableEq, Repr, Inhabited

/-- Steps of role settling (R355). -/
inductive Settle where
  | idle | readAlive (since : Nat) | waitLink (since : Nat) | claimDelay (since : Nat) | settled
  deriving DecidableEq, Repr, Inhabited

structure Modes where
  powered : Bool := true
  inReset : Bool := false
  prevMode : Nat := 0
  puStep : Nat := 1
  supplyAt : Nat := 0
  mode : Mode := .startup
  role : Role := .simplex
  cause : Nat := 0
  partner : Bool := false
  detached : Bool := false
  trans : Option Trans := none
  holdTask : Nat := 0
  holdCause : Nat := 0
  startRun : Bool := false
  startWarm : Bool := true
  rstCount : Nat := 0
  rstFallback : Bool := false
  rstKind : Nat := 3
  rstMt : Nat := 0
  rstNow : Nat := 0
  rstPlanned : Option Nat := none
  planWarm : Bool := false
  planFallback : Bool := false
  wakeOnTrip : Bool := false
  wakeToRun : Bool := false
  wakeOnAlarm : Bool := false
  drillMinutes : Nat := 0x5A0
  drillResult : Nat := 0
  settle : Settle := .idle
  faultTick : Option Nat := none
  leadRestart : Option Nat := none
  bootA : Bool := true
  bootB : Bool := true
  deriving DecidableEq, Repr, Inhabited

/-! ### Tiles (01, 15) -/

inductive TileState where
  | absent | gated | spring | on | autumn | fenced | reset | fault
  deriving DecidableEq, Repr, Inhabited

/-- A transaction on the die-to-die fabric: the request that it belongs to, its source die, target die and traffic class,
and the epoch of its target die when it was issued (R22, R23). -/
structure Xact where
  rid : Nat := 0
  src : Nat := 0
  die : Nat := 1
  cls : Nat := 3
  epoch : Nat := 0
  deriving DecidableEq, Repr, Inhabited

/-- A compute tile (Tables 1-11 to 1-14); `div` is the divider of its Summer domain, 0 while not clocked, `aborted` says
that its last gating was given up (R510), and `switching` that it changes its source after a clock failure, which last ended at `quietEnd` (R517). -/
structure Tile where
  state : TileState := .gated
  epoch : Nat := 0
  policy : Nat := 0
  retracted : Nat := 0
  stale : Nat := 0
  linkErr : Nat := 0
  div : Nat := 0
  pll : Bool := false
  stepAt : Nat := 0
  dwell : Nat := 4
  src : Nat := 0
  fencedAt : Option Nat := none
  switchTo : Option Nat := none
  aborted : Bool := false
  switching : Bool := false
  quietEnd : Nat := 0
  deriving DecidableEq, Repr, Inhabited

/-! ### Program image and tasks (05, 06) -/

/-! ### Loops (07) -/

/-! ### Cell plan, estimation, contactors (08, 09) -/

/-! ### The pair (10) -/

/-- An Equinox under way (R372, R373). -/
structure Equinox where
  e : Nat := 0
  cause : Nat := 4
  rid : Option Nat := none
  reverse : Bool := false
  windowOpen : Bool := false
  claimed : Bool := false
  deriving DecidableEq, Repr, Inhabited

/-- An exchange under way (R379). -/
structure Exchange where
  rid : Nat := 0
  image : Image := {}
  x : Nat := 0
  built : Tab Task := []
  forces : List Force := []
  deriving DecidableEq, Repr, Inhabited

/-- What the checks of a new lead after a swap go by (R376): the satellites that the last sweep of each port before E reached and
the first one after it, the channels that read ALONE at E, whether the first exclusive slot of a channel after E was acknowledged,
and the good frames that the neighbours had counted at E. -/
structure Drill where
  before : Tab (List Nat) := []
  after : Tab (List Nat) := []
  alone : List Nat := []
  excl : Tab Bool := []
  rxE : Nat := 0
  rxW : Nat := 0
  deriving DecidableEq, Repr, Inhabited

structure Twin where
  p : Partner := {}
  partnerRole : Nat := 0xF
  mark : Nat := 0
  marks : List (BitVec 64 × Nat) := []
  selfTest : Option Nat := none
  lost : Bool := false
  inStep : Bool := false
  lanes : BitVec 4 := 0
  everUp : Bool := false
  claimSeen : Option Nat := none
  claimDrive : Bool := false
  claimAt : Nat := 0
  aliveSeen : Bool := false
  aliveDrive : Bool := false
  aliveLatched : Bool := false
  yieldSeen : Bool := false
  yieldDrive : Bool := false
  partnerProto : Nat := 0
  hbMissed : Nat := 0
  hbRun : Nat := 0
  hbLastRx : Nat := 0
  hbLossAt : Option Nat := none
  mirrorMax : Nat := 0
  digestMismatch : Nat := 0
  takeovers : Nat := 0
  lastTakeover : Option Nat := none
  swapDur : Nat := 0
  swapCause : Nat := 0
  swapMt : Nat := 0
  partnerSerial : BitVec 64 := 0
  syncActive : Bool := false
  syncPhase : Nat := 0
  syncRefuse : Nat := 0
  syncPercent : Nat := 0
  joinAt : Option Nat := none
  exActive : Bool := false
  exPhase : Nat := 0
  exUnmatched : Nat := 0
  exchange : Option Exchange := none
  equinox : Option Equinox := none
  drilling : Bool := false
  checking : Bool := false
  drill : Drill := {}
  drillDue : Bool := false
  lastDrill : Nat := 0
  drillPostponed : Option Nat := none
  digests : List (DigestKind × Nat × BitVec 64) := []
  dead : Option (Nat × Nat) := none
  yieldedAt : Option Nat := none
  stagesReleased : Bool := false
  frost : Bool := false
  deriving DecidableEq, Repr, Inhabited

/-! ### Trip network and ward pair (11) -/

/-- A trip output: configuration (Table 11-2) and driver state (Table 11-8). -/
structure TripOut where
  orMask : BitVec 32 := 0
  andMask : BitVec 32 := 0
  ctrl : BitVec 16 := 0
  pulseUs : Nat := 0
  testInterval : Nat := 0
  term : Bool := false
  latched : Bool := false
  safeNow : Bool := false
  switchFault : Bool := false
  testAt : Nat := 0
  testHigh : Bool := true
  lastSafe : Nat := 0
  deriving DecidableEq, Repr, Inhabited

/-- An input of a safety function (Table 11-4). -/
structure SafeIn where
  kind : Nat := 0
  ch : Nat := 0
  cond : Nat := 0
  thr : BitVec 32 := 0
  hyst : BitVec 32 := 0
  deriving DecidableEq, Repr, Inhabited

/-- A safety function (Table 11-4) with its state (R405, R407, R410). -/
structure SafeFn where
  func : Nat := 0
  vote : Nat := 1
  isDo : Bool := false
  idx : Nat := 0
  pst : Nat := 0
  manual : Bool := false
  rstIn : Nat := 0xFF
  demandTest : BitVec 8 := 0
  outExtra : Nat := 0
  ins : List SafeIn := []
  raw : List Byte := []
  reaction : Nat := 0
  demand : Bool := true
  inDem : List Bool := []
  seenDem : List Bool := []
  tested : List Bool := []
  rstLast : Bool := true
  deriving DecidableEq, Repr, Inhabited

structure Trip where
  invert : BitVec 8 := 0
  proofDays : Nat := 0
  outs : Tab TripOut := []
  proofDue : Bool := false
  lockstep : Bool := false
  safetyRun : Bool := false
  safetyBad : Bool := false
  cfgBad : Bool := false
  loaded : Bool := false
  cfgCrc : BitVec 32 := 0
  safetyCrc : BitVec 32 := 0
  levels : BitVec 8 := 0
  src : BitVec 32 := 0
  srcSeen : BitVec 32 := 0
  ward : BitVec 4 := 0xF
  wardPeriodDone : Bool := false
  overTemp : Bool := false
  watchdog : Bool := false
  clockFail : Bool := false
  switchFaults : Nat := 0
  lastAssert : Tab Nat := []
  namedAt : Tab Nat := []
  proofAt : Tab Nat := []
  period : Nat := 0
  periodAt : Nat := 0
  fns : List SafeFn := []
  newFns : Option (Nat × List SafeFn) := none
  strs : Tab (Nat × Nat) := []
  deriving DecidableEq, Repr, Inhabited

/-! ### Ring (12) -/

/-- A C1 slot of the ring configuration (Table 12-10). -/
structure RingSlot where
  offset : Nat := 0
  ids : List Nat := []
  deriving DecidableEq, Repr, Inhabited

/-- The registers of the ring configuration (R424), as written or as applied. -/
structure RingCfg where
  cycle : BitVec 32 := 0x00140032
  config : BitVec 32 := 0x000A0210
  drops : Tab (BitVec 32) := []
  slots : Tab (List (BitVec 32)) := []
  deriving DecidableEq, Repr, Inhabited

/-- A received C1 value or block (R443). -/
structure RingVal where
  vflags : Nat := 0
  value : BitVec 32 := 0
  data : List Byte := []
  stamp : BitVec 64 := 0
  seq : BitVec 32 := 0
  src : Nat := 0
  rxAt : Nat := 0
  lost : Bool := false
  hold : Bool := false
  deriving DecidableEq, Repr, Inhabited

/-- One ring port's link (R427, R430 to R432): the PHY's link, the link itself, whether it is lost since it last was whole,
whether what would leave through the port is turned round, whether a LINK frame has come since it came up, the ECHO of the last
one, the unwrap cycle, and `rxThere`, the good frames that the neighbour has counted. -/
structure RingLink where
  phy : Bool := false
  up : Bool := false
  lost : Bool := false
  turned : Bool := true
  seen : Bool := false
  lastEcho : Nat := 0
  unwrapAt : Option Nat := none
  neighbour : Nat := 0xFF
  delay : Nat := 0
  delays : List Nat := []
  rxOk : Nat := 0
  rxThere : Nat := 0
  lastStamp : BitVec 64 := 0
  lastRx : Nat := 0
  goodRun : Nat := 0
  relayClosed : Bool := true
  forced : Bool := false
  deriving DecidableEq, Repr, Inhabited

/-- The ring. `valsOld` and `imagesOld` hold what the last frame of a value or drop replaced, for a latch at the very instant
of that frame (R155, R9). `taskVals` holds values that tasks committed and that go out from the next ring cycle on, `outVals` what
the C1 slots carry (R151, Table 7-9). -/
structure Ring where
  node : BitVec 32 := 0x00FF00FF
  written : RingCfg := {}
  applied : RingCfg := {}
  pendingApply : Option (Nat × RingCfg) := none
  applyResult : BitVec 32 := 0
  cycleNum : Nat := 0
  cfgMismatch : Bool := false
  e : RingLink := {}
  w : RingLink := {}
  wrappedSeen : Option Nat := none
  timeState : Nat := 0
  master : Nat := 0xFF
  masterPrio : Nat := 0xFF
  timeOffset : Int := 0
  lockRun : Nat := 0
  lastSync : Option Nat := none
  syncHops : Nat := 0
  syncSince : Nat := 0
  syncCorr : Int := 0
  wraps : Nat := 0
  crcErr : Nat := 0
  c1Late : Nat := 0
  dupId : Nat := 0
  dropErr : Nat := 0
  seqs : List (Nat × Nat × Nat × BitVec 32 × Nat) := []
  txSeq : Tab (BitVec 32) := []
  vals : Tab RingVal := []
  valsOld : Tab RingVal := []
  images : Tab RingVal := []
  imagesOld : Tab RingVal := []
  trips : Tab (List Byte) := []
  outVals : Tab (BitVec 32 × Bool) := []
  taskVals : Tab (BitVec 32) := []
  blocks : Tab (List Byte × Nat) := []
  blockDue : List Nat := []
  dropOut : Tab (List Byte) := []
  tripSent : List Byte := []
  tripSentAt : Option Nat := none
  heldC3 : List (Bool × RingFrame) := []
  bypassRid : Option (Nat × Nat) := none
  deriving DecidableEq, Repr, Inhabited

/-! ### CAN (13) -/

/-- A slot of the schedule matrix (Table 13-2). -/
structure CanSlot where
  cycle : Nat := 0
  slot : Nat := 0
  kind : Nat := 1
  source : Nat := 0
  frameId : BitVec 32 := 0
  offset : Nat := 0
  window : Nat := 1
  dlc : Nat := 0
  loopFmt : Nat := 0
  loopByte : Nat := 0
  scale : BitVec 32 := 0
  deriving DecidableEq, Repr, Inhabited

structure CanMatrix where
  ncycles : Nat := 1
  bcLen : Nat := 100
  phase : Nat := 0
  slots : List CanSlot := []
  filters : List CanFilter := []
  crc : BitVec 32 := 0
  deriving DecidableEq, Repr, Inhabited

/-- A frame in a channel's CAN_SEND queue (R466). -/
structure CanJob where
  rid : Nat := 0
  f : CanFrame := {}
  until_ : Nat := 0
  deriving DecidableEq, Repr, Inhabited

/-- The slot whose window is open, and the frame that it sends (R458 to R460). -/
structure CanOpen where
  slot : CanSlot := {}
  f : CanFrame := {}
  closeMt : Nat := 0
  started : Bool := false
  sent : Bool := false
  job : Option Nat := none
  deriving DecidableEq, Repr, Inhabited

/-- Latest frame of a receive filter (R464). -/
structure CanRx where
  f : CanFrame := {}
  own : Bool := false
  stamp : Nat := 0
  count : Nat := 0
  at_ : Nat := 0
  lost : Bool := false
  deriving DecidableEq, Repr, Inhabited

structure Can where
  enabled : Bool := false
  autoRecover : Bool := true
  nbt : BitVec 32 := 0
  dbt : BitVec 32 := 0
  tdc : BitVec 32 := 0
  state : Nat := 3
  synced : Bool := false
  alone : Bool := false
  tdcValid : Bool := false
  tdcv : BitVec 7 := 0
  lastErr : Nat := 0
  tec : Nat := 0
  recv : Nat := 0
  cycle : Nat := 0
  txOk : Nat := 0
  rxOk : Nat := 0
  exclMiss : Nat := 0
  arbDrop : Nat := 0
  errFrames : Nat := 0
  busOffs : Nat := 0
  lastRx : Nat := 0
  lastTx : Nat := 0
  noAckRun : Nat := 0
  recovering : Bool := false
  stopping : Bool := false
  matrix : Option CanMatrix := none
  newMatrix : Option (Nat × CanMatrix) := none
  queue : List CanJob := []
  open_ : Option CanOpen := none
  vals : Tab (List Byte) := []
  rx : Tab CanRx := []
  rxOld : Tab CanRx := []
  deriving DecidableEq, Repr, Inhabited

/-! ### Field I/O (14) -/

/-- A digital input. -/
structure Di where
  debounce : Nat := 0x3E8
  state : Bool := false
  changedMt : Nat := 0
  wb : Bool := false
  current : BitVec 32 := 0
  deriving DecidableEq, Repr, Inhabited

/-- A digital output: configuration, commanded value, terminal, supervision. -/
structure Do where
  cfg : BitVec 32 := 0x00640000
  cmd : Bool := false
  cont : Option Bool := none
  safetyOff : Bool := false
  last : Bool := false
  short : Bool := false
  shortAt : Nat := 0
  mismatch : Bool := false
  readback : Bool := false
  wdExpired : Bool := false
  refreshed : Nat := 0
  test : Option Bool := none
  committed : Bool := false
  held : Option Bool := none
  deriving DecidableEq, Repr, Inhabited

/-- What an input's conversion gives: current, value, band, and whether none has come yet (R480, R481). -/
structure ClMeas where
  ma : BitVec 32 := 0
  value : BitVec 32 := 0
  band : Nat := 0
  noData : Bool := false
  deriving DecidableEq, Repr, Inhabited

/-- A current-loop channel. `convAt` is when its latest conversion completed, on the model's clock, and `was` what stood before
(R9). -/
structure Cl where
  ctrl : BitVec 32 := 0
  lo : BitVec 32 := 0
  hi : BitVec 32 := 0
  comp : BitVec 32 := 0x00320032
  zero : BitVec 32 := 0
  span : BitVec 32 := 0
  table : Tab (BitVec 32) := []
  startMt : Nat := 0
  noData : Bool := false
  ma : BitVec 32 := 0
  value : BitVec 32 := 0
  raws : List (BitVec 32) := []
  band : Nat := 0
  compl : Bool := false
  diffSince : Option Nat := none
  agreeSince : Option Nat := none
  openSince : Option Nat := none
  open_ : Bool := false
  miswire : Bool := false
  miswireAt : Nat := 0
  cmd : BitVec 32 := 0
  committed : Bool := false
  last : BitVec 32 := 0
  wdExpired : Bool := false
  refreshed : Nat := 0
  test : Option (BitVec 32) := none
  held : Option (BitVec 32) := none
  burdenHz : Option Bool := none
  convAt : Nat := 0
  was : ClMeas := {}
  deriving DecidableEq, Repr, Inhabited

/-- A fast analogue output. -/
structure Fao where
  cfg : BitVec 32 := 0x00640000
  safeV : BitVec 32 := 0
  cmd : BitVec 32 := 0
  committed : Bool := false
  last : BitVec 32 := 0
  wdExpired : Bool := false
  refreshed : Nat := 0
  test : Option (BitVec 32) := none
  held : Option (BitVec 32) := none
  deriving DecidableEq, Repr, Inhabited

/-- A pulse input; `edges` holds the stamps (MT) and directions of counted edges, `counts` the stamps of what changed COUNT with
the count before each, newest first. -/
structure Pi where
  cfg : BitVec 32 := 0x03E80010
  window : Nat := 1000
  count : Int := 0
  counts : List (Nat × Int) := []
  edges : List (Nat × Bool) := []
  lineFault : BitVec 3 := 0
  qerr : Bool := false
  stalled : Bool := false
  overRate : Bool := false
  deriving DecidableEq, Repr, Inhabited

/-- CL TRIM page work (R485): channel, step (0 none), the trim as it would be stored, and the keys' steps of 1 uA. -/
structure TrimPage where
  ch : Nat := 0
  step : Nat := 0
  zero : BitVec 32 := 0
  span : BitVec 32 := 0
  adj : Int := 0
  deriving DecidableEq, Repr, Inhabited

structure Fio where
  di : Tab Di := []
  wbEn : BitVec 32 := 0
  dout : Tab Do := []
  cl : Tab Cl := []
  fai : Tab (BitVec 32) := []
  faiOver : BitVec 8 := 0
  faiMt : Nat := 0
  faiShared : Nat := 0
  fao : Tab Fao := []
  pi : Tab Pi := []
  tests : List (Nat × Nat × Nat × Nat) := []
  capture : Option (Option Nat × Nat × Bool) := none
  trim : TrimPage := {}
  trimJob : Option (Option Nat × Nat × BitVec 32 × BitVec 32) := none
  deriving DecidableEq, Repr, Inhabited

/-! ### Clocks, power, RTC (15) -/

structure Clk where
  refOk : Bool := false
  int25Ok : Bool := true
  fallback : Bool := false
  source : Nat := 0
  refCtrl : BitVec 2 := 3
  dwell : Nat := 4
  forced : Bool := false
  failed : Bool := false
  switches : Nat := 0
  gateAborts : Nat := 0
  mtLatch : Nat := 0
  slewing : Bool := false
  valid : Bool := false
  refRun : Nat := 0
  int25Run : Nat := 16
  refDelayDone : Bool := false
  refJudged : Bool := false
  refFailed : Bool := false
  deriving DecidableEq, Repr, Inhabited

/-- A TIME_SET slew: from which offset, toward which, since when (R520). -/
structure Slew where
  startNow : Nat := 0
  startOff : Int := 0
  target : Int := 0
  deriving DecidableEq, Repr, Inhabited

structure Pwr where
  warn : Option Nat := none
  warnCause : Nat := 0
  holdup : Bool := false
  inrush : Bool := false
  railOk : Bool := false
  feedA : Bool := false
  feedB : Bool := false
  voltA : Nat := 0
  voltB : Nat := 0
  curA : Nat := 0
  curB : Nat := 0
  tempDie : Nat := 0
  temps : Tab (BitVec 16) := []
  backupSrc : Nat := 0
  backupMv : Nat := 0
  flags : BitVec 4 := 0
  feedLosses : Nat := 0
  prsnt : Bool := true
  goneA : Bool := false
  goneB : Bool := false
  lostRecords : Nat := 0
  deriving DecidableEq, Repr, Inhabited

/-- Civil time of the RTC (R524). -/
structure Civil where
  sec : Nat := 0
  min : Nat := 0
  hour : Nat := 0
  day : Nat := 1
  month : Nat := 1
  year : Nat := 0
  deriving DecidableEq, Repr, Inhabited

/-- The RTC: `base` ns since 2000-01-01 at `baseAt` of the model's clock, host snapshot, staged fields, flags. -/
structure Rtc where
  base : Nat := 0
  baseAt : Nat := 0
  snap : Civil := {}
  snapSub : Nat := 0
  staged : Option Civil := none
  wakeTimeout : Bool := false
  wakeOut : Option Nat := none
  alarm : Bool := false
  bkupValid : Bool := false
  backupLost : Bool := false
  osf : Bool := true
  alarmBuf : List Byte := List.replicate 16 0
  alarmFired : Option Nat := none
  bkup : Tab (BitVec 32) := []
  lastCheck : Nat := 0
  deriving DecidableEq, Repr, Inhabited

/-! ### Recorder and panel (16) -/

/-- An event record (Table 16-1). `data`: event data words (for 0x0310 the 24 bytes as three words);
`items`: kind, length, reference, value. -/
structure Rec where
  code : Nat := 0
  data : List (BitVec 64) := []
  items : List (Nat × Nat × BitVec 32 × List Byte) := []
  seq : Nat := 0
  mt : Nat := 0
  suppressed : Nat := 0
  boot : Nat := 0
  mode : Nat := 2
  role : Nat := 0
  summary : Bool := false
  partialFlag : Bool := false
  mtInvalid : Bool := false
  overflow : Bool := false
  deriving DecidableEq, Repr, Inhabited

/-- Recorder configuration and bucket of one event code (R540, R541); tokens in units of 1 / (60 * 10^9). -/
structure CodeCfg where
  rate : Nat := 600
  burst : Nat := 32
  items : List (List Byte) := []
  tokens : Nat := 32 * 60000000000
  tokensAt : Nat := 0
  suppressed : Nat := 0
  deriving DecidableEq, Repr, Inhabited

structure Recorder where
  ready : Bool := false
  nextRoutine : Nat := 0
  nextSafety : Nat := 1966080
  seq : Nat := 0
  seqAssigned : Nat := 0
  boot : Nat := 1
  cfg : Tab CodeCfg := []
  configCrc : BitVec 32 := 0xC1B7660C
  queueDrops : Nat := 0
  suppressed : Nat := 0
  badSlots : Nat := 0
  erases : Nat := 0
  queue : List Rec := []
  slots : Tab Rec := []
  bad : List Nat := []
  fullWritten : Bool := false
  dropped : Nat := 0
  logWaits : List (Nat × Nat) := []
  deriving DecidableEq, Repr, Inhabited

/-- A display update (R550): its request, region with its place, and pixels. -/
structure DspJob where
  rid : Nat := 0
  region : Nat := 0
  place : BitVec 64 := 0
  pixels : List Byte := []
  deriving DecidableEq, Repr, Inhabited

/-- Eject sequence (R555). -/
inductive Eject where
  | none | equinox | wait (since next : Nat) | safe | prompt | notSafe
  deriving DecidableEq, Repr, Inhabited

structure Panel where
  on : Bool := false
  fault : Bool := false
  latched : Bool := false
  menu : Nat := 0
  sel : Nat := 0
  band : Nat := 0
  temp : BitVec 16 := 0
  expectCrc : BitVec 32 := 0
  scanCrc : BitVec 32 := 0
  faults : Nat := 0
  faultAt : Nat := 0
  swapAt : Nat := 0
  mismatches : List Nat := []
  grey : Tab (BitVec 8) := []
  greyUse : Tab (BitVec 8) := []
  scale : Tab (BitVec 8) := []
  scaleUse : Tab (BitVec 8) := []
  limits : List Int := [-10, 0, 10, 20, 35, 50, 60]
  regions : Tab (BitVec 64) := []
  front : Mem := []
  back : Mem := []
  running : List DspJob := []
  waiting : List DspJob := []
  pressed : List Key := []
  hold : Option (List Key × Nat × Mode) := none
  supplyHeld : Bool := false
  lastKey : Nat := 0
  lever : Bool := false
  eject : Eject := .none
  deriving DecidableEq, Repr, Inhabited

/-! ### The whole block -/

/-- The module. `pending` is the queue of commands that wait, first in, first out. `free` is the model's own: it
counts the free values drawn so far, and nothing rests on its value (log 10). `fabric` holds the transactions that are
outstanding, `late` those that a die reset ended and whose replies are still to come (R22, R38 to R40). -/
structure State where
  pending : List Instr := []
  now : Nat := 0
  mtOff : Int := 946684800000000000
  slew : Option Slew := none
  out : List Output := []
  cfg : Cfg := {}
  host : HostIf := {}
  mgmt : Mgmt := {}
  sec : Sec := {}
  modes : Modes := {}
  tiles : Tab Tile := []
  fabric : List Xact := []
  late : List Xact := []
  prog : Prog := {}
  loops : Loops := {}
  ports : Tab Port := []
  cells : Cells := {}
  twin : Twin := {}
  trip : Trip := {}
  ring : Ring := {}
  can : Tab Can := []
  fio : Fio := {}
  clk : Clk := {}
  pwr : Pwr := {}
  rtc : Rtc := {}
  recd : Recorder := {}
  dsp : Panel := {}
  free : Nat := 0
  deriving DecidableEq, Repr, Inhabited

/-- The module right after reset: every field at the value that the spec states or that the log names. -/
def State.reset : State := {}

end Sys2Proof.Machine
end

