-- ==== Sys2Proof/Machine/Ops.lean ====
section
/-! DEFINITION. Machine/Ops.lean: the named operations over tables, bytes, memories, the clock and the parts of the
state that every family shares. -/

namespace Sys2Proof.Machine

/-! ### Tables keyed by a number -/

/-- The entry of a key, or the default that an absent key reads. -/
def tget {α : Type} : Tab α → Nat → α → α
  | [], _, d => d
  | e :: r, k, d => if e.1 = k then e.2 else tget r k d

/-- The entry of a key, if it is there. -/
def tfind {α : Type} : Tab α → Nat → Option α
  | [], _ => none
  | e :: r, k => if e.1 = k then some e.2 else tfind r k

/-- Set a key, keys rising. -/
def tset {α : Type} : Tab α → Nat → α → Tab α
  | [], k, v => [(k, v)]
  | e :: r, k, v =>
    if k < e.1 then (k, v) :: e :: r
    else if e.1 = k then (k, v) :: r
    else e :: tset r k v

/-- Take a key out. -/
def terase {α : Type} (t : Tab α) (k : Nat) : Tab α := t.filter (fun e => e.1 != k)

/-- Change every entry. -/
def tmap {α β : Type} (f : Nat → α → β) (t : Tab α) : Tab β := t.map (fun e => (e.1, f e.1 e.2))

/-! ### Bits and bytes, little-endian (R7, 00_scope.md) -/

/-- Bits lo to lo + n - 1 of a number. -/
def bits (x lo n : Nat) : Nat := x / 2 ^ lo % 2 ^ n

/-- Bit i of a number. -/
def bit (x i : Nat) : Bool := x.testBit i

/-- A value at its place in a register. -/
def fld (lo n v : Nat) : Nat := v % 2 ^ n * 2 ^ lo

def b2n (b : Bool) : Nat := if b then 1 else 0

/-- The number that bytes spell, the first byte least significant. -/
def leNat : List Byte → Nat
  | [] => 0
  | b :: r => b.toNat + 256 * leNat r

/-- n bytes of a number, the least significant first. -/
def leBytes : Nat → Nat → List Byte
  | 0, _ => []
  | n + 1, v => BitVec.ofNat 8 v :: leBytes n (v / 256)

def u8 (v : Nat) : List Byte := leBytes 1 v
def u16 (v : Nat) : List Byte := leBytes 2 v
def u32 (v : Nat) : List Byte := leBytes 4 v
def u64 (v : Nat) : List Byte := leBytes 8 v
def zeros (n : Nat) : List Byte := List.replicate n 0

/-- n bytes of a buffer from an offset. -/
def slice (b : List Byte) (off n : Nat) : List Byte := (b.drop off).take n

/-- The n-byte little-endian value at an offset of a buffer. -/
def rd (b : List Byte) (off n : Nat) : Nat := leNat (slice b off n)

/-- The 32-bit word at an offset of a buffer. -/
def rdW (b : List Byte) (off : Nat) : BitVec 32 := BitVec.ofNat 32 (rd b off 4)

/-- Every byte of a part of a buffer is 0. -/
def zeroAt (b : List Byte) (off n : Nat) : Bool := (slice b off n).all (· == 0)

/-- Signed reading of the low n bits. -/
def sx (n v : Nat) : Int :=
  let m := v % 2 ^ n
  if m < 2 ^ (n - 1) then m else (m : Int) - 2 ^ n

/-- Two's complement of an integer in n bits. -/
def twos (n : Nat) (i : Int) : Nat := (i % (2 ^ n : Int)).toNat

/-- A 32-bit counter that stops at 0xFFFF_FFFF (R47). -/
def satInc (c : Nat) : Nat := if c < 0xFFFFFFFF then c + 1 else c

/-- The greater of two numbers apart, rounded up division. -/
def ceilDiv (a b : Nat) : Nat := (a + (b - 1)) / b

/-! ### Sparse byte memories in canonical form -/

/-- The byte at an address; an unlisted address reads 0 (R187). -/
def mget (m : Mem) (a : Nat) : Byte := tget m a 0

/-- Store one byte; storing 0 takes the entry out. -/
def mset : Mem → Nat → Byte → Mem
  | [], a, v => if v = 0 then [] else [(a, v)]
  | c :: r, a, v =>
    if a < c.1 then (if v = 0 then c :: r else (a, v) :: c :: r)
    else if c.1 = a then (if v = 0 then r else (a, v) :: r)
    else c :: mset r a v

/-- n bytes from an address. -/
def mread (m : Mem) : Nat → Nat → List Byte
  | _, 0 => []
  | a, n + 1 => mget m a :: mread m (a + 1) n

/-- Store bytes from an address on. -/
def mwrite (m : Mem) : Nat → List Byte → Mem
  | _, [] => m
  | a, b :: r => mwrite (mset m a b) (a + 1) r

/-- Addresses rise and no listed byte is 0. -/
def Memory.wf : Mem → Bool
  | [] => true
  | [c] => c.2 != 0
  | c :: d :: r => c.2 != 0 && decide (c.1 < d.1) && Memory.wf (d :: r)

/-- Every byte address of a memory below a bound, as a list of n bytes. -/
def mbytes (m : Mem) (n : Nat) : List Byte := mread m 0 n

/-! ### Parts of the state -/

def State.tile (s : State) (n : Nat) : Tile := tget s.tiles n {}
def State.port (s : State) (n : Nat) : Port := tget s.ports n {}
def State.chan (s : State) (n : Nat) : Can := tget s.can n {}
def State.ctx (s : State) (n : Nat) : Ctx := tget s.host.ctxs n {}
def State.task (s : State) (n : Nat) : Task := tget s.prog.tasks n {}
def State.di (s : State) (n : Nat) : Di := tget s.fio.di n {}
def State.do_ (s : State) (n : Nat) : Do := tget s.fio.dout n {}
def State.cl (s : State) (n : Nat) : Cl := tget s.fio.cl n {}
def State.fao (s : State) (n : Nat) : Fao := tget s.fio.fao n {}
def State.pulse (s : State) (n : Nat) : Pi := tget s.fio.pi n {}
def State.tripOut (s : State) (n : Nat) : TripOut := tget s.trip.outs n {}
def State.keySlot (s : State) (n : Nat) : KeySlot := tget s.sec.slots n {}
def State.code (s : State) (c : Nat) : CodeCfg := tget s.recd.cfg c {}

def State.setTile (s : State) (n : Nat) (x : Tile) : State := { s with tiles := tset s.tiles n x }
def State.setPort (s : State) (n : Nat) (x : Port) : State := { s with ports := tset s.ports n x }
def State.setChan (s : State) (n : Nat) (x : Can) : State := { s with can := tset s.can n x }
def State.setCtx (s : State) (n : Nat) (x : Ctx) : State :=
  { s with host := { s.host with ctxs := tset s.host.ctxs n x } }
def State.setTask (s : State) (n : Nat) (x : Task) : State :=
  { s with prog := { s.prog with tasks := tset s.prog.tasks n x } }
def State.setDi (s : State) (n : Nat) (x : Di) : State := { s with fio := { s.fio with di := tset s.fio.di n x } }
def State.setDo (s : State) (n : Nat) (x : Do) : State := { s with fio := { s.fio with dout := tset s.fio.dout n x } }
def State.setCl (s : State) (n : Nat) (x : Cl) : State := { s with fio := { s.fio with cl := tset s.fio.cl n x } }
def State.setFao (s : State) (n : Nat) (x : Fao) : State := { s with fio := { s.fio with fao := tset s.fio.fao n x } }
def State.setPulse (s : State) (n : Nat) (x : Pi) : State := { s with fio := { s.fio with pi := tset s.fio.pi n x } }
def State.setTripOut (s : State) (n : Nat) (x : TripOut) : State :=
  { s with trip := { s.trip with outs := tset s.trip.outs n x } }
def State.setKeySlot (s : State) (n : Nat) (x : KeySlot) : State :=
  { s with sec := { s.sec with slots := tset s.sec.slots n x } }

/-- Something leaves the module. -/
def State.emit (s : State) (o : Output) : State := { s with out := o :: s.out }

/-- Apply a change when a condition holds. -/
def State.when (s : State) (c : Bool) (f : State → State) : State := if c then f s else s

/-- A measurement that no command brings: a free value, and the count goes on. -/
def State.fresh (s : State) : BitVec 32 × State := (Config.freeWord s.free, { s with free := s.free + 1 })

/-! ### Time (R518 to R520) -/

/-- Offset of MT over the model's clock: a slew moves it 1 ns in 5 000 ns, 200 ppm (R520). -/
def State.offset (s : State) : Int :=
  match s.slew with
  | none => s.mtOff
  | some w =>
    let d : Int := ((s.now - w.startNow) / 5000 : Nat)
    if w.startOff ≤ w.target then min w.target (w.startOff + d) else max w.target (w.startOff - d)

/-- Module time, ns. -/
def State.mt (s : State) : Nat := (s.now + s.offset).toNat

/-- An instant of the model's clock lies before an instant of module time that is not ahead. -/
def State.before (s : State) (at_ x : Nat) : Bool := x + (s.mt - at_) < s.now

/-- Of the latest value of a source and the one that it replaced, the latest that was complete before an instant (R155, R9);
`stamp` is when a value came, on the model's clock. -/
def State.latestBefore {α : Type} (s : State) (at_ : Nat) (stamp : α → Nat) (cur old : Option α) : Option α :=
  match cur with
  | some v => if s.before at_ (stamp v) then some v else old.filter (fun o => s.before at_ (stamp o))
  | none => none

/-- Store a source's new value; the one that it replaces is kept, unless that one came at the same instant. -/
def keepOld {α : Type} (stamp : α → Nat) (cur old : Tab α) (k : Nat) (v : α) : Tab α :=
  match tfind cur k with
  | some c => if stamp c < stamp v then tset old k c else old
  | none => old

/-- The clock reaches an instant; it never goes back. -/
def State.tick (s : State) (t : Nat) : State := { s with now := max s.now t }

/-! ### Civil time of the RTC (R524) -/

/-- Gregorian leap year, of a year since 2000. -/
def leap (y : Nat) : Bool := y % 4 == 0 && (y % 100 != 0 || (y + 2000) % 400 == 0)

def yearDays (y : Nat) : Nat := if leap y then 366 else 365

def monthDays (y m : Nat) : Nat :=
  match m with
  | 2 => if leap y then 29 else 28
  | 4 | 6 | 9 | 11 => 30
  | _ => 31

/-- Year since 2000 and day of the year, from days since 2000-01-01. -/
def splitYear : Nat → Nat → Nat → Nat × Nat
  | 0, y, d => (y, d)
  | f + 1, y, d => if d < yearDays y then (y, d) else splitYear f (y + 1) (d - yearDays y)

def splitMonth (y : Nat) : Nat → Nat → Nat → Nat × Nat
  | 0, m, d => (m, d)
  | f + 1, m, d => if d < monthDays y m then (m, d) else splitMonth y f (m + 1) (d - monthDays y m)

/-- Civil time of a count of seconds since 2000-01-01T00:00:00. -/
def civilOf (secs : Nat) : Civil :=
  let days := secs / 86400
  let r := secs % 86400
  let (y, d) := splitYear 200 0 days
  let (m, d) := splitMonth y 12 1 d
  { sec := r % 60, min := r / 60 % 60, hour := r / 3600, day := d + 1, month := m, year := y }

def daysBeforeYear : Nat → Nat
  | 0 => 0
  | y + 1 => daysBeforeYear y + yearDays y

def daysBeforeMonth (y : Nat) : Nat → Nat
  | 0 => 0
  | m + 1 => daysBeforeMonth y m + (if m = 0 then 0 else monthDays y m)

/-- Seconds since 2000-01-01T00:00:00 of a civil time. -/
def secsOf (c : Civil) : Nat :=
  (daysBeforeYear c.year + daysBeforeMonth c.year c.month + (c.day - 1)) * 86400 + c.hour * 3600 + c.min * 60 + c.sec

/-- The day lies in its month (R527). -/
def Civil.valid (c : Civil) : Bool :=
  c.sec < 60 && c.min < 60 && c.hour < 24 && 1 ≤ c.day && c.day ≤ monthDays c.year c.month &&
  1 ≤ c.month && c.month ≤ 12 && c.year < 200

/-- MT of 2000-01-01T00:00:00 TAI (R519). -/
def mt2000 : Nat := 946684800000000000

/-- ns since 2000-01-01 that the RTC counts now. -/
def State.rtcNs (s : State) : Nat := s.rtc.base + (s.now - s.rtc.baseAt)

def State.rtcCivil (s : State) : Civil := civilOf (s.rtcNs / 1000000000)

/-- The 15-bit prescaler of the RTC. -/
def State.rtcSub (s : State) : Nat := s.rtcNs % 1000000000 * 32768 / 1000000000

/-! ### Modes, roles and the station -/

def modeCode : Mode → Nat
  | .dormant => 1 | .startup => 2 | .run => 3 | .hold => 4 | .maintenance => 5 | .recovery => 6

def roleCode : Role → Nat
  | .simplex => 0 | .lead => 1 | .follow => 2 | .syncing => 3 | .yielded => 4

def Role.ofCode : Nat → Option Role
  | 0 => some .simplex | 1 => some .lead | 2 => some .follow | 3 => some .syncing | 4 => some .yielded | _ => none

/-- This module's slot of the carrier: 0 A, 1 B, from SLOT_ID[0]. -/
def State.slotB (s : State) : Bool := bit s.cfg.slotId.toNat 0

end Sys2Proof.Machine
end

