-- ==== Sys2Proof/Machine/Operands.lean ====
section
/-! DEFINITION. Machine/Operands.lean: the operand forms of the block: variable handles and their values, forced
values, output terminals by Table 14-4, and which ends of a chain the module holds. -/

namespace Sys2Proof.Machine

/-! ### Variable handles (R168 to R172) -/

def handleTask (h : BitVec 32) : Nat := bits h.toNat 26 6
def handleSpace (h : BitVec 32) : Nat := bits h.toNat 23 3
def handleOff (h : BitVec 32) : Nat := bits h.toNat 0 23

/-- The task table entry of a task in an image. -/
def Image.taskDef (i : Image) (n : Nat) : Option TaskDef := i.tasks.find? (fun d => d.task == n)

/-- The task table entry of a task in the loaded image. -/
def State.taskDef (s : State) (n : Nat) : Option TaskDef := s.prog.loaded.bind (fun i => i.taskDef n)

/-- Size of a space of a task, in bytes (Tables 5-1, 5-4). -/
def TaskDef.size (d : TaskDef) : Nat → Nat
  | 0 => d.inSize | 1 => d.outSize | 2 => d.varSize | 3 => d.retSize | 4 => d.conSize | 5 => d.instSize
  | 6 => d.stkSize | _ => 0

/-- What a command does with variables: read, change online, or force (Table 5-4). -/
inductive VarUse where
  | read | change | force
  deriving DecidableEq, Repr

def spaceAllows : VarUse → Nat → Bool
  | .read, sp => decide (sp ≤ 5)
  | .change, sp => decide (1 ≤ sp ∧ sp ≤ 4)
  | .force, sp => decide (sp ≤ 1)

/-- An entry is valid (R170). -/
def State.varValid (s : State) (u : VarUse) (h : BitVec 32) (w : Nat) : Bool :=
  match s.taskDef (handleTask h) with
  | none => false
  | some d => spaceAllows u (handleSpace h) && (w == 1 || w == 2 || w == 4 || w == 8) &&
      handleOff h % w == 0 && handleOff h + w ≤ d.size (handleSpace h)

/-- The committed bytes of a space of a task; IN is the last latched image (R172). -/
def Task.space (t : Task) : Nat → Mem
  | 0 => t.img | 1 => t.sp.out | 2 => t.sp.var | 3 => t.sp.ret | 4 => t.con | 5 => t.sp.inst | 6 => t.sp.stk | _ => []

/-- The byte a force puts at an offset of a task's space, if one covers it. -/
def forcedByte (fs : List Force) (task sp off : Nat) : Option Byte :=
  match fs with
  | [] => none
  | f :: r =>
    let o := handleOff f.handle
    if handleTask f.handle == task && handleSpace f.handle == sp && o ≤ off && off < o + f.width
    then some (BitVec.ofNat 8 (f.value.toNat / 256 ^ (off - o)))
    else forcedByte r task sp off

/-- Lay the forces of a task's space over n bytes from an offset (R180). -/
def overlay (fs : List Force) (task sp : Nat) : Nat → List Byte → List Byte
  | _, [] => []
  | off, b :: r => (forcedByte fs task sp off).getD b :: overlay fs task sp (off + 1) r

/-- Value of a variable at its task's last commit, a forced byte at its forced value, and whether it is forced
(R172, R184). -/
def State.varValue (s : State) (h : BitVec 32) (w : Nat) : Nat × Bool :=
  let t := handleTask h
  let sp := handleSpace h
  let o := handleOff h
  let raw := mread ((s.task t).space sp) o w
  let forced := (List.range w).any (fun i => (forcedByte s.prog.effForces t sp (o + i)).isSome)
  (leNat (overlay s.prog.effForces t sp o raw), forced)

/-! ### Output terminals (Table 14-4) -/

/-- This module has claimed the lead in an Equinox window (R373). -/
def State.claimed (s : State) : Bool := match s.twin.equinox with | some e => e.claimed | none => false

/-- An Equinox window is open (R373). -/
def State.windowOpen (s : State) : Bool := match s.twin.equinox with | some e => e.windowOpen | none => false

/-- Stages at high impedance by role: detached, following unless the lead was just claimed, joining, or released to a
module that claimed (R142, R358, R365, R373, R387). -/
def State.stagesOff (s : State) : Bool :=
  s.modes.detached || (s.modes.role == .follow && !s.claimed) || s.modes.role == .syncing || s.twin.stagesReleased

/-- Outputs held as they stand: a yielding lead until its safe states, a new lead until Thaw, both modules in an
Equinox window (R365, R368, R373). -/
def State.stagesHeld (s : State) : Bool :=
  (s.modes.role == .yielded && s.twin.yieldedAt.isSome) || s.twin.frost || s.windowOpen

/-- Which row of Table 14-4 drives an output, given its own conditions: named by a demanding safety function, its
watchdog expired, a test on it, a force on it. Without LEAD_ALIVE an output is at its safe state (R354). -/
def State.termRow (s : State) (safety wd test forced : Bool) : Nat :=
  if safety then 1
  else if s.stagesOff then 2
  else if wd then 3
  else if s.stagesHeld then 4
  else if !s.twin.aliveDrive then 7
  else if s.modes.mode == .maintenance && test then 5
  else if s.modes.mode == .maintenance && forced then 6
  else if s.modes.mode == .run then 8
  else 7

/-- Stages at high impedance and burdens open (R495). -/
def State.highZ (s : State) : Bool := s.termRow false false false false == 2

/-- FIO bindings of OUT images: task and binding (R471, R586). -/
def State.outBinds (s : State) (group : Nat) : List (Nat × Bind) :=
  match s.prog.loaded with
  | none => []
  | some i => i.tasks.flatMap (fun d => (d.binds.filter (fun b =>
      b.space == 1 && b.kind == 0 && bits b.ref.toNat 8 8 == group)).map (fun b => (d.task, b)))

/-- The forced bytes of an output channel that a whole value of n bytes carries, if all are forced (R586). -/
def State.forcedBytes (s : State) (task off n : Nat) : Option (List Byte) :=
  (List.range n).mapM (fun i => forcedByte s.prog.effForces task 1 (off + i))

/-- Forced value of a digital output (R586). -/
def State.forcedDo (s : State) (n : Nat) : Option Bool :=
  (s.outBinds 1).findSome? (fun (t, b) =>
    let c := bits b.ref.toNat 0 8
    if c == n then (s.forcedBytes t b.offset 1).map (fun v => bit (leNat v) 0)
    else if c == 0xFF then (s.forcedBytes t (b.offset + n / 8) 1).map (fun v => bit (leNat v) (n % 8))
    else none)

/-- Forced value of a current-loop (group 2) or fast analogue (group 4) output, a binary32 word (R586). -/
def State.forcedWord (s : State) (group n : Nat) : Option (BitVec 32) :=
  (s.outBinds group).findSome? (fun (t, b) =>
    if bits b.ref.toNat 0 8 == n then (s.forcedBytes t b.offset 4).map (fun v => BitVec.ofNat 32 (leNat v)) else none)

/-- SAFE of a digital output (R493). -/
def Do.safe (d : Do) : Bool :=
  match bits d.cfg.toNat 0 2 with
  | 0 => false | 1 => true | _ => d.last

/-- A role that drives the loop. -/
def Cl.isOut (c : Cl) : Bool := 2 ≤ bits c.ctrl.toNat 0 2
def Cl.isIn (c : Cl) : Bool := bits c.ctrl.toNat 0 2 == 1

/-- SAFE of a current-loop output, mA as binary32: 0, 3.6, 21.0 or HOLD (R493). -/
def Cl.safe (c : Cl) : BitVec 32 :=
  match bits c.ctrl.toNat 6 2 with
  | 0 => 0 | 1 => 0x40666666 | 2 => 0x41A80000 | _ => c.last

/-- SAFE of a fast analogue output (R493). -/
def Fao.safe (f : Fao) : BitVec 32 :=
  match bits f.cfg.toNat 0 2 with
  | 0 => 0 | 1 => f.safeV | _ => f.last

/-- What a digital output's terminal carries; none at high impedance (R492). Before the first commit
after a restart the output stays at SAFE (R133 step 6). -/
def State.doTerm (s : State) (n : Nat) : Option Bool :=
  let d := s.do_ n
  let f := s.forcedDo n
  match s.termRow d.safetyOff d.wdExpired d.test.isSome f.isSome with
  | 1 => some false
  | 2 => none
  | 3 => some d.safe
  | 4 => d.held
  | 5 => d.test
  | 6 => f
  | 8 => some (match d.cont with
      | some b => b
      | none => if d.committed then d.cmd else d.safe)
  | _ => some d.safe

/-- What the CL TRIM page drives on an output in MAINTENANCE: 4 mA, then 20 mA (R485). -/
def State.trimDrive (s : State) (n : Nat) : Option (BitVec 32) :=
  let p := s.fio.trim
  if s.dsp.menu != 4 || p.ch != n then none
  else match p.step with | 1 => some 0x40800000 | 2 => some 0x41A00000 | _ => none

/-- The command that a current-loop output carries; none at high impedance, with MISWIRE or outside an output role
(R492, R483). -/
def State.clTerm (s : State) (n : Nat) : Option (BitVec 32) :=
  let c := s.cl n
  if !c.isOut || c.miswire then none
  else
    let f := s.forcedWord 2 n
    let test := (s.trimDrive n).or c.test
    match s.termRow false c.wdExpired test.isSome f.isSome with
    | 2 => none
    | 3 => some c.safe
    | 4 => c.held
    | 5 => test
    | 6 => f
    | 8 => some (if c.committed then c.cmd else c.safe)
    | _ => some c.safe

/-- What a fast analogue output carries; none at high impedance (R492). -/
def State.faoTerm (s : State) (n : Nat) : Option (BitVec 32) :=
  let c := s.fao n
  let f := s.forcedWord 4 n
  match s.termRow false c.wdExpired c.test.isSome f.isSome with
  | 2 => none
  | 3 => some c.safe
  | 4 => c.held
  | 5 => c.test
  | 6 => f
  | 8 => some (if c.committed then c.cmd else c.safe)
  | _ => some c.safe

/-- Keep, for every output, the value that its terminal carries now: what HOLD keeps, and what a yielding lead holds
(R493, R365). Applied before a change of mode, role, watchdog, test or safety demand. -/
def State.holdOuts (s : State) : State :=
  { s with fio := { s.fio with
      dout := (List.range 16).foldl (fun t n =>
        tset t n { s.do_ n with last := (s.doTerm n).getD (s.do_ n).last, held := s.doTerm n }) s.fio.dout
      cl := (List.range 8).foldl (fun t n =>
        tset t n { s.cl n with last := (s.clTerm n).getD (s.cl n).last, held := s.clTerm n }) s.fio.cl
      fao := (List.range 4).foldl (fun t n =>
        tset t n { s.fao n with last := (s.faoTerm n).getD (s.fao n).last, held := s.faoTerm n }) s.fio.fao } }

/-! ### Ring values (Table 12-10) -/

/-- A slot's words as an entry of Table 12-10. -/
def slotOf (ws : List (BitVec 32)) : RingSlot :=
  let b := ws.flatMap (fun w => u32 w.toNat)
  { offset := rd b 0 4, ids := (List.range (rd b 4 1)).map (fun i => rd b (8 + 2 * i) 2) }

/-- Slots with COUNT above 0, by number. -/
def RingCfg.used (c : RingCfg) : List (Nat × RingSlot) :=
  (c.slots.map (fun e => (e.1, slotOf e.2))).filter (fun e => !e.2.ids.isEmpty)

/-- A ring value identifier has a C1 slot in the configuration in effect. -/
def State.hasC1 (s : State) (id : Nat) : Bool := s.ring.applied.used.any (fun e => e.2.ids.contains id)

/-! ### String ports -/

/-- The port entry of a port in the cell plan in effect. -/
def State.portPlan (s : State) (n : Nat) : Option PortPlan :=
  s.cells.plan.bind (fun p => p.ports.find? (fun e => e.port == n))

/-! ### Where work is placed (R13, R323) -/

/-- Satellites that the entries of a plan place by name, per tile. -/
def CellPlan.named (c : CellPlan) : Tab Nat :=
  (c.ests.zip c.ports).foldl (fun t (e, p) => if e.place = 0 then t else tset t e.place (tget t e.place 0 + p.sats)) []

/-- Tiles for n more satellites, each on the tile that carries least, the lowest of equals. -/
def placeFree (tiles : Nat) : Tab Nat → Nat → List Nat
  | _, 0 => []
  | t, n + 1 =>
    let best := (List.range tiles).foldl (fun b i => if tget t (i + 1) 0 < tget t b 0 then i + 1 else b) 1
    best :: placeFree tiles (tset t best (tget t best 0 + 1)) n

/-- Satellites of each port whose placement the module chooses, in the order of the plan: port and count. -/
def CellPlan.free (c : CellPlan) : List (Nat × Nat) :=
  ((c.ests.zip c.ports).filter (fun (e, _) => e.place == 0)).map (fun (_, p) => (p.port, p.sats))

/-- Tiles of the satellites whose placement the module chooses, in that order. -/
def CellPlan.chosen (c : CellPlan) (tiles : Nat) : List Nat := placeFree tiles c.named (c.free.map (·.2)).sum

/-- Satellites per tile (R323). -/
def CellPlan.placed (c : CellPlan) (tiles : Nat) : Tab Nat :=
  (c.chosen tiles).foldl (fun t d => tset t d (tget t d 0 + 1)) c.named

/-- The tile of a satellite of a port (R323); none where the plan has no such satellite. -/
def CellPlan.tileOf (c : CellPlan) (tiles port sat : Nat) : Option Nat :=
  match (c.ests.zip c.ports).find? (fun (_, p) => p.port == port) with
  | none => none
  | some (e, p) =>
    if p.sats ≤ sat then none
    else if e.place ≠ 0 then some e.place
    else (c.chosen tiles)[((c.free.takeWhile (fun x => x.1 != port)).map (·.2)).sum + sat]?

/-- Tasks, loops and satellites that a tile carries, of the admitted sets in effect (Table 1-14). -/
def State.tileTasks (s : State) (n : Nat) : Nat :=
  if s.prog.admitted then match s.prog.loaded with
    | some i => (i.tasks.filter (fun d => d.die == n)).length
    | none => 0
  else 0

def State.tileLoops (s : State) (n : Nat) : Nat := (s.loops.loops.filter (fun e => bits e.1 13 3 == n)).length

def State.tileSats (s : State) (n : Nat) : Nat :=
  match s.cells.plan with | some c => tget (c.placed s.cfg.variant.tiles) n 0 | none => 0

/-- Work on the tile waits: its domain switches to another source after a clock monitor failure (R517). -/
def State.tileWaits (s : State) (n : Nat) : Bool := (s.tile n).switching

/-- The tile carries an admitted task, loop or estimator partition (R36, R46). -/
def State.tileLoaded (s : State) (n : Nat) : Bool := s.tileTasks n != 0 || s.tileLoops n != 0 || s.tileSats n != 0

/-- The module is half of a working pair: it has a partner that is present and not lost. -/
def State.paired (s : State) : Bool := s.modes.partner

/-- Ends of a chain that this module holds: 0 none, 1 A, 2 B, 3 both (08_string_ports.md, Table 8-19). -/
def State.ends (s : State) : Nat :=
  match s.modes.settle with
  | .settled => if s.cfg.ee.slots == 1 then 3 else if s.slotB then 2 else 1
  | _ => 0

/-- The module sends ring and CAN emissions: it drives LEAD_ALIVE in role LEAD or SIMPLEX, not detached, outside
Frost and outside an Equinox window (R354, R368, R373, R462). -/
def State.emits (s : State) : Bool :=
  s.twin.aliveDrive && (s.modes.role == .lead || s.modes.role == .simplex) && !s.modes.detached && !s.twin.frost &&
  !s.windowOpen

/-- The module holds an end of every chain (R269). -/
def State.holdsEnd (s : State) (endB : Bool) : Bool := s.cfg.ee.slots == 1 || s.slotB == endB

/-- The tone state at an end; a partner's report older than 30 us counts as NONE (R299). -/
def State.toneAt (s : State) (n : Nat) (endB : Bool) : Tone :=
  let p := s.port n
  if !(s.holdsEnd endB) && p.toneFarAt + 30000 < s.now then .none
  else if endB then p.toneB else p.toneA

/-- The twin link is up: 2 or more lanes (R351). -/
def State.twinUp (s : State) : Bool :=
  2 ≤ ((List.range 4).filter (fun i => s.twin.lanes.toNat.testBit i)).length

/-- The port is bonded out (R17). -/
def State.bonded (s : State) (n : Nat) : Bool := n < s.cfg.variant.ports

/-- The die exists in the variant: the keel, or a tile up to the highest (R14). -/
def State.diePresent (s : State) (n : Nat) : Bool := n ≤ s.cfg.variant.tiles

end Sys2Proof.Machine
end

