-- ==== Sys2Proof/Machine/Cores.lean ====
section
/-! DEFINITION. Machine/Cores.lean: the placement of tasks on the cycle cores of a tile, and which task's work a core does
(05_cycle_execution.md, R146, R149, R166). -/

namespace Sys2Proof.Machine

/-- c(t) in 100 ns units, as a multiple of 1/100 (R166). -/
def TaskDef.charge (t : TaskDef) : Nat := t.budget * (100 + t.grace)

/-- Response time of a task on a core, iterated; none when it passes the harvest phase (R166). -/
def respond (others : List TaskDef) (u : TaskDef) : Nat → Nat → Option Nat
  | 0, _ => none
  | k + 1, r =>
    let next := u.charge + (others.map (fun v => ceilDiv r (v.period * 10000) * v.charge)).sum
    if u.harvest * 10000 < next then none
    else if next = r then some r
    else respond others u k next

/-- A list of tasks fits a core (R166). -/
def fits (l : List TaskDef) : Bool :=
  l.all (fun u =>
    (respond (l.filter (fun v => v.task != u.task && v.priority ≤ u.priority)) u (u.harvest * 10000 + 2) u.charge).isSome)

/-- Put a task on the first core where it fits. -/
def placeTask (t : TaskDef) : List (List TaskDef) → Option (List (List TaskDef))
  | [] => none
  | c :: r => if fits (c ++ [t]) then some ((c ++ [t]) :: r) else (placeTask t r).map (c :: ·)

/-- Place tasks in turn on the cores of a tile; the first that does not fit. -/
def placeAll : List TaskDef → List (List TaskDef) → Option Nat
  | [], _ => none
  | t :: r, cs =>
    match placeTask t cs with
    | some cs' => placeAll r cs'
    | none => some t.task

/-- The cores of a tile with the tasks placed on them in turn; one that fits nowhere is left out. -/
def coresOf : List TaskDef → List (List TaskDef) → List (List TaskDef)
  | [], cs => cs
  | t :: r, cs => coresOf r ((placeTask t cs).getD cs)

/-- Insert by priority, then task number. -/
def insertTask (t : TaskDef) : List TaskDef → List TaskDef
  | [] => [t]
  | u :: r => if t.priority < u.priority || (t.priority == u.priority && t.task < u.task) then t :: u :: r
    else u :: insertTask t r

def byPriority (l : List TaskDef) : List TaskDef := l.foldr insertTask []

/-- Two tasks of an image run on the same cycle core (R146, R166 condition 6). -/
def Image.sameCore (i : Image) (t u : TaskDef) : Bool :=
  t.die == u.die &&
  (coresOf (byPriority (i.tasks.filter (fun v => v.die == t.die))) [[], [], [], []]).any (fun c =>
    c.any (fun v => v.task == t.task) && c.any (fun v => v.task == u.task))

/-- Non-speculative work of a task that is not finished. -/
def Cyc.working (c : Cyc) : Bool := !c.spec && !c.done && c.trap.isNone

/-- Work of one task goes before a cycle of another task on the same core: its own is non-speculative, and the cycle is
speculative, of lower priority, or of the same priority and started later (R149). -/
def goesBefore (u t : TaskDef) (k c : Cyc) : Bool :=
  k.working && (c.spec || u.priority < t.priority ||
    (u.priority == t.priority && (k.start < c.start || (k.start == c.start && u.task < t.task))))

/-- A task's cycle waits for its core (R149), or for its tile (R517). -/
def State.coreWaits (s : State) (i : Image) (d : TaskDef) (c : Cyc) : Bool :=
  s.tileWaits d.die || i.tasks.any (fun u => u.task != d.task && u.die == d.die &&
    (match (s.task u.task).cyc with | some k => goesBefore u d k c | none => false) && i.sameCore d u)

end Sys2Proof.Machine
end

