-- ==== Sys2Proof/Machine/Crypto.lean ====
section
/-! DEFINITION. Machine/Crypto.lean: the checks and ciphers that the spec names by their standards: CRC-32 (R186),
CRC-16 (R276), CRC-64 (R361), AES-128 CMAC (R98, R187), AES key unwrap (R104), SHA-256, PBKDF2 (R108) and ECDSA P-256
(R114). PRESUMED: the constants are those of the standards, which the spec names and does not print (log 7). -/

namespace Sys2Proof.Machine

/-! ### CRCs -/

/-- One bit of a reflected CRC-32 register, polynomial 0xEDB88320. -/
def crc32Bit : Nat → BitVec 32 → BitVec 32
  | 0, c => c
  | n + 1, c => crc32Bit n (if c.getLsbD 0 then (c >>> 1) ^^^ 0xEDB88320#32 else c >>> 1)

def crc32Step (c : BitVec 32) (b : Byte) : BitVec 32 := crc32Bit 8 (c ^^^ b.zeroExtend 32)

/-- CRC-32 of bytes: reflected, initial value and final complement all ones (R186). -/
def crc32 (bs : List Byte) : BitVec 32 := ~~~(bs.foldl crc32Step 0xFFFFFFFF#32)

def crc16Bit : Nat → BitVec 16 → BitVec 16
  | 0, c => c
  | n + 1, c => crc16Bit n (if c.getLsbD 15 then (c <<< 1) ^^^ 0x1021#16 else c <<< 1)

/-- CRC-16, polynomial 0x1021, initial value 0xFFFF, no reflection, no complement (R276). -/
def crc16 (bs : List Byte) : BitVec 16 :=
  bs.foldl (fun c b => crc16Bit 8 (c ^^^ ((b.zeroExtend 16 : BitVec 16) <<< (8 : Nat)))) 0xFFFF#16

def crc64Bit : Nat → BitVec 64 → BitVec 64
  | 0, c => c
  | n + 1, c => crc64Bit n (if c.getLsbD 0 then (c >>> 1) ^^^ 0xC96C5795D7870F42#64 else c >>> 1)

/-- CRC-64 of ECMA-182, reflected, initial value and final complement all ones (R361). -/
def crc64 (bs : List Byte) : BitVec 64 :=
  ~~~(bs.foldl (fun c b => crc64Bit 8 (c ^^^ b.zeroExtend 64)) 0xFFFFFFFFFFFFFFFF#64)

/-! ### AES-128 -/

/-- Product of two polynomials over GF(2), reduced by x^8 + x^4 + x^3 + x + 1. -/
def gfMul : Nat → Nat → Nat → Nat
  | 0, _, _ => 0
  | n + 1, a, b =>
    let a2 := if a * 2 < 256 then a * 2 else (a * 2 - 256).xor 0x1B
    (if b % 2 = 1 then a else 0).xor (gfMul n a2 (b / 2))

def gf (a b : Nat) : Nat := gfMul 8 a b

def gfPow (x : Nat) : Nat → Nat
  | 0 => 1
  | n + 1 => gf x (gfPow x n)

/-- Rotate a byte left by n. -/
def rotl8 (x n : Nat) : Nat := (x * 2 ^ n % 256) + x / 2 ^ (8 - n)

/-- The AES substitution of a byte: inverse, then the affine map. -/
def sboxOf (x : Nat) : Nat :=
  let i := gfPow x 254
  ((((i.xor (rotl8 i 1)).xor (rotl8 i 2)).xor (rotl8 i 3)).xor (rotl8 i 4)).xor 0x63

def sbox : List Nat := (List.range 256).map sboxOf
def sub (x : Nat) : Nat := sbox[x]?.getD 0
def isub (x : Nat) : Nat := sbox.findIdx (· == x)

def xorL (a b : List Nat) : List Nat := List.zipWith Nat.xor a b

/-- The next round key. -/
def nextKey (rcon : Nat) (k : List Nat) : List Nat :=
  let w (i : Nat) := (k.drop (4 * i)).take 4
  let l := w 3
  let t := [(sub (l[1]?.getD 0)).xor rcon, sub (l[2]?.getD 0), sub (l[3]?.getD 0), sub (l[0]?.getD 0)]
  let a := xorL (w 0) t
  let b := xorL (w 1) a
  let c := xorL (w 2) b
  a ++ b ++ c ++ xorL (w 3) c

def roundKeys : Nat → Nat → List Nat → List (List Nat)
  | 0, _, k => [k]
  | n + 1, rcon, k => k :: roundKeys n (gf rcon 2) (nextKey rcon k)

/-- Row shift: byte i of the result is byte 5 i mod 16. -/
def shiftRows (s : List Nat) : List Nat := (List.range 16).map (fun i => s[(i * 5) % 16]?.getD 0)
def ishiftRows (s : List Nat) : List Nat := (List.range 16).map (fun i => s[(i * 13) % 16]?.getD 0)

/-- A column mix by the first row of its matrix. -/
def mixBy (m : List Nat) (s : List Nat) : List Nat :=
  (List.range 16).map (fun i =>
    (List.range 4).foldl (fun a j => a.xor (gf (m[(j + 4 - i % 4) % 4]?.getD 0) (s[i / 4 * 4 + j]?.getD 0))) 0)

def encRounds : List (List Nat) → List Nat → List Nat
  | [], s => s
  | [k], s => xorL (shiftRows (s.map sub)) k
  | k :: r, s => encRounds r (xorL (mixBy [2, 3, 1, 1] (shiftRows (s.map sub))) k)

/-- AES-128 encryption of a 16-byte block. -/
def aesEnc (key blk : List Nat) : List Nat :=
  match roundKeys 10 1 key with
  | [] => blk
  | k0 :: r => encRounds r (xorL blk k0)

def decRounds : List (List Nat) → List Nat → List Nat
  | [], s => s
  | [k], s => xorL ((ishiftRows s).map isub) k
  | k :: r, s => decRounds r (mixBy [14, 11, 13, 9] (xorL ((ishiftRows s).map isub) k))

/-- AES-128 decryption of a 16-byte block. -/
def aesDec (key blk : List Nat) : List Nat :=
  match (roundKeys 10 1 key).reverse with
  | [] => blk
  | k0 :: r => decRounds r (xorL blk k0)

/-- The 16 bytes of a stored key: bytes of a table stand first byte least significant. -/
def keyBytes (k : BitVec 128) : List Nat := (leBytes 16 k.toNat).map (·.toNat)

def toBytes (l : List Nat) : List Byte := l.map (BitVec.ofNat 8)
def toNats (l : List Byte) : List Nat := l.map (·.toNat)

/-- Double in GF(2^128), the CMAC subkey step (RFC 4493). -/
def dbl (l : List Nat) : List Nat :=
  let v := l.foldl (fun a b => a * 256 + b) 0 * 2
  let v := if v < 2 ^ 128 then v else (v - 2 ^ 128).xor 0x87
  (List.range 16).map (fun i => v / 256 ^ (15 - i) % 256)

/-- Chain blocks; the last is already mixed with its subkey. -/
def cbcMac (key : List Nat) : Nat → List Nat → List Nat → List Nat
  | 0, x, _ => x
  | n + 1, x, m => if m.isEmpty then x else cbcMac key n (aesEnc key (xorL x (m.take 16))) (m.drop 16)

/-- AES-CMAC of a message, 16 bytes (RFC 4493). -/
def cmac (key : BitVec 128) (msg : List Byte) : List Byte :=
  let k := keyBytes key
  let m := toNats msg
  let k1 := dbl (aesEnc k (List.replicate 16 0))
  let full := (m.length - 1) / 16 * 16
  let last := m.drop full
  let lastX := if last.length = 16 then xorL last k1
    else xorL (last ++ [0x80] ++ List.replicate (15 - last.length) 0) (dbl k1)
  toBytes (cbcMac k (m.length / 16 + 2) (List.replicate 16 0) (m.take full ++ lastX))

/-- One step of key unwrap: t counts down (RFC 3394). -/
def unwrapSteps (key : List Nat) (n : Nat) : Nat → List Nat → List (List Nat) → List Nat × List (List Nat)
  | 0, a, r => (a, r)
  | t + 1, a, r =>
    let i := t % n
    let tv := (List.range 8).map (fun j => (t + 1) / 256 ^ (7 - j) % 256)
    let b := aesDec key (xorL a tv ++ (r[i]?.getD []))
    unwrapSteps key n t (b.take 8) (r.set i (b.drop 8))

/-- AES key unwrap of 8 (n + 1) bytes: the 8 n bytes, or none where the integrity value differs (RFC 3394). -/
def keyUnwrap (key : BitVec 128) (w : List Byte) : Option (List Byte) :=
  let m := toNats w
  let n := m.length / 8 - 1
  let r := (List.range n).map (fun i => (m.drop (8 * (i + 1))).take 8)
  let (a, out) := unwrapSteps (keyBytes key) n (6 * n) (m.take 8) r
  if a == List.replicate 8 0xA6 then some (toBytes out.flatten) else none

/-! ### SHA-256, HMAC, PBKDF2 -/

/-- Greatest x below 2^n with x^e not above v, by trying bits from the top. -/
def rootBits (e v : Nat) : Nat → Nat → Nat
  | 0, x => x
  | n + 1, x => if (x + 2 ^ n) ^ e ≤ v then rootBits e v n (x + 2 ^ n) else rootBits e v n x

def isPrime (n : Nat) : Bool := 2 ≤ n && (List.range (n - 2)).all (fun i => n % (i + 2) != 0)

/-- The first 64 primes. -/
def primes64 : List Nat := ((List.range 312).filter isPrime).take 64

/-- Round constants: fractions of the cube roots of the first 64 primes. -/
def shaK : List Nat := primes64.map (fun p => rootBits 3 (p * 2 ^ 96) 36 0 % 2 ^ 32)

/-- Initial hash: fractions of the square roots of the first 8 primes. -/
def shaH0 : List Nat := (primes64.take 8).map (fun p => rootBits 2 (p * 2 ^ 64) 37 0 % 2 ^ 32)

def rotr (x n : Nat) : Nat := x / 2 ^ n + x * 2 ^ (32 - n) % 2 ^ 32

/-- Extend a schedule of 16 words by n more; the newest word first. -/
def shaExtend : Nat → List Nat → List Nat
  | 0, w => w
  | n + 1, w =>
    let g (i : Nat) := w[i]?.getD 0
    let s0 := ((rotr (g 14) 7).xor (rotr (g 14) 18)).xor (g 14 / 8)
    let s1 := ((rotr (g 1) 17).xor (rotr (g 1) 19)).xor (g 1 / 1024)
    shaExtend n (((g 15 + s0 + g 6 + s1) % 2 ^ 32) :: w)

def shaRound (h : List Nat) (k w : Nat) : List Nat :=
  match h with
  | [a, b, c, d, e, f, g, hh] =>
    let s1 := ((rotr e 6).xor (rotr e 11)).xor (rotr e 25)
    let ch := (e.land f).xor ((2 ^ 32 - 1 - e).land g)
    let t1 := hh + s1 + ch + k + w
    let s0 := ((rotr a 2).xor (rotr a 13)).xor (rotr a 22)
    let mj := ((a.land b).xor (a.land c)).xor (b.land c)
    [(t1 + s0 + mj) % 2 ^ 32, a, b, c, (d + t1) % 2 ^ 32, e, f, g]
  | _ => h

def beWord (b : List Nat) : Nat := b.foldl (fun a x => a * 256 + x) 0

def shaBlock (h blk : List Nat) : List Nat :=
  let w0 := ((List.range 16).map (fun i => beWord ((blk.drop (4 * i)).take 4))).reverse
  let w := (shaExtend 48 w0).reverse
  let r := (List.zip shaK w).foldl (fun st kw => shaRound st kw.1 kw.2) h
  List.zipWith (fun x y => (x + y) % 2 ^ 32) h r

def shaBlocks : Nat → List Nat → List Nat → List Nat
  | 0, h, _ => h
  | n + 1, h, m => if m.isEmpty then h else shaBlocks n (shaBlock h (m.take 64)) (m.drop 64)

/-- SHA-256 of bytes, 32 bytes. -/
def sha256N (m : List Nat) : List Nat :=
  let len := m.length
  let pad := m ++ [0x80] ++ List.replicate ((119 - len % 64) % 64) 0 ++
    (List.range 8).map (fun i => len * 8 / 256 ^ (7 - i) % 256)
  (shaBlocks (len / 64 + 2) shaH0 pad).flatMap (fun w => [w / 2 ^ 24, w / 2 ^ 16 % 256, w / 2 ^ 8 % 256, w % 256])

/-- HMAC-SHA-256 with a key of at most 64 bytes or hashed to 32. -/
def hmac (key m : List Nat) : List Nat :=
  let k := if 64 < key.length then sha256N key else key
  let k := k ++ List.replicate (64 - k.length) 0
  sha256N (k.map (·.xor 0x5C) ++ sha256N (k.map (·.xor 0x36) ++ m))

def pbkdfIter (pw : List Nat) : Nat → List Nat → List Nat → List Nat
  | 0, _, acc => acc
  | n + 1, u, acc => let u' := hmac pw u; pbkdfIter pw n u' (xorL acc u')

/-- PBKDF2-HMAC-SHA-256, one block of 32 bytes. -/
def pbkdf2 (pw salt : List Byte) (iters : Nat) : List Byte :=
  let p := toNats pw
  let u1 := hmac p (toNats salt ++ [0, 0, 0, 1])
  toBytes (pbkdfIter p (iters - 1) u1 u1)

/-! ### ECDSA on P-256 -/

def p256p : Nat := 2 ^ 256 - 2 ^ 224 + 2 ^ 192 + 2 ^ 96 - 1
def p256n : Nat := 0xffffffff00000000ffffffffffffffffbce6faada7179e84f3b9cac2fc632551
def p256b : Nat := 0x5ac635d8aa3a93e7b3ebbd55769886bc651d06b0cc53b0f63bce3c3e27d2604b
def p256gx : Nat := 0x6b17d1f2e12c4247f8bce6e563a440f277037d812deb33a0f4a13945d898c296
def p256gy : Nat := 0x4fe342e2fe1a7f9b8ee7eb4a7c0f9e162bce33576b315ececbb6406837bf51f5

/-- a to the e, mod m, over n bits of e. -/
def powMod (m : Nat) : Nat → Nat → Nat → Nat
  | 0, _, _ => 1
  | n + 1, a, e => (if e % 2 = 1 then a else 1) * powMod m n (a * a % m) (e / 2) % m

def invMod (m a : Nat) : Nat := powMod m 256 (a % m) (m - 2)

/-- A point of the curve; none is the point at infinity. -/
abbrev Point := Option (Nat × Nat)

def ptAdd (a b : Point) : Point :=
  match a, b with
  | none, q => q
  | p, none => p
  | some (x1, y1), some (x2, y2) =>
    let p := p256p
    if x1 = x2 ∧ (y1 + y2) % p = 0 then none
    else
      let l := if x1 = x2 then (3 * x1 * x1 + (p - 3)) * invMod p (2 * y1) % p
        else (y2 + p - y1) * invMod p (x2 + p - x1) % p
      let x3 := (l * l + 2 * p - x1 - x2) % p
      some (x3, (l * (x1 + p - x3) + p - y1) % p)

/-- k times a point, over n bits of k. -/
def ptMul : Nat → Nat → Point → Point
  | 0, _, _ => none
  | n + 1, k, q => ptAdd (if k % 2 = 1 then q else none) (ptMul n (k / 2) (ptAdd q q))

/-- An ECDSA signature (r, s), 32 bytes each, the most significant first, over a SHA-256 hash holds under a key. -/
def ecdsaOk (qx qy : Nat) (hash : List Nat) (sig : List Byte) : Bool :=
  let sb := toNats sig
  let r := beWord (sb.take 32)
  let s := beWord ((sb.drop 32).take 32)
  let onCurve := qy * qy % p256p == (qx * qx * qx + (p256p - 3) * qx + p256b) % p256p
  if r = 0 ∨ p256n ≤ r ∨ s = 0 ∨ p256n ≤ s ∨ !onCurve then false
  else
    let w := invMod p256n s
    let z := beWord hash
    match ptAdd (ptMul 256 (z * w % p256n) (some (p256gx, p256gy))) (ptMul 256 (r * w % p256n) (some (qx, qy))) with
    | none => false
    | some (x, _) => x % p256n == r

end Sys2Proof.Machine
end

