-- ==== Sys2Proof/Machine/Float.lean ====
section
/-! DEFINITION. Machine/Float.lean: binary32 and binary64 arithmetic, exact and rounded once to nearest even, with the
canonical NaN (R206 to R210). A format is its number of exponent bits and of fraction bits. -/

namespace Sys2Proof.Machine

/-- A decoded value: NaN, an infinity, or (-1)^s m 2^e. -/
inductive FV where
  | nan
  | inf (s : Bool)
  | fin (s : Bool) (m : Nat) (e : Int)
  deriving DecidableEq, Repr

/-- Exponent bits and fraction bits of a format. -/
structure Fmt where
  eb : Nat
  mb : Nat
  deriving DecidableEq, Repr

def f32 : Fmt := { eb := 8, mb := 23 }
def f64 : Fmt := { eb := 11, mb := 52 }

def Fmt.ofD (d : Bool) : Fmt := if d then f64 else f32

/-- Exponent of the last place of a subnormal. -/
def Fmt.emin (f : Fmt) : Int := 2 - 2 ^ (f.eb - 1) - f.mb

def Fmt.infBits (f : Fmt) : Nat := (2 ^ f.eb - 1) * 2 ^ f.mb

/-- The canonical quiet NaN (R209). -/
def Fmt.nanBits (f : Fmt) : Nat := f.infBits + 2 ^ (f.mb - 1)

def Fmt.signBit (f : Fmt) (s : Bool) : Nat := if s then 2 ^ (f.eb + f.mb) else 0

/-- Read a bit pattern. -/
def Fmt.decode (f : Fmt) (x : Nat) : FV :=
  let s := x.testBit (f.eb + f.mb)
  let ex := bits x f.mb f.eb
  let fr := bits x 0 f.mb
  if ex = 2 ^ f.eb - 1 then (if fr = 0 then .inf s else .nan)
  else if ex = 0 then .fin s fr f.emin
  else .fin s (fr + 2 ^ f.mb) (f.emin + (ex : Int) - 1)

/-- Bits needed to write a number. -/
def bitLen (m : Nat) : Nat := if m = 0 then 0 else m.log2 + 1

/-- Round (-1)^s (m 2^e plus a part below its last place when sticky) to nearest, ties to even (R207). -/
def Fmt.round (f : Fmt) (s : Bool) (m : Nat) (e : Int) (sticky : Bool) : Nat :=
  if m = 0 then f.signBit s
  else
    let q : Int := max (e + bitLen m - (f.mb + 1)) f.emin
    let mant :=
      if q ≤ e then m * 2 ^ (e - q).toNat
      else
        let sh := (q - e).toNat
        let r := m % 2 ^ sh
        let d := m / 2 ^ sh
        let half := 2 ^ (sh - 1)
        if half < r ∨ (r = half ∧ (sticky ∨ d % 2 = 1)) then d + 1 else d
    let b := (q - f.emin).toNat * 2 ^ f.mb + mant
    f.signBit s + min b f.infBits

def Fmt.encode (f : Fmt) : FV → Nat
  | .nan => f.nanBits
  | .inf s => f.signBit s + f.infBits
  | .fin s m e => f.round s m e false

/-- A finite value as a signed multiple of 2^k, k not above its exponent. -/
def signedAt (s : Bool) (m : Nat) (e k : Int) : Int :=
  let v : Int := m * 2 ^ (e - k).toNat
  if s then -v else v

/-- Exact sum of two finite values, sign of a zero sum by R207: negative only when both are. -/
def addFin (s1 : Bool) (m1 : Nat) (e1 : Int) (s2 : Bool) (m2 : Nat) (e2 : Int) : FV :=
  let k := min e1 e2
  let v := signedAt s1 m1 e1 k + signedAt s2 m2 e2 k
  if v = 0 then .fin (s1 && s2) 0 k else .fin (decide (v < 0)) v.natAbs k

def FV.add : FV → FV → FV
  | .nan, _ => .nan
  | _, .nan => .nan
  | .inf a, .inf b => if a = b then .inf a else .nan
  | .inf a, _ => .inf a
  | _, .inf b => .inf b
  | .fin s1 m1 e1, .fin s2 m2 e2 => addFin s1 m1 e1 s2 m2 e2

def FV.neg : FV → FV
  | .nan => .nan
  | .inf s => .inf (!s)
  | .fin s m e => .fin (!s) m e

def FV.abs : FV → FV
  | .nan => .nan
  | .inf _ => .inf false
  | .fin _ m e => .fin false m e

def FV.isZero : FV → Bool
  | .fin _ 0 _ => true
  | _ => false

def FV.mul : FV → FV → FV
  | .nan, _ => .nan
  | _, .nan => .nan
  | .inf a, .inf b => .inf (a != b)
  | .inf a, .fin s m _ => if m = 0 then .nan else .inf (a != s)
  | .fin s m _, .inf a => if m = 0 then .nan else .inf (a != s)
  | .fin s1 m1 e1, .fin s2 m2 e2 => .fin (s1 != s2) (m1 * m2) (e1 + e2)

/-- Quotient rounded to a format (R210). -/
def Fmt.divV (f : Fmt) : FV → FV → Nat
  | .nan, _ => f.nanBits
  | _, .nan => f.nanBits
  | .inf _, .inf _ => f.nanBits
  | .inf a, .fin s _ _ => f.encode (.inf (a != s))
  | .fin s _ _, .inf a => f.signBit (s != a)
  | .fin s1 m1 e1, .fin s2 m2 e2 =>
    if m2 = 0 then (if m1 = 0 then f.nanBits else f.encode (.inf (s1 != s2)))
    else
      let k := f.mb + 3 + bitLen m2
      let n := m1 * 2 ^ k
      f.round (s1 != s2) (n / m2) (e1 - e2 - k) (n % m2 != 0)

/-- Square root rounded to a format (R210). -/
def Fmt.sqrtV (f : Fmt) : FV → Nat
  | .nan => f.nanBits
  | .inf s => if s then f.nanBits else f.infBits
  | .fin s m e =>
    if m = 0 then f.signBit s
    else if s then f.nanBits
    else
      let k := 2 * (f.mb + 3)
      let odd := (e % 2).toNat
      let n := m * 2 ^ (k + odd)
      let r := rootBits 2 n (bitLen n / 2 + 1) 0
      f.round false r ((e - odd - k) / 2) (r * r != n)

/-- Value order, false on a NaN; zeros are equal. -/
def FV.lt : FV → FV → Bool
  | .nan, _ => false
  | _, .nan => false
  | .inf a, .inf b => a && !b
  | .inf a, .fin .. => a
  | .fin .., .inf b => !b
  | .fin s1 m1 e1, .fin s2 m2 e2 =>
    let k := min e1 e2
    decide (signedAt s1 m1 e1 k < signedAt s2 m2 e2 k)

def FV.eq : FV → FV → Bool
  | .nan, _ => false
  | _, .nan => false
  | .inf a, .inf b => a == b
  | .inf _, .fin .. => false
  | .fin .., .inf _ => false
  | .fin s1 m1 e1, .fin s2 m2 e2 =>
    let k := min e1 e2
    decide (signedAt s1 m1 e1 k = signedAt s2 m2 e2 k)

def FV.le (a b : FV) : Bool := a.lt b || a.eq b

def FV.isNan : FV → Bool
  | .nan => true
  | _ => false

def FV.sign : FV → Bool
  | .nan => false
  | .inf s => s
  | .fin s _ _ => s

/-- Order for FMIN and FMAX: minus zero below plus zero (R210). -/
def FV.below (a b : FV) : Bool := a.lt b || (a.eq b && a.sign && !b.sign)

/-! ### Operations on bit patterns of a format -/

def Fmt.add (f : Fmt) (a b : Nat) : Nat := f.encode ((f.decode a).add (f.decode b))
def Fmt.sub (f : Fmt) (a b : Nat) : Nat := f.encode ((f.decode a).add (f.decode b).neg)
def Fmt.mul (f : Fmt) (a b : Nat) : Nat := f.encode ((f.decode a).mul (f.decode b))
def Fmt.div (f : Fmt) (a b : Nat) : Nat := f.divV (f.decode a) (f.decode b)
def Fmt.sqrt (f : Fmt) (a : Nat) : Nat := f.sqrtV (f.decode a)
/-- a b + c, rounded once (R208). -/
def Fmt.fma (f : Fmt) (a b c : Nat) : Nat := f.encode (((f.decode a).mul (f.decode b)).add (f.decode c))
def Fmt.neg (f : Fmt) (a : Nat) : Nat := f.encode (f.decode a).neg
def Fmt.abs (f : Fmt) (a : Nat) : Nat := f.encode (f.decode a).abs

def Fmt.fmin (f : Fmt) (a b : Nat) : Nat :=
  let x := f.decode a
  let y := f.decode b
  if x.isNan || y.isNan then f.nanBits else f.encode (if x.below y then x else y)

def Fmt.fmax (f : Fmt) (a b : Nat) : Nat :=
  let x := f.decode a
  let y := f.decode b
  if x.isNan || y.isNan then f.nanBits else f.encode (if x.below y then y else x)

def Fmt.lt (f : Fmt) (a b : Nat) : Bool := (f.decode a).lt (f.decode b)
def Fmt.le (f : Fmt) (a b : Nat) : Bool := (f.decode a).le (f.decode b)
def Fmt.eq (f : Fmt) (a b : Nat) : Bool := (f.decode a).eq (f.decode b)
def Fmt.nan (f : Fmt) (a : Nat) : Bool := (f.decode a).isNan

/-- An integer in a format. -/
def Fmt.ofInt (f : Fmt) (i : Int) : Nat := f.round (decide (i < 0)) i.natAbs 0 false

/-- Greatest integer magnitude not above a finite value's, and whether a fraction is dropped: below, at or above a
half. -/
def truncFin (m : Nat) (e : Int) : Nat × Nat × Nat :=
  if 0 ≤ e then (m * 2 ^ e.toNat, 0, 1)
  else
    let k := (-e).toNat
    (m / 2 ^ k, m % 2 ^ k, 2 ^ k)

/-- Round to an integer: to nearest even, or toward zero. -/
def FV.toIntBy (near : Bool) : FV → Option Int
  | .nan => none
  | .inf s => some (if s then -(2 ^ 200) else 2 ^ 200)
  | .fin s m e =>
    let (q, r, d) := truncFin m e
    let q' := if near && (d < 2 * r || (d == 2 * r && q % 2 == 1)) then q + 1 else q
    some (if s then -(q' : Int) else q')

/-- FTOI and FTRUNC: a signed 64-bit integer, 0 for NaN, clamped (R210). -/
def Fmt.toI64 (f : Fmt) (near : Bool) (a : Nat) : Int :=
  match (f.decode a).toIntBy near with
  | none => 0
  | some i => max (-(2 ^ 63)) (min (2 ^ 63 - 1) i)

/-- From one format to another. -/
def Fmt.cvt (f g : Fmt) (a : Nat) : Nat := g.encode (f.decode a)

/-! ### binary32 words -/

abbrev F := BitVec 32

def fw (n : Nat) : F := BitVec.ofNat 32 n
def fadd (a b : F) : F := fw (f32.add a.toNat b.toNat)
def fsub (a b : F) : F := fw (f32.sub a.toNat b.toNat)
def fmul (a b : F) : F := fw (f32.mul a.toNat b.toNat)
def fdiv (a b : F) : F := fw (f32.div a.toNat b.toNat)
def ffma (a b c : F) : F := fw (f32.fma a.toNat b.toNat c.toNat)
def fsqrt (a : F) : F := fw (f32.sqrt a.toNat)
def fneg (a : F) : F := fw (f32.neg a.toNat)
def fabs (a : F) : F := fw (f32.abs a.toNat)
def fmin (a b : F) : F := fw (f32.fmin a.toNat b.toNat)
def fmax (a b : F) : F := fw (f32.fmax a.toNat b.toNat)
def flt (a b : F) : Bool := f32.lt a.toNat b.toNat
def fle (a b : F) : Bool := f32.le a.toNat b.toNat
def feq (a b : F) : Bool := f32.eq a.toNat b.toNat
def fnan (a : F) : Bool := f32.nan a.toNat
def finf (a : F) : Bool := match f32.decode a.toNat with | .inf _ => true | _ => false
/-- Not finite. -/
def fbad (a : F) : Bool := fnan a || finf a
def ofInt32 (i : Int) : F := fw (f32.ofInt i)
def f64of (a : F) : Nat := f32.cvt f64 a.toNat
def f32of (a : Nat) : F := fw (f64.cvt f32 a)

/-- The binary32 nearest to n / d, ties to even. -/
def ofRat (neg : Bool) (n d : Nat) : F :=
  if d = 0 then fw f32.nanBits
  else
    let k := 30 + bitLen d
    fw (f32.round neg (n * 2 ^ k / d) (-(k : Int)) (n * 2 ^ k % d != 0))

end Sys2Proof.Machine
end

