-- ==== Sys2Proof/Machine/Ticks.lean ====
section
/-! DEFINITION. Machine/Ticks.lean: claims on an arbitrated resource, and which of them the rule of R27 takes; the arbitration
ticks of Table 1-5; and the commands that come in the same tick as the one in hand (01_levels_and_guarantees.md). -/

namespace Sys2Proof

/-- The instant that an event row carries; a request row and a cycle-core row follow the command before them. -/
def Instr.instant (c : Instr) : Option Nat :=
  match c with
  | .ctxEnable t .. | .ctxDisable t .. | .submissionDoorbell t .. | .completionDoorbell t .. | .descriptorFetch t ..
  | .descriptorRelease t .. | .irqHoldoffExpiry t .. | .pcieLinkDown t .. | .pcieLinkUp t .. | .drainEnd t ..
  | .staleReply t .. | .sidebandDatagram t .. | .sidebandDequeue t .. | .sbLinkChange t .. | .sbConfigWrite t ..
  | .helmTimeout t .. | .sbIdle t .. | .mirrorTimeout t .. | .presenceWindow t .. | .presenceWindowEnd t ..
  | .sessionTimeout t .. | .lockoutEnd t .. | .supplyGood t .. | .recoveryKeySequence t .. | .roleWaitEnd t ..
  | .claimDrive t .. | .claimSeen t .. | .claimRelease t .. | .restartInstant t .. | .holdInstant t ..
  | .recoveryReset t .. | .activateReset t .. | .leaveRecovery t .. | .moduleReset t .. | .cycleStart t ..
  | .harvestPoint t .. | .speculationStart t .. | .budgetWarning t .. | .watchdogTrip t .. | .loopSample t ..
  | .loopCommit t .. | .loopOutput t .. | .sampleSend t .. | .readSend t .. | .blockReceive t .. | .blockMissing t ..
  | .chainFrameSend t .. | .chainReply t .. | .replyTimeout t .. | .enumTimeout t .. | .balEnd t ..
  | .toneStateChange t .. | .toneReport t .. | .toneReportStale t .. | .loopOpen t .. | .currentLatch t ..
  | .estimation t .. | .publication t .. | .cellCommit t .. | .contactorTick t .. | .tripInputEdge t ..
  | .dieTemperature t .. | .pulseTest t .. | .switchFault t .. | .safetyPeriod t .. | .lockstepMismatch t ..
  | .proofDue t .. | .ringCycleOpen t .. | .c1Slot t .. | .linkFrameSend t .. | .dataFrameReceive t ..
  | .blockFrameReceive t .. | .dropImageReceive t .. | .tripFrameReceive t .. | .syncReceive t ..
  | .linkFrameReceive t .. | .serviceFrameReceive t .. | .tripFrameSend t .. | .syncTimeout t .. | .linkLost t ..
  | .unwrap t .. | .valueLost t .. | .dropLost t .. | .apply t .. | .relaySense t .. | .canEnable t ..
  | .canDisable t .. | .canIntegrated t .. | .recover t .. | .canSlotOpen t .. | .canSlotClose t ..
  | .canFrameSent t .. | .canFrameReceive t .. | .canSendExpiry t .. | .canRxTimeout t .. | .streamRecordTimeout t ..
  | .diDebounce t .. | .wireBreak t .. | .doShort t .. | .doRetry t .. | .mismatch t .. | .clConversion t ..
  | .miswire t .. | .miswireRetry t .. | .faiAperture t .. | .pulseEdge t .. | .lineFault t .. | .stalled t ..
  | .wdExpired t .. | .wdRefresh t .. | .fioSubscribeSample t .. | .springRamp t .. | .autumnRamp t ..
  | .rampStep t .. | .asyncWake t .. | .winterLoss t .. | .clockMonitorWindow t .. | .stoppedClock t ..
  | .refclkDelayExpiry t .. | .feedGood t .. | .feedLost t .. | .railFault t .. | .prsntNDeassert t ..
  | .powerDownReset t .. | .backupLost t .. | .osf t .. | .rtcCheck t .. | .rtcCommit t .. | .alarmFire t ..
  | .wakeTimeout t .. | .slewEnd t .. | .heartbeatSend t .. | .heartbeatMissed t .. | .heartbeatConfirm t ..
  | .twinLinkUp t .. | .laneDown t .. | .mirrorReceive t .. | .readbackDiff t .. | .digestCompare t ..
  | .selfTestDone t .. | .eccError t .. | .leadAliveWatchdog t .. | .yieldSafeTimeout t .. | .yieldNAssert t ..
  | .leadAliveDeassert t .. | .thaw t .. | .equinoxInstant t .. | .equinoxClaim t .. | .equinoxWindowEnd t ..
  | .drillDue t .. | .drillPostponed t .. | .drillCheck t .. | .exchangeImageStored t .. | .mappingInstant t ..
  | .syncTransferDone t .. | .joinInstant t .. | .recordWrite t .. | .summaryRecord t .. | .frameStart t ..
  | .frameCheck t .. | .keyPress t .. | .tripPageReset t .. | .ejectHold t .. | .menuTimeout t ..
  | .ejectLeverPulled t .. | .ejectRetry t .. | .ejectCancel t .. | .counterClear t .. | .rtcSecRead t ..
  | .clkMtRead t .. | .piStatusRead t .. | .bkupWrite t .. | .regionWrite t .. | .registerWrite t ..
  | .keelBroughtUp t .. | .leadAliveReadEnd t .. | .startSequenceComplete t .. | .flashStoreDone t ..
  | .passwordCheckDone t .. | .mirrorAck t .. | .heartbeatReceive t .. | .winterRecovered t .. | .pllLocked t ..
  | .correctedLinkError t .. | .ringLinkUp t .. | .busOffRecovered t .. | .basicCycleOpen t .. | .fioTestSettled t ..
  | .clTrimHold t .. | .forceRefresh t .. => some t
  | _ => none

end Sys2Proof

namespace Sys2Proof.Machine

/-! ### Claims (R27) -/

/-- A claim on a resource: its traffic class, the die it comes from, and its port, channel or context number. -/
structure Claim where
  cls : Nat := 0
  die : Nat := 0
  num : Nat := 0
  deriving DecidableEq, Repr, Inhabited

/-- One claim wins over another of the same tick: the lower class, then the lower die, then the lower number (R27). -/
def Claim.beats (a b : Claim) : Bool :=
  a.cls < b.cls || (a.cls == b.cls && (a.die < b.die || (a.die == b.die && a.num < b.num)))

/-- No other claim of the tick wins over this one (R27). -/
def Claim.wins (a : Claim) (others : List Claim) : Bool := !(others.any (fun b => b.beats a))

/-- Put what claims a resource into the order in which it is granted (R27). -/
def inOrder {α : Type} (key : α → Claim) (xs : List α) : List α :=
  xs.foldl (fun (done : List α) x =>
    done.takeWhile (fun y => !((key x).beats (key y))) ++ [x] ++ done.dropWhile (fun y => !((key x).beats (key y)))) []

/-! ### Ticks (Table 1-5) -/

/-- The Winter tick of an instant: cycles of 8.192 MHz, 1 024 in 125 us. -/
def winterTick (t : Nat) : Nat := t * 1024 / 125000

/-- The Winter tick of the module's clock now. -/
def State.winter (s : State) : Nat := winterTick s.now

/-- The commands at the front of a queue that come in the Winter tick of an instant (log 85). -/
def sameTick (now : Nat) : List Instr → List Instr
  | [] => []
  | c :: r =>
    let t := max now (c.instant.getD now)
    if winterTick t = winterTick now then c :: sameTick now r else []

/-- The commands that wait in the Winter tick of the one in hand. -/
def State.tickMates (s : State) : List Instr := sameTick s.now s.pending

end Sys2Proof.Machine
end

