-- ==== Sys2Proof/Machine/Flags.lean ====
section
/-! DEFINITION. Machine/Flags.lean: every register word of BAR0 as it reads, without a read's side effect: the status
and flag fields of each block, computed from the state (Tables 1-8 to 16-10). -/

namespace Sys2Proof.Machine

/-! ### ID and TILE blocks (Tables 1-9 to 1-14) -/

def State.idWord (s : State) (o : Nat) : Nat :=
  match o with
  | 0x000 => s.cfg.variant.part
  | 0x004 => 2
  | 0x008 => bits s.cfg.serial.toNat 0 32
  | 0x00C => bits s.cfg.serial.toNat 32 32
  | 0x010 => s.cfg.slotId.toNat
  | _ => 0

def tileStateCode : TileState → Nat
  | .absent => 0 | .gated => 1 | .spring => 2 | .on => 3 | .autumn => 4 | .fenced => 5 | .reset => 6 | .fault => 7

/-- TILEn registers; a die absent in the variant reads 0 (R45). -/
def State.tileWord (s : State) (n o : Nat) : Nat :=
  if !(s.diePresent n) then 0
  else
    let t := s.tile n
    match o with
    | 0x000 => fld 8 8 t.epoch + fld 1 3 (tileStateCode t.state) + 1
    | 0x004 => fld 0 2 t.policy
    | 0x008 => fld 25 7 (s.tileTasks n) + fld 15 10 (s.tileLoops n) + fld 0 15 (s.tileSats n)
    | 0x00C => t.retracted
    | 0x010 => t.stale
    | 0x014 => t.linkErr
    | _ => 0

/-! ### HOST block and context entries (Tables 2-2 to 2-7) -/

def ctxStateCode : CtxState → Nat
  | .disabled => 0 | .active => 1 | .stopped => 2 | .error => 3

/-- HOST.ERR_CTX: lowest context in ERROR, 0x100 when none. -/
def State.errCtx (s : State) : Nat :=
  match (List.range 256).find? (fun n => (s.ctx n).state == .error) with
  | some n => n
  | none => 0x100

def State.hostWord (s : State) (o : Nat) : Nat :=
  match o with
  | 0x000 => fld 8 4 s.host.width + fld 4 4 s.host.speed + fld 1 1 (b2n s.host.engine) + b2n s.host.link
  | 0x004 => s.host.linkEpoch
  | 0x008 => s.host.eventVector
  | 0x00C => s.host.eventCause.toNat
  | 0x010 => s.host.irqHoldoff
  | 0x014 => s.errCtx
  | 0x018 => s.host.doorbellDrop
  | _ => 0

def State.ctxWord (s : State) (n o : Nat) : Nat :=
  let c := s.ctx n
  match o with
  | 0x00 => bits c.sqBase.toNat 0 32
  | 0x04 => bits c.sqBase.toNat 32 32
  | 0x08 => bits c.cqBase.toNat 0 32
  | 0x0C => bits c.cqBase.toNat 32 32
  | 0x10 => fld 31 1 (b2n c.enable) + fld 30 1 (b2n c.stream) + fld 28 2 c.cls + fld 24 4 c.depthLog +
      fld 20 4 c.recLog + fld 8 6 c.vector
  | 0x14 => fld 24 8 c.epoch + fld 16 8 c.reason + fld 8 1 (b2n c.phase) + ctxStateCode c.state
  | 0x18 => c.sqHead
  | 0x1C => c.sqTail
  | 0x20 => c.cqTail
  | 0x24 => c.cqHead
  | 0x28 => c.inflight
  | 0x2C => c.drops
  | _ => 0

/-! ### MODE block (Tables 4-9 to 4-15) -/

/-- MODE.SNAP_CRC: the image CRC that the last valid units of all tasks of the image that a restart loads share, else 0
(R128). -/
def State.snapCrc (s : State) : Nat :=
  match s.prog.stored with
  | none => 0
  | some i =>
    match i.tasks.map (fun d => (tfind s.prog.units d.task).map (fun u => u.crc)) with
    | some c :: r => if r.all (· == some c) then c.toNat else 0
    | _ => 0

/-- Whole hours since the last drill, at most 0xFFFF; 0 while none has run (R376, Table 4-15). -/
def State.drillHours (s : State) : Nat :=
  if s.modes.drillResult = 0 then 0 else min 0xFFFF ((s.now - s.twin.lastDrill) / 3600000000000)

def State.modeWord (s : State) (o : Nat) : Nat :=
  let m := s.modes
  match o with
  | 0x000 => fld 24 8 m.cause + fld 15 1 (b2n m.trans.isSome) + fld 14 1 (b2n m.partner) + fld 13 1 (b2n m.detached) +
      fld 8 3 (roleCode m.role) + modeCode m.mode
  | 0x004 => fld 1 1 (b2n m.startRun) + b2n m.startWarm
  | 0x008 => fld 8 6 m.holdTask + fld 0 8 m.holdCause
  | 0x00C => fld 16 16 m.rstCount + fld 2 1 (b2n m.rstFallback) + fld 0 2 m.rstKind
  | 0x010 => bits m.rstMt 0 32
  | 0x014 => bits m.rstMt 32 32
  | 0x018 => fld 2 1 (b2n m.wakeOnTrip) + fld 1 1 (b2n m.wakeToRun) + b2n m.wakeOnAlarm
  | 0x01C => m.drillMinutes
  | 0x020 => fld 16 16 s.drillHours + fld 0 2 m.drillResult
  | 0x024 => s.snapCrc
  | _ => 0

/-! ### CLK, PWR and RTC blocks (Tables 15-5 to 15-10) -/

/-- Wake lead time in ns: 3 us + 5 dwells of 0.25 us units (R507). -/
def State.wakeLead (s : State) : Nat := 3000 + 1250 * s.clk.dwell

def State.clkWord (s : State) (o : Nat) : Nat :=
  let c := s.clk
  match o with
  | 0x000 => fld 6 1 (b2n c.refOk) + fld 5 1 (b2n c.int25Ok) + fld 4 1 (b2n c.fallback) + fld 0 2 c.source
  | 0x004 => c.refCtrl.toNat
  | 0x008 => c.dwell
  | 0x00C => s.wakeLead
  | 0x010 => fld 1 1 (b2n c.forced) + b2n c.failed
  | 0x014 => fld 31 1 (b2n s.cfg.ee.refPresent) + fld 30 1 (b2n s.cfg.ee.refFreq) + fld 0 14 s.cfg.ee.refDelay
  | 0x018 => c.switches
  | 0x01C => c.gateAborts
  | 0x020 => bits s.mt 0 32
  | 0x024 => c.mtLatch
  | 0x028 => fld 1 1 (b2n c.slewing) + b2n c.valid
  | _ => 0

/-- Input power in mW, the sum of both feeds (R522): mV times 10 mA units, by 100. -/
def State.inputPower (s : State) : Nat := (s.pwr.voltA * s.pwr.curA + s.pwr.voltB * s.pwr.curB) / 100

/-- Hottest die, the lowest number among equals (Table 15-8). -/
def State.hottest (s : State) : Nat × BitVec 16 :=
  (List.range (s.cfg.variant.tiles + 1)).foldl (fun (d, v) n =>
    let t := tget s.pwr.temps n 0
    if n ≠ 0 && v.toInt < t.toInt then (n, t) else (d, v)) (0, tget s.pwr.temps 0 0)

def State.pwrWord (s : State) (o : Nat) : Nat :=
  let p := s.pwr
  match o with
  | 0x000 => fld 7 1 (b2n p.warn.isSome) + fld 6 1 (b2n p.holdup) + fld 5 1 (b2n p.inrush) + fld 4 1 (b2n p.railOk) +
      fld 3 1 (b2n (16000 ≤ max p.voltA p.voltB)) + fld 1 1 (b2n p.feedB) + b2n p.feedA
  | 0x004 => fld 16 16 p.curA + fld 0 16 p.voltA
  | 0x008 => fld 16 16 p.curB + fld 0 16 p.voltB
  | 0x00C => fld 0 20 s.inputPower
  | 0x010 => fld 16 3 s.hottest.1 + s.hottest.2.toNat
  | 0x014 => fld 12 2 p.backupSrc + fld 0 12 p.backupMv
  | 0x018 => p.flags.toNat
  | 0x01C => p.feedLosses
  | _ => 0

def State.rtcWord (s : State) (o : Nat) : Nat :=
  let r := s.rtc
  match o with
  | 0x000 => s.rtcCivil.sec
  | 0x004 => r.snap.min
  | 0x008 => r.snap.hour
  | 0x00C => r.snap.day
  | 0x010 => r.snap.month
  | 0x014 => r.snap.year
  | 0x018 => r.snapSub
  | 0x01C => fld 5 1 (b2n r.wakeTimeout) + fld 4 1 (b2n r.wakeOut.isSome) + fld 3 1 (b2n r.alarm) +
      fld 2 1 (b2n r.bkupValid) + fld 1 1 (b2n r.backupLost) + b2n r.osf
  | _ =>
    if 0x020 ≤ o ∧ o < 0x030 then rd r.alarmBuf (o - 0x020) 4
    else if 0x080 ≤ o ∧ o < 0x100 then
      (if s.cfg.variant.hasBkup then (tget r.bkup ((o - 0x080) / 4) 0).toNat else 0)
    else 0

/-! ### SEC and MGMT blocks (Tables 3-11 to 3-16) -/

/-- Whole seconds left until an instant, rounded up. -/
def State.secsLeft (s : State) : Option Nat → Nat
  | none => 0
  | some e => ceilDiv (e - s.now) 1000000000

def State.secWord (s : State) (o : Nat) : Nat :=
  let c := s.sec
  match o with
  | 0x000 => (List.range 16).foldl (fun a n => a + (if (s.keySlot n).present then 2 ^ n else 0)) 0
  | 0x004 => fld 16 16 (s.secsLeft c.lockEnd) +
      fld 5 1 (b2n (match c.session with | some x => x.side | none => false)) + fld 2 3 c.fails +
      fld 1 1 (b2n c.session.isSome) + b2n c.verifier.isSome
  | 0x008 => c.authFails
  | 0x00C => c.stale
  | 0x010 => fld 3 1 (b2n c.fwPending.isSome) + fld 2 1 (b2n c.fwBValid) + fld 1 1 (b2n c.fwAValid) + b2n c.fwActiveB
  | 0x014 => c.fwMinVersion
  | _ =>
    if 0x040 ≤ o ∧ o < 0x080 then (s.keySlot ((o - 0x040) / 4)).mask.toNat
    else if 0x080 ≤ o ∧ o < 0x100 then bits (s.keySlot ((o - 0x080) / 8)).counter.toNat (o % 8 * 8) 32
    else 0

def holderCode : Holder → Nat
  | .host => 0 | .sideband => 1 | .free => 2

def State.mgmtWord (s : State) (o : Nat) : Nat :=
  let m := s.mgmt
  match o with
  | 0x000 => fld 8 8 m.lastCause + holderCode m.holder
  | 0x004 => m.helmTimeout
  | 0x008 => b2n m.autoTake
  | 0x00C => m.sbIdle
  | 0x010 => fld 8 3 m.sbQueue.length + fld 1 1 (b2n m.sbAmpl) + b2n m.sbLink
  | 0x014 => fld 1 1 (b2n m.anOff) + b2n m.lowAmpl
  | 0x018 => m.sbDrops
  | 0x020 => bits s.cfg.sbMac.toNat 0 32
  | 0x024 => bits s.cfg.sbMac.toNat 32 16
  | 0x040 => m.sbPrefix
  | 0x044 => fld 8 7 (s.secsLeft m.presenceEnd) + b2n m.presenceEnd.isSome
  | _ => if 0x030 ≤ o ∧ o < 0x040 then bits m.sbAddr.toNat ((o - 0x030) * 8) 32 else 0

/-! ### TRIP block (Tables 11-6 to 11-8) -/

def TripOut.nibble (t : TripOut) : Nat :=
  fld 3 1 (b2n t.switchFault) + fld 2 1 (b2n t.safeNow) + fld 1 1 (b2n t.latched) + b2n t.term

/-- A function awaits its demand test (R407, R410). -/
def SafeFn.testPending (f : SafeFn) : Bool := f.tested.any (fun b => !b)

def State.tripWord (s : State) (o : Nat) : Nat :=
  let t := s.trip
  match o with
  | 0x000 => fld 7 1 (b2n t.proofDue) + fld 6 1 (b2n t.lockstep) + fld 5 1 (b2n t.safetyRun) + fld 4 1 (b2n t.safetyBad) +
      fld 3 1 (b2n t.cfgBad) + fld 2 1 (b2n t.loaded) + fld 1 1 (b2n (s.modes.mode == .maintenance))
  | 0x004 => t.cfgCrc.toNat
  | 0x008 => t.safetyCrc.toNat
  | 0x00C => t.src.toNat
  | 0x010 => t.srcSeen.toNat
  | 0x014 => (List.range 8).foldl (fun a n => a + (s.tripOut n).nibble * 16 ^ n) 0
  | 0x018 => t.ward.toNat
  | 0x01C => t.fns.foldl (fun a f => if f.testPending then a + 2 ^ f.func else a) 0
  | 0x020 => t.switchFaults
  | _ =>
    if 0x100 ≤ o ∧ o < 0x180 then
      let x := s.tripOut ((o - 0x100) / 16)
      match o % 16 with
      | 0 => x.orMask.toNat
      | 4 => x.andMask.toNat
      | 8 => fld 16 16 x.pulseUs + x.ctrl.toNat
      | _ => 0
    else 0

/-! ### RING block (Tables 12-7 to 12-10) -/

def RingLink.word (l : RingLink) : Nat := fld 24 8 l.neighbour + fld 0 16 l.delay

/-- A link that is whole: it is up, and since it came up LINK frames have passed both ways for 16 ring cycles (R432). -/
def RingLink.whole (l : RingLink) : Bool := l.up && (!l.turned || 16 ≤ l.goodRun)

/-- A port's link trains since the relays opened: it has neither been whole nor been lost (R436). -/
def RingLink.training (l : RingLink) : Bool := l.turned && !l.lost

/-- The node takes part in the ring: relays open by Table 12-5, forces apart. -/
def State.ringActive (s : State) : Bool :=
  s.modes.powered && !s.modes.inReset && s.modes.mode != .recovery && (s.modes.mode != .startup || 5 ≤ s.modes.puStep) &&
  bits s.ring.node.toNat 0 8 != 0xFF

/-- Both ports lost (R446). -/
def State.isolated (s : State) : Bool :=
  s.ringActive && (s.ring.e.lost || s.ring.w.lost) && !s.ring.e.whole && !s.ring.w.whole

/-- RING.STATUS.STATE (Table 12-8). -/
def State.ringState (s : State) : Nat :=
  let r := s.ring
  if !s.ringActive then 0
  else if s.isolated then 6
  else if r.e.training || r.w.training then 1
  else if r.e.turned then 3
  else if r.w.turned then 4
  else
    match r.wrappedSeen with
    | some a => if s.now < a + 16 * (bits r.applied.cycle.toNat 0 10 * 1000) then 5 else 2
    | none => 2

def State.ringWord (s : State) (o : Nat) : Nat :=
  let r := s.ring
  match o with
  | 0x000 => fld 13 3 s.ringState + fld 8 1 (b2n r.cfgMismatch) + fld 7 1 (b2n r.w.forced) + fld 6 1 (b2n r.e.forced) +
      fld 5 1 (b2n r.w.relayClosed) + fld 4 1 (b2n r.e.relayClosed) + fld 2 1 (b2n (s.ringActive && s.modes.mode != .run)) + fld 1 1 (b2n r.w.up) +
      b2n r.e.up
  | 0x004 => r.node.toNat
  | 0x008 => r.written.cycle.toNat
  | 0x00C => r.written.config.toNat
  | 0x014 => r.applyResult.toNat
  | 0x018 => bits r.cycleNum 0 32
  | 0x01C => bits r.cycleNum 32 32
  | 0x020 => fld 16 8 r.master + fld 8 8 r.masterPrio +
      fld 0 3 (if s.modes.role == .follow && s.twinUp then 4 else r.timeState)
  | 0x024 => twos 32 r.timeOffset
  | 0x028 => r.e.word
  | 0x02C => r.w.word
  | 0x030 => r.wraps
  | 0x034 => r.crcErr
  | 0x038 => r.c1Late
  | 0x03C => r.dupId
  | 0x040 => r.dropErr
  | 0x048 => bits s.cfg.ringMac.toNat 0 32
  | 0x04C => bits s.cfg.ringMac.toNat 32 16
  | _ =>
    if 0x400 ≤ o ∧ o < 0x600 then (if o % 8 = 0 then (tget r.written.drops ((o - 0x400) / 8) 0x00041400).toNat else 0)
    else if 0x800 ≤ o ∧ o < 0x1000 then
      ((tget r.written.slots ((o - 0x800) / 32) [])[o % 32 / 4]?.getD 0).toNat
    else 0

/-! ### TWIN block (Tables 10-8 to 10-10) -/

/-- The partner drives CLAIM: it does so for 1 ms (R353). -/
def State.claimSeen (s : State) : Bool := match s.twin.claimSeen with | some c => s.now < c + 1000000 | none => false

def State.twinWord (s : State) (o : Nat) : Nat :=
  let t := s.twin
  match o with
  | 0x000 => fld 12 4 t.partnerRole + fld 10 2 t.mark + fld 9 1 (b2n t.selfTest.isSome) + fld 8 1 (b2n t.lost) +
      fld 4 1 (b2n s.slotB) + fld 1 1 (b2n t.inStep) + b2n s.twinUp
  | 0x004 => fld 5 1 (b2n (t.claimDrive || s.claimSeen)) + fld 4 1 (b2n t.claimDrive) +
      fld 3 1 (b2n (t.aliveDrive || t.aliveSeen)) + fld 2 1 (b2n t.aliveDrive) +
      fld 1 1 (b2n (t.yieldDrive || t.yieldSeen)) + b2n t.yieldDrive
  | 0x008 => fld 24 8 s.cfg.proto.toNat + fld 16 8 t.partnerProto + t.lanes.toNat
  | 0x00C => t.hbMissed
  | 0x010 => t.mirrorMax
  | 0x014 => t.digestMismatch
  | 0x018 => t.takeovers
  | 0x01C => fld 16 16 t.swapDur + fld 0 8 t.swapCause
  | 0x020 => bits t.swapMt 0 32
  | 0x024 => bits t.swapMt 32 32
  | 0x028 => bits t.partnerSerial.toNat 0 32
  | 0x02C => bits t.partnerSerial.toNat 32 32
  | 0x030 => fld 31 1 (b2n t.syncActive) + fld 28 3 t.syncPhase + fld 8 8 t.syncRefuse + fld 0 8 t.syncPercent
  | 0x034 => fld 31 1 (b2n t.exActive) + fld 28 3 t.exPhase + fld 0 16 t.exUnmatched
  | _ => 0

/-! ### REC and DSP blocks (Tables 16-8 to 16-10) -/

/-- Slots of the safety area are used up (R542). -/
def Recorder.safetyFull (r : Recorder) : Bool := r.nextSafety == 0x200000

def State.recWord (s : State) (o : Nat) : Nat :=
  let r := s.recd
  match o with
  | 0x000 => fld 16 16 r.queue.length + fld 2 1 (b2n (256 ≤ r.queue.length)) + fld 1 1 (b2n r.safetyFull) + b2n r.ready
  | 0x004 => r.nextRoutine
  | 0x008 => r.nextSafety
  | 0x010 => bits r.seq 0 32
  | 0x014 => bits r.seq 32 32
  | 0x018 => r.configCrc.toNat
  | 0x01C => r.queueDrops
  | 0x020 => r.suppressed
  | 0x024 => r.badSlots
  | 0x028 => r.erases
  | _ => 0

/-- The four bytes at a place of a list of bytes. -/
def listWord (b : List Byte) (o : Nat) : Nat := rd b o 4

def keyBit : Key → Nat
  | .mode => 1 | .select => 2 | .up => 4 | .down => 8

def State.dspWord (s : State) (o : Nat) : Nat :=
  let d := s.dsp
  match o with
  | 0x000 => fld 8 3 d.band + fld 3 1 (b2n (d.menu != 0)) + fld 2 1 (b2n d.latched) + fld 1 1 (b2n d.fault) + b2n d.on
  | 0x004 => d.temp.toNat
  | 0x008 => d.expectCrc.toNat
  | 0x00C => d.scanCrc.toNat
  | 0x010 => s.cfg.faultCrc.toNat
  | 0x014 => d.faults
  | 0x018 => d.pressed.foldl (fun a k => a + keyBit k) 0 + fld 4 1 (b2n d.lever)
  | _ =>
    if 0x020 ≤ o ∧ o < 0x030 then
      listWord ((List.range 16).map (fun g => tget d.grey g (BitVec.ofNat 8 (17 * g)))) (o - 0x020)
    else if 0x030 ≤ o ∧ o < 0x038 then listWord ((List.range 8).map (fun b => tget d.scale b 128)) (o - 0x030)
    else if 0x038 ≤ o ∧ o < 0x040 then listWord (d.limits.map (fun i => BitVec.ofInt 8 i) ++ [0]) (o - 0x038)
    else if 0x100 ≤ o ∧ o < 0x180 then bits (tget d.regions ((o - 0x100) / 8) 0).toNat (o % 8 * 8) 32
    else 0

/-! ### FIO block (Tables 14-7, 14-8) -/

/-- A bit per channel. -/
def mask (n : Nat) (f : Nat → Bool) : Nat := (List.range n).foldl (fun a i => if f i then a + 2 ^ i else a) 0

def Pi.status (p : Pi) : Nat :=
  fld 6 1 (b2n p.overRate) + fld 5 1 (b2n p.qerr) + fld 4 1 (b2n p.stalled) + p.lineFault.toNat

/-- A pulse input is lost for R245 (R491). -/
def Pi.lost (p : Pi) : Bool := p.lineFault != 0 || p.overRate

def State.clHighZ (s : State) (n : Nat) : Bool := s.highZ || bits (s.cl n).ctrl.toNat 0 2 == 0 || (s.cl n).miswire

/-- FIO.CL_STATUSn; `band`: 0 normal, 1 FAULT_LOW, 2 FAULT_HIGH, 3 RANGE (R481). -/
def State.clStatus (s : State) (n : Nat) : Nat :=
  let c := s.cl n
  fld 10 1 (b2n c.noData) + fld 9 1 (b2n (c.zero != 0 || c.span != 0)) + fld 8 1 (b2n (s.clHighZ n)) +
  fld 7 1 (b2n c.test.isSome) + fld 6 1 (b2n c.wdExpired) + fld 5 1 (b2n c.miswire) + fld 4 1 (b2n c.open_) +
  fld 3 1 (b2n c.compl) + fld 2 1 (b2n (c.band == 3)) + fld 1 1 (b2n (c.band == 2)) + b2n (c.band == 1)

/-- What a digital output's switch drives: its terminal value, off while SHORT has switched it off (R478). -/
def State.doDriven (s : State) (n : Nat) : Bool := (s.doTerm n).getD false && !(s.do_ n).short

def State.fioWord (s : State) (o : Nat) : Nat :=
  let f := s.fio
  match o with
  | 0x000 =>
    fld 8 1 (b2n ((List.range 16).any (fun n => (s.do_ n).test.isSome) || (List.range 8).any (fun n => (s.cl n).test.isSome)
      || (List.range 4).any (fun n => (s.fao n).test.isSome))) +
    fld 7 1 (b2n s.highZ) + fld 6 1 (b2n (f.faiOver != 0)) +
    fld 5 1 (b2n ((List.range 16).any (fun n => (s.do_ n).wdExpired) || (List.range 8).any (fun n => (s.cl n).wdExpired)
      || (List.range 4).any (fun n => (s.fao n).wdExpired))) +
    fld 4 1 (b2n ((List.range 4).any (fun n => (s.pulse n).lost))) +
    fld 3 1 (b2n ((List.range 8).any (fun n => (s.cl n).compl))) +
    fld 2 1 (b2n ((List.range 8).any (fun n => (s.cl n).band == 1 || (s.cl n).band == 2 || (s.cl n).open_ ||
      (s.cl n).miswire))) +
    fld 1 1 (b2n ((List.range 16).any (fun n => (s.do_ n).short || (s.do_ n).mismatch))) +
    b2n ((List.range 32).any (fun n => (s.di n).wb))
  | 0x004 => mask 32 (fun n => (s.di n).state)
  | 0x008 => mask 32 (fun n => (s.di n).wb)
  | 0x00C => f.wbEn.toNat
  | 0x010 => fld 16 16 (mask 16 (fun n => (s.do_ n).readback)) + mask 16 (fun n => s.doDriven n)
  | 0x014 => fld 16 16 (mask 16 (fun n => (s.do_ n).mismatch)) + mask 16 (fun n => (s.do_ n).short)
  | 0x018 => fld 24 4 (mask 4 (fun n => (s.fao n).wdExpired)) + fld 16 8 (mask 8 (fun n => (s.cl n).wdExpired)) +
      mask 16 (fun n => (s.do_ n).wdExpired)
  | 0x01C => f.faiShared
  | 0x020 => f.faiOver.toNat
  | _ =>
    if 0x100 ≤ o ∧ o < 0x180 then (s.di ((o - 0x100) / 4)).debounce
    else if 0x180 ≤ o ∧ o < 0x1C0 then (s.do_ ((o - 0x180) / 4)).cfg.toNat
    else if 0x1C0 ≤ o ∧ o < 0x240 then
      let c := s.cl ((o - 0x1C0) / 16)
      match o % 16 with
      | 0 => c.ctrl.toNat
      | 4 => c.lo.toNat
      | 8 => c.hi.toNat
      | _ => c.comp.toNat
    else if 0x240 ≤ o ∧ o < 0x260 then s.clStatus ((o - 0x240) / 4)
    else if 0x260 ≤ o ∧ o < 0x2A0 then
      let c := s.cl ((o - 0x260) / 8)
      if o % 8 = 0 then c.zero.toNat else c.span.toNat
    else if 0x2A0 ≤ o ∧ o < 0x2C0 then
      let c := s.fao ((o - 0x2A0) / 8)
      if o % 8 = 0 then c.cfg.toNat else c.safeV.toNat
    else if 0x2C0 ≤ o ∧ o < 0x2E0 then
      let c := s.pulse ((o - 0x2C0) / 8)
      if o % 8 = 0 then c.cfg.toNat else c.window
    else if 0x2E0 ≤ o ∧ o < 0x2F0 then (s.pulse ((o - 0x2E0) / 4)).status
    else if 0x800 ≤ o ∧ o < 0xC00 then (tget (s.cl ((o - 0x800) / 0x80)).table (o % 0x80 / 4) 0).toNat
    else 0

/-! ### CANn blocks (Tables 13-7, 13-8) -/

def State.canWord (s : State) (n o : Nat) : Nat :=
  let c := s.chan n
  match o with
  | 0x000 => fld 7 1 (b2n c.tdcValid) + fld 6 1 (b2n (c.enabled && !s.emits)) + fld 5 1 (b2n c.alone) + fld 4 1 (b2n c.synced) +
      fld 2 2 c.state + fld 1 1 (b2n c.matrix.isSome) + b2n c.enabled
  | 0x004 => fld 2 1 (b2n c.autoRecover) + b2n c.enabled
  | 0x008 => c.nbt.toNat
  | 0x00C => c.dbt.toNat
  | 0x010 => c.tdc.toNat + c.tdcv.toNat
  | 0x014 => fld 24 8 c.lastErr + (if c.enabled && !s.emits then 0 else fld 8 8 c.tec + fld 0 8 c.recv)
  | 0x018 => match c.matrix with | some m => m.crc.toNat | none => 0
  | 0x01C => c.cycle
  | 0x020 => c.txOk
  | 0x024 => c.rxOk
  | 0x028 => c.exclMiss
  | 0x02C => c.arbDrop
  | 0x030 => c.errFrames
  | 0x034 => c.busOffs
  | 0x038 => bits c.lastRx 0 32
  | 0x03C => bits c.lastRx 32 32
  | 0x040 => bits c.lastTx 0 32
  | 0x044 => bits c.lastTx 32 32
  | 0x048 => c.queue.length
  | _ => 0

/-! ### STRn blocks (Tables 8-18 to 8-20) -/

/-- STATE of a port (R315): a port of the plan that does not sweep yet, or found another number of satellites, is IDLE (log 112). -/
def State.portState (s : State) (n : Nat) : Nat :=
  if s.modes.mode == .dormant || s.modes.mode == .recovery then 3
  else if (s.portPlan n).isNone || !(s.port n).ready || s.modes.mode == .startup then 1
  else if (s.port n).probing then 4 else 2

def toneWord : Tone → Nat
  | .none => 0x03FF
  | .healthy => 0x43FF
  | .origin i => 0x8000 + i.toNat
  | .fault => 0xC3FF

/-- BAL_PHASE of a port, sweeps per phase: byte 0x0E of CFG, byte 2 of the plan's CFG fields (Tables 8-8, 8-16). -/
def PortPlan.balPhase (p : PortPlan) : Nat := rd p.cfg 2 1

/-- The phase of the last sweep is odd (R291). -/
def State.balOdd (s : State) (n : Nat) : Bool :=
  match s.portPlan n with
  | none => false
  | some p =>
    match (s.port n).sweeps with
    | [] => false
    | w :: _ => p.balPhase != 0 && w.seq % 65536 / p.balPhase % 2 == 1

def State.strWord (s : State) (n o : Nat) : Nat :=
  if !(s.bonded n) then 0
  else
    let p := s.port n
    match o with
    | 0x000 => fld 16 10 p.found + fld 12 2 p.tripSrc + fld 8 4 p.chain + fld 6 2 s.ends + fld 1 3 (s.portState n) + 1
    | 0x004 => match s.portPlan n with | some e => fld 31 1 1 + fld 0 10 e.sats | none => 0
    | 0x008 => match s.portPlan n with | some e => fld 16 16 e.lastMask.toNat + e.cellMask.toNat | none => 0
    | 0x00C => toneWord (s.toneAt n true) * 65536 + toneWord (s.toneAt n false)
    | 0x010 => (match p.reachB with | some i => i | none => 0x8000) * 65536 +
        (match p.reachA with | some i => i | none => 0x8000)
    | 0x014 => bits p.seq 0 32
    | 0x018 => bits p.sweepMt 0 32
    | 0x01C => bits p.sweepMt 32 32
    | 0x020 => fld 16 10 p.infoPath + fld 0 10 p.infoNot
    | 0x024 => p.hbPeriod
    | 0x028 => p.crcErr
    | 0x02C => p.timeouts
    | 0x030 => p.satResets
    | 0x034 => p.breaks
    | 0x038 => fld 31 1 (b2n (p.balOn.any (fun e => e.2 != 0))) + fld 30 1 (b2n (s.balOdd n)) +
        fld 16 10 p.balPhased.length + fld 0 10 ((p.balOn.filter (fun e => e.2 != 0)).length)
    | 0x03C => fld 31 1 (b2n p.probing) + fld 0 2 p.probeGroup
    | _ =>
      if 0x800 ≤ o ∧ o < 0x1000 then
        let d := tget p.delays ((o - 0x800) / 4) (none, none)
        let half (x : Option Nat) : Nat := match x with | some v => min 0xFFFE (v / 2) | none => 0xFFFF
        half d.2 * 65536 + half d.1
      else 0

/-! ### BAR0 -/

/-- The block at an offset reads 0 by R45 or R17 (for R539). -/
def State.blockAbsent (s : State) (off : Nat) : Bool :=
  let b := off / 0x1000
  (0x20 ≤ b && b < 0x30 && !(s.bonded (b - 0x20))) || (0x40 ≤ b && b < 0x47 && !(s.diePresent (b - 0x40 + 1)))

/-- The aligned 32-bit word at a BAR0 offset; an offset of no register reads 0 (R43, R44, R54). -/
def State.regWord (s : State) (off : Nat) : Nat :=
  let b := off / 0x1000
  let o := off % 0x1000 / 4 * 4
  match b with
  | 0x0 => s.idWord o
  | 0x1 => s.hostWord o
  | 0x2 => s.modeWord o
  | 0x3 => s.clkWord o
  | 0x4 => s.pwrWord o
  | 0x5 => s.rtcWord o
  | 0x6 => s.secWord o
  | 0x7 => s.tripWord o
  | 0x8 => s.ringWord o
  | 0x9 => s.twinWord o
  | 0xA => s.recWord o
  | 0xB => s.dspWord o
  | 0xC => s.fioWord o
  | 0xD => s.mgmtWord o
  | _ =>
    if 0x10 ≤ b ∧ b < 0x18 then s.canWord (b - 0x10) o
    else if 0x20 ≤ b ∧ b < 0x30 then s.strWord (b - 0x20) o
    else if 0x40 ≤ b ∧ b < 0x47 then s.tileWord (b - 0x40 + 1) o
    else if 0x80 ≤ b ∧ b < 0x84 then s.ctxWord ((off - 0x80000) / 0x40) (off % 0x40 / 4 * 4)
    else 0

/-- n bytes of BAR0 from an offset, as they read (R539: without a read's side effect). -/
def State.regBytes (s : State) (off n : Nat) : List Byte :=
  (List.range n).map (fun i => BitVec.ofNat 8 (s.regWord (off + i) / 256 ^ ((off + i) % 4)))

end Sys2Proof.Machine
end

