-- ==== Sys2Proof/Machine/Events.lean ====
section
/-! DEFINITION. Machine/Events.lean: event triggers, token buckets, snapshots and the record as stored
(16_recorder_and_panel.md). -/

namespace Sys2Proof.Machine

/-- Units of one token: a bucket refills at RATE units per ns, so one token is 60 x 10^9 units (R541). -/
def tokenUnit : Nat := 60000000000

/-- Codes of the safety area (R542). -/
def safetyCode (c : Nat) : Bool := c == 0x0310 || (0x0400 ≤ c && c < 0x0500)

/-- Tokens of a bucket at an instant (R541). -/
def CodeCfg.refill (c : CodeCfg) (now : Nat) : Nat :=
  min (c.burst * tokenUnit) (c.tokens + c.rate * (now - c.tokensAt))

/-- A snapshot item as it is read now: kind, length, reference, value; none where it cannot be read (R539). -/
def State.snapItem (s : State) (item : List Byte) : (Nat × Nat × BitVec 32 × List Byte) × Bool :=
  let kind := rd item 0 1
  let len := rd item 1 1
  let ref := rdW item 4
  if kind = 1 then
    if s.blockAbsent ref.toNat then ((kind, len, ref, zeros len), true)
    else ((kind, len, ref, s.regBytes ref.toNat len), false)
  else if s.varValid .read ref len then ((kind, len, ref, leBytes len (s.varValue ref len).1), false)
  else ((kind, len, ref, zeros len), true)

/-- The record of a trigger of a code, with its event data words (R536). -/
def State.mkRec (s : State) (code : Nat) (data : List Nat) (suppressed : Nat) : Rec :=
  let snaps := (s.code code).items.map s.snapItem
  { code := code
    data := data.map (BitVec.ofNat 64)
    items := snaps.map (·.1)
    seq := s.recd.seqAssigned + 1
    mt := s.mt
    suppressed := suppressed
    boot := s.recd.boot
    mode := modeCode s.modes.mode
    role := roleCode s.modes.role
    partialFlag := snaps.any (·.2)
    mtInvalid := !s.clk.valid }

/-- Entries of the queue that routine records may use: 64 of the 512 are held for safety codes (R543). -/
def routineRoom (q : List Rec) : Bool := (q.filter (fun r => !safetyCode r.code)).length < 448 && q.length < 512

/-- The recorder after a trigger: a record enters the queue, or it is suppressed and counted (R541, R543). -/
def State.trigger (s : State) (code : Nat) (data : List Nat) : Recorder :=
  let r := s.recd
  let c := s.code code
  let tk := c.refill s.now
  if safetyCode code then
    { r with queue := r.queue ++ [s.mkRec code data c.suppressed], seqAssigned := r.seqAssigned + 1
             cfg := tset r.cfg code { c with suppressed := 0 } }
  else if tk < tokenUnit then
    { r with suppressed := satInc r.suppressed
             cfg := tset r.cfg code { c with tokens := tk, tokensAt := s.now, suppressed := c.suppressed + 1 } }
  else if !(routineRoom r.queue) then
    { r with suppressed := satInc r.suppressed, queueDrops := satInc r.queueDrops, dropped := r.dropped + 1
             cfg := tset r.cfg code { c with tokens := tk, tokensAt := s.now, suppressed := c.suppressed + 1 } }
  else
    { r with queue := r.queue ++ [s.mkRec code data c.suppressed], seqAssigned := r.seqAssigned + 1
             cfg := tset r.cfg code { c with tokens := tk - tokenUnit, tokensAt := s.now, suppressed := 0 } }

/-- An event trigger of a code with its data words. -/
def State.event (s : State) (code : Nat) (data : List Nat := []) : State := { s with recd := s.trigger code data }

/-- Module time becomes valid, with event 0x0201 (R519). -/
def State.timeValid (s : State) : State :=
  if s.clk.valid then s else ({ s with clk := { s.clk with valid := true } }).event 0x0201

/-- A signed event field. -/
def ev (i : Int) : Nat := twos 64 i

/-- FLAGS of a record (Table 16-2); OVERFLOW where a safety record stands in the routine area. -/
def Rec.flags (r : Rec) : Nat :=
  fld 4 1 (b2n r.summary) + fld 3 1 (b2n r.partialFlag) + fld 2 1 (b2n r.mtInvalid) + fld 1 1 (b2n r.overflow) +
  b2n (safetyCode r.code)

/-- A snapshot item as it stands in a record (Table 16-3). -/
def itemBytes (i : Nat × Nat × BitVec 32 × List Byte) : List Byte :=
  u8 i.1 ++ u8 i.2.1 ++ zeros 2 ++ u32 i.2.2.1.toNat ++ i.2.2.2 ++ zeros (ceilDiv i.2.1 8 * 8 - i.2.1)

/-- Bytes 0x000 to 0x1F7 of a record (R536, Table 16-1). -/
def State.recHead (s : State) (r : Rec) : List Byte :=
  let body := r.data.flatMap (fun w => u64 w.toNat) ++ r.items.flatMap itemBytes
  u16 0x4556 ++ u16 r.code ++ u16 r.flags ++ u8 (8 * r.data.length) ++ u8 r.items.length ++ u64 r.seq ++ u64 r.mt ++
  u32 r.suppressed ++ u32 r.boot ++ u8 r.mode ++ u8 r.role ++ zeros 14 ++ u64 s.cfg.serial.toNat ++ zeros 8 ++
  body ++ zeros (440 - body.length)

/-- The 512 bytes of a stored record (R536, Table 16-4). -/
def State.recBytes (s : State) (r : Rec) : List Byte :=
  let h := s.recHead r
  h ++ u32 0x4B4F4356 ++ u32 (crc32 h).toNat

end Sys2Proof.Machine
end

