-- ==== Sys2Proof/Machine/Host.lean ====
section
/-! DEFINITION. Machine/Host.lean: messages, contexts, completions, stream records and doorbells
(02_host_rings.md), and the helm's holder, which completions and checks depend on (R91, R92). -/

namespace Sys2Proof.Machine

/-! ### MSI-X messages and module events -/

/-- The message of a vector, at once or one later when the hold-off has elapsed (R62, HOST.IRQ_HOLDOFF); a masked vector's
stays in the pending-bit array (R49, log 86). Whether the PCIe link is up makes no difference here: DESIGN CHOICE, log 87
(R79 names completions and records only). -/
def State.msix (s : State) (v : Nat) : State :=
  let e := tget s.host.vecs v {}
  let early : Bool := match e.last with
    | some l => s.now < l + s.host.irqHoldoff * 1000
    | none => false
  if e.masked then { s with host := { s.host with vecs := tset s.host.vecs v { e with pending := true } } }
  else if early then { s with host := { s.host with vecs := tset s.host.vecs v { e with deferred := true } } }
  else { s with host := { s.host with vecs := tset s.host.vecs v { e with last := some s.now, deferred := false } }
                out := .msix v :: s.out }

/-- Cause bits of HOST.EVENT_CAUSE (Table 2-4). -/
def causeMode : Nat := 0
def causeRole : Nat := 1
def causeHelm : Nat := 2
def causeCtx : Nat := 3
def causeLink : Nat := 4
def causeTrip : Nat := 5

/-- A cause bit sets; the event message is sent unless a cause bit was already set (R53). -/
def State.cause (s : State) (b : Nat) : State :=
  let s1 := { s with host := { s.host with eventCause := s.host.eventCause ||| BitVec.ofNat 6 (2 ^ b) } }
  if s.host.eventCause = 0 then s1.msix s.host.eventVector else s1

/-! ### Contexts -/

def Ctx.depth (c : Ctx) : Nat := 2 ^ c.depthLog

/-- Completions not yet consumed by host software. -/
def Ctx.unread (c : Ctx) : Nat := (c.cqTail + c.depth - c.cqHead) % c.depth

/-- The next completion or record slot after the tail, with the phase of the pass it starts (R61). -/
def Ctx.advance (c : Ctx) : Ctx :=
  if c.cqTail + 1 < c.depth then { c with cqTail := c.cqTail + 1 }
  else { c with cqTail := 0, phase := !c.phase }

/-- Host memory takes the module's writes to the rings of a context now (R65). -/
def State.memTakes (s : State) (c : Ctx) : Bool := match c.memFailAt with | some f => s.now < f | none => true

/-- A context enters ERROR with a reason (Table 2-7) and writes nothing more (R55, R59). ENABLE reads 0: the spec says so of a
failed enable (R55); after reasons 5, 6 and 7 it is DESIGN CHOICE, log 88. -/
def State.ctxError (s : State) (n reason : Nat) : State :=
  (s.setCtx n { s.ctx n with state := .error, reason := reason, enable := false }).cause causeCtx

/-- One completion entry on a context, and its message (R61, R62). A failed write puts the context in ERROR with
reason 7; a STOPPED or ERROR context's completions are discarded (R59, R79). -/
def State.postEntry (s : State) (n : Nat) (tag : BitVec 32) (status flags : Nat) (result : BitVec 64) (irq : Bool) :
    State :=
  let c := s.ctx n
  if c.state != .active then s
  else if !(s.memTakes c) then s.ctxError n 7
  else
    let s1 := (s.setCtx n c.advance).emit (.completion n c.cqTail tag status (flags + b2n c.phase) result)
    if irq then s1.msix c.vector else s1

/-! ### Completions of requests -/

/-- Station-scoped opcodes (R579). -/
def stationOp (op : Nat) : Bool :=
  [0x0101, 0x0102, 0x0103, 0x0104, 0x0105, 0x0201, 0x0202, 0x0203, 0x0204, 0x0205, 0x0300, 0x0301, 0x0302,
   0x0400, 0x0401, 0x0402, 0x0403, 0x0404, 0x0405, 0x0503, 0x0504, 0x0701, 0x0702, 0x0800 + 1, 0x0802, 0x0803,
   0x0808].contains op

/-- Critical opcodes (Tables 2-14, 3-3). -/
def criticalOp (op : Nat) : Bool :=
  [0x0101, 0x0102, 0x0103, 0x0104, 0x0105, 0x0106, 0x0201, 0x0202, 0x0203, 0x0204, 0x0205, 0x0300, 0x0301, 0x0302,
   0x0400, 0x0401, 0x0403, 0x0404, 0x0405, 0x0501, 0x0701, 0x0801, 0x0802, 0x0803, 0x0805, 0x0807, 0x0808,
   0x0880, 0x0881, 0x0882, 0x0901, 0x0902, 0x0B02].contains op

/-- The module leads a pair whose follower is not lost and not detached (R69). -/
def State.leadsPair (s : State) : Bool := s.modes.role == .lead && s.modes.partner && !s.twin.lost && s.twin.mark != 2

/-- A good frame of any kind has come from the partner: its window is not missed (R352). -/
def State.goodFrame (s : State) : State := { s with twin := { s.twin with hbRun := 0, hbLastRx := s.now } }

/-- This module follows a lead. -/
def State.follows (s : State) : Bool := s.modes.role == .follow && s.modes.partner && !s.modes.detached && !s.twin.lost

/-- The module answers: it is powered and not in a module reset. -/
def State.live (s : State) : Bool := s.modes.powered && !s.modes.inReset

/-- The header of a side-band response (Table 3-1). -/
def respHead (r : Req) (status flags paylen : Nat) (result : BitVec 64) : List Byte :=
  u16 0x4C58 ++ u8 1 ++ u8 1 ++ u16 r.opcode ++ u16 (bits r.flags.toNat 0 2) ++ u32 r.tag.toNat ++ u16 status ++
  u16 paylen ++ u64 result.toNat ++ u32 (flags / 2 * 2) ++ zeros 4

/-- A side-band response: the trailer is signed for a critical request past step 4, under the key that checked it (R85). -/
def sbResponse (r : Req) (signed : Bool) (status flags : Nat) (result : BitVec 64)
    (data : List Byte) : List Byte :=
  let head := respHead r status flags data.length result ++ data
  if signed then
    let body := head ++ u64 r.counter.toNat ++ u8 r.keySlot ++ zeros 7
    body ++ cmac r.key body
  else head ++ zeros 32

/-- Send a side-band response, and keep it with its request when it is critical (R83, R87). -/
def State.respond (s : State) (peer : Peer) (r : Req) (signed : Bool) (status flags : Nat) (result : BitVec 64)
    (data : List Byte) : State :=
  let resp := sbResponse r signed status flags result data
  { s with
    out := .sbResponse peer resp :: s.out
    mgmt := { s.mgmt with
      sbInHand := if s.mgmt.sbInHand == some r.rid then none else s.mgmt.sbInHand
      replay := if criticalOp r.opcode then ((peer, r.raw, resp) :: s.mgmt.replay).take 8 else s.mgmt.replay } }

/-- INFLIGHT goes down by one; a context being disabled becomes DISABLED at 0 (R56). -/
def State.ctxDone (s : State) (n : Nat) : State :=
  let c := s.ctx n
  let k := c.inflight - 1
  s.setCtx n { c with inflight := k, state := if c.state == .active && !c.enable && k == 0 then .disabled else c.state }

/-- Write the completion of a request, with returned data first (R61, R62, R65). -/
def State.finish (s : State) (r : Req) (status flags : Nat) (result : BitVec 64) (data : Option (List Byte)) : State :=
  let s0 := { s with host := { s.host with reqs := s.host.reqs.filter (fun q => q.rid != r.rid) } }
  match r.src with
  | .side peer => s0.respond peer r (criticalOp r.opcode) status flags result (data.getD [])
  | .host n =>
    if 256 ≤ n then s0
    else
      let irq := !bit r.flags.toNat 2
      match data with
      | none => (s0.postEntry n r.tag status flags result irq).ctxDone n
      | some d =>
        if r.bufOk then ((s0.emit (.bufWrite r.rid r.bufAddr d)).postEntry n r.tag status flags result irq).ctxDone n
        else (s0.postEntry n r.tag 0x0A 0 6 irq).ctxDone n

/-- Change the request of a number. -/
def State.updReq (s : State) (rid : Nat) (f : Req → Req) : State :=
  { s with host := { s.host with reqs := s.host.reqs.map (fun q => if q.rid == rid then f q else q) } }

def State.findReq (s : State) (rid : Nat) : Option Req := s.host.reqs.find? (fun q => q.rid == rid)

/-- A change-log record of a request is not yet written (R112). -/
def State.logPending (s : State) (rid : Nat) : Bool := s.recd.logWaits.any (fun w => w.2 == rid)

/-- Status codes (Table 2-13). -/
def stOk : Nat := 0x00
def stBusy : Nat := 0x01
def stSuperseded : Nat := 0x02
def stRetracted : Nat := 0x03
def stAuthFail : Nat := 0x04
def stStale : Nat := 0x05
def stModeDenied : Nat := 0x06
def stAdmission : Nat := 0x07
def stHelmHeld : Nat := 0x08
def stForced : Nat := 0x09
def stBad : Nat := 0x0A
def stNotPresent : Nat := 0x0B
def stMedia : Nat := 0x0C
def stRoleDenied : Nat := 0x0D
def stPassword : Nat := 0x0E

/-- Module time at which a request was accepted: now, or at the lead for one that it mirrored. -/
def State.accMt (s : State) (r : Req) : Nat := if r.acc = 0 then s.mt else r.acc

/-- The party that sent a request: 0 host, 1 side-band (Table 3-8). A request that a follower carries out for its lead has
source 256, or 257 for the side-band. -/
def Req.actor (r : Req) : Nat :=
  match r.src with | .host n => if n = 257 then 1 else 0 | .side _ => 1

/-- A request that a follower carries out for its lead. -/
def Req.fromLead (r : Req) : Bool := match r.src with | .host n => n == 256 || n == 257 | .side _ => false

/-- An accepted station-scoped request goes to the follower, once; the helm's goes as a change of holder (R69, R359). -/
def State.mirrorReq (s : State) (r : Req) : State :=
  if stationOp r.opcode && s.leadsPair && !r.mirrored && !([0x0801, 0x0802, 0x0808].contains r.opcode) then
    (s.updReq r.rid (fun q => { q with
      mirrored := true, needAck := true, mirrorAt := if q.needAck then q.mirrorAt else s.now })).emit (.mirror (.request
      r.opcode (s.accMt r)
      (if r.opcode == 0x0101 then BitVec.ofNat 64 r.actor else r.target)
      (if r.opcode == 0x0103 || r.opcode == 0x0104 then 0
       else if r.opcode == 0x0803 then BitVec.ofNat 32 (r.keySlot + 256 * r.actor) else r.aux)
      (if r.opcode == 0x0803 then r.buf.take 32 ++ u64 r.counter.toNat else r.buf)))
  else s

/-- A status under which a command took effect (Table 2-13): OK, or OK with variables still forced. -/
def carriedOut (status : Nat) : Bool := status == stOk || status == stForced

/-- The fabric transactions of a request are answered (R22). -/
def State.answered (s : State) (rid : Nat) : State := { s with fabric := s.fabric.filter (fun x => x.rid != rid) }

/-- Complete a request: at once, or once what it mirrors is acknowledged and its change-log record is written (R68, R112).
STATION is set where a pair's lead carried a station-scoped opcode out in both modules, and the opcode goes to the follower
(R69, Table 2-12, R359). A follower that itself accepts such an opcode (HELM_TAKE, HELM_RELEASE, RTC_ALARM) writes STATION 0:
DESIGN CHOICE, log 89. -/
def State.complete (s : State) (r : Req) (status : Nat) (result : Nat := 0) (flags : Nat := 0)
    (data : Option (List Byte) := none) : State :=
  let station := stationOp r.opcode && s.leadsPair && carriedOut status
  let fl := if station then flags ||| 8 else flags
  let s := s.answered r.rid
  let s := if carriedOut status then s.mirrorReq r else s
  let need : Bool := match s.findReq r.rid with | some q => q.needAck | none => r.needAck
  if need || s.logPending r.rid then
    s.updReq r.rid (fun q => { q with phase := .running, held := some (status, fl, BitVec.ofNat 64 result) })
  else s.finish r status fl (BitVec.ofNat 64 result) data

/-- Release the held completion of a request when nothing holds it any more. -/
def State.release (s : State) (rid : Nat) : State :=
  match s.findReq rid with
  | none => s
  | some r =>
    match r.held with
    | none => s
    | some (st, fl, res) => if r.needAck || s.logPending rid then s else s.finish r st fl res none

/-- Value of a target handle (R64). -/
def Req.value (r : Req) : Nat := bits r.target.toNat 0 32

/-- Kind of a target handle (R64). -/
def Req.kind (r : Req) : Nat := bits r.target.toNat 56 8

/-- The tile of a task of the loaded image. -/
def State.taskDie (s : State) (n : Nat) : List Nat := match s.taskDef n with | some d => [d.die] | none => []

/-- The tiles that hold the cell records of a port in the plan in effect. -/
def State.portDies (s : State) (n : Nat) : List Nat :=
  match s.cells.plan, s.portPlan n with
  | some c, some p => ((List.range p.sats).filterMap (c.tileOf s.cfg.variant.tiles n)).eraseDups
  | _, _ => []

/-- Opcodes whose buffer lists variables from offset 16 (R73 to R75, R179). -/
def varOp (op : Nat) : Bool := [0x0203, 0x0204, 0x0207, 0x0208].contains op

/-- Dies that a request needs: those that TARGET names by its kind, the tile of a satellite, and the tiles of the variables
that its buffer lists, or of every force that FORCE_RELEASE lifts (R14, R38, R509). -/
def State.reqDies (s : State) (r : Req) : List Nat :=
  let v := r.value
  match r.kind with
  | 7 => [v]
  | 2 => [bits v 13 3]
  | 14 => s.taskDie v
  | 1 => s.taskDie (handleTask (BitVec.ofNat 32 v))
  | 3 => if r.opcode == 0x0406 then s.portDies v else []
  | 4 => match s.cells.plan with
    | some c => ((c.tileOf s.cfg.variant.tiles (v / 8192) (v % 8192 / 16)).map (fun d => [d])).getD []
    | none => []
  | _ =>
    if varOp r.opcode then (List.range (rd r.buf 0 2)).flatMap (fun i => s.taskDie (handleTask (rdW r.buf (16 + 16 * i))))
    else if r.opcode == 0x0205 then s.prog.forces.flatMap (fun f => s.taskDie (handleTask f.handle))
    else []

/-- A die that takes no new request: fenced, at a fault too, or in reset (R37, R38). -/
def State.fenced (s : State) (n : Nat) : Bool :=
  (s.tile n).state == .fenced || (s.tile n).fencedAt.isSome || (s.tile n).state == .reset

/-- Carry out a request that is ready for step 9 and has the command's opcode; anything else has no effect. A request to
a fenced die completes BUSY (R38). -/
def State.onReq (s : State) (rid op : Nat) (k : Req → State) : State :=
  match s.findReq rid with
  | some r =>
    if r.phase != .ready || r.opcode != op then s
    else if (s.reqDies r).any s.fenced then s.complete r stBusy
    else k r
  | none => s

/-- Traffic class of a request: its context's, or C3 for one from the side-band port or mirrored by the lead (R23, Table
1-4). -/
def State.reqClass (s : State) (r : Req) : Nat :=
  match r.src with | .host n => if n < 256 then (s.ctx n).cls else 3 | .side _ => 3

/-- The fabric transactions that a request from the keel issues, each with the epoch of its target die (R22, R23). -/
def State.xacts (s : State) (r : Req) : List Xact :=
  (((s.reqDies r).filter (fun d => d != 0)).eraseDups).map (fun d =>
    { rid := r.rid, src := 0, die := d, cls := s.reqClass r, epoch := (s.tile d).epoch })

/-- The request goes on after its command: its completion comes later, and what it sent to its dies is outstanding (R66,
R38). -/
def State.running (s : State) (rid : Nat) : State :=
  let s1 := match s.findReq rid with
    | some r => { s.mirrorReq r with fabric := (s.answered rid).fabric ++ s.xacts r }
    | none => s
  s1.updReq rid (fun q => { q with phase := .running })

/-- A change-log record, event 0x0310 with the 24 bytes of Table 3-8 as three words (R112). -/
def State.changeLog (s : State) (op actor slot old new target counter : Nat) : State :=
  s.event 0x0310 [op + actor * 2 ^ 16 + slot * 2 ^ 24 + old * 2 ^ 32, new + target * 2 ^ 32, counter]

/-- The change-log record of a request, which holds back its completion until it is written (R112). -/
def State.logChange (s : State) (r : Req) (old new target : Nat) : State :=
  let s1 := s.changeLog r.opcode r.actor r.keySlot old new target r.counter.toNat
  { s1 with recd := { s1.recd with logWaits := s1.recd.logWaits ++ [(s1.recd.seqAssigned, r.rid)] } }

/-! ### Stream records (R77, R78) -/

/-- Split items into records of at most `room` payload bytes, whole items only, filled from the front. An item that is larger
than `room` by itself is posted as one record of its own length: DESIGN CHOICE, log 90 (R77 asks for whole items). -/
def splitItems (room : Nat) : List (List Byte) → List (List Byte) → List (List (List Byte))
  | [], cur => if cur.isEmpty then [] else [cur]
  | i :: r, cur =>
    if cur.isEmpty || (cur.flatten ++ i).length ≤ room then splitItems room r (cur ++ [i])
    else cur :: splitItems room r [i]

/-- Post one record of a delivery (Table 2-15). A full ring drops it; an inactive context drops it (R78, R79): a record so
dropped advances SEQ and counts neither in DROPS nor toward LOSS, and the first record of a subscription has SEQ 0: DESIGN
CHOICE, log 91. -/
def State.postRecord (s : State) (h : BitVec 32) (stamp : Nat) (frag : Nat) (first last : Bool) (payload : List Byte) :
    State :=
  match s.host.subs.find? (fun x => x.handle == h) with
  | none => s
  | some x =>
    let c := s.ctx x.ctx
    let subs' := s.host.subs.map (fun y => if y.handle == h then { y with seq := (y.seq + 1) % 2 ^ 32 } else y)
    let s1 := { s with host := { s.host with subs := subs' } }
    if c.state != .active then s1
    else if c.unread + 1 = c.depth then s1.setCtx x.ctx { c with drops := satInc c.drops, loss := true }
    else if !(s.memTakes c) then s1.ctxError x.ctx 7
    else
      let fl := b2n c.loss + fld 1 1 (b2n first) + fld 2 1 (b2n last)
      let hdr := u16 x.opcode ++ u16 fl ++ u32 h.toNat ++ u64 stamp ++ u32 x.seq ++ u16 frag ++ u16 payload.length ++
        zeros 8
      let s2 := s1.setCtx x.ctx ({ c with loss := false }.advance)
      let s3 := s2.emit (.record x.ctx c.cqTail (hdr ++ payload))
      let res := x.seq + c.cqTail * 2 ^ 32
      (s3.emit (.completion x.ctx c.cqTail h 0 (fld 2 1 (b2n c.loss) + b2n c.phase) (BitVec.ofNat 64 res))).msix c.vector

/-- Post a delivery of whole items, in as many records as it needs (R77). -/
def State.deliver (s : State) (h : BitVec 32) (stamp : Nat) (items : List (List Byte)) : State :=
  match s.host.subs.find? (fun x => x.handle == h) with
  | none => s
  | some x =>
    let room := 2 ^ (s.ctx x.ctx).recLog - 32
    let gs := match splitItems room items [] with | [] => [[]] | g => g
    (gs.zipIdx).foldl (fun st (g, i) => st.postRecord h stamp i (i == 0) (i + 1 == gs.length) g.flatten) s

/-- Subscriptions of an opcode. -/
def State.subsOf (s : State) (op : Nat) : List Sub := s.host.subs.filter (fun x => x.opcode == op)

def State.setSub (s : State) (x : Sub) : State :=
  { s with host := { s.host with subs := s.host.subs.map (fun y => if y.handle == x.handle then x else y) } }

/-- Register a subscription under a new handle, or complete ADMISSION_FAIL at 1 024 (R72). The handle is the
module's choice: one that no subscription holds (log 8). -/
def State.subscribe (s : State) (r : Req) (x : Sub) : State :=
  if 1024 ≤ s.host.subs.length then s.complete r stAdmission
  else if s.host.subs.any (fun y => y.handle == x.handle) then s
  else ({ s with host := { s.host with subs := s.host.subs ++ [x] } }).complete r stOk x.handle.toNat

/-! ### The helm (R90 to R96) -/

/-- Some module of the station has its PCIe link up (R91). What a partner last reported counts while this module has a
partner, also while it is silent: DESIGN CHOICE, log 92. -/
def State.hostLinkUp (s : State) : Bool := s.host.link || (s.modes.partner && s.mgmt.partnerLink)

/-- An open password session ends (R110), with event 0x0306. -/
def State.endSession (s : State) : State :=
  match s.sec.session with
  | none => s
  | some _ => ({ s with sec := { s.sec with session := none } }).event 0x0306

/-- This module does not follow a lead that keeps the helm for both (03_sideband_and_authority.md). -/
def State.keepsHelm (s : State) : Bool :=
  !(s.modes.role == .follow && s.modes.partner && !s.modes.detached && !s.twin.lost)

/-- The holder changes in this module: event 0x0300, the event cause, and the end of a session (R92, R110). -/
def State.helmHere (s : State) (h : Holder) (c : Nat) : State :=
  let s1 := { s with mgmt := { s.mgmt with holder := h, lastCause := c } }
  ((s1.event 0x0300 [holderCode s.mgmt.holder, holderCode h, c]).cause causeHelm).endSession

/-- The helm passes to a holder for a cause; the partner takes it over as a counter is taken over (R92). -/
def State.setHelm (s : State) (h : Holder) (c : Nat) : State :=
  let s1 := s.helmHere h c
  if s.leadsPair || !s.keepsHelm then s1.emit (.mirror (.helm (holderCode h) c)) else s1

/-- The helm becomes FREE; with AUTO_TAKE and the host link up it passes to the host in the same Winter tick, unless
the host released it (Table 3-4). -/
def State.freeHelm (s : State) (c : Nat) (byHost : Bool) : State :=
  let s1 := s.setHelm .free c
  if s1.mgmt.autoTake && s1.hostLinkUp && !byHost then s1.setHelm .host 5 else s1

end Sys2Proof.Machine
end

