-- ==== Sys2Proof/Machine/TripNet.lean ====
section
/-! DEFINITION. Machine/TripNet.lean: the trip matrix: its 32 sources, the terms and latches of its eight outputs, the
ward outputs and the digital outputs that the safety functions hold off (11_trip_and_safety.md). -/

namespace Sys2Proof.Machine

/-! ### Sources (R389, R390) -/

/-- Trip source n (Table 11-1). -/
def State.srcBit (s : State) (n : Nat) : Bool :=
  if n < 8 then s.trip.levels.getLsbD n == s.trip.invert.getLsbD n
  else if n < 24 then s.bonded (n - 8) && (s.port (n - 8)).tripSrc != 0
  else if n < 28 then s.trip.ward.getLsbD (n - 24)
  else if n = 28 then s.trip.watchdog
  else if n = 29 then s.trip.overTemp
  else if n = 30 then s.trip.clockFail
  else false

/-- All sources as TRIP.SRC shows them. -/
def State.srcNow (s : State) : BitVec 32 := BitVec.ofNat 32 (mask 32 s.srcBit)

/-- The matrix sees its sources: configuration loaded, or found bad, at step 2 of R127. -/
def Trip.armed (t : Trip) : Bool := t.loaded || t.cfgBad

/-- An enabled output's masks name a source. -/
def Trip.names (t : Trip) (n : Nat) : Bool :=
  (List.range 8).any (fun k =>
    let o := tget t.outs k {}
    o.ctrl.getLsbD 0 && (o.orMask.getLsbD n || o.andMask.getLsbD n))

def dayNs : Nat := 86400000000000

/-- A named source has not asserted within PROOF_DAYS (R409). -/
def State.overdue (s : State) (n : Nat) : Bool :=
  s.trip.proofDays != 0 && s.trip.names n &&
  (match tfind s.trip.lastAssert n, tfind s.trip.namedAt n with
    | some a, _ => a + s.trip.proofDays * dayNs ≤ s.mt
    | none, some a => a + s.trip.proofDays * dayNs ≤ s.mt
    | none, none => false)

/-- A source comes to assert: its time, TRIP.SRC_SEEN and event 0x0403. -/
def State.srcAssert (s : State) (n : Nat) : State :=
  ({ s with trip := { s.trip with
      srcSeen := s.trip.srcSeen ||| BitVec.ofNat 32 (2 ^ n)
      lastAssert := tset s.trip.lastAssert n s.mt } }).event 0x0403 [n]

/-! ### Outputs (R392 to R396) -/

def TripOut.enabled (o : TripOut) : Bool := o.ctrl.getLsbD 0
def TripOut.latching (o : TripOut) : Bool := o.ctrl.getLsbD 1
def TripOut.safeHigh (o : TripOut) : Bool := o.ctrl.getLsbD 2
def TripOut.pulseTest (o : TripOut) : Bool := o.ctrl.getLsbD 3

/-- The term of R392. -/
def TripOut.termOf (o : TripOut) (src : BitVec 32) : Bool :=
  (src &&& o.orMask) != 0 || (o.andMask != 0 && (src &&& o.andMask) == o.andMask)

/-- The output under its term: a latch sets with the term, a switch fault latches (R393, R397); an output without
LATCH and without a fault holds no latch (R400). Only an enabled output is ever in its safe state by its term. -/
def TripOut.settle (o : TripOut) (term : Bool) : TripOut :=
  let latch := o.enabled && ((o.latching && (o.latched || term)) || o.switchFault)
  { o with term := term, latched := latch, safeNow := o.enabled && (term || latch) }

/-- The coil is energised: an enabled output in the state that SAFE names, by R392. -/
def TripOut.energised (o : TripOut) : Bool := o.enabled && (o.safeNow == o.safeHigh)

/-- Trip output n is energised: never before the configuration is loaded, nor where it failed its CRC (R32, R394). -/
def State.coil (s : State) (n : Nat) : Bool := s.trip.loaded && (s.tripOut n).energised

/-- Output n takes a new state: events 0x0400 and 0x0401, the time of a safe-state entry, the event cause (R396). -/
def State.putOut (s : State) (n : Nat) (o : TripOut) : State :=
  let old := s.tripOut n
  let o := { o with testAt := if o.energised && !old.energised then s.now else o.testAt }
  if o.safeNow && !old.safeNow then
    let named := s.trip.src &&& (o.orMask ||| o.andMask)
    ((s.setTripOut n { o with lastSafe := s.mt }).event 0x0400 [n, named.toNat]).cause causeTrip
  else if !o.safeNow && old.safeNow then ((s.setTripOut n o).event 0x0401 [n]).cause causeTrip
  else s.setTripOut n o

/-- Every output under the present sources. -/
def State.evalOuts (s : State) : State :=
  (List.range 8).foldl (fun st n =>
    let o := st.tripOut n
    st.putOut n (o.settle (st.trip.loaded && o.termOf st.trip.src))) s

/-- Evaluate the matrix: sources, then terms and outputs. Before step 2 of R127 every driver is de-energised and
nothing is evaluated (R32, R394). -/
def State.tripEval (s : State) : State :=
  if !s.trip.armed then s
  else
    let now := s.srcNow
    let rises := (List.range 32).filter (fun n => now.getLsbD n && !s.trip.src.getLsbD n)
    let s1 := rises.foldl State.srcAssert { s with trip := { s.trip with src := now } }
    let s2 := { s1 with trip := { s1.trip with
      proofDue := s1.trip.proofDue && (List.range 32).any s1.overdue } }
    s2.evalOuts

/-! ### Ward outputs and held digital outputs (R402, R403, R405) -/

/-- The ward pair evaluates: the safety task runs and no lockstep mismatch was found. -/
def Trip.evaluating (t : Trip) : Bool := t.safetyRun && !t.lockstep

/-- Demands of the ward outputs: every one demands while nothing is evaluated, after a bad configuration, and until
the first period completes; afterwards each demands while a function mapped to it does. -/
def Trip.wardNow (t : Trip) : BitVec 4 :=
  if !t.evaluating || t.safetyBad || (!t.wardPeriodDone && !t.fns.isEmpty) then 0xF
  else BitVec.ofNat 4 (mask 4 (fun n => t.fns.any (fun f => !f.isDo && f.idx == n && f.demand)))

/-- A demanding function holds its digital output off; after the demand the output stays off until the next commit
(R405). -/
def State.holdOff (s : State) : State :=
  let off (n : Nat) : Bool := s.trip.fns.any (fun f => f.isDo && f.idx == n && (f.demand || !s.trip.evaluating))
  (List.range 16).foldl (fun st n =>
    let d := st.do_ n
    if off n && !d.safetyOff then
      st.setDo n { d with last := (st.doTerm n).getD d.last, safetyOff := true }
    else if !(off n) && d.safetyOff then
      st.setDo n { d with safetyOff := false, cmd := false, cont := d.cont.map (fun _ => false) }
    else st) s

/-- Bring ward outputs, held digital outputs and the matrix up to the functions' demands. -/
def State.wardEval (s : State) : State :=
  let s1 : State := { s with trip := { s.trip with ward := s.trip.wardNow } }
  s1.holdOff.tripEval

/-- The modes in which the safety task runs: STARTUP from step 5, RUN, HOLD and MAINTENANCE (R403). -/
def safetyMode (m : Mode) (puStep : Nat) : Bool :=
  match m with
  | .run | .hold | .maintenance => true
  | .startup => 5 ≤ puStep
  | _ => false

/-- A change of mode starts or stops the safety task. A function that is not being evaluated demands, so a stop leaves
every function in demand (R403). -/
def State.safetyFollow (s : State) : State :=
  let run := safetyMode s.modes.mode s.modes.puStep
  if run == s.trip.safetyRun then s
  else
    ({ s with trip := { s.trip with
        safetyRun := run
        wardPeriodDone := false, periodAt := s.now
        fns := if run then s.trip.fns else s.trip.fns.map (fun (f : SafeFn) => { f with demand := true }) } }).wardEval

end Sys2Proof.Machine
end

