-- ==== Sys2Proof/Machine/Modes.lean ====
section
/-! DEFINITION. Machine/Modes.lean: changes of mode and role, output tests that end with MAINTENANCE, and requests to
enter HOLD (04_modes_and_start.md). -/

namespace Sys2Proof.Machine

/-- End every output test, each with event 0x0C0B and the AUX value that ends a test (R498). -/
def State.endTests (s : State) : State :=
  let d := (List.range 16).filter (fun n => (s.do_ n).test.isSome)
  let c := (List.range 8).filter (fun n => (s.cl n).test.isSome)
  let a := (List.range 4).filter (fun n => (s.fao n).test.isSome)
  let evs := d.map (fun n => (1, n)) ++ c.map (fun n => (2, n)) ++ a.map (fun n => (4, n))
  let s1 := { s with fio := { s.fio with
    dout := tmap (fun _ x => { x with test := none }) s.fio.dout
    cl := tmap (fun _ x => { x with test := none }) s.fio.cl
    fao := tmap (fun _ x => { x with test := none }) s.fio.fao } }
  evs.foldl (fun st (g, n) => st.event 0x0C0B [g, n, 0x80000000]) s1

/-- Security version of the running firmware slot. -/
def Sec.runningVersion (c : Sec) : Nat := (if c.fwActiveB then c.fwVersionB else c.fwVersionA).1

/-- An image that has reached RUN or HOLD raises SEC.FW_MIN_VERSION to its security version (R116): the one that runs, also
where no FW_ACTIVATE named it (DESIGN CHOICE, log 97). -/
def State.fwReached (s : State) : State :=
  { s with sec := { s.sec with fwMinVersion := max s.sec.fwMinVersion s.sec.runningVersion } }

/-- SAFE TO REMOVE is shown, with event 0x0D04 (R555). -/
def State.ejectSafe (s : State) : State := ({ s with dsp := { s.dsp with eject := .safe } }).event 0x0D04

/-- The pages that MAINTENANCE adds go with it (Table 16-6). -/
def State.leavePages (s : State) : State :=
  if s.dsp.menu < 4 then s else { s with dsp := { s.dsp with menu := 0 }, fio := { s.fio with trim := {} } }

/-- The mode changes: event 0x0001, the event cause, MODE.STATUS.CAUSE; the queue engine runs outside DORMANT (R52); outputs keep their last values for HOLD; a
session ends outside HOLD and MAINTENANCE; tests end with MAINTENANCE; the eject prompt ends in HOLD; the safety task
follows the mode (R118, R110, R493, R498, R555, R403). -/
def State.setMode (s : State) (m : Mode) (cause : Nat) : State :=
  let s1 := s.holdOuts
  let s2 := { s1 with modes := { s1.modes with mode := m, cause := cause }
                      host := { s1.host with engine := m != Mode.dormant } }
  let s3 := (s2.event 0x0001 [modeCode s.modes.mode, modeCode m, cause]).cause causeMode
  let s4 := if m == .hold || m == .maintenance then s3 else s3.endSession
  let s5 := if s.modes.mode == .maintenance then s4.endTests.leavePages else s4
  let s6 := if m == .run || m == .hold then s5.fwReached else s5
  let s7 := if m == .hold && s6.dsp.eject == .prompt then s6.ejectSafe else s6
  s7.safetyFollow

/-- The lever waits for an Equinox to make the module a follower. -/
def Panel.ejectWaits (d : Panel) : Bool := match d.eject with | .equinox => true | .wait _ _ => true | _ => false

/-- The role changes: event 0x0002, the event cause, the end of a session (R144, R110). A follower's time reads TWIN, which
makes it valid (R519); an eject sequence ends in FOLLOW (R555). -/
def State.setRole (s : State) (r : Role) : State :=
  let s1 := s.holdOuts
  let s2 := { s1 with modes := { s1.modes with role := r } }
  let s3 := ((s2.event 0x0002 [roleCode s.modes.role, roleCode r]).cause causeRole).endSession
  let s4 := if r == .follow && s3.dsp.ejectWaits then s3.ejectSafe else s3
  if r == .follow && s.twinUp then s4.timeValid else s4

/-! ### Tiles that a start or a wake brings up (R127 step 8, Table 4-4) -/

/-- A Spring ramp starts: a gated tile's PLL locks first; an Autumn ramp is reversed at its divider, with no PLL lock
(R504, R506). -/
def State.startSpring (s : State) (n : Nat) : State :=
  let x := s.tile n
  match x.state with
  | .gated => s.setTile n { x with state := .spring, div := 0, pll := false, stepAt := s.now, dwell := s.clk.dwell }
  | .autumn =>
    if x.switchTo.isSome then s
    else s.setTile n { x with state := .spring, aborted := false, stepAt := s.now, dwell := s.clk.dwell }
  | _ => s

/-- The tiles of the variant that a start brings up: all but those whose policy is OFF. -/
def State.startTiles (s : State) : List Nat :=
  (List.range 8).filter (fun n => n != 0 && s.diePresent n && (s.tile n).policy != 2)

/-- Every such tile takes the Spring ramp. -/
def State.springTiles (s : State) : State := s.startTiles.foldl (fun (st : State) n => st.startSpring n) s

/-- The tiles are up: none of them is still gated or on its Spring ramp. -/
def State.tilesUp (s : State) : Bool :=
  s.startTiles.all (fun n => (s.tile n).state != .gated && (s.tile n).state != .spring)

/-! ### Transitions -/

/-- The module resets into RECOVERY: its command has been answered, and nothing abandons that reset (R584). -/
def Trans.recovery : Trans → Bool
  | .toRecovery .. => true
  | _ => false

/-- The command that waits for a transition. -/
def Trans.rid : Trans → Option Nat
  | .toHold _ _ r _ => r
  | .restart _ r _ => r
  | .toRecovery .. => none

/-- A command whose transition is abandoned completes BUSY (R125); the reset into RECOVERY is not abandoned (R584). -/
def State.abandonTrans (s : State) : State :=
  let s1 := { s with modes := { s.modes with
    trans := s.modes.trans.filter Trans.recovery, rstPlanned := none, leadRestart := none } }
  match (s.modes.trans.bind Trans.rid).bind s1.findReq with
  | none => s1
  | some r => s1.complete r stBusy

/-- A fault trigger is acted on in this Winter tick (R125). -/
def State.markFault (s : State) : State := { s with modes := { s.modes with faultTick := some s.winter } }

/-- A transition to HOLD begins. In a pair the lead chooses the hold instant, less than `bound` ns ahead, and sends it to its
follower (R120); which instant is its own affair: a free value (log 96). -/
def State.beginHold (s : State) (cause task : Nat) (rid : Option Nat) (bound : Nat) : State :=
  if s.leadsPair then
    let (w, s1) := s.fresh
    let at_ := s1.mt + w.toNat % bound
    ({ s1 with modes := { s1.modes with trans := some (.toHold cause task rid (some at_)) } }).emit (.mirror (.instant 0x0101 at_))
  else { s with modes := { s.modes with trans := some (.toHold cause task rid none) } }

/-- The hold instant has come: the one that the lead chose, for which its follower waits (R120). -/
def State.holdReady (s : State) (instant : Option Nat) : Bool :=
  match instant with
  | some a => a ≤ s.mt
  | none => !(s.modes.role == .follow && s.modes.partner && !s.modes.detached && !s.twin.lost)

/-- What a fault takes to HOLD: RUN (Table 4-4), and a restart under way, which it abandons (R125; DEDUCED, log 95). -/
def State.faultLeaves (s : State) : Bool :=
  s.modes.mode == .run || (match s.modes.trans with | some (.restart ..) => true | _ => false)

/-- A fault trigger sends the station to HOLD at its next hold instant, within 50 us; a commanded transition under way is
abandoned (R121, R125, R164). -/
def State.faultHold (s : State) (cause task : Nat) : State :=
  match s.modes.trans with
  | some (.toHold _ _ none _) => s
  | some (.toRecovery ..) => s
  | _ => if s.faultLeaves then s.abandonTrans.markFault.beginHold cause task none 50000 else s.abandonTrans.markFault

/-- A cycle watchdog or task fault in either module of a pair puts both in HOLD: the other module hears of it (R164,
R165). -/
def State.stationHold (s : State) (cause task : Nat) : State :=
  let other := s.modes.partner && !s.twin.lost && !s.modes.detached && (s.modes.role == .lead || s.modes.role == .follow)
  let known : Bool := match s.modes.trans with | some (.toHold c k none _) => c == cause && k == task | _ => false
  (if other && !known then s.emit (.mirror (.modeChange 4 cause task)) else s).faultHold cause task

/-- The mode reads HOLD with its cause: event 0x0006 (Table 4-12). From DORMANT the tiles are brought up (Table 4-4). -/
def State.enterHold (s : State) (cause task : Nat) : State :=
  let s1 := s.setMode .hold cause
  let s2 := if s.modes.mode == .dormant then s1.springTiles else s1
  { s2 with modes := { s2.modes with
      holdCause := cause, holdTask := task, trans := s2.modes.trans.filter Trans.recovery } }.event 0x0006 [cause, task]

/-- A restart begins: the module reads STARTUP at once, and its tiles are brought up (R133 step 1, R127 step 8). `rid`: the
command that waits for it. -/
def State.startRestart (s : State) (warm : Bool) (rid : Option Nat) (cause : Nat) : State :=
  let s1 := (s.setMode .startup cause).springTiles
  { s1 with modes := { s1.modes with trans := some (.restart warm rid cause), rstPlanned := none, leadRestart := none } }

/-- A wake by alarm (cause 11) or trip (cause 12) takes a DORMANT module to the mode that WAKE_TARGET names; in a
pair the lead wakes both, also for a change that its follower saw (R140). -/
def State.wake (s : State) (cause : Nat) : State :=
  let target := if s.modes.wakeToRun then 3 else 4
  if s.modes.mode != .dormant || s.modes.trans.isSome then s
  else if s.modes.role == .follow then
    (if s.modes.detached || s.twin.lost then s else s.emit (.mirror (.modeChange target cause 0)))
  else
    let s1 := if s.leadsPair then s.emit (.mirror (.modeChange target cause 0)) else s
    if s.modes.wakeToRun then s1.startRestart true none cause else s1.enterHold cause 0

/-- Evaluate the matrix; a change at any source wakes a DORMANT module with WAKE_ON_TRIP (R140, R396). -/
def State.tripSettle (s : State) : State :=
  let s1 := s.tripEval
  if s1.trip.src != s.trip.src && s.modes.wakeOnTrip then s1.wake 12 else s1

/-- A write of an RWL field in RUN, or out of its range, is ignored and recorded (R8, R145). -/
def State.ignoreWrite (s : State) : State := s.event 0x0005

/-- A station-scoped register write that the lead accepted goes to the follower (R145, R424, R454, R473, R534). -/
def State.mirrorWrite (s : State) (off : Nat) (v : BitVec 32) : State :=
  if s.leadsPair then s.emit (.mirror (.regWrite off v)) else s

end Sys2Proof.Machine
end

