-- ==== Sys2Proof/Machine/CoreWord.lean ====
section
/-! DEFINITION. Machine/CoreWord.lean: cycle-core words: their encodings, which words are legal, the registers of a
cycle, and the one operation by which a task executes the instruction at its program counter
(06_cycle_instruction_set.md). -/

namespace Sys2Proof.Machine

/-! ### Encodings (R197, Tables 6-1 to 6-10) -/

def encA (f : FmtA) (func : BitVec 10) : BitVec 32 := f.pred ++ 0#3 ++ f.rd ++ f.rs1 ++ f.rs2 ++ func
def encI (f : FmtI) (sub : BitVec 4) : BitVec 32 := f.pred ++ 1#3 ++ f.rd ++ sub ++ f.imm
def encB (f : FmtB) (op : BitVec 5) : BitVec 32 := f.pred ++ 2#3 ++ op ++ f.off
def encT (f : FmtT) (kind : BitVec 3) : BitVec 32 := f.pred ++ 3#3 ++ kind ++ f.dst ++ f.ps ++ f.ibase ++ f.index
def encM (f : FmtM) (major : BitVec 3) : BitVec 32 := f.pred ++ major ++ f.rd ++ f.w ++ f.base ++ f.space ++ f.off

/-- FUNC of a floating-point instruction: the .D form stands 0x040 above the .S form (Table 6-5). -/
def fpFunc (base : BitVec 10) (d : Bool) : BitVec 10 := if d then base + 0x040#10 else base

/-! ### Legal words (R198) -/

/-- Format A: the FUNC is listed, unused fields are 0, predicate fields have bit 4 clear, the selector is listed. -/
def legalA (rd rs1 rs2 func : Nat) : Bool :=
  let fp := if 0xC0 ≤ func ∧ func ≤ 0xD1 then func - 0x40 else func
  if func ≤ 0x00A ∨ (0x010 ≤ func ∧ func ≤ 0x016) ∨ (0x018 ≤ func ∧ func ≤ 0x01A) then true
  else if 0x040 ≤ func ∧ func ≤ 0x046 then rd < 16
  else if 0x060 ≤ func ∧ func ≤ 0x063 then rd < 16 && rs1 < 16 && rs2 < 16
  else if func = 0x064 then rs1 < 16 && rs2 == 0
  else if func = 0x065 then rd < 16 && rs2 == 0
  else if (0x80 ≤ fp ∧ fp ≤ 0x83) ∨ (0x85 ≤ fp ∧ fp ≤ 0x87) then true
  else if fp = 0x84 ∨ fp = 0x88 ∨ fp = 0x89 ∨ (0x8E ≤ fp ∧ fp ≤ 0x91) then rs2 == 0
  else if 0x8A ≤ fp ∧ fp ≤ 0x8D then rd < 16
  else if 0x100 ≤ func ∧ func ≤ 0x102 then rd == 0 && rs1 == 0 && rs2 == 0
  else if func = 0x103 then rs1 == 0 && rs2 < 8
  else false

/-- A word that raises no illegal-instruction trap by itself (R198, R216). -/
def legalWord (w : BitVec 32) : Bool :=
  let x := w.toNat
  match bits x 25 3 with
  | 0 => legalA (bits x 20 5) (bits x 15 5) (bits x 10 5) (bits x 0 10)
  | 1 => let sub := bits x 16 4; sub ≤ 10 && (sub < 8 || bits x 0 16 < 64)
  | 2 => bits x 20 5 ≤ 1
  | 3 => let k := bits x 22 3; (1 ≤ k && k ≤ 5 && bits x 17 5 < 16) || (k == 6 && bits x 13 4 == 0)
  | 7 => false
  | _ => bits x 12 3 != 7

/-! ### Registers and predicates of a cycle (R193) -/

/-- g0 reads as 0. -/
def Cyc.reg (c : Cyc) (r : BitVec 5) : BitVec 64 := if r = 0 then 0 else tget c.regs r.toNat 0

/-- A write of g0 is discarded. -/
def Cyc.setReg (c : Cyc) (r : BitVec 5) (v : BitVec 64) : Cyc :=
  if r = 0 then c else { c with regs := tset c.regs r.toNat v }

/-- p0 reads as 1. -/
def Cyc.pred (c : Cyc) (p : Nat) : Bool := p == 0 || c.preds.getLsbD p

/-- A write of p0 is discarded. -/
def Cyc.setPred (c : Cyc) (p : Nat) (b : Bool) : Cyc :=
  if p = 0 then c
  else { c with preds := if b then c.preds ||| BitVec.ofNat 16 (2 ^ p)
                         else c.preds &&& ~~~(BitVec.ofNat 16 (2 ^ p)) }

/-- The program counter moves past the instruction (R196). -/
def Cyc.next (c : Cyc) : Cyc := { c with pc := c.pc + 4 }

/-! ### One instruction -/

/-- What an instruction does to its cycle: a new cycle state, or a trap by its FAULT bit (Table 6-13): 1 SPACE,
2 illegal instruction, 3 stack. -/
inductive CoreRes where
  | ok (c : Cyc)
  | trap (bit : Nat)
  deriving DecidableEq, Repr

/-- What an instruction reads besides its cycle. -/
structure Env where
  s : State
  img : Image
  d : TaskDef
  tk : Task
  n : Nat

def Task.setFault (t : Task) (b : Nat) : Task := { t with fault := t.fault ||| BitVec.ofNat 32 (2 ^ b) }

/-- A task fault: the cycle is abandoned, the fault bit is set, event 0x0702 is written, and the station goes to HOLD
with cause 5 (R165, R222). -/
def State.taskFault (s : State) (n : Nat) (b pc : Nat) : State :=
  let t := s.task n
  ((s.setTask n { t.setFault b with cyc := none }).event 0x0702 [n, 2 ^ b, pc]).stationHold 5 n

/-- A trap: held while the cycle is speculative, else a task fault (R223). -/
def State.coreTrap (s : State) (n : Nat) (t : Task) (c : Cyc) (b : Nat) : State :=
  if c.spec then s.setTask n { t with cyc := some { c with trap := some (b, c.pc) } } else s.taskFault n b c.pc

/-- Keep a cycle's new state; the first division by zero since the restart writes event 0x070B, held while the cycle
is speculative (R165, R160). -/
def State.coreKeep (s : State) (n : Nat) (t : Task) (c c' : Cyc) : State :=
  let s1 := s.setTask n { t with cyc := some c' }
  if c'.divZero && !c.divZero && !c'.spec && !t.fault.getLsbD 0 then s1.event 0x070B [n, c'.divZeroPc] else s1

/-- A task can execute its next instruction: in RUN, with a cycle that has neither ended, trapped nor been held, and the core
is its own (R149). -/
def State.coreReady (s : State) (n : Nat) : Option (Image × TaskDef × Task × Cyc) :=
  if s.modes.mode != .run then none
  else
    match s.prog.loaded, s.taskDef n, (s.task n).cyc with
    | some i, some d, some c => 
      if c.done || c.held || c.trap.isSome || s.coreWaits i d c then none else some (i, d, s.task n, c)
    | _, _, _ => none

/-- The word that a program counter fetches; none where the fetch traps (R196). -/
def fetchWord (i : Image) (pc : Nat) : Option (BitVec 32) := if pc % 4 = 0 then i.code[pc / 4]? else none

/-- Execute the instruction at a task's program counter, given the encoding of the command's instruction and its
effect. A fetch that R196 forbids, or an illegal word, traps; a false predicate leaves only the step past the word, an illegal
one too (R199); a legal word of another instruction is not this command's and nothing happens. -/
def State.core (s : State) (task : Fin 64) (enc : BitVec 32) (f : Env → Cyc → CoreRes) : State :=
  let n := task.val
  match s.coreReady n with
  | none => s
  | some (i, d, t, c) =>
    match fetchWord i c.pc with
    | none => s.coreTrap n t c 2
    | some w =>
      if w = enc then
        if !(c.pred (bits w.toNat 28 4)) then s.setTask n { t with cyc := some c.next }
        else if !(legalWord w) then s.coreTrap n t c 2
        else
          match f { s := s, img := i, d := d, tk := t, n := n } c with
          | .ok c' => s.coreKeep n t c c'
          | .trap b => s.coreTrap n t c b
      else if legalWord w then s
      else if c.pred (bits w.toNat 28 4) then s.coreTrap n t c 2
      else s.setTask n { t with cyc := some c.next }

/-! ### Memory access (R200 to R202) -/

/-- A space as the cycle reads it: the latched image, the cycle's working spaces, the constants (Table 6-2). -/
def Env.space (e : Env) (c : Cyc) : Nat → Mem
  | 0 => c.img | 1 => c.sp.out | 2 => c.sp.var | 3 => c.sp.ret | 4 => e.tk.con | 5 => c.sp.inst | _ => c.sp.stk

/-- Store bytes in a working space, and note the 8-byte words written to OUT, VAR, RET or INST (R361). -/
def Cyc.store (c : Cyc) (sp a : Nat) (bs : List Byte) : Cyc :=
  let c1 := match sp with
    | 1 => { c with sp := { c.sp with out := mwrite c.sp.out a bs } }
    | 2 => { c with sp := { c.sp with var := mwrite c.sp.var a bs } }
    | 3 => { c with sp := { c.sp with ret := mwrite c.sp.ret a bs } }
    | 5 => { c with sp := { c.sp with inst := mwrite c.sp.inst a bs } }
    | 6 => { c with sp := { c.sp with stk := mwrite c.sp.stk a bs } }
    | _ => c
  if sp = 6 ∨ c1.written.contains (sp, a / 8) then c1 else { c1 with written := (sp, a / 8) :: c1.written }

/-- The byte address of an M instruction, modulo 2^64 (R200). -/
def mAddr (c : Cyc) (f : FmtM) : Nat :=
  ((c.reg (f.base.zeroExtend 5)).toNat + f.off.toNat * 2 ^ f.w.toNat) % 2 ^ 64

/-- The access passes both tests of R200. -/
def mOk (e : Env) (c : Cyc) (f : FmtM) : Bool :=
  let sz := 2 ^ f.w.toNat
  mAddr c f % sz == 0 && mAddr c f + sz ≤ e.d.size f.space.toNat

/-- A load: SPACE trap, the read set of a cycle, and the value (R158, R201, R202). A speculative read that would record
a 4 097th word is held until the latch. -/
def loadOp (signed : Bool) (f : FmtM) (e : Env) (c : Cyc) : CoreRes :=
  if !(mOk e c f) then .trap 1
  else
    let a := mAddr c f
    let sz := 2 ^ f.w.toNat
    let v := leNat (mread (e.space c f.space.toNat) a sz)
    let r := if signed then BitVec.ofInt 64 (sx (8 * sz) v) else BitVec.ofNat 64 v
    let fresh := f.space = 0 && !(c.readSet.contains (a / 8))
    if fresh && c.spec && 4096 ≤ c.readSet.length then .ok { c with held := true, filterFull := true }
    else
      let c1 := if fresh && c.readSet.length < 4096 then { c with readSet := a / 8 :: c.readSet } else c
      .ok (c1.setReg f.rd r).next

/-- A store: SPACE trap for IN, CON and a failed test, else the low bytes of the register (R201). -/
def storeOp (f : FmtM) (e : Env) (c : Cyc) : CoreRes :=
  if f.space = 0 || f.space = 4 || !(mOk e c f) then .trap 1
  else .ok (c.store f.space.toNat (mAddr c f) (leBytes (2 ^ f.w.toNat) (c.reg f.rd).toNat)).next

end Sys2Proof.Machine
end

