-- ==== Sys2Proof/Machine/Image.lean ====
section
/-! DEFINITION. Machine/Image.lean: the program image: its structure check, its CMAC and the admission of its task set
(05_cycle_execution.md, R147, R166, R185 to R190, R471, R472, R581 to R583). -/

namespace Sys2Proof.Machine

/-! ### Pieces -/

/-- Cut a buffer into entries of n bytes, as many as fit whole. -/
def chunks (n : Nat) : Nat → List Byte → List (List Byte)
  | 0, _ => []
  | k + 1, b => if b.length < n then [] else b.take n :: chunks n k (b.drop n)

def entriesOf (n : Nat) (b : List Byte) : List (List Byte) := chunks n (b.length / n) b

/-- No value stands twice. -/
def distinct [BEq α] : List α → Bool
  | [] => true
  | x :: r => !(r.contains x) && distinct r

/-- Half-open ranges do not overlap pairwise. -/
def apart : List (Nat × Nat) → Bool
  | [] => true
  | (a, l) :: r => r.all (fun (b, m) => l == 0 || m == 0 || a + l ≤ b || b + m ≤ a) && apart r

/-! ### Sections (Tables 5-7, 5-8) -/

/-- A section table entry: type, offset, length, CRC. -/
structure Sect where
  type : Nat := 0
  off : Nat := 0
  len : Nat := 0
  crc : Nat := 0
  deriving DecidableEq, Repr

def Sect.read (b : List Byte) : Sect := { type := rd b 0 2, off := rd b 4 4, len := rd b 8 4, crc := rd b 12 4 }

def imgSects (b : List Byte) : List Sect := (entriesOf 16 (slice b 0x40 96)).map Sect.read

/-- Header conditions of Table 5-7. -/
def headerOk (b : List Byte) : Bool :=
  176 ≤ b.length && b.length ≤ 0x4000000 && rd b 0 4 == 0x50524B58 && rd b 4 2 == 1 && rd b 6 2 == 6 &&
  rd b 8 4 == b.length && rd b 0x0C 4 < 8 && 1 ≤ rd b 0x1C 1 && rd b 0x1C 1 ≤ 15 && zeroAt b 0x1D 3 &&
  rd b 0x28 2 == 1 && zeroAt b 0x2A 22

/-- Section table conditions of R186. -/
def sectsOk (b : List Byte) (ss : List Sect) : Bool :=
  ss.length == 6 && (List.range 6).all (fun i => (ss.filter (fun s => s.type == i + 1)).length == 1) &&
  (entriesOf 16 (slice b 0x40 96)).all (fun e => zeroAt e 2 2) &&
  ss.all (fun s => s.off % 8 == 0 && 0xA0 ≤ s.off && s.off + s.len ≤ b.length - 16 &&
    (crc32 (slice b s.off s.len)).toNat == s.crc) &&
  apart (ss.map (fun s => (s.off, s.len)))

/-- Bytes of the section of a type. -/
def sectBytes (b : List Byte) (ss : List Sect) (t : Nat) : List Byte :=
  match ss.find? (fun s => s.type == t) with
  | some s => slice b s.off s.len
  | none => []

/-- CONST and INIT blocks: handle and data, padded to a multiple of 8 (R187). -/
def parseBlocks : Nat → List Byte → Option (List (BitVec 32 × List Byte))
  | 0, b => if b.isEmpty then some [] else none
  | k + 1, b =>
    if b.isEmpty then some []
    else
      let len := rd b 4 4
      let pad := ceilDiv len 8 * 8
      if b.length < 8 + pad then none
      else (parseBlocks k (b.drop (8 + pad))).map (fun r => (rdW b 0, slice b 8 len) :: r)

/-! ### Tasks and bindings (Tables 5-1, 5-11) -/

def Bind.read (b : List Byte) : Bind :=
  { space := rd b 0 1, kind := rd b 1 1, width := rd b 2 2, offset := rd b 4 4, ref := BitVec.ofNat 64 (rd b 8 8) }

/-- Ranges of Table 5-1; no DIE is 0 (R14). -/
def taskFieldsOk (b : List Byte) : Bool :=
  let per := rd b 0x08 4
  let hv := rd b 0x0C 4
  rd b 0 1 ≤ 63 && 1 ≤ rd b 1 1 && rd b 1 1 ≤ 7 && rd b 2 1 ≤ 15 && (rd b 3 1 ≤ 50 || rd b 3 1 == 0xFF) &&
  (rd b 4 1 ≤ 90 || rd b 4 1 == 0xFF) && zeroAt b 5 3 && 10 ≤ per && per ≤ 1000000 && 1 ≤ hv && hv ≤ per &&
  10 ≤ rd b 0x10 4 && rd b 0x10 4 ≤ hv * 100 && rd b 0x14 4 % 4 == 0 &&
  (List.range 7).all (fun i => rd b (0x18 + 4 * i) 4 % 8 == 0 && rd b (0x18 + 4 * i) 4 ≤ 0x800000) &&
  rd b 0x38 4 ≤ 4096 && zeroAt b 0x3C 4

/-- A task entry with its bindings from the section; 0xFF selects the default GRACE and HORIZON. -/
def TaskDef.read (sec b : List Byte) : TaskDef :=
  let g := rd b 3 1
  let h := rd b 4 1
  { task := rd b 0 1, die := rd b 1 1, priority := rd b 2 1, grace := if g = 0xFF then 20 else g
    horizon := if h = 0xFF then 50 else h, period := rd b 8 4, harvest := rd b 0xC 4, budget := rd b 0x10 4
    entry := rd b 0x14 4, inSize := rd b 0x18 4, outSize := rd b 0x1C 4, varSize := rd b 0x20 4
    retSize := rd b 0x24 4, conSize := rd b 0x28 4, instSize := rd b 0x2C 4, stkSize := rd b 0x30 4
    binds := (entriesOf 16 (slice sec (rd b 0x34 4) (16 * rd b 0x38 4))).map Bind.read }

/-- Read task entries in turn, stopping before the lower of the section's end and the first bindings (R582). -/
def readTasks (sec : List Byte) : Nat → Nat → Nat → List (List Byte)
  | 0, _, _ => []
  | k + 1, off, lim =>
    if lim ≤ off ∨ sec.length < off + 64 then []
    else
      let e := slice sec off 64
      let lim' := if rd e 0x38 4 ≠ 0 then min lim (rd e 0x34 4) else lim
      e :: readTasks sec k (off + 64) lim'

/-- Strictly rising numbers. -/
def rising : List Nat → Bool
  | a :: b :: r => decide (a < b) && rising (b :: r)
  | _ => true

/-- A FIO binding's group, channel, space and WIDTH (Table 14-2). -/
def fioBindOk (b : Bind) : Bool :=
  let g := bits b.ref.toNat 8 8
  let c := bits b.ref.toNat 0 8
  match g with
  | 0 => b.space == 0 && (c < 32 || c == 0xFF) && b.width == 8
  | 1 => b.space == 1 && (c < 16 || c == 0xFF) && b.width == 8
  | 2 => c < 8 && b.width == (if b.space = 0 then 16 else 8)
  | 3 => b.space == 0 && c < 8 && b.width == 8
  | 4 => b.space == 1 && c < 4 && b.width == 8
  | 5 => b.space == 0 && c < 4 && b.width == 24
  | _ => false

/-- A binding's kind, space, WIDTH and REF (R581, R471, R464, R341). -/
def bindOk (ts : List TaskDef) (b : Bind) : Bool :=
  let r := b.ref.toNat
  b.space ≤ 1 && b.offset % 8 == 0 &&
  match b.kind with
  | 0 => r < 2 ^ 16 && fioBindOk b
  | 1 => r < 64 && (b.space == 1 || 16 ≤ b.width)
  | 2 => r < 2 ^ 16 && (if b.space = 1 then r ≤ 0xFEFF else r ≤ 0xFF3F && (if 0x8000 ≤ r && r < 0xFF00 then 16 ≤ b.width else b.width == 24))
  | 3 => b.space == 0 && r < 2 ^ 16 && bits r 3 5 == 0 && b.width == 88
  | 4 => b.space == 1 && r < 2 ^ 21 && bits r 3 5 == 0 && bits r 14 2 == 0
  | 5 => b.space == 0 && bits r 6 26 == 0 && bits r 55 9 == 0 && b.width % 8 == 0 && bits r 32 23 % 8 == 0 &&
      (match ts.find? (fun t => t.task == bits r 0 6) with
        | some t => bits r 32 23 + b.width ≤ t.outSize
        | none => false)
  | 6 => b.space == 0 && r < 2 ^ 16 && bits r 4 4 == 0 && b.width == 208 &&
      (bits r 8 8 == 0xC0 || (bits r 8 8 == 0xC1 && bits r 0 4 == 0))
  | _ => false

/-- The task table's conditions (R582). -/
def tableOk (sec : List Byte) (es : List (List Byte)) : Bool :=
  let n := es.length
  let bs := es.map (fun e => (rd e 0x34 4, 16 * rd e 0x38 4))
  1 ≤ n && n ≤ 64 && es.all taskFieldsOk && rising (es.map (fun e => rd e 0 1)) &&
  bs.all (fun (o, l) => l == 0 || (64 * n ≤ o && o + l ≤ sec.length)) && apart bs &&
  sec.length == 64 * n + bs.foldl (fun a x => a + x.2) 0

/-! ### Placement of data (R583) -/

/-- Data of a length placed by a handle lies inside a space of the right kind of a task of the image. -/
def placeOk (ts : List TaskDef) (spaces : List Nat) (h : BitVec 32) (len : Nat) : Bool :=
  match ts.find? (fun t => t.task == handleTask h) with
  | none => false
  | some t => spaces.contains (handleSpace h) && handleOff h + len ≤ t.size (handleSpace h)

def Inst.read (b : List Byte) : Inst :=
  { id := BitVec.ofNat 64 (rd b 0 8), handle := rdW b 8, kind := rd b 0xC 1, size := rd b 0xE 2 }

def Retain.read (b : List Byte) : Retain := { hash := BitVec.ofNat 64 (rd b 0 8), handle := rdW b 8, length := rd b 0xC 4 }

def instOk (ts : List TaskDef) (i : Inst) : Bool :=
  1 ≤ i.kind && i.kind ≤ 6 && (i.kind == 6 || (i.size == 32 && handleOff i.handle % 32 == 0)) &&
  placeOk ts [5] i.handle i.size

/-- Words of the CODE section. -/
def codeWords (b : List Byte) : List (BitVec 32) := (entriesOf 4 b).map (fun w => rdW w 0)

/-- The image that a buffer holds; none where its structure or a task field is wrong (R190, first check). -/
def parseImage (b : List Byte) : Option Image :=
  let ss := imgSects b
  if !(headerOk b) || !(sectsOk b ss) then none
  else
    let code := sectBytes b ss 1
    let retain := sectBytes b ss 4
    let inst := sectBytes b ss 5
    let tab := sectBytes b ss 6
    let es := readTasks tab 65 0 tab.length
    let ts := es.map (TaskDef.read tab)
    let rs := (entriesOf 16 retain).map Retain.read
    let is := (entriesOf 16 inst).map Inst.read
    match parseBlocks (b.length / 8 + 1) (sectBytes b ss 2), parseBlocks (b.length / 8 + 1) (sectBytes b ss 3) with
    | some cs, some ini =>
      if code.length % 4 == 0 && tableOk tab es && retain.length % 16 == 0 && inst.length % 16 == 0 &&
        (entriesOf 16 inst).all (fun e => zeroAt e 0xD 1) &&
        ts.all (fun t => t.binds.all (fun b => bindOk ts b && b.offset + b.width ≤ t.size b.space)) &&
        cs.all (fun (h, d) => placeOk ts [4] h d.length) && ini.all (fun (h, d) => placeOk ts [1, 2, 3, 5] h d.length) &&
        rs.all (fun r => 1 ≤ r.length && r.length ≤ 0x800000 && placeOk ts [3] r.handle r.length) &&
        distinct (rs.map (·.hash)) && is.all (instOk ts) && distinct (is.map (·.id))
      then some { crc := crc32 b, part := rdW b 0xC, imageId := BitVec.ofNat 64 (rd b 0x10 8), version := rdW b 0x18
                  keySlot := rd b 0x1C 1, built := BitVec.ofNat 64 (rd b 0x20 8), code := codeWords code, const := cs
                  init := ini, retain := rs, insts := is, tasks := ts }
      else none
    | _, _ => none

/-- The image's own CMAC holds under its program key slot, whose mask has PROGRAM (R187). -/
def State.imageAuth (s : State) (b : List Byte) : Bool :=
  let k := s.keySlot (rd b 0x1C 1)
  k.present && k.mask.getLsbD 1 && slice b (b.length - 16) 16 == cmac k.key (b.take (b.length - 16))

/-- A PART bit for the variant, and every DIE present (R190). -/
def State.imagePresent (s : State) (i : Image) : Bool :=
  i.part.getLsbD s.cfg.variant.partBit && i.tasks.all (fun t => s.diePresent t.die)

/-! ### Admission (R166, R472) -/

/-- An output destination that at most one writer may have (R166 condition 5). -/
inductive Dest where
  | dout (n : Nat) | cl (n : Nat) | fao (n : Nat) | can (ch cycle slot : Nat) | ring (id : Nat)
  deriving DecidableEq, Repr

/-- Destinations of an OUT binding; a group binding of digital outputs names all sixteen (R471). -/
def Bind.dests (b : Bind) : List Dest :=
  let r := b.ref.toNat
  if b.space = 0 then []
  else
    match b.kind with
    | 0 =>
      match bits r 8 8 with
      | 1 => if bits r 0 8 = 0xFF then (List.range 16).map .dout else [.dout (bits r 0 8)]
      | 2 => [.cl (bits r 0 8)]
      | 4 => [.fao (bits r 0 8)]
      | _ => []
    | 2 => [.ring (bits r 0 16)]
    | 4 => [.can (bits r 0 3) (bits r 8 6) (bits r 16 5)]
    | _ => []

/-- Destination of a loop record (Table 7-9). -/
def destOf (w : BitVec 32) : Option Dest :=
  let r := w.toNat
  match bits r 24 8 with
  | 1 => some (.fao (bits r 0 2))
  | 2 => some (.cl (bits r 0 3))
  | 3 => some (.ring (bits r 0 16))
  | 4 => some (.can (bits r 0 3) (bits r 8 6) (bits r 16 5))
  | _ => none

def LoopSet.dests (l : LoopSet) : List Dest :=
  l.recs.filterMap (fun r => destOf r.dest) ++ l.exts.filterMap (fun e => destOf e.dest2)

/-- Digital outputs of a contactor plan entry (Table 9-12). -/
def Contactor.douts (c : Contactor) : List Nat :=
  (if c.preUsed then [c.preDo] else []) ++ [c.posDo] ++ (if c.negUsed then [c.negDo] else [])

/-- The contactor plan in effect. -/
def State.contPlan (s : State) : List Contactor := s.cells.conts.map (·.plan)

/-- Bytes of a task on its tile (R166 condition 3). -/
def TaskDef.bytes (t : TaskDef) : Nat :=
  2 * (t.inSize + t.outSize + t.varSize + t.retSize + t.instSize + t.stkSize) + t.conSize

/-- The first failing condition of R166 and R472 (7), of R464 (8), or of 12_edxis_ring.md (9: a C1 value
without a slot in the configuration applied), with its task; none when the set is admitted. Condition 3,
a sum over a tile, names the tile's first task, and condition 4, a sum over the station, the image's: DESIGN CHOICE, log 98. -/
def State.admitTasks (s : State) (i : Image) : Option (Nat × Nat) :=
  let ts := i.tasks
  let first := (ts.head?.map (·.task)).getD 0
  let outs := ts.flatMap (fun t => (t.binds.flatMap Bind.dests).map (fun d => (t.task, d)))
  let taken := s.loops.stored.dests ++ s.contPlan.flatMap (fun c => c.douts.map .dout)
  let clash := outs.zipIdx.find? (fun ((_, d), k) => taken.contains d || ((outs.take k).any (fun e => e.2 == d)))
  let badRole (t : TaskDef) : Bool := t.binds.any (fun b => b.kind == 0 && bits b.ref.toNat 8 8 == 2 &&
    (if b.space = 0 then !((s.cl (bits b.ref.toNat 0 8)).isIn) else !((s.cl (bits b.ref.toNat 0 8)).isOut)))
  match ts.find? (fun t => !(1 ≤ t.die && s.diePresent t.die)) with
  | some t => some (t.task, 1)
  | none =>
  match ts.find? (fun t => t.harvest * 10000 < t.charge) with
  | some t => some (t.task, 2)
  | none =>
  match (List.range 8).find? (fun die =>
      let l := ts.filter (fun t => t.die == die)
      !l.isEmpty && 0x800000 < 4 * i.code.length + (l.map TaskDef.bytes).sum) with
  | some die => some (((ts.find? (fun t => t.die == die)).map (·.task)).getD 0, 3)
  | none =>
  if s.cfg.variant.retainBytes < (ts.map (·.retSize)).sum then some (first, 4)
  else
  match clash with
  | some ((t, _), _) => some (t, 5)
  | none =>
  match (List.range 8).findSome? (fun die => placeAll (byPriority (ts.filter (fun t => t.die == die))) [[], [], [], []]) with
  | some t => some (t, 6)
  | none =>
  match ts.find? badRole with
  | some t => some (t.task, 7)
  | none =>
  match ts.find? (fun t => t.binds.any (fun b => b.kind == 3 &&
      (match (s.chan (bits b.ref.toNat 0 3)).matrix with
        | some m => m.filters.length ≤ bits b.ref.toNat 8 24
        | none => true))) with
  | some t => some (t.task, 8)
  | none =>
  match ts.find? (fun t => t.binds.any (fun b => b.kind == 2 && b.space == 1 && bits b.ref.toNat 0 16 < 0x8000 &&
      !(s.hasC1 (bits b.ref.toNat 0 16)))) with
  | some t => some (t.task, 9)
  | none => none

/-! ### Units in MRAM (R128) -/

/-- A retained unit of a task for MRAM (R128). -/
def State.commitUnit (s : State) (i : Image) (n : Nat) : State :=
  let tk := s.task n
  let recs := i.insts.filter (fun x => x.kind ≤ 5 && handleTask x.handle == n)
  let insts := recs.foldl (fun m x => mwrite m (handleOff x.handle) (mread tk.sp.inst (handleOff x.handle) 32)) []
  let u : RetUnit := { crc := i.crc, ret := tk.sp.ret, insts := insts, modes := s.loops.modesMram }
  let keep := s.prog.storedForces.filter (fun f => handleTask f.handle != n)
  { s with prog := { s.prog with
      units := tset s.prog.units n u
      storedForces := keep ++ s.prog.forces.filter (fun f => handleTask f.handle == n) } }

/-- New units of the tasks of the loaded image that a change concerns (R181). -/
def State.commitTasks (s : State) (concerned : List Nat) : State :=
  match s.prog.loaded with
  | none => s
  | some i => (i.tasks.filter (fun d => concerned.contains d.task)).foldl (fun st d => st.commitUnit i d.task) s

/-- New units of every task, at DORMANT entry (R139). -/
def State.commitUnits (s : State) : State :=
  match s.prog.loaded with
  | none => s
  | some i => i.tasks.foldl (fun st d => st.commitUnit i d.task) s

end Sys2Proof.Machine
end

