-- ==== Sys2Proof/Machine/Tones.lean ====
section
/-! DEFINITION. Machine/Tones.lean: which ends of the chains the station holds, the fault tone at them, and the trip source
of a string port (08_string_ports.md). -/

namespace Sys2Proof.Machine

/-! ### Ends and positions (R269 to R272, R275) -/

/-- The command end: A in a one-slot carrier, else the lead's end. -/
def State.cmdEnd (s : State) : Bool :=
  if s.cfg.ee.slots == 1 then false
  else if s.modes.role == .follow || s.modes.role == .syncing then !s.slotB else s.slotB

/-- The station holds the far end: a one-slot carrier, or a working pair (R269, R272). -/
def State.farHeld (s : State) : Bool := s.cfg.ee.slots == 1 || s.leadsPair || s.follows

/-- The module's string engines send on their own. -/
def State.drivesChain (s : State) : Bool :=
  s.modes.settle == .settled && (s.modes.role == .lead || s.modes.role == .simplex) && !s.modes.detached

/-- A frame can leave an end: the module holds it, or its partner does and sends on its instruction (R270, R272). -/
def State.canSend (s : State) (endB : Bool) : Bool := s.holdsEnd endB || s.farHeld

/-- Satellites of a port: the plan's N; of a port outside the plan, those that its enumeration found. -/
def State.sats (s : State) (n : Nat) : Nat :=
  match s.portPlan n with
  | some p => p.sats
  | none => (s.port n).found

/-! ### Trip source (R297 to R300, R305) -/

/-- Satellites covered from end A: 0 up to, not including, this number. -/
def coverA (sats : Nat) (t : Tone) : Nat :=
  match t with
  | .healthy => sats
  | .origin i => if i == 0x3FF then 0 else min sats (i.toNat + 1)
  | _ => 0

/-- Satellites covered from end B: this number up to N - 1. -/
def coverB (sats : Nat) (t : Tone) : Nat :=
  match t with
  | .healthy => 0
  | .origin i => if i == 0x3FF then sats else i.toNat
  | _ => sats

/-- N and OPEN_DELAY, ms, of a port in the sentry core's copy of the cell plan; none for a port outside it (R297). -/
def State.guarded (s : State) (n : Nat) : Option (Nat × Nat) := tfind s.trip.strs n

/-- The sentry core loads the port mask, N and OPEN_DELAY of the stored cell plan; each end that the module holds of a port
in it sources the tone from then on, and of no other port (R297). -/
def State.loadStrings (s : State) : State :=
  let strs : Tab (Nat × Nat) := match s.cells.plan with
    | some c => c.ports.foldl (fun (m : Tab (Nat × Nat)) (e : PortPlan) => tset m e.port (e.sats, e.openDelay)) []
    | none => []
  let drive (st : State) (n : Nat) (on : Bool) : State :=
    [false, true].foldl (fun (x : State) e => if x.holdsEnd e then x.emit (.toneDrive n e on) else x) st
  let s1 := (List.range 16).foldl (fun (st : State) n =>
    let on := (tfind strs n).isSome
    if s.bonded n && on != (s.guarded n).isSome then drive st n on else st) s
  { s1 with trip := { s1.trip with strs := strs } }

/-- Satellites of a port by the sentry core's copy. -/
def State.guardSats (s : State) (n : Nat) : Nat := match s.guarded n with | some (k, _) => k | none => 0

/-- Coverage by tone is whole. -/
def State.covered (s : State) (n : Nat) : Bool :=
  coverB (s.guardSats n) (s.toneAt n true) ≤ coverA (s.guardSats n) (s.toneAt n false)

/-- Data reach every satellite of a chain from one end or the other. -/
def Port.reachedAll (p : Port) (sats : Nat) : Bool :=
  match p.reachA, p.reachB with
  | some a, some b => b ≤ a + 1
  | some a, none => a + 1 == sats
  | none, some b => b == 0
  | none, none => false

/-- A satellite of the plan is known to be out of reach of data from both ends: not before the port's first enumeration,
nor while one finds nothing yet. -/
def State.dataGap (s : State) (n : Nat) : Bool :=
  let p := s.port n
  let known : Bool := p.chain != 0 && (p.chain != 4 || p.reachA.isSome || p.reachB.isSome)
  (s.portPlan n).isSome && known && !(p.reachedAll (s.sats n))

/-- The condition of LOOP_OPEN holds now: a gap of coverage, or a satellite that data reach from neither end. -/
def State.gapNow (s : State) (n : Nat) : Bool := !(s.covered n) || s.dataGap n

/-- Uncovered range, first and last satellite (event 0x0905). -/
def State.uncovered (s : State) (n : Nat) : Nat × Nat :=
  let p := s.port n
  if s.covered n then
    ((match p.reachA with | some i => i + 1 | none => 0), (match p.reachB with | some i => i - 1 | none => s.sats n - 1))
  else (coverA (s.guardSats n) (s.toneAt n false), coverB (s.guardSats n) (s.toneAt n true) - 1)

/-- The trip source enters LOOP_OPEN. -/
def State.loopOpened (s : State) (n : Nat) : State :=
  let (a, b) := s.uncovered n
  (s.setPort n { s.port n with tripSrc := 2 }).event 0x0905 [n, a, b]

/-- A fault pattern stands at an end. -/
def State.faultTone (s : State) (n : Nat) : Bool := s.toneAt n false == .fault || s.toneAt n true == .fault

/-- Both ends are HEALTHY. -/
def State.tonesWhole (s : State) (n : Nat) : Bool := s.toneAt n false == .healthy && s.toneAt n true == .healthy

/-- A break is covered: every satellite from one end or the other, and no FAULT; the chain was found broken, or its tones
were whole before (R305). -/
def State.alarmBreak (s : State) (n : Nat) : Bool :=
  s.covered n && !(s.faultTone n) && !(s.tonesWhole n) && ((s.port n).toneWhole || (s.port n).broken)

def originNum : Tone → Nat
  | .origin i => i.toNat
  | _ => 0x3FF

/-- Event 0x0904 once for each break that stays covered (R305). -/
def State.judgeAlarm (s : State) (n : Nat) : State :=
  let p := s.port n
  if s.alarmBreak n then
    if p.alarmed then s
    else (s.setPort n { p with alarmed := true }).event 0x0904
      [n, originNum (s.toneAt n false), originNum (s.toneAt n true)]
  else s.setPort n { p with toneWhole := p.toneWhole || s.tonesWhole n, alarmed := false }

/-- Re-judge a port's trip source (Table 8-14): CELL_FAULT at once, LOOP_OPEN once the gap has lasted OPEN_DELAY. -/
def State.judgeTone (s : State) (n : Nat) : State :=
  match s.guarded n with
  | none => (s.setPort n { s.port n with tripSrc := 0, gapSince := none, toneWhole := false, alarmed := false }).tripSettle
  | some (_, delay) =>
    let s0 := s.judgeAlarm n
    let p := s0.port n
    let gap := s0.gapNow n
    let since : Option Nat := if gap then (match p.gapSince with | some a => some a | none => some s0.now) else none
    let old : Bool := match since with | some a => a + delay * 1000000 ≤ s0.now | none => false
    let s1 := s0.setPort n { p with gapSince := since }
    if s0.faultTone n then (s1.setPort n { s1.port n with tripSrc := 1 }).tripSettle
    else if gap && (p.tripSrc == 2 || old) then
      (if p.tripSrc == 2 then s1 else s1.loopOpened n).tripSettle
    else (s1.setPort n { s1.port n with tripSrc := 0 }).tripSettle

/-- Every guarded port is judged again. -/
def State.judgeAll (s : State) : State :=
  (List.range 16).foldl (fun (st : State) n => if st.bonded n then st.judgeTone n else st) s

/-- A tone state at an end changes: event 0x0906, a suspected break where the end leaves HEALTHY (R302), and the trip
source. -/
def State.putTone (s : State) (n : Nat) (endB : Bool) (tone : Tone) : State :=
  let p := s.port n
  let was := if endB then p.toneB else p.toneA
  let p1 : Port := if endB then { p with toneB := tone } else { p with toneA := tone }
  let left : Bool := was == .healthy && tone != .healthy && (s.portPlan n).isSome
  let s1 := s.setPort n { p1 with suspect := p.suspect || left }
  let s2 := if tone == .fault && was != .fault && (s.guarded n).isSome then s1.event 0x0906 [n, b2n endB] else s1
  s2.judgeTone n

/-- The states of this module's ends go to the partner (R299). -/
def State.sendTones (s : State) : State :=
  if s.cfg.ee.slots = 1 then s
  else
    (List.range 16).foldl (fun (st : State) n =>
      if st.bonded n then st.emit (.tones n s.slotB (s.toneAt n s.slotB)) else st) s

end Sys2Proof.Machine
end

