-- ==== Sys2Proof/Machine/Trip.lean ====
section
/-! DEFINITION. Machine/Trip.lean: the commands of the trip network and the ward pair (11_trip_and_safety.md). -/

namespace Sys2Proof.Machine

/-! ### TRIP_CONFIG (R399, R400) -/

/-- An output's entry of Table 11-2, 16 bytes. -/
def tripEntryOk (b : List Byte) : Bool :=
  let ctrl := rd b 8 2
  rd b 0 4 < 2 ^ 31 && rd b 4 4 < 2 ^ 31 && ctrl < 16 &&
  (!bit ctrl 3 || (50 ≤ rd b 10 2 && rd b 10 2 ≤ 500 && 1 ≤ rd b 12 4 && rd b 12 4 ≤ 86400))

/-- Content of a TRIP_CONFIG buffer (Table 11-2). -/
def tripConfigOk (b : List Byte) : Bool :=
  b.length == 160 && zeroAt b 1 1 && zeroAt b 4 12 && rd b 2 2 ≤ 3650 &&
  (List.range 8).all (fun n => tripEntryOk (slice b (16 + 16 * n) 16))

/-- A mask names a port that is not bonded out. -/
def State.tripMasksAbsent (s : State) (b : List Byte) : Bool :=
  (List.range 8).any (fun n => (List.range 16).any (fun p =>
    !(s.bonded p) && (bit (rd b (16 + 16 * n) 4) (8 + p) || bit (rd b (20 + 16 * n) 4) (8 + p))))

/-- The new entry of an output; latch, fault and times stay. -/
def TripOut.configure (o : TripOut) (b : List Byte) : TripOut :=
  { o with orMask := rdW b 0, andMask := rdW b 4, ctrl := BitVec.ofNat 16 (rd b 8 2), pulseUs := rd b 10 2
           testInterval := rd b 12 4 }

/-- Apply a configuration at once (R400), with the instants at which sources first become named (R409) and the sentry core's
copy of the cell plan (R297). -/
def State.applyTrip (s : State) (b : List Byte) : State :=
  let outs := (List.range 8).foldl (fun t n =>
    tset t n ((s.tripOut n).configure (slice b (16 + 16 * n) 16))) s.trip.outs
  let t1 := { s.trip with
    invert := BitVec.ofNat 8 (rd b 0 1), proofDays := rd b 2 2, outs := outs
    cfgCrc := crc32 (b.take 144), loaded := true, cfgBad := false }
  let named := (List.range 32).filter (fun n => t1.proofDays != 0 && t1.names n && (tfind t1.namedAt n).isNone)
  let t2 := { t1 with namedAt := named.foldl (fun m n => tset m n s.mt) t1.namedAt }
  (({ s with trip := t2 }.event 0x0408 [t2.cfgCrc.toNat]).loadStrings.judgeAll).tripSettle

/-- TRIP_CONFIG: NOT_PRESENT for an absent port, else stored, applied and logged. -/
def execTripConfig (rid : Nat) (s : State) : Host.Outcome State Fault Refusal :=
  .next (s.onReq rid 0x0880 (fun r =>
    if s.tripMasksAbsent r.buf then s.complete r stNotPresent
    else
      let s1 := s.applyTrip r.buf
      (s1.logChange r s.trip.cfgCrc.toNat s1.trip.cfgCrc.toNat 0).complete r stOk))

/-! ### Safety functions (R402 to R408) -/

/-- Kind and condition suit each other (R404). -/
def safeInOk (b : List Byte) : Bool :=
  let k := rd b 0 1
  let c := rd b 2 1
  zeroAt b 3 1 && ((k ≤ 1 && c ≤ 1) || ((k == 2 || k == 4) && (c == 2 || c == 3)) || (k == 3 && c == 4))

/-- A function entry of Table 11-4, 64 bytes. -/
def safeEntryOk (b : List Byte) : Bool :=
  let nin := rd b 2 1
  let out := rd b 3 1
  rd b 0 1 ≤ 31 && 1 ≤ rd b 1 1 && rd b 1 1 ≤ nin && 1 ≤ nin && nin ≤ 4 &&
  !bit out 5 && (bits out 6 2 == 0 && bits out 0 5 ≤ 3 || bits out 6 2 == 1 && bits out 0 5 ≤ 15) &&
  (rd b 8 1 == 0 && rd b 9 1 == 0xFF || rd b 8 1 == 1 && rd b 9 1 ≤ 31) && rd b 0xA 1 < 2 ^ nin && zeroAt b 0xB 1 &&
  (List.range 4).all (fun i => if i < nin then safeInOk (slice b (16 + 12 * i) 12) else zeroAt b (16 + 12 * i) 12)

def SafeIn.read (b : List Byte) : SafeIn :=
  { kind := rd b 0 1, ch := rd b 1 1, cond := rd b 2 1, thr := rdW b 4, hyst := rdW b 8 }

/-- A function as it starts: in demand, nothing demand-tested yet (R406, R407). -/
def SafeFn.read (b : List Byte) : SafeFn :=
  let nin := rd b 2 1
  { func := rd b 0 1, vote := rd b 1 1, isDo := bits (rd b 3 1) 6 2 == 1, idx := bits (rd b 3 1) 0 5, pst := rd b 4 4
    manual := rd b 8 1 == 1, rstIn := rd b 9 1, demandTest := BitVec.ofNat 8 (rd b 0xA 1), outExtra := rd b 0xC 4
    ins := (List.range nin).map (fun i => SafeIn.read (slice b (16 + 12 * i) 12)), raw := b
    inDem := List.replicate nin true, seenDem := List.replicate nin false
    tested := (List.range nin).map (fun i => !bit (rd b 0xA 1) i) }

/-- Content of a SAFETY_CONFIG buffer; a current-loop input stands in the input role, and a digital output stands in
one function only. -/
def State.safetyConfigOk (s : State) (b : List Byte) : Bool :=
  let n := rd b 4 2
  let es := entriesOf 64 (slice b 16 (64 * n))
  let fs := es.map SafeFn.read
  500 ≤ rd b 0 4 && rd b 0 4 ≤ 100000 && 1 ≤ n && n ≤ 32 && b.length == 32 + 64 * n && zeroAt b 6 10 &&
  es.all safeEntryOk && distinct (fs.map (·.func)) && distinct ((fs.filter (·.isDo)).map (·.idx)) &&
  fs.all (fun f => f.ins.all (fun i => i.kind != 2 || 8 ≤ i.ch || (s.cl i.ch).isIn))

/-- The channel or port of an input is absent. -/
def State.safeInAbsent (s : State) (i : SafeIn) : Bool :=
  match i.kind with
  | 0 => 8 ≤ i.ch | 1 => 32 ≤ i.ch | 2 => 8 ≤ i.ch | 3 => !(s.bonded i.ch) | _ => 8 ≤ i.ch

/-- Conversion interval of a current-loop channel, us (Table 14-3). -/
def Cl.interval (c : Cl) : Nat :=
  match bits c.ctrl.toNat 4 2 with
  | 0 => 250 | 1 => 1000 | 2 => 20000 | _ => 100000

/-- t_in of an input in tenths of a us (Table 11-5). A fast analogue input converts on the millisecond grid. -/
def State.tIn (s : State) (i : SafeIn) : Nat :=
  match i.kind with
  | 0 => 1
  | 1 => 10 * ((s.di i.ch).debounce + 5)
  | 2 => 20 * (s.cl i.ch).interval
  | 3 =>
    match s.portPlan i.ch with
    | some p => 1000 * rd p.cfg 3 1 + 150 + 5 * (p.sats - 1)
    | none => 150
  | _ => 20000

/-- Worst-case reaction time in us, rounded up (R408). -/
def State.reactionTime (s : State) (f : SafeFn) (period : Nat) : Nat :=
  let tin := f.ins.foldl (fun a i => max a (s.tIn i)) 0
  ceilDiv (tin + 20 * period + (if f.isDo then 1000 else 100) + (if f.isDo && s.paired then 4000 else 0) +
    10 * f.outExtra) 10

/-- SAFETY_CONFIG: the opcode's own checks, then stored for the next safety period (R404, R406, R408). -/
def execSafetyConfig (rid : Nat) (s : State) : Host.Outcome State Fault Refusal :=
  .next (s.onReq rid 0x0881 (fun r =>
    let n := rd r.buf 4 2
    let period := rd r.buf 0 4
    let fs := (entriesOf 64 (slice r.buf 16 (64 * n))).map SafeFn.read
    if fs.any (fun f => f.ins.any s.safeInAbsent) then s.complete r stNotPresent
    else
      match fs.find? (fun f => f.pst < s.reactionTime f period) with
      | some f => s.complete r stAdmission (f.func + s.reactionTime f period * 2 ^ 32)
      | none =>
        let crc := crc32 (r.buf.take (16 + 64 * n))
        let s1 := { s with trip := { s.trip with newFns := some (period, fs), safetyCrc := crc, safetyBad := false } }
        (s1.logChange r s.trip.safetyCrc.toNat crc.toNat 0).complete r stOk))

/-- An input demands in this period; THR with its hysteresis (Table 11-4). -/
def State.safeInDemand (s : State) (i : SafeIn) (was : Bool) : Bool :=
  let level : Bool := if i.kind = 0 then s.trip.levels.getLsbD i.ch else (s.di i.ch).state
  let v : F := if i.kind = 2 then (s.cl i.ch).ma else tget s.fio.fai i.ch 0
  match i.cond with
  | 0 => !level
  | 1 => level
  | 2 => flt i.thr v || (was && flt (fsub i.thr i.hyst) v)
  | 3 => flt v i.thr || (was && flt v (fadd i.thr i.hyst))
  | _ => (s.port i.ch).tripSrc != 0

/-- The vote of a function over its inputs. -/
def SafeFn.voted (f : SafeFn) : Bool := f.vote ≤ (f.inDem.filter id).length

/-- One function in one period: inputs, vote, demand tests, demand (R405, R407). -/
def State.evalFn (s : State) (f : SafeFn) : SafeFn :=
  let dem := (f.ins.zip f.inDem).map (fun (i, w) => s.safeInDemand i w)
  let rst := (s.di f.rstIn).state
  let f1 := { f with
    inDem := dem
    seenDem := (f.seenDem.zip dem).map (fun (a, b) => a || b)
    tested := (f.tested.zip (f.seenDem.zip dem)).map (fun (t, a, b) => t || (a && !b))
    rstLast := rst }
  { f1 with demand := f1.voted || f1.testPending || (f.manual && f.demand && !(rst && !f.rstLast)) }

/-- Events of a function's period. -/
def SafeFn.events (old new : SafeFn) (s : State) : State :=
  let s1 := ((old.tested.zip new.tested).zipIdx).foldl (fun st ((a, b), i) =>
    if !a && b then st.event 0x0406 [new.func, i] else st) s
  if new.demand && !old.demand then s1.event 0x0404 [new.func]
  else if !new.demand && old.demand then s1.event 0x0405 [new.func]
  else s1

/-- SAFETY_PERIOD: one PERIOD after the last, a stored configuration takes effect, or every function is decided and the outputs are written. -/
def execSafetyPeriod (t : Nat) (s : State) : Host.Outcome State Fault Refusal :=
  let s0 := s.tick t
  .next (
    if !s0.trip.evaluating || s0.now < s0.trip.periodAt + s0.trip.period * 1000 then s0
    else
      let s0 := { s0 with trip := { s0.trip with periodAt := s0.now } }
      match s0.trip.newFns with
      | some (p, fs) =>
        ({ s0 with trip := { s0.trip with fns := fs, period := p, newFns := none } }.event 0x0409
          [s0.trip.safetyCrc.toNat]).wardEval
      | none =>
        let fs := s0.trip.fns.map s0.evalFn
        let s1 := (s0.trip.fns.zip fs).foldl (fun st (a, b) => a.events b st) s0
        let s2 := { s1 with trip := { s1.trip with fns := fs, wardPeriodDone := true } }
        s2.wardEval)

/-! ### Resets and switch tests (R395, R397) -/

/-- A switch of an output fails: SWITCH_FAULT, safe state, latch, event 0x0412 (switch 0 high side, 1 low side). -/
def State.switchFail (s : State) (n : Nat) (high : Bool) : State :=
  let s1 := { s with trip := { s.trip with switchFaults := satInc s.trip.switchFaults } }
  let s2 := s1.event 0x0412 [n, if high then 0 else 1]
  let o := s2.tripOut n
  s2.putOut n ({ o with switchFault := true }.settle o.term)

/-- A reset of output n by an actor, at the next Winter tick: with SWITCH_FAULT set the switch test runs first; the
term wins. `high` and `low` are what the test found for each switch, through both of its parts; a switch that fails it is
counted and logged as at every test. Answers whether the output left its latch. -/
def State.resetOut (s : State) (n actor : Nat) (high low : Bool) : State × Bool :=
  let o := s.tripOut n
  if o.switchFault && !(high && low) then
    let s1 := if high then s else s.switchFail n true
    (if low then s1 else s1.switchFail n false, false)
  else
    let o1 := { o with switchFault := false }
    if o.term then
      let s1 := s.setTripOut n o1
      (if o.latched then s1.event 0x0413 [n] else s1, false)
    else if o.latched then
      let s1 := s.putOut n ({ o1 with latched := false }.settle false)
      (s1.event 0x0402 [n, actor], true)
    else (s.setTripOut n o1, false)

/-- TRIP_RESET: completes OK in every case; RESULT bit 0 says whether the output left its latch. -/
def execTripReset (rid : Nat) (high low : Bool) (s : State) : Host.Outcome State Fault Refusal :=
  .next (s.onReq rid 0x0882 (fun r =>
    let (s1, done) := s.resetOut r.value r.actor high low
    let crc := s.trip.cfgCrc.toNat
    (s1.logChange r crc crc r.value).complete r stOk (b2n done)))

/-- PULSE_TEST: the next switch of an energised output opens and closes again; the switches take turns. -/
def execPulseTest (t : Nat) (n : Fin 8) (opened closed : Bool) (s : State) : Host.Outcome State Fault Refusal :=
  let s0 := s.tick t
  let o := s0.tripOut n.val
  .next (
    if s0.coil n.val && o.pulseTest && o.testAt + o.testInterval * 1000000000 ≤ s0.now then
      let s1 := s0.setTripOut n.val { o with testAt := s0.now, testHigh := !o.testHigh }
      if opened && closed then s1 else s1.switchFail n.val o.testHigh
    else s0)

/-- SWITCH_FAULT: a readback disagrees with its command for 10 us. -/
def execSwitchFault (t : Nat) (n : Fin 8) (high : Bool) (durNs : Nat) (s : State) : Host.Outcome State Fault Refusal :=
  let s0 := s.tick t
  .next (if s0.trip.armed && 10000 ≤ durNs && !(s0.tripOut n.val).switchFault then s0.switchFail n.val high else s0)

/-! ### Sources -/

/-- TRIP_INPUT_EDGE: a level stable for 100 ns is seen, and every term is evaluated (R391). -/
def execTripInputEdge (t : Nat) (n : Fin 8) (level : Bool) (stableNs : Nat) (s : State) :
    Host.Outcome State Fault Refusal :=
  let s0 := s.tick t
  .next (
    if stableNs < 100 then s0
    else
      let b := BitVec.ofNat 8 (2 ^ n.val)
      let l := s0.trip.levels
      let s1 := { s0 with trip := { s0.trip with levels := if level then l ||| b else l &&& ~~~b } }
      s1.tripSettle)

/-- DIE_TEMPERATURE: source 29 asserts above 115 degC at any die and is released below 105 degC; a unit is
0.125 degC, and PWR.FLAGS.OVER_TEMP keeps each assertion (Table 15-8). -/
def execDieTemperature (t : Nat) (die : Fin 8) (deg : BitVec 16) (s : State) : Host.Outcome State Fault Refusal :=
  let s0 := s.tick t
  .next (
    if !(s0.diePresent die.val) then s0
    else
      let temps := tset s0.pwr.temps die.val deg
      let hot := temps.any (fun e => 920 < e.2.toInt)
      let cool := temps.all (fun e => e.2.toInt < 840)
      let tooHot := hot || (s0.trip.overTemp && !cool)
      let fl := if tooHot && !s0.trip.overTemp then s0.pwr.flags ||| 8 else s0.pwr.flags
      let s1 := { s0 with pwr := { s0.pwr with temps := temps, flags := fl }
                          trip := { s0.trip with overTemp := tooHot } }
      s1.tripSettle)

/-- PROOF_DUE: a named source that has not asserted within PROOF_DAYS; event 0x0414 when it falls due and every 24 h
after (R409). -/
def execProofDue (t : Nat) (src : Fin 32) (s : State) : Host.Outcome State Fault Refusal :=
  let s0 := s.tick t
  let due := s0.overdue src.val && (match tfind s0.trip.proofAt src.val with
    | some a => a + dayNs ≤ s0.mt
    | none => true)
  .next (
    if due then
      ({ s0 with trip := { s0.trip with proofDue := true, proofAt := tset s0.trip.proofAt src.val s0.mt } }).event
        0x0414 [src.val]
    else s0)

/-! ### Status (R410) -/

/-- TRIP_STATUS: 336 bytes of sources, outputs, wards and times. -/
def execTripStatus (rid : Nat) (s : State) : Host.Outcome State Fault Refusal :=
  .next (s.onReq rid 0x0883 (fun r =>
    s.complete r stOk (data := some (u32 s.trip.src.toNat ++ u32 (s.tripWord 0x014) ++ u32 s.trip.ward.toNat ++ zeros 4 ++
      (List.range 32).flatMap (fun n => u64 (tget s.trip.lastAssert n 0)) ++
      (List.range 8).flatMap (fun n => u64 (s.tripOut n).lastSafe)))))

/-- A function's entry of SAFETY_STATUS. -/
def State.fnStatus (s : State) (f : SafeFn) : List Byte :=
  let dem := f.demand || !s.trip.evaluating
  u8 f.func ++ u8 (fld 2 1 (b2n (f.manual && dem && !f.voted)) + fld 1 1 (b2n f.testPending) + b2n dem) ++ zeros 2 ++
  u32 (s.reactionTime f s.trip.period) ++ u32 f.pst ++ zeros 4

/-- SAFETY_STATUS: 528 bytes; unused entries are 0. -/
def execSafetyStatus (rid : Nat) (s : State) : Host.Outcome State Fault Refusal :=
  .next (s.onReq rid 0x0884 (fun r =>
    s.complete r stOk (data := some (u32 s.trip.period ++ u16 s.trip.fns.length ++ zeros 10 ++
      s.trip.fns.flatMap s.fnStatus ++ zeros (16 * (32 - s.trip.fns.length))))))

end Sys2Proof.Machine
end

