-- ==== Sys2Proof/Machine/Fio.lean ====
section
/-! DEFINITION. Machine/Fio.lean: field inputs and outputs: conversions, supervision, tests, trim and the FIO commands
(14_field_io.md). -/

namespace Sys2Proof.Machine

/-! ### Constants as binary32 words -/

def f0 : F := 0
def f1 : F := 0x3F800000
def f4 : F := 0x40800000
def f16 : F := 0x41800000
def f20 : F := 0x41A00000
def f22 : F := 0x41B00000
def f10v : F := 0x41200000
def f105 : F := 0x41280000
def fHalf : F := 0x3F000000

/-! ### Values of a channel -/

/-- A digital input at an instant: the state before any change that completes at that instant (R475). -/
def State.diAt (s : State) (n mt : Nat) : Bool :=
  let d := s.di n
  if d.changedMt == mt && mt != 0 then !d.state else d.state

/-- Trimmed current of a raw current: 4 + (m - 4 - ZERO) x 16 / (16 + SPAN - ZERO) (R485). -/
def Cl.trimmed (c : Cl) (raw : F) : F :=
  fadd f4 (fdiv (fmul (fsub (fsub raw f4) c.zero) f16) (fsub (fadd f16 c.span) c.zero))

/-- The current that an output drives into its terminal: the command through the stored trim (R485). -/
def State.clDriven (s : State) (n : Nat) : Option (BitVec 32) :=
  (s.clTerm n).map (fun c => let x := s.cl n
    fadd (fadd f4 x.zero) (fdiv (fmul (fsub c f4) (fsub (fadd f16 x.span) x.zero)) f16))

/-- VALUE of an input by its characteristic (R480). -/
def Cl.charValue (c : Cl) (ma : F) : F :=
  let x := fmin (fmax (fdiv (fsub ma f4) f16) f0) f1
  let span := fsub c.hi c.lo
  match bits c.ctrl.toNat 2 2 with
  | 0 => ffma x span c.lo
  | 1 => if flt x 0x3C23D70A then c.lo else ffma (fsqrt x) span c.lo
  | _ =>
    let p := f64.mul (f64of x) (f64.ofInt 31)
    let j := min 30 (f64.toI64 false p).toNat
    let t0 := f64of (tget c.table j 0)
    let t1 := f64of (tget c.table (j + 1) 0)
    f32of (f64.fma (f64.sub p (f64.ofInt j)) (f64.sub t1 t0) t0)

/-- NAMUR NE 43 band of a trimmed current: 0 normal, 1 FAULT_LOW, 2 FAULT_HIGH, 3 RANGE (R481). -/
def clBand (ma : F) : Nat :=
  if flt ma 0x40666666 then 1
  else if flt 0x41A80000 ma then 2
  else if fle ma 0x40733333 || fle 0x41A40000 ma then 3
  else 0

/-- A current-loop input is lost for R245 (R480, R481, R483). -/
def Cl.lost (c : Cl) : Bool := c.noData || c.band == 1 || c.band == 2 || c.miswire

/-- Edges of a pulse input before an instant, newest first. -/
def Pi.before (p : Pi) (mt : Nat) : List (Nat × Bool) := p.edges.filter (fun e => e.1 < mt)

/-- COUNT at an instant: what it stood at before the first change at or after it (R490). -/
def Pi.countAt (p : Pi) (mt : Nat) : Int :=
  match (p.counts.filter (fun e => mt ≤ e.1)).getLast? with
  | some e => e.2
  | none => p.count

/-- A current-loop input as a sample or latch at an instant finds it: a conversion completed at that very instant belongs to
the next one (R9, R480). -/
def State.clAt (s : State) (n at_ : Nat) : Cl :=
  let c := s.cl n
  if s.before at_ c.convAt || !c.isIn then c
  else { c with ma := c.was.ma, value := c.was.value, band := c.was.band, noData := c.was.noData }

/-- PERIOD_NS: the time between the last two counted edges; 0 before two edges are counted (log 12). -/
def Pi.periodNs (p : Pi) (mt : Nat) : Nat :=
  match p.before mt with
  | a :: b :: _ => a.1 - b.1
  | _ => 0

/-- FREQ at an instant (R490). -/
def Pi.freqAt (p : Pi) (mt : Nat) : F :=
  let es := p.before mt
  let win := es.filter (fun e => mt ≤ e.1 + p.window * 1000)
  let neg := match es with | e :: _ => !e.2 | _ => false
  let old : Bool := match es with | e :: _ => e.1 + bits p.cfg.toNat 16 16 * 1000000 < mt | _ => false
  if p.stalled || old then f0
  else
    match win.head?, win.getLast? with
    | some a, some b =>
      if 2 ≤ win.length then ofRat neg ((win.length - 1) * 1000000000) (a.1 - b.1)
      else if p.periodNs mt = 0 then f0 else ofRat neg 1000000000 (p.periodNs mt)
    | _, _ => if p.periodNs mt = 0 then f0 else ofRat neg 1000000000 (p.periodNs mt)

/-! ### Commits to outputs (R151, R477, R482, R488) -/

/-- A committed value of a digital output. -/
def Do.commit (d : Do) (b : Bool) : Do := { d with cmd := b, committed := true }

/-- A committed current, clamped to 0 to 22 mA; a NaN is not applied. -/
def Cl.commit (c : Cl) (v : F) : Cl :=
  if fnan v then c else { c with cmd := fmin (fmax v f0) f22, committed := true }

/-- A committed voltage, clamped to +-10 V; a NaN is not applied. -/
def Fao.commit (c : Fao) (v : F) : Fao :=
  if fnan v then c else { c with cmd := fmin (fmax v (fneg f10v)) f10v, committed := true }

/-! ### Digital inputs and outputs -/

/-- DI_DEBOUNCE: a level stable for DEBOUNCE us is taken; a broken wire reads 0 (R474, R476). -/
def execDiDebounce (t : Nat) (n : Fin 32) (level : Bool) (stableNs : Nat) (s : State) :
    Host.Outcome State Fault Refusal :=
  let s0 := s.tick t
  let d := s0.di n.val
  let l := level && !d.wb
  .next (
    if d.debounce * 1000 ≤ stableNs && l != d.state then s0.setDi n.val { d with state := l, changedMt := s0.mt }
    else s0)

/-- WIRE_BREAK: a current below 0.5 mA for 10 ms sets it, a current at or above for 10 ms clears it (R476). -/
def execWireBreak (t : Nat) (n : Fin 32) (current : BitVec 32) (durNs : Nat) (s : State) :
    Host.Outcome State Fault Refusal :=
  let s0 := s.tick t
  let d := s0.di n.val
  let low := flt current fHalf
  .next (
    if !s0.fio.wbEn.getLsbD n.val || durNs < 10000000 then s0
    else if low && !d.wb then
      (s0.setDi n.val { d with wb := true, current := current, state := false
                               changedMt := if d.state then s0.mt else d.changedMt }).event 0x0C00 [n.val]
    else if !low && d.wb then
      (s0.setDi n.val { d with wb := false, current := current }).event 0x0C01 [n.val]
    else s0.setDi n.val { d with current := current })

/-- DO_SHORT: above 0.7 A for 100 us the output switches off (R478). -/
def execDoShort (t : Nat) (n : Fin 16) (milliamp durNs : Nat) (s : State) : Host.Outcome State Fault Refusal :=
  let s0 := s.tick t
  let d := s0.do_ n.val
  .next (
    if 700 < milliamp && 100000 ≤ durNs && s0.doDriven n.val then
      (s0.setDo n.val { d with short := true, shortAt := s0.now }).event 0x0C02 [n.val]
    else s0)

/-- DO_RETRY: every 1 s while commanded on; SHORT clears at the first retry that holds (R478). -/
def execDoRetry (t : Nat) (n : Fin 16) (holds : Bool) (s : State) : Host.Outcome State Fault Refusal :=
  let s0 := s.tick t
  let d := s0.do_ n.val
  .next (
    if d.short && s0.doTerm n.val == some true && d.shortAt + 1000000000 ≤ s0.now then
      s0.setDo n.val (if holds then { d with short := false } else { d with shortAt := s0.now })
    else s0)

/-- MISMATCH: a readback that differs from, or agrees with, the value driven for 1 ms (R478). -/
def execMismatch (t : Nat) (n : Fin 16) (readback : Bool) (durNs : Nat) (s : State) :
    Host.Outcome State Fault Refusal :=
  let s0 := s.tick t
  let d := s0.do_ n.val
  let differs := readback != s0.doDriven n.val
  let s1 := s0.setDo n.val { d with readback := readback }
  .next (
    if (s0.doTerm n.val).isNone || durNs < 1000000 || differs == d.mismatch then s1
    else
      let s2 := s1.setDo n.val { d with readback := readback, mismatch := differs }
      if differs then s2.event 0x0C03 [n.val] else s2)

/-! ### Current loops (R479 to R485) -/

/-- Tolerance of COMPLIANCE in mA: COMP_TOL in 0.01 % of 16 mA. -/
def Cl.tol (c : Cl) : F := ofRat false (bits c.comp.toNat 16 16 * 16) 10000

/-- COMPLIANCE after a conversion of an output, with the instants since which every conversion differs or agrees. -/
def Cl.judgeCompliance (c : Cl) (cmd ma : F) (now : Nat) : Cl :=
  if flt c.tol (fabs (fsub cmd ma)) then
    let since := c.diffSince.getD now
    { c with diffSince := some since, agreeSince := none
             compl := c.compl || since + bits c.comp.toNat 0 16 * 1000000 ≤ now }
  else
    let since := c.agreeSince.getD now
    { c with diffSince := none, agreeSince := some since, compl := c.compl && now < since + 5000000 }

/-- OPEN: commanded at least 1 mA while the readback stays below 0.2 mA for 10 ms (R482). -/
def Cl.judgeOpen (c : Cl) (cmd ma : F) (now : Nat) : Cl :=
  if fle f1 cmd && flt ma 0x3E4CCCCD then
    let since := c.openSince.getD now
    { c with openSince := some since, open_ := c.open_ || since + 10000000 ≤ now }
  else { c with openSince := none, open_ := false }

/-- A stored trim: event 0x0C0A with the actor (R485). -/
def State.trimStored (s : State) (actor ch : Nat) (zero span : F) : State :=
  (s.setCl ch { s.cl ch with zero := zero, span := span }).event 0x0C0A [ch, actor, zero.toNat, span.toNat]

/-- |v| is at most 0.5 mA. -/
def trimOk (v : F) : Bool := fle (fabs v) fHalf

/-- Mean of raw conversions: the exact sum, divided with one rounding. -/
def meanOf (l : List F) : F :=
  fw (f32.divV (l.foldl (fun a x => a.add (f32.decode x.toNat)) (f32.decode 0)) (f32.decode (ofInt32 l.length).toNat))

/-- A capture that has its 16 raw conversions goes on to the flash store, or fails beyond 0.5 mA (R499). -/
def State.captureDone (s : State) (rid : Option Nat) (ch : Nat) (span : Bool) : State :=
  let c := s.cl ch
  let m := meanOf c.raws
  let z := if span then c.zero else fsub m f4
  let p := if span then fsub m f20 else c.span
  let s1 := { s with fio := { s.fio with capture := none } }
  if trimOk z && trimOk p then { s1 with fio := { s1.fio with trimJob := some (rid, ch, z, p) } }
  else
    match rid.bind s1.findReq with
    | some r => s1.complete r stBad 5
    | none => s1

/-- CL_CONVERSION: MA, VALUE, band, COMPLIANCE and OPEN of a channel with a role. A conversion during which the burden
or the stage switched (`burdenHz` is HIGHZ at the end of the last one), or before the first interval under the role and rate has elapsed, gives nothing (R480, R495). -/
def execClConversion (t : Nat) (n : Fin 8) (raw : BitVec 32) (s : State) : Host.Outcome State Fault Refusal :=
  let s0 := s.tick t
  let c := s0.cl n.val
  .next (
    if bits c.ctrl.toNat 0 2 == 0 || s0.mt < c.startMt + c.interval * 1000 then s0
    else if c.burdenHz == some (!s0.clHighZ n.val) then s0.setCl n.val { c with burdenHz := some (s0.clHighZ n.val) }
    else
      let ma := c.trimmed raw
      let c1 := { c with
        burdenHz := some (s0.clHighZ n.val), ma := ma, noData := false, raws := (raw :: c.raws).take 16, convAt := s0.now
        was := { ma := c.ma, value := c.value, band := c.band, noData := c.noData } }
      if c.isIn then
        let b := clBand ma
        let fault (x : Nat) : Bool := x == 1 || x == 2
        let s1 := s0.setCl n.val { c1 with value := c.charValue ma, band := b }
        let left := if fault c.band && b != c.band then s1.event 0x0C06 [n.val] else s1
        let s2 := if fault b && b != c.band then left.event 0x0C05 [n.val, b] else left
        match s2.fio.capture with
        | some (rid, ch, span) =>
          if ch == n.val && c1.raws.length == 16 then s2.captureDone rid ch span else s2
        | none => s2
      else
        match s0.clTerm n.val with
        | none => s0.setCl n.val { c1 with diffSince := none, agreeSince := none, openSince := none }
        | some cmd =>
          let c2 := (c1.judgeCompliance cmd ma s0.now).judgeOpen cmd ma s0.now
          let s1 := s0.setCl n.val c2
          if c2.compl && !c.compl then s1.event 0x0C07 [n.val, cmd.toNat, ma.toNat]
          else if !c2.compl && c.compl then s1.event 0x0C08 [n.val]
          else s1)

/-- MISWIRE: more than 30 mA, or reverse voltage, for 10 us opens the stage in any role (R483). -/
def execMiswire (t : Nat) (n : Fin 8) (milliamp : Nat) (reverse : Bool) (durNs : Nat) (s : State) :
    Host.Outcome State Fault Refusal :=
  let s0 := s.tick t
  let c := s0.cl n.val
  .next (
    if (30 < milliamp || reverse) && 10000 ≤ durNs && !c.miswire then
      (s0.setCl n.val { c with last := (s0.clTerm n.val).getD c.last, miswire := true, miswireAt := s0.now }).event
        0x0C09 [n.val]
    else s0)

/-- MISWIRE_RETRY: every 1 s; MISWIRE clears once a try holds for 10 ms (R483). -/
def execMiswireRetry (t : Nat) (n : Fin 8) (holds : Bool) (s : State) : Host.Outcome State Fault Refusal :=
  let s0 := s.tick t
  let c := s0.cl n.val
  .next (
    if c.miswire && c.miswireAt + 1000000000 ≤ s0.now then
      s0.setCl n.val (if holds then { c with miswire := false } else { c with miswireAt := s0.now })
    else s0)

/-! ### Fast analogue inputs (R486, R487) -/

/-- One reading, clamped to +-10.5 V. -/
def State.faiRead (s : State) (n : Nat) (v : F) : State :=
  let tooFar := flt f105 (fabs v)
  let was := s.fio.faiOver.getLsbD n
  let m := BitVec.ofNat 8 (2 ^ n)
  let s1 := { s with fio := { s.fio with
    fai := tset s.fio.fai n (fmin (fmax v (fneg f105)) f105)
    faiOver := if tooFar then s.fio.faiOver ||| m else s.fio.faiOver &&& ~~~m } }
  if tooFar && !was then s1.event 0x0C0F [n] else s1

/-! ### Pulse inputs (R489 to R491) -/

def Pi.mode (p : Pi) : Nat := bits p.cfg.toNat 2 3

/-- COUNT changes at a stamp; what a loop's period of up to 1 s can still need is kept (R244). -/
def Pi.recount (p : Pi) (stamp : Nat) (v : Int) : Pi :=
  { p with count := v, counts := (stamp, p.count) :: p.counts.filter (fun e => stamp ≤ e.1 + 1000000000) }

/-- A counted edge: its stamp at 2 ns resolution, the count, and the edges that FREQ can still need. -/
def Pi.edge (p : Pi) (mt : Nat) (up : Bool) : Pi :=
  let stamp := mt / 2 * 2
  let keep := (p.edges.take 1) ++ (p.edges.drop 1).filter (fun e => stamp ≤ e.1 + 100000000)
  { p.recount stamp (if up then p.count + 1 else p.count - 1) with
      edges := (stamp, up) :: keep, stalled := false, overRate := false }

/-- PULSE_EDGE. -/
def execPulseEdge (t : Nat) (n : Fin 4) (e : PulseEdge) (s : State) : Host.Outcome State Fault Refusal :=
  let s0 := s.tick t
  let p := s0.pulse n.val
  .next (match e with
    | .up => s0.setPulse n.val (p.edge s0.mt true)
    | .down => s0.setPulse n.val (if p.mode == 0 then p else p.edge s0.mt false)
    | .z => s0.setPulse n.val (if bit p.cfg.toNat 5 then p.recount (s0.mt / 2 * 2) 0 else p)
    | .both => if 2 ≤ p.mode then (s0.setPulse n.val { p with qerr := true }).event 0x0C0E [n.val] else s0
    | .overRate => s0.setPulse n.val { p with overRate := true })

/-- LINE_FAULT: an RS-422 line below 200 mV for 1 us; it clears when the line is good for as long. -/
def execLineFault (t : Nat) (n : Fin 4) (line : Fin 3) (low : Bool) (durNs : Nat) (s : State) :
    Host.Outcome State Fault Refusal :=
  let s0 := s.tick t
  let p := s0.pulse n.val
  let m := BitVec.ofNat 3 (2 ^ line.val)
  .next (
    if bits p.cfg.toNat 0 2 != 0 || durNs < 1000 || low == p.lineFault.getLsbD line.val then s0
    else if low then (s0.setPulse n.val { p with lineFault := p.lineFault ||| m }).event 0x0C0D [n.val, line.val]
    else s0.setPulse n.val { p with lineFault := p.lineFault &&& ~~~m })

/-- STALLED: the last edge is older than STALL. -/
def execStalled (t : Nat) (n : Fin 4) (s : State) : Host.Outcome State Fault Refusal :=
  let s0 := s.tick t
  let p := s0.pulse n.val
  .next (match p.edges with
    | e :: _ => if e.1 + bits p.cfg.toNat 16 16 * 1000000 < s0.mt then s0.setPulse n.val { p with stalled := true } else s0
    | [] => s0)

/-- PI_STATUS_READ: the read gives the status and clears QERR. -/
def execPiStatusRead (t : Nat) (n : Fin 4) (s : State) : Host.Outcome State Fault Refusal :=
  let s0 := s.tick t
  let p := s0.pulse n.val
  .next ((s0.emit (.readValue (0xC2E0 + 4 * n.val) (BitVec.ofNat 64 p.status))).setPulse n.val { p with qerr := false })

/-! ### Field-side watchdogs (R494) -/

/-- WD_TIME of an output in ns, when it was last refreshed, and whether its watchdog has expired. -/
def State.wdOf (s : State) (group ch : Nat) : Option (Nat × Nat × Bool) :=
  match group with
  | 1 => some (bits (s.do_ ch).cfg.toNat 16 10 * 1000000, (s.do_ ch).refreshed, (s.do_ ch).wdExpired)
  | 2 => if ch < 8 && (s.cl ch).isOut then
      some (bits (s.cl ch).ctrl.toNat 16 10 * 1000000, (s.cl ch).refreshed, (s.cl ch).wdExpired) else none
  | 4 => if ch < 4 then some (bits (s.fao ch).cfg.toNat 16 10 * 1000000, (s.fao ch).refreshed, (s.fao ch).wdExpired)
      else none
  | _ => none

/-- Set an output's watchdog; at an expiry the value its terminal last carried is kept for HOLD. -/
def State.setWd (s : State) (group ch : Nat) (expired : Bool) : State :=
  match group with
  | 1 =>
    let d := s.do_ ch
    s.setDo ch (if expired then { d with last := (s.doTerm ch).getD d.last, wdExpired := true }
      else { d with wdExpired := false, refreshed := s.now })
  | 2 =>
    let d := s.cl ch
    s.setCl ch (if expired then { d with last := (s.clTerm ch).getD d.last, wdExpired := true }
      else { d with wdExpired := false, refreshed := s.now })
  | _ =>
    let d := s.fao ch
    s.setFao ch (if expired then { d with last := (s.faoTerm ch).getD d.last, wdExpired := true }
      else { d with wdExpired := false, refreshed := s.now })

/-- WD_EXPIRED: no refresh for WD_TIME; the field side applies SAFE on its own. -/
def execWdExpired (t : Nat) (group : Nat) (ch : Fin 16) (s : State) : Host.Outcome State Fault Refusal :=
  let s0 := s.tick t
  .next (match s0.wdOf group ch.val with
    | some (time, last, exp) =>
      if !exp && !s0.highZ && last + time ≤ s0.now then (s0.setWd group ch.val true).event 0x0C04 [group, ch.val] else s0
    | none => s0)

/-- WD_REFRESH: the logic side refreshes an output that it drives and resumes control. -/
def execWdRefresh (t : Nat) (group : Nat) (ch : Fin 16) (s : State) : Host.Outcome State Fault Refusal :=
  let s0 := s.tick t
  .next (match s0.wdOf group ch.val with
    | some _ => if s0.highZ then s0 else s0.setWd group ch.val false
    | none => s0)

/-! ### FIO_READ and FIO_SUBSCRIBE (R496, R497) -/

/-- In a follower, the bytes of an input as its lead mirrored them last in a task's image; none for a channel that no task binds
(R356, R496). -/
def State.fioMirrored (s : State) (group ch : Nat) : Option (List Byte) :=
  if !s.follows then none
  else
    s.prog.loaded.bind (fun i => i.tasks.findSome? (fun d => d.binds.findSome? (fun b =>
      let t := s.task d.task
      let r := b.ref.toNat
      if b.kind != 0 || b.space != 0 || bits r 8 8 != group || !t.everLatched then none
      else if bits r 0 8 == ch then some (mread t.img b.offset b.width)
      else if group == 0 && bits r 0 8 == 0xFF then
        some (u8 (b2n (bit (leNat (mread t.img b.offset 4)) ch)) ++ u8 (b2n (bit (leNat (mread t.img (b.offset + 4) 4)) ch)))
      else none)))

/-- VALUE, READBACK, COUNT and STATUS of a channel, with the measured voltage where one is due (Table 14-5). VALUE is what this
module uses: a follower's is its lead's mirrored input, or its own commit (R496). -/
def State.fioParts (s : State) (group ch : Nat) (measured : F) : F × F × Int × Nat :=
  let m := s.fioMirrored group ch
  match group with
  | 0 =>
    let d := s.di ch
    let v := match m with | some b => bit (rd b 0 1) 0 | none => d.state
    (if v then f1 else f0, d.current, 0, b2n d.wb)
  | 1 =>
    let d := s.do_ ch
    let v := if (s.doTerm ch).isNone then d.cmd else s.doDriven ch
    (if v then f1 else f0, measured, 0, fld 1 1 (b2n d.mismatch) + b2n d.short)
  | 2 =>
    let c := s.cl ch
    let v := if c.isIn then (match m with | some b => rdW b 0 | none => c.value) else (s.clTerm ch).getD c.cmd
    (v, c.ma, 0, s.clStatus ch)
  | 3 => (match m with | some b => rdW b 0 | none => tget s.fio.fai ch 0, 0, 0, b2n (s.fio.faiOver.getLsbD ch))
  | 4 => ((s.faoTerm ch).getD (s.fao ch).cmd, measured, 0, 0)
  | _ =>
    let p := s.pulse ch
    match m with
    | some b => (rdW b 8, 0, sx 64 (rd b 0 8), p.status)
    | none => (p.freqAt s.mt, 0, p.countAt s.mt, p.status)

/-- The item of Table 14-5 at this instant. -/
def State.fioItem (s : State) (group ch : Nat) : List Byte × State :=
  let (m, s1) := if group == 1 || group == 4 then s.fresh else (0, s)
  let (v, rb, cnt, st) := s.fioParts group ch m
  (u64 s.mt ++ u32 v.toNat ++ u32 rb.toNat ++ u64 (twos 64 cnt) ++ u32 st ++ zeros 4, s1)

def Req.fioGroup (r : Req) : Nat := bits r.value 8 8
def Req.fioCh (r : Req) : Nat := bits r.value 0 8

/-- FIO_READ. -/
def execFioRead (rid : Nat) (s : State) : Host.Outcome State Fault Refusal :=
  .next (s.onReq rid 0x0B00 (fun r =>
    let (d, s1) := s.fioItem r.fioGroup r.fioCh
    s1.complete r stOk (data := some d)))

/-- FIO_SUBSCRIBE: the target is the channel, the parameter the period in 10 us steps. -/
def execFioSubscribe (rid : Nat) (handle : BitVec 32) (s : State) : Host.Outcome State Fault Refusal :=
  .next (s.onReq rid 0x0B01 (fun r =>
    s.subscribe r { handle := handle, opcode := 0x0B01, ctx := bits r.aux.toNat 0 8, target := bits r.value 0 16
                    param := bits r.aux.toNat 8 24 }))

/-- Post the record that a subscription has filled so far, stamped with its first item. -/
def State.flushSub (s : State) (x : Sub) : State :=
  if x.items.isEmpty then s
  else
    let s1 := s.deliver x.handle x.firstMt x.items
    { s1 with host := { s1.host with subs := s1.host.subs.map (fun y =>
        if y.handle == x.handle then { y with items := [] } else y) } }

/-- Add an item to a subscription's record, which is posted when no further item of its size fits. -/
def State.addItem (s : State) (h : BitVec 32) (mt : Nat) (item : List Byte) : State :=
  match s.host.subs.find? (fun x => x.handle == h) with
  | none => s
  | some x =>
    let x1 := { x with items := x.items ++ [item]
                       firstAt := if x.items.isEmpty then s.now else x.firstAt
                       firstMt := if x.items.isEmpty then mt else x.firstMt }
    let s1 := s.setSub x1
    if 2 ^ (s.ctx x.ctx).recLog - 32 < x1.items.flatten.length + item.length then s1.flushSub x1 else s1

/-- FIO_SUBSCRIBE_SAMPLE: at each whole multiple of the period. -/
def execFioSubscribeSample (t : Nat) (sub : BitVec 32) (s : State) : Host.Outcome State Fault Refusal :=
  let s0 := s.tick t
  .next (match s0.host.subs.find? (fun x => x.handle == sub && x.opcode == 0x0B01) with
    | some x =>
      if x.param != 0 && s0.mt % (x.param * 10000) == 0 then
        let (d, s1) := s0.fioItem (x.target / 256) (x.target % 256)
        s1.addItem sub s0.mt d
      else s0
    | none => s0)

/-- STREAM_RECORD_TIMEOUT: 1 ms after its first item a record is posted as it stands (R465, R497). -/
def execStreamRecordTimeout (t : Nat) (sub : BitVec 32) (s : State) : Host.Outcome State Fault Refusal :=
  let s0 := s.tick t
  .next (match s0.host.subs.find? (fun x => x.handle == sub) with
    | some x => if !x.items.isEmpty && x.firstAt + 1000000 ≤ s0.now then s0.flushSub x else s0
    | none => s0)

/-! ### FIO_TEST (R498) -/

/-- AUX that ends a test. -/
def testEnd : BitVec 32 := 0x80000000

/-- A test value in the channel's own unit. -/
def testWord (group : Nat) (aux : BitVec 32) : F :=
  if group = 2 then ofRat false aux.toNat 1000 else ofRat (aux.toInt < 0) aux.toInt.natAbs 1000

/-- Put a test on an output, or end it. -/
def State.setTest (s : State) (group ch : Nat) (aux : BitVec 32) : State :=
  let stop := aux == testEnd
  match group with
  | 1 =>
    let d := s.do_ ch
    s.setDo ch { d with last := (s.doTerm ch).getD d.last, test := if stop then none else some (aux == 1) }
  | 2 =>
    let d := s.cl ch
    s.setCl ch { d with last := (s.clTerm ch).getD d.last, test := if stop then none else some (testWord 2 aux) }
  | _ =>
    let d := s.fao ch
    s.setFao ch { d with last := (s.faoTerm ch).getD d.last, test := if stop then none else some (testWord 4 aux) }

def State.testRuns (s : State) (group ch : Nat) : Bool :=
  match group with
  | 1 => (s.do_ ch).test.isSome
  | 2 => (s.cl ch).test.isSome
  | _ => (s.fao ch).test.isSome

/-- FIO_TEST: NOT_PRESENT outside an output role; a value runs and completes 10 ms later, the end completes at once. -/
def execFioTest (rid : Nat) (s : State) : Host.Outcome State Fault Refusal :=
  .next (s.onReq rid 0x0B02 (fun r =>
    let g := r.fioGroup
    let c := r.fioCh
    if g == 2 && !(s.cl c).isOut then s.complete r stNotPresent
    else if r.aux == testEnd then
      let s1 := if s.testRuns g c then (s.setTest g c r.aux).event 0x0C0B [g, c, r.aux.toNat] else s
      s1.complete r stOk
    else
      let s1 := ((s.setTest g c r.aux).event 0x0C0B [g, c, r.aux.toNat]).running rid
      { s1 with fio := { s1.fio with tests := s1.fio.tests ++ [(rid, g, c, s.now + 10000000)] } }))

/-- FIO_TEST_SETTLED: 10 ms after the value was applied, the oldest waiting test completes with its readback, signed, in
mV or uA. -/
def execFioTestSettled (t : Nat) (readback : BitVec 32) (s : State) : Host.Outcome State Fault Refusal :=
  let s0 := s.tick t
  .next (match s0.fio.tests with
    | [] => s0
    | (rid, _, _, due) :: rest =>
      if s0.now < due then s0
      else
        let s1 := { s0 with fio := { s0.fio with tests := rest } }
        match s1.findReq rid with
        | some r => s1.complete r stOk (twos 64 readback.toInt)
        | none => s1)

/-! ### FIO_TRIM and the CL TRIM page (R485, R499) -/

/-- Content of a FIO_TRIM buffer, with its reason. -/
def State.fioTrimCheck (s : State) (ch : Nat) (b : List Byte) : Option Nat :=
  let op := rd b 0 1
  if 3 < op || !(zeroAt b 1 3) || !(zeroAt b 12 4) then some 5
  else if (op == 1 || op == 2) && !(s.cl ch).isIn then some 9
  else if op == 0 && !(trimOk (rdW b 4) && trimOk (rdW b 8)) then some 5
  else none

/-- FIO_TRIM: SET and FACTORY go to the flash store, a capture first takes 16 raw conversions. While
another trim is in hand the request waits. -/
def execFioTrim (rid : Nat) (s : State) : Host.Outcome State Fault Refusal :=
  .next (s.onReq rid 0x0B03 (fun r =>
    let ch := r.fioCh
    let s1 := s.running rid
    if s.fio.trimJob.isSome || s.fio.capture.isSome then s
    else
    match rd r.buf 0 1 with
    | 0 => { s1 with fio := { s1.fio with trimJob := some (some rid, ch, rdW r.buf 4, rdW r.buf 8) } }
    | 3 => { s1 with fio := { s1.fio with trimJob := some (some rid, ch, 0, 0) } }
    | op =>
      let s2 := s1.setCl ch { s1.cl ch with raws := [] }
      { s2 with fio := { s2.fio with capture := some (some rid, ch, op == 2) } }))

/-- The flash store of a trim ends: event 0x0C0A and the new trim, or MEDIA_ERROR and the previous one. -/
def State.trimDone (s : State) (ok : Bool) : State :=
  match s.fio.trimJob with
  | none => s
  | some (rid, ch, z, p) =>
    let s1 := { s with fio := { s.fio with trimJob := none } }
    let actor := match rid.bind s1.findReq with | some r => r.actor | none => 2
    let s2 := if ok then s1.trimStored actor ch z p else s1
    match rid.bind s2.findReq with
    | some r => if ok then s2.complete r stOk (z.toNat + p.toNat * 2 ^ 32) else s2.complete r stMedia
    | none => s2

end Sys2Proof.Machine
end

