-- ==== Sys2Proof/Machine/Can.lean ====
section
/-! DEFINITION. Machine/Can.lean: CAN FD channels and the schedule matrix (13_can_schedule.md). -/

namespace Sys2Proof.Machine

/-! ### Frames and bit timing (R450 to R457) -/

/-- Data length of a DLC as ISO 11898-1 defines it. -/
def dlcLen (d : Nat) : Nat :=
  if d ≤ 8 then d
  else match d with
    | 9 => 12 | 10 => 16 | 11 => 20 | 12 => 24 | 13 => 32 | 14 => 48 | _ => 64

def idIde (id : BitVec 32) : Bool := id.getLsbD 29
def idFdf (id : BitVec 32) : Bool := id.getLsbD 30
def idBrs (id : BitVec 32) : Bool := id.getLsbD 31
def idNum (id : BitVec 32) : Nat := bits id.toNat 0 29

/-- CAN clock periods of an arbitration bit and of a data bit (R451). -/
def Can.nomBit (c : Can) : Nat :=
  let n := c.nbt.toNat
  (bits n 25 5 + 1) * (1 + (bits n 18 7 + 1) + (bits n 12 6 + 1) + (bits n 6 6 + 1))

def Can.dataBit (c : Can) : Nat :=
  let n := c.dbt.toNat
  (bits n 18 5 + 1) * (1 + bits n 13 5 + (bits n 8 5 + 1) + (bits n 4 4 + 1))

/-- The timing conditions of R452: length and rate of both bits, PH2, and both jump widths. -/
def Can.timingOk (c : Can) : Bool :=
  let n := c.nbt.toNat
  let d := c.dbt.toNat
  let ph1 := bits n 12 6 + 1
  let ph2 := bits n 6 6 + 1
  let sjw := bits n 0 6 + 1
  let dph1 := bits d 8 5 + 1
  let dph2 := bits d 4 4 + 1
  let dsjw := bits d 0 4 + 1
  8 ≤ 1 + (bits n 18 7 + 1) + ph1 + ph2 && 80 ≤ c.nomBit && 5 ≤ 1 + bits d 13 5 + dph1 + dph2 && 10 ≤ c.dataBit &&
  2 ≤ ph2 && sjw ≤ ph1 && sjw ≤ ph2 && dsjw ≤ dph1 && dsjw ≤ dph2

/-- Frame time in CAN clock periods (R457, Table 13-5). -/
def Can.frameTime (c : Can) (id : BitVec 32) (dlc : Nat) : Nat :=
  let n := dlcLen dlc
  if idFdf id then
    let nd := if n ≤ 16 then 30 + 10 * n else 35 + 10 * n
    (if idIde id then 55 else 33) * c.nomBit + nd * (if idBrs id then c.dataBit else c.nomBit)
  else ((if idIde id then 80 else 55) + 10 * n) * c.nomBit

/-- A frame identifier and DLC that ISO 11898-1 allows (Table 13-4, condition 1). -/
def frameIdOk (id : BitVec 32) (dlc : Nat) : Bool :=
  (idIde id || idNum id ≤ 0x7FF) && (idFdf id || (dlc ≤ 8 && !idBrs id)) && dlc ≤ 15

/-! ### Schedule matrix (R455, R456) -/

def CanSlot.read (b : List Byte) : CanSlot :=
  { cycle := rd b 0 1, slot := rd b 1 1, kind := rd b 2 1, source := rd b 3 1, frameId := rdW b 4, offset := rd b 8 4
    window := rd b 0xC 4, dlc := rd b 0x10 1, loopFmt := rd b 0x11 1, loopByte := rd b 0x12 1, scale := rdW b 0x14 }

def CanFilter.read (b : List Byte) : CanFilter :=
  { id := rdW b 0, mask := rdW b 4, own := bit (rd b 8 1) 0, fdOnly := bit (rd b 8 1) 1, classicOnly := bit (rd b 8 1) 2
    timeoutMs := rd b 0xA 2 }

/-- Reserved fields and enumerated fields of a slot entry; SCALE is reserved where a LOOP slot carries binary32 (R7). -/
def slotFormOk (b : List Byte) : Bool :=
  zeroAt b 0x13 1 && zeroAt b 0x18 8 && (rd b 3 1 != 2 || rd b 0x11 1 != 0 || zeroAt b 0x14 4) && (rd b 2 1 == 1 || rd b 2 1 == 2) && rd b 3 1 ≤ 2 && rd b 0x11 1 ≤ 2

/-- Reserved fields of a filter entry. -/
def filterFormOk (b : List Byte) : Bool :=
  rd b 0 4 < 2 ^ 30 && rd b 4 4 < 2 ^ 29 && rd b 8 1 < 8 && zeroAt b 9 1 && zeroAt b 0xC 4

/-- Condition 1 of Table 13-4 for a filter. -/
def CanFilter.ok (f : CanFilter) : Bool := (f.id.getLsbD 29 || idNum f.id ≤ 0x7FF) && !(f.fdOnly && f.classicOnly)

/-- Content of a CAN_SCHEDULE buffer that R7 and the header's ranges judge. -/
def canScheduleOk (b : List Byte) : Bool :=
  let n := rd b 2 2
  let k := rd b 1 1
  16 ≤ b.length && b.length == 16 + 32 * n + 16 * k && 1 ≤ rd b 0 1 && rd b 0 1 ≤ 64 && k ≤ 64 && n ≤ 2048 &&
  100 ≤ rd b 4 4 && rd b 4 4 ≤ 1000000 && rd b 8 4 < rd b 4 4 && zeroAt b 0xC 4 &&
  (entriesOf 32 (slice b 16 (32 * n))).all slotFormOk && (entriesOf 16 (b.drop (16 + 32 * n))).all filterFormOk

/-- The matrix that a buffer holds. -/
def CanMatrix.read (b : List Byte) : CanMatrix :=
  let n := rd b 2 2
  { ncycles := rd b 0 1, bcLen := rd b 4 4, phase := rd b 8 4
    slots := (entriesOf 32 (slice b 16 (32 * n))).map CanSlot.read
    filters := (entriesOf 16 (b.drop (16 + 32 * n))).map CanFilter.read, crc := crc32 b }

/-- The first condition of Table 13-4 that a slot entry fails, judged against the entries before it. -/
def Can.slotFails (c : Can) (m : CanMatrix) (before : List CanSlot) (e : CanSlot) : Option Nat :=
  if !(e.cycle < m.ncycles && e.slot < 32 && 1 ≤ e.window && e.offset + e.window ≤ m.bcLen && frameIdOk e.frameId e.dlc)
  then some 1
  else if before.any (fun x => x.cycle == e.cycle && x.slot == e.slot) then some 2
  else if before.any (fun x => x.cycle == e.cycle && x.offset < e.offset + e.window && e.offset < x.offset + x.window)
  then some 3
  else if !c.enabled || e.window * 80 < c.frameTime e.frameId e.dlc then some 4
  else if (if e.source = 2 then dlcLen e.dlc < e.loopByte + (if e.loopFmt = 1 then 2 else 4)
      else e.loopFmt != 0 || e.loopByte != 0 || e.scale != 0) then some 5
  else none

/-- The first failing entry, in buffer order, with its condition. -/
def Can.scheduleFails (c : Can) (m : CanMatrix) : Option (Nat × Nat) :=
  let slots := m.slots.zipIdx.findSome? (fun (e, i) => (c.slotFails m (m.slots.take i) e).map (fun k => (i, k)))
  match slots with
  | some x => some x
  | none => m.filters.zipIdx.findSome? (fun (f, i) => if f.ok then none else some (m.slots.length + i, 1))

/-- First opening of a basic cycle with index 0 at or after an instant. -/
def CanMatrix.opening0 (m : CanMatrix) (mt : Nat) : Nat :=
  let p := m.ncycles * m.bcLen * 1000
  let ph := m.phase * 1000
  ph + ceilDiv (mt - ph) p * p

/-- Number of the basic cycle that is open at an instant. -/
def CanMatrix.cycleAt (m : CanMatrix) (mt : Nat) : Nat := (mt - m.phase * 1000) / (m.bcLen * 1000)

/-- CAN_SCHEDULE: admission, flash, and the instant at which the matrix takes effect. -/
def execCanSchedule (rid : Nat) (s : State) : Host.Outcome State Fault Refusal :=
  .next (s.onReq rid 0x0503 (fun r =>
    let ch := r.value
    let m := CanMatrix.read r.buf
    match (s.chan ch).scheduleFails m with
    | some (i, k) => (s.event 0x0B02 [ch, i, k]).complete r stAdmission (i % 65536 + k * 65536)
    | none =>
      let at_ := m.opening0 (s.accMt r + 1000000)
      (s.setChan ch { s.chan ch with newMatrix := some (at_, m) }).complete r stOk at_))

/-- BASIC_CYCLE_OPEN: CANn.CYCLE, and at index 0 a new matrix takes effect, with no value and no frame yet (log 113). -/
def execBasicCycleOpen (t : Nat) (ch : Fin 8) (s : State) : Host.Outcome State Fault Refusal :=
  let s0 := s.tick t
  let c := s0.chan ch.val
  .next (match c.newMatrix with
    | some (at_, m) =>
      if at_ ≤ s0.mt && m.cycleAt s0.mt % m.ncycles == 0 then
        (s0.setChan ch.val { c with matrix := some m, newMatrix := none, cycle := 0, vals := [], rx := [], rxOld := [] }).event 0x0B01
          [ch.val, m.crc.toNat]
      else match c.matrix with
        | some o => s0.setChan ch.val { c with cycle := o.cycleAt s0.mt % o.ncycles }
        | none => s0
    | none => match c.matrix with
      | some o => s0.setChan ch.val { c with cycle := o.cycleAt s0.mt % o.ncycles }
      | none => s0)

/-! ### Enable, integration, bus-off (R452, R454, R467) -/

def canOff (ch off : Nat) : Nat := 0x10000 + ch * 0x1000 + off

/-- A channel that has stopped: OFF, its slot closed. -/
def Can.stopped (c : Can) : Can := { c with state := 3, synced := false, stopping := false, open_ := none, recovering := false }

/-- Bus-off recovery starts, where the channel is in bus-off. -/
def Can.startRecovery (c : Can) : Can := if c.state == 2 then { c with recovering := true } else c

/-- A write of CANn.CTRL: AUTO_RECOVER and ENABLE are RWL, RECOVER is accepted in every mode. An enable with bad timing
is refused with event 0x0B0B; a disable stops the channel at the end of the frame in progress. -/
def State.canCtrl (s : State) (ch : Nat) (w : BitVec 32) : State :=
  let s1 := if w.getLsbD 1 then s.setChan ch (s.chan ch).startRecovery else s
  let c := s1.chan ch
  if s.modes.mode == .run then
    if w.getLsbD 2 != c.autoRecover || w.getLsbD 0 != c.enabled then s1.ignoreWrite else s1
  else
    let c1 := { c with autoRecover := w.getLsbD 2 }
    let s2 := (s1.setChan ch c1).mirrorWrite (canOff ch 4) w
    if w.getLsbD 0 && !c.enabled then
      if c.timingOk then s2.setChan ch { c1 with enabled := true, synced := false, tec := 0, recv := 0 }
      else s2.event 0x0B0B [ch]
    else if !(w.getLsbD 0) && c.enabled then
      let c2 := { c1 with enabled := false }
      s2.setChan ch (match c.open_ with
        | some o => if o.started && !o.sent then { c2 with stopping := true } else c2.stopped
        | none => c2.stopped)
    else s2

/-- CAN_ENABLE: a write of ENABLE = 1. -/
def execCanEnable (t : Nat) (ch : Fin 8) (w : BitVec 32) (s : State) : Host.Outcome State Fault Refusal :=
  let s0 := s.tick t
  .next (if w.getLsbD 0 then s0.canCtrl ch.val w else s0)

/-- CAN_DISABLE: a write of ENABLE = 0. -/
def execCanDisable (t : Nat) (ch : Fin 8) (w : BitVec 32) (s : State) : Host.Outcome State Fault Refusal :=
  let s0 := s.tick t
  .next (if w.getLsbD 0 then s0 else s0.canCtrl ch.val w)

/-- The mode lets channels run (R462). -/
def State.canMode (s : State) : Bool := s.modes.mode != .dormant && s.modes.mode != .recovery

/-- CAN_INTEGRATED: SYNCED, ERROR_ACTIVE, both counters 0, event 0x0B00. -/
def execCanIntegrated (t : Nat) (ch : Fin 8) (s : State) : Host.Outcome State Fault Refusal :=
  let s0 := s.tick t
  let c := s0.chan ch.val
  .next (
    if c.enabled && !c.synced && s0.canMode then
      (s0.setChan ch.val { c with synced := true, state := 0, tec := 0, recv := 0 }).event 0x0B00 [ch.val]
    else s0)

/-- RECOVER: a write of RECOVER = 1. -/
def execRecover (t : Nat) (ch : Fin 8) (s : State) : Host.Outcome State Fault Refusal :=
  let s0 := s.tick t
  .next (s0.setChan ch.val (s0.chan ch.val).startRecovery)

/-- BUS_OFF_RECOVERED: the recovery sequence completes. -/
def execBusOffRecovered (t : Nat) (ch : Fin 8) (s : State) : Host.Outcome State Fault Refusal :=
  let s0 := s.tick t
  let c := s0.chan ch.val
  .next (
    if c.state == 2 && c.recovering then
      (s0.setChan ch.val { c with state := 0, recovering := false, tec := 0, recv := 0 }).event 0x0B07 [ch.val]
    else s0)

/-- New error counters: error passive above 127, bus-off above 255, with their events (R467). -/
def State.canCounters (s : State) (ch tec rec : Nat) : State :=
  let c := s.chan ch
  if !c.synced || c.state == 2 then s
  else if 256 ≤ tec then
    (s.setChan ch { c with state := 2, tec := 255, recv := rec, busOffs := satInc c.busOffs
                           recovering := c.autoRecover }).event 0x0B06 [ch]
  else if 128 ≤ tec || 128 ≤ rec then
    let s1 := s.setChan ch { c with state := 1, tec := tec, recv := rec }
    if c.state == 0 then s1.event 0x0B05 [ch] else s1
  else s.setChan ch { c with state := 0, tec := tec, recv := rec }

/-! ### Slots (R458 to R462) -/

/-- Key of a slot's value. -/
def slotKey (cycle slot : Nat) : Nat := cycle * 32 + slot

/-- The value that a LOOP slot carries: binary32, or an integer after SCALE, rounded to nearest even and saturated. -/
def CanSlot.loopData (e : CanSlot) (out : F) : List Byte :=
  let v : List Byte :=
    match e.loopFmt with
    | 0 => u32 out.toNat
    | k =>
      let n := if k = 1 then 16 else 32
      let i := f32.toI64 true (fmul out e.scale).toNat
      leBytes (n / 8) (twos n (max (-(2 ^ (n - 1))) (min (2 ^ (n - 1) - 1) i)))
  let len := dlcLen e.dlc
  (zeros e.loopByte ++ v ++ zeros (len - e.loopByte - v.length)).take len

/-- The frame that a slot carries at its opening, with the request of a queued frame; none where it stays silent: an empty
queue, and TASK and LOOP slots outside RUN or before their producer's first commit (R136, R458, R462). -/
def State.slotFrame (s : State) (ch : Nat) (e : CanSlot) : Option (CanFrame × Option Nat) :=
  let c := s.chan ch
  let stopped := s.modes.mode != .run
  match e.source with
  | 0 => c.queue.head?.map (fun j => (j.f, some j.rid))
  | 1 =>
    match tfind c.vals (slotKey e.cycle e.slot) with
    | some b => if stopped || b.length != dlcLen e.dlc then none else some ({ id := e.frameId, dlc := e.dlc, data := b }, none)
    | none => none
  | _ =>
    match tfind c.vals (slotKey e.cycle e.slot) with
    | some b => if stopped then none else some ({ id := e.frameId, dlc := e.dlc, data := e.loopData (rdW b 0) }, none)
    | none => none

/-- The channel may send: enabled, integrated, not in bus-off, in a mode that runs channels, and this module emits. -/
def State.canSends (s : State) (ch : Nat) : Bool :=
  let c := s.chan ch
  c.enabled && c.synced && c.state ≤ 1 && s.canMode && s.emits

/-- The first exclusive slot of a channel in the checks of a new lead (R376). -/
def State.exclChecked (s : State) (ch : Nat) (e : CanSlot) (acked : Bool) : State :=
  if s.twin.checking && e.kind == 1 && (tfind s.twin.drill.excl ch).isNone then
    { s with twin := { s.twin with drill := { s.twin.drill with excl := tset s.twin.drill.excl ch acked } } }
  else s

/-- An exclusive slot's frame was missed: CANn.EXCL_MISS and event 0x0B08. -/
def State.exclMissed (s : State) (ch : Nat) (e : CanSlot) : State :=
  let s := s.exclChecked ch e false
  let c := s.chan ch
  (s.setChan ch { c with exclMiss := satInc c.exclMiss, open_ := none }).event 0x0B08 [ch, e.cycle, e.slot]

/-- A frame that starts at an instant ends before the window of its slot closes (R459 to R461). -/
def Can.fits (c : Can) (f : CanFrame) (start closeMt : Nat) : Bool :=
  start * 80 + c.frameTime f.id f.dlc * 1000 ≤ closeMt * 80

/-- The frame of an open slot may start at an instant: the channel sends, and the frame still ends within the window. -/
def State.canStart (s : State) (ch : Nat) (o : CanOpen) (start : Nat) : Bool :=
  s.canSends ch && (s.chan ch).fits o.f start o.closeMt

/-- A slot whose window has come to its end closes: an unsent frame is missed (EXCLUSIVE), abandoned (ARBITRATING TASK or LOOP)
or stays queued (R459, R460). -/
def State.slotClose (s : State) (ch : Nat) : State :=
  let c := s.chan ch
  match c.open_ with
  | none => s
  | some o =>
    if s.mt < o.closeMt then s
    else if o.sent then s.setChan ch { c with open_ := none }
    else if o.slot.kind == 1 then s.exclMissed ch o.slot
    else if o.slot.source == 0 then s.setChan ch { c with open_ := none }
    else
      (s.setChan ch { c with arbDrop := satInc c.arbDrop, open_ := none }).event 0x0B09 [ch, o.slot.cycle, o.slot.slot]

/-- CAN_SLOT_CLOSE. -/
def execCanSlotClose (t : Nat) (ch : Fin 8) (s : State) : Host.Outcome State Fault Refusal := .next ((s.tick t).slotClose ch.val)

/-! ### Reception (R463 to R465) -/

/-- A frame matches a filter; its own format bits stand in its identifier word. -/
def CanFilter.hits (x : CanFilter) (f : CanFrame) (own : Bool) : Bool :=
  x.id.getLsbD 29 == idIde f.id && (idNum f.id &&& idNum x.mask) == (idNum x.id &&& idNum x.mask) &&
  (!x.fdOnly || idFdf f.id) && (!x.classicOnly || !idFdf f.id) && (!own || x.own)

/-- A frame record (Table 13-6). -/
def frameRecord (f : CanFrame) (own : Bool) (filter : Nat) : List Byte :=
  u32 f.id.toNat ++ u8 f.dlc ++ u8 (fld 2 1 (b2n own) + fld 1 1 (b2n f.rtr) + b2n f.esi) ++ u8 filter ++ zeros 1 ++
  f.data.take 64 ++ zeros (64 - f.data.length)

/-- A frame reaches the receive filters of its channel and every CAN_SUBSCRIBE of it. -/
def State.canDeliver (s : State) (ch stamp : Nat) (f : CanFrame) (own : Bool) : State :=
  let c := s.chan ch
  let fs := match c.matrix with | some m => m.filters | none => []
  let hit := (fs.zipIdx).filter (fun (x, _) => x.hits f own)
  let new (t : Tab CanRx) (i : Nat) : CanRx :=
    { f := f, own := own, stamp := stamp, count := (tget t i {}).count + 1, at_ := s.now, lost := false }
  let s1 := s.setChan ch { c with
    rx := hit.foldl (fun t (_, i) => tset t i (new t i)) c.rx
    rxOld := hit.foldl (fun t (_, i) => keepOld (·.at_) c.rx t i (new c.rx i)) c.rxOld }
  (s1.subsOf 0x0505).foldl (fun st x =>
    if x.target != ch then st
    else
      (x.filters.zipIdx).foldl (fun st2 (y, i) =>
        if y.hits f own then st2.addItem x.handle stamp (u64 stamp ++ frameRecord f own i) else st2) st) s1

/-- CAN_FRAME_RECEIVE: a frame, or an error frame, with the receive error counter. A follower takes the frames that its
lead mirrors. -/
def execCanFrameReceive (t : Nat) (ch : Fin 8) (stamp : Nat) (f : CanFrame) (err : Nat) (rec : Nat) (s : State) :
    Host.Outcome State Fault Refusal :=
  let s0 := s.tick t
  let c := s0.chan ch.val
  let st := stamp / 2 * 2
  .next (
    if !c.enabled || !c.synced || c.state == 2 || !s0.canMode then s0
    else if err != 0 then
      (s0.setChan ch.val { c with errFrames := satInc c.errFrames, lastErr := err }).canCounters ch.val c.tec
        (if s0.emits then rec else 0)
    else
      let s1 := (s0.setChan ch.val { c with rxOk := satInc c.rxOk, lastRx := st }).canCounters ch.val c.tec
        (if s0.emits then rec else 0)
      if s0.modes.role == .follow && !s0.modes.detached then s1
      else
        let s2 := if s0.leadsPair then s1.emit (.mirror (.canFrame ch.val st f false)) else s1
        s2.canDeliver ch.val st f false)

/-- CAN_RX_TIMEOUT: no matching frame for TIMEOUT ms (R464). -/
def execCanRxTimeout (t : Nat) (ch : Fin 8) (filter : Nat) (s : State) : Host.Outcome State Fault Refusal :=
  let s0 := s.tick t
  let c := s0.chan ch.val
  let x := tget c.rx filter {}
  .next (match c.matrix.bind (fun m => m.filters[filter]?) with
    | some y =>
      if y.timeoutMs != 0 && x.at_ + y.timeoutMs * 1000000 ≤ s0.now then
        s0.setChan ch.val { c with rx := tset c.rx filter { x with lost := true } }
      else s0
    | none => s0)

/-- CAN_SUBSCRIBE: up to sixteen filters of one channel. -/
def execCanSubscribe (rid : Nat) (handle : BitVec 32) (s : State) : Host.Outcome State Fault Refusal :=
  .next (s.onReq rid 0x0505 (fun r =>
    s.subscribe r { handle := handle, opcode := 0x0505, ctx := bits r.aux.toNat 0 8, target := r.value
                    filters := (entriesOf 16 (r.buf.drop 16)).map CanFilter.read }))

/-- Content of a CAN_SUBSCRIBE buffer. -/
def canSubscribeOk (b : List Byte) : Bool :=
  let n := rd b 0 2
  1 ≤ n && n ≤ 16 && b.length == 16 + 16 * n && zeroAt b 2 14 && (entriesOf 16 (b.drop 16)).all filterFormOk &&
  (entriesOf 16 (b.drop 16)).all (fun e => (CanFilter.read e).ok)

/-! ### Sending (R459, R460, R466, R468) -/

/-- A frame went unacknowledged: sixteen in a row set ALONE. -/
def State.canNoAck (s : State) (ch : Nat) : State :=
  let c := s.chan ch
  let s1 := s.setChan ch { c with noAckRun := c.noAckRun + 1, lastErr := 3, alone := c.alone || 16 ≤ c.noAckRun + 1 }
  if 16 ≤ c.noAckRun + 1 && !c.alone then s1.event 0x0B03 [ch] else s1

/-- An acknowledged frame: TX_OK, ALONE ends, the queued request completes with its stamp. -/
def State.canAcked (s : State) (ch stamp : Nat) (o : CanOpen) : State :=
  let s := s.exclChecked ch o.slot true
  let c := s.chan ch
  let s1 := s.setChan ch { c with
    txOk := satInc c.txOk, noAckRun := 0, alone := false, open_ := some { o with sent := true, started := true }
    queue := match o.job with | some j => c.queue.filter (fun q => q.rid != j) | none => c.queue }
  let s2 := if c.alone then s1.event 0x0B04 [ch] else s1
  let s2 := if s.leadsPair then s2.emit (.mirror (.canFrame ch stamp o.f true)) else s2
  let s2 := if o.job.isSome && s.leadsPair then s2.emit (.mirror (.canSent ch)) else s2
  let s3 := match o.job.bind s2.findReq with
    | some r => s2.complete r stOk stamp
    | none => s2
  s3.canDeliver ch stamp o.f true

/-- CAN_FRAME_SENT: the frame of the open slot ends; one that had not started, or that is tried again, started at its stamp. A
failed exclusive frame is missed; an arbitrating one is tried again while its window lasts, unless its lifetime has ended. A
channel being disabled stops here. -/
def execCanFrameSent (t : Nat) (ch : Fin 8) (stamp : Nat) (res : CanEnd) (tec : Nat) (tdcv : Option (BitVec 7))
    (s : State) : Host.Outcome State Fault Refusal :=
  let s0 := s.tick t
  let c := s0.chan ch.val
  let st := stamp / 2 * 2
  .next (match c.open_ with
    | none => s0
    | some o =>
      if o.sent || (!o.started && !(s0.canStart ch.val o stamp)) then s0
      else
        let s1 := if o.started then s0 else s0.emit (.can ch.val o.f)
        let c1 := { c with
          lastTx := if res == .lostArb then c.lastTx else st
          tdcv := tdcv.getD c.tdcv, tdcValid := if idFdf o.f.id then tdcv.isSome else c.tdcValid
          errFrames := match res with | .error _ => satInc c.errFrames | .noAck => satInc c.errFrames | _ => c.errFrames
          lastErr := match res with | .error k => k | _ => c.lastErr
          open_ := if o.slot.source == 0 && o.job.isNone then none else some { o with started := false } }
        let s2 := s1.setChan ch.val c1
        let s3 := match res with
          | .acked => s2.canAcked ch.val st o
          | .noAck => s2.canNoAck ch.val
          | _ => s2
        let s4 := if res != .acked && o.slot.kind == 1 then s3.exclMissed ch.val o.slot else s3
        let s5 := s4.canCounters ch.val tec (s4.chan ch.val).recv
        if (s5.chan ch.val).stopping then s5.setChan ch.val (s5.chan ch.val).stopped else s5)

/-- Content of a CAN_SEND buffer: one frame record, FILTER and RFLAGS 0, bytes beyond the data length 0. -/
def canSendOk (b : List Byte) : Bool :=
  b.length == 72 && rd b 5 1 == 0 && rd b 6 1 == 0 && zeroAt b 7 1 && frameIdOk (rdW b 0) (rd b 4 1) &&
  zeroAt b (8 + dlcLen (rd b 4 1)) (64 - dlcLen (rd b 4 1))

/-- CAN_SEND: the frame joins the queue of its channel. -/
def execCanSend (rid : Nat) (s : State) : Host.Outcome State Fault Refusal :=
  .next (s.onReq rid 0x0504 (fun r =>
    let ch := r.value
    let c := s.chan ch
    let hasQueue := match c.matrix with | some m => m.slots.any (fun e => e.source == 0) | none => false
    if !c.enabled || !hasQueue then s.complete r stNotPresent
    else if 32 ≤ c.queue.length then s.complete r stBusy 0
    else
      let life := if bits r.aux.toNat 0 16 = 0 then 1000 else bits r.aux.toNat 0 16
      let len := dlcLen (rd r.buf 4 1)
      let f : CanFrame := { id := rdW r.buf 0, dlc := rd r.buf 4 1, data := slice r.buf 8 len }
      (s.setChan ch { c with queue := c.queue ++ [{ rid := rid, f := f, until_ := s.now + life * 1000000 }] }).running
        rid))

/-- CAN_SEND_EXPIRY: a queued frame's lifetime ends first: BUSY with RESULT 1 and event 0x0B0A. -/
def execCanSendExpiry (t : Nat) (ch : Fin 8) (s : State) : Host.Outcome State Fault Refusal :=
  let s0 := s.tick t
  let c := s0.chan ch.val
  .next (match c.queue.find? (fun j => j.until_ ≤ s0.now) with
    | none => s0
    | some j =>
      let s1 := (s0.setChan ch.val { c with
        queue := c.queue.filter (fun q => q.rid != j.rid)
        open_ := c.open_.bind (fun o => if o.job != some j.rid then some o else if o.started then some { o with job := none } else none) }).event 0x0B0A
          [ch.val, idNum j.f.id]
      match s1.findReq j.rid with
      | some r => s1.complete r stBusy 1
      | none => s1)

end Sys2Proof.Machine
end

