-- ==== Sys2Proof/Machine/Ring.lean ====
section
/-! DEFINITION. Machine/Ring.lean: the Edxis ring (12_edxis_ring.md). -/

namespace Sys2Proof.Machine

/-! ### Fields and configuration -/

/-- n bytes of a number, most significant first (R6). -/
def beBytes (n v : Nat) : List Byte := (leBytes n v).reverse

/-- The number at an offset of a ring payload. -/
def beRd (b : List Byte) (off n : Nat) : Nat := leNat (slice b off n).reverse

def State.ownNode (s : State) : Nat := bits s.ring.node.toNat 0 8
def State.stationNum (s : State) : Nat := bits s.ring.node.toNat 8 5
def RingCfg.period (c : RingCfg) : Nat := bits c.cycle.toNat 0 10
def RingCfg.iso (c : RingCfg) : Nat := bits c.cycle.toNat 16 10
def RingCfg.nodes (c : RingCfg) : Nat := bits c.config.toNat 0 7
def RingCfg.lag (c : RingCfg) : Nat := bits c.config.toNat 8 4
def RingCfg.valTimeout (c : RingCfg) : Nat := bits c.config.toNat 16 16
def RingCfg.drop (c : RingCfg) (n : Nat) : Nat := (tget c.drops n 0x00041400).toNat
def RingCfg.dropIn (c : RingCfg) (n : Nat) : Bool := bit (c.drop n) 0
def RingCfg.dropOut (c : RingCfg) (n : Nat) : Bool := bit (c.drop n) 1
def RingCfg.frost (c : RingCfg) (n : Nat) : Nat := bits (c.drop n) 8 8
def RingCfg.dropTimeout (c : RingCfg) (n : Nat) : Nat := bits (c.drop n) 16 8

/-- Opening of a ring cycle in module time (R420). -/
def RingCfg.opening (c : RingCfg) (n : Nat) : Nat := n * c.period * 1000

/-- The first failing condition of Table 12-4 with its index. -/
def RingCfg.fails (c : RingCfg) (node : Nat) : Option (Nat × Nat) :=
  let badDrop := (List.range 64).find? (fun n => c.dropTimeout n < 2 || c.frost n < 5 || 200 < c.frost n)
  let p := c.period
  let badSlot := c.used.find? (fun (n, x) =>
    10 < x.ids.length || x.offset < 2000 || p * 1000 - 2000 < x.offset || x.ids.any (fun i => 0x7FFF < i) ||
    !(distinct x.ids) || c.used.any (fun (m, y) => m != n &&
      ((x.offset < y.offset + 1600 && y.offset < x.offset + 1600) || x.ids.any (fun i => y.ids.contains i))))
  let shortFrost := (List.range 64).find? (fun n =>
    (c.dropIn n || c.dropOut n) && c.frost n * 100 < 400 + (c.lag + 2) * p)
  if p < 25 || 1000 < p || c.iso < 5 || 1000 < c.iso || p < c.iso || c.lag < 1 || 8 < c.lag || c.nodes < 2 ||
    64 < c.nodes || c.valTimeout < 1 || 10000 < c.valTimeout || 63 < node then some (1, 0)
  else
    match badDrop with
    | some n => some (1, n)
    | none =>
      if c.lag * p * 10 < 32 * c.nodes + c.iso * 10 then some (2, 0)
      else
        match badSlot with
        | some (n, _) => some (3, n)
        | none => shortFrost.map (fun n => (4, n))

/-- The time of a number of ring cycles, ns. -/
def State.cycles (s : State) (n : Nat) : Nat := n * (s.ring.applied.period * 1000)

/-! ### Frames (R414, R418, Table 12-1) -/

/-- The Edxis header (Table 12-1). -/
def frameHeader (f : RingFrame) : List Byte :=
  beBytes 1 (fld 4 4 f.version + fld 0 4 f.kind) ++ beBytes 1 (fld 0 2 f.cls) ++ beBytes 1 f.src ++
  beBytes 1 (fld 0 5 f.station) ++ beBytes 1 (b2n f.hold + fld 1 1 (b2n f.wrapped)) ++ beBytes 1 f.hops ++
  beBytes 2 f.payload.length ++ beBytes 4 f.seq.toNat ++ beBytes 4 f.cycle.toNat ++ beBytes 8 f.stamp.toNat

/-- What the end-to-end CRC-32 covers, and the CRC after it (R414, R186). -/
def frameEdxis (f : RingFrame) : List Byte :=
  let b := frameHeader f ++ f.payload
  b ++ beBytes 4 (crc32 b).toNat

/-- An own frame in bytes from the destination address to the padding, without the FCS; LINK frames have an address of their
own (R414). -/
def frameBytes (f : RingFrame) (mac : BitVec 48) : List Byte :=
  let b := beBytes 6 (if f.kind = 8 then 0x034544580001 else 0x034544580000) ++ beBytes 6 mac.toNat ++ beBytes 2 0x88B5 ++
    frameEdxis f
  b ++ zeros (60 - b.length)

/-- Length of a frame from the destination address to the FCS (R414, R418). -/
def frameSize (f : RingFrame) : Nat := max 64 (14 + 24 + f.payload.length + 4 + 4)

/-- Time of a frame on a port, with its preamble: 8 ns a byte. -/
def frameNs (f : RingFrame) : Nat := (8 + frameSize f) * 8

/-- EAST is forced to PHY MASTER, WEST to SLAVE (R411). -/
def phyMaster (east : Bool) : Bool := east

/-- A write of RING.CTRL: APPLY = 1 checks the configuration, and schedules or refuses it (R424). -/
def State.ringApply (s : State) (w : BitVec 32) : State :=
  if !(w.getLsbD 0) then s
  else
    let s0 := s.mirrorWrite 0x8010 w
    match s.ring.written.fails s.ownNode with
    | some (k, i) =>
      ({ s0 with ring := { s0.ring with applyResult := BitVec.ofNat 32 (i * 65536 + k * 256 + 3) } }).event 0x050B [k, i]
    | none =>
      let s1 := { s0 with ring := { s0.ring with applyResult := 2, pendingApply := some (s.mt + 1000000, s.ring.written) } }
      if s1.leadsPair then s1.emit (.mirror (.instant 0x8010 s.mt)) else s1

/-- APPLY. -/
def execApply (t : Nat) (w : BitVec 32) (s : State) : Host.Outcome State Fault Refusal :=
  .next ((s.tick t).ringApply w)

/-! ### Sending (R414 to R423, R431, R439, R445) -/

def State.link (s : State) (east : Bool) : RingLink := if east then s.ring.e else s.ring.w

def State.setLink (s : State) (east : Bool) (l : RingLink) : State :=
  if east then { s with ring := { s.ring with e := l } } else { s with ring := { s.ring with w := l } }

/-- A C3 frame may start at a port: outside the isochronous phase, and it ends before the next ring cycle opens (R419). -/
def State.c3Free (s : State) (f : RingFrame) : Bool :=
  let c := s.ring.applied
  let x := s.mt % (c.period * 1000)
  c.iso * 1000 ≤ x && x + frameNs f ≤ c.period * 1000

/-- A frame starts at a port; a C3 frame waits until it may (R418, R419). -/
def State.ringStart (s : State) (east : Bool) (f : RingFrame) : State :=
  if f.kind == 7 && !(s.c3Free f) then { s with ring := { s.ring with heldC3 := s.ring.heldC3 ++ [(east, f)] } }
  else s.emit (.ring east f)

/-- Send a frame through a port, or round the other way with WRAPPED at a wrap (R431). -/
def State.ringOut (s : State) (east : Bool) (f : RingFrame) : State :=
  if !(s.link east).turned then s.ringStart east f
  else if (s.link (!east)).turned then s
  else s.ringStart (!east) { f with wrapped := true }

/-- The C3 frames that waited leave where they now may, in the order in which they came (R419; log 105). -/
def State.ringDrain (s : State) : State :=
  let go := s.ring.heldC3.filter (fun (_, f) => s.c3Free f)
  let s1 := { s with ring := { s.ring with heldC3 := s.ring.heldC3.filter (fun (_, f) => !(s.c3Free f)) } }
  go.foldl (fun (st : State) (x : Bool × RingFrame) => st.emit (.ring x.1 x.2)) s1

/-- An own frame: header fields, SEQ of its kind and slot, HOLD outside RUN. -/
def State.ringOwn (s : State) (kind cls sub : Nat) (stamp : Nat) (payload : List Byte) : RingFrame × State :=
  let key := kind * 64 + sub
  let q : BitVec 32 := tget s.ring.txSeq key 0 + 1
  ({ version := 1, kind := kind, cls := cls, src := s.ownNode, station := s.stationNum, hold := s.modes.mode != .run
     hops := 127, seq := q, cycle := BitVec.ofNat 32 s.ring.cycleNum, stamp := BitVec.ofNat 64 stamp, payload := payload },
   { s with ring := { s.ring with txSeq := tset s.ring.txSeq key q } })

/-- Send an own frame on the primary ring, through EAST. -/
def State.ringSend (s : State) (kind cls sub stamp : Nat) (payload : List Byte) : State :=
  let (f, s1) := s.ringOwn kind cls sub stamp payload
  s1.ringOut true f

/-- The module may send ring emissions: in the ring, driving LEAD_ALIVE, PERIOD as the master's. -/
def State.ringEmits (s : State) : Bool := s.ringActive && s.emits && !s.ring.cfgMismatch

/-- TIME_PRIO as advertised: 255 unless LEAD or SIMPLEX (R425). -/
def State.ownPrio (s : State) : Nat :=
  if (s.modes.role == .lead || s.modes.role == .simplex) && !s.modes.detached then bits s.ring.node.toNat 16 8 else 255

/-- The time master changes: event 0x0506. A node that is master itself has no PERIOD but its own to differ from (R420). -/
def State.setMaster (s : State) (node prio state : Nat) : State :=
  let s1 := { s with ring := { s.ring with
    master := node, masterPrio := prio, timeState := state
    cfgMismatch := s.ring.cfgMismatch && node != s.ownNode } }
  if s.ring.master == node then s1 else s1.event 0x0506 [s.ring.master, node]

/-- A SYNC has come within 4 ring cycles (R428). -/
def State.syncHeard (s : State) : Bool :=
  match s.ring.lastSync with
  | some a => s.now < a + s.cycles 4
  | none => false

/-- Mastership at a cycle opening: a module that stops advertising stops being master; a candidate that hears no SYNC for
4 cycles becomes master (R425). -/
def State.electMaster (s : State) : State :=
  let own := s.ownNode
  if s.ring.master == own then (if s.ownPrio == 255 then s.setMaster 0xFF 0xFF 0 else s.setMaster own s.ownPrio 1)
  else if s.ownPrio != 255 && !s.syncHeard then s.setMaster own s.ownPrio 1
  else s

/-- SYNC from both ports (R426). -/
def State.sendSync (s : State) : State :=
  if s.ring.master != s.ownNode || s.ring.timeState != 1 then s
  else
    let p := beBytes 1 s.ownPrio ++ beBytes 1 s.ownNode ++ beBytes 2 s.ring.applied.period ++ zeros 4 ++ zeros 8
    let (f, s1) := s.ringOwn 6 1 0 s.mt p
    (s1.ringOut true f).ringOut false f

/-- DROP_OUT frames, by ascending drop node (R439). -/
def State.sendDrops (s : State) : State :=
  let c := s.ring.applied
  s.ring.dropOut.foldl (fun st (n, img) =>
    if c.dropOut n then
      st.ringSend 4 2 0 (c.opening (s.ring.cycleNum + c.lag)) (beBytes 1 (c.frost n) ++ zeros 3 ++ img)
    else st) s

/-- BLOCK frames, by ascending identifier: once per harvest point, and in every cycle outside RUN with HOLD (R422,
R423). -/
def State.sendBlocks (s : State) : State :=
  let s1 := s.ring.blocks.foldl (fun st (id, b, stamp) =>
    if s.modes.mode != .run || s.ring.blockDue.contains id then st.ringSend 2 2 0 stamp (beBytes 2 id ++ zeros 2 ++ b)
    else st) s
  { s1 with ring := { s1.ring with blockDue := [] } }

/-- Port state byte of a LINK frame, with an unwrap cycle announced in it and in the two bytes after it (log 20). -/
def State.linkPayload (s : State) (l : RingLink) : List Byte :=
  let u := match l.unwrapAt with | some c => c % 65536 | none => 0
  beBytes 1 s.ownNode ++ beBytes 1 (b2n l.up + fld 7 1 (b2n l.unwrapAt.isSome)) ++ beBytes 2 u ++
  beBytes 4 l.rxOk ++ beBytes 8 l.lastStamp.toNat ++ beBytes 8 l.lastRx

/-- LINK_FRAME_SEND: 1 us after a cycle opening, a LINK frame through each port, whatever is wrapped (R427). -/
def execLinkFrameSend (t : Nat) (s : State) : Host.Outcome State Fault Refusal :=
  let s0 := s.tick t
  .next (
    if !s0.ringActive || s0.mt % s0.cycles 1 != 1000 then s0
    else
      let (f, s1) := s0.ringOwn 8 1 0 s0.mt (s0.linkPayload s0.ring.e)
      let (g, s2) := s1.ringOwn 8 1 0 s0.mt (s0.linkPayload s0.ring.w)
      ((s2.emit (.ring true f)).emit (.ring false g)).ringDrain)

/-- Payload of a TRIP frame (R444). -/
def State.tripPayload (s : State) : List Byte :=
  beBytes 1 (mask 8 (fun n => (s.tripOut n).safeNow)) ++ beBytes 1 s.trip.ward.toNat ++ zeros 2 ++
  beBytes 4 s.trip.src.toNat

/-- TRIP_FRAME_SEND: after a change, at most one per 10 us, and every 1 000 ring cycles without a change. -/
def execTripFrameSend (t : Nat) (s : State) : Host.Outcome State Fault Refusal :=
  let s0 := s.tick t
  let p := s0.tripPayload
  let far : Bool := match s0.ring.tripSentAt with | some a => a + 10000 ≤ s0.now | none => true
  let old : Bool := match s0.ring.tripSentAt with | some a => a + s0.cycles 1000 ≤ s0.now | none => true
  .next (
    if s0.ringEmits && far && (p != s0.ring.tripSent || old) then
      let s1 := s0.ringSend 5 0 0 s0.mt p
      { s1 with ring := { s1.ring with tripSent := p, tripSentAt := some s0.now } }
    else s0)

/-! ### Receiving (R415 to R417, R442 to R445) -/

/-- Payload length in the range of its kind (Table 12-2). -/
def frameLenOk (f : RingFrame) : Bool :=
  let n := f.payload.length
  match f.kind with
  | 1 => 8 ≤ n && n ≤ 80 && n % 8 == 0
  | 2 => 12 ≤ n && n ≤ 1020
  | 3 => 2 ≤ n && n ≤ 1024
  | 4 => 4 ≤ n && n ≤ 1024
  | 5 => n == 8
  | 6 => n == 16
  | 7 => n ≤ 1024
  | 8 => n == 24
  | _ => false

/-- A receiving node uses the frame (R416). -/
def frameGood (f : RingFrame) : Bool := f.fcsOk && f.crcOk && f.version == 1 && frameLenOk f

/-- Forward a frame that is not this node's own, cut-through, HOPS less one; a SYNC takes its residence time, a free
value, and the delay of the link on which it came (R415, R426). -/
def State.ringForward (s : State) (east : Bool) (f : RingFrame) : State :=
  if f.hops ≤ 1 || f.src == s.ownNode then s
  else if f.kind == 6 && frameLenOk f then
    let (res, s1) := s.fresh
    let l := if east then s.ring.e else s.ring.w
    let c := sx 64 (beRd f.payload 8 8) + (res.toNat : Int) + ((l.delay * 64 : Nat) : Int)
    s1.ringOut (!east) { f with hops := f.hops - 1, payload := f.payload.take 8 ++ beBytes 8 (twos 64 c) }
  else s.ringOut (!east) { f with hops := f.hops - 1 }

/-- Identity of a frame for sequence numbers: source, kind, and for DATA the ID of its first entry. -/
def frameSeqKey (f : RingFrame) : Nat × Nat × Nat := (f.src, f.kind, if f.kind = 1 then beRd f.payload 0 2 else 0)

/-- R417: newer than the last accepted, or none accepted for the time of 4 ring cycles. -/
def State.seqNew (s : State) (f : RingFrame) : Bool :=
  let (a, b, c) := frameSeqKey f
  match s.ring.seqs.find? (fun (x, y, z, _) => x == a && y == b && z == c) with
  | none => true
  | some (_, _, _, q, at_) =>
    let d := (f.seq - q).toNat
    (1 ≤ d && d < 2 ^ 31) || at_ + s.cycles 4 ≤ s.now

def State.seqTake (s : State) (f : RingFrame) : State :=
  let (a, b, c) := frameSeqKey f
  { s with ring := { s.ring with
      seqs := (a, b, c, f.seq, s.now) :: s.ring.seqs.filter (fun (x, y, z, _) => !(x == a && y == b && z == c)) } }

/-- A frame comes in at a port: link count, WRAPPED seen, and forwarding. -/
def State.ringIn (s : State) (east : Bool) (f : RingFrame) : State :=
  let s := s.ringDrain
  let bump (l : RingLink) : RingLink := if frameGood f then { l with rxOk := l.rxOk + 1 } else l
  let r := s.ring
  let s1 := { s with ring := { r with
    e := if east then bump r.e else r.e
    w := if east then r.w else bump r.w
    wrappedSeen := if f.wrapped then some s.now else r.wrappedSeen
    crcErr := if frameGood f then r.crcErr else satInc r.crcErr } }
  if f.kind == 8 then s1 else s1.ringForward east f

/-- Use an accepted frame: not in a follower, which takes the frames that its lead mirrors (R356, R445). -/
def State.ringUse (s : State) (f : RingFrame) (use : State → State) : State :=
  if s.modes.role == .follow && !s.modes.detached then s
  else use (if s.leadsPair then s.emit (.mirror (.ringFrame f)) else s)

/-- Accept a frame of a kind: in the ring, good, another node's, new by its sequence (R416, R417). -/
def State.ringAccept (s : State) (t : Nat) (east : Bool) (f : RingFrame) (kind : Nat) (use : State → State) : State :=
  let s0 := s.tick t
  if !s0.ringActive || f.kind != kind then s0
  else
    let s1 := s0.ringIn east f
    if !frameGood f || f.src == s0.ownNode || !(s1.seqNew f) then s1
    else (s1.seqTake f).ringUse f use

/-- Identifiers that this module produces: its slots' and its blocks'. -/
def State.produces (s : State) (id : Nat) : Bool :=
  s.ring.applied.used.any (fun e => e.2.ids.contains id) || (tfind s.ring.blocks id).isSome

/-- An identifier conflict: counted, event 0x050F, ignored (R442). -/
def State.idConflict (s : State) (id node : Nat) : State :=
  ({ s with ring := { s.ring with dupId := satInc s.ring.dupId } }).event 0x050F [id, node]

def State.setVal (s : State) (id : Nat) (v : RingVal) : State :=
  { s with ring := { s.ring with
    vals := tset s.ring.vals id v, valsOld := keepOld (·.rxAt) s.ring.vals s.ring.valsOld id v } }

/-- A received value or block as it stood before an instant. -/
def State.ringVal (s : State) (at_ id : Nat) : Option RingVal :=
  s.latestBefore at_ (·.rxAt) (tfind s.ring.vals id) (tfind s.ring.valsOld id)

/-- A drop's image as it stood before an instant. -/
def State.dropImage (s : State) (at_ node : Nat) : Option RingVal :=
  s.latestBefore at_ (·.rxAt) (tfind s.ring.images node) (tfind s.ring.imagesOld node)

/-- Key of an ECHO entry, apart from the value that it reports (Table 12-3). -/
def echoKey (id : Nat) : Nat := 0x10000 + id

/-- Use one entry of a DATA frame: an identifier of a C1 value (R442, R443). -/
def State.useEntry (f : RingFrame) (s : State) (e : List Byte) : State :=
  let id := beRd e 0 2
  let fl := beRd e 2 1
  let v : RingVal := { vflags := fl, value := BitVec.ofNat 32 (beRd e 4 4), stamp := f.stamp, seq := f.seq, src := f.src
                       rxAt := s.now, lost := bit fl 1 || f.hold, hold := f.hold }
  if 0x7FFF < id then s
  else if bit fl 2 then s.setVal (echoKey id) v
  else if s.produces id then s.idConflict id f.src
  else s.setVal id v

/-- Use a DATA frame (R443). -/
def State.useData (s : State) (f : RingFrame) : State := (entriesOf 8 f.payload).foldl (State.useEntry f) s

/-- Use a BLOCK frame: an identifier of a block (R442, R443). -/
def State.useBlock (s : State) (f : RingFrame) : State :=
  let id := beRd f.payload 0 2
  if id < 0x8000 || 0xFF00 ≤ id then s
  else if s.produces id then s.idConflict id f.src
  else
    s.setVal id { data := f.payload.drop 4, stamp := f.stamp, seq := f.seq, src := f.src, rxAt := s.now, lost := f.hold
                  hold := f.hold }

/-- WIDTH of the loaded image's DROP binding in IN of a node. -/
def State.dropWidth (s : State) (node : Nat) : Option Nat :=
  s.prog.loaded.bind (fun i => (i.tasks.flatMap (·.binds)).findSome? (fun b =>
    if b.space == 0 && b.kind == 1 && bits b.ref.toNat 0 6 == node then some b.width else none))

/-- Section header of Table 5-2. -/
def sectHeader (mt seq state source : Nat) : List Byte :=
  u64 mt ++ u32 seq ++ u8 state ++ u8 source ++ zeros 2

/-- Use a DROP_IMAGE frame (R437, R438, R449). -/
def State.useDrop (s : State) (f : RingFrame) : State :=
  let n := f.src
  if !(s.ring.applied.dropIn n) then s
  else if (match s.dropWidth n with | some w => w - 16 != f.payload.length | none => false) then
    { s with ring := { s.ring with dropErr := satInc s.ring.dropErr } }
  else
    let was := (tfind s.ring.images n).any (·.lost)
    let v : RingVal := { data := f.payload, stamp := f.stamp, seq := f.seq, src := n, rxAt := s.now }
    let s1 := { s with ring := { s.ring with
      images := tset s.ring.images n v, imagesOld := keepOld (·.rxAt) s.ring.images s.ring.imagesOld n v } }
    let s2 := if was then s1.event 0x050E [n] else s1
    (s2.subsOf 0x0502).foldl (fun st x =>
      if x.target == n then
        st.deliver x.handle f.stamp.toNat [sectHeader f.stamp.toNat f.seq.toNat 0 n ++ f.payload]
      else st) s2

/-- Use a TRIP frame: recorded when it changes, never driving the local trip network (R444). -/
def State.useTrip (s : State) (f : RingFrame) : State :=
  let old := tget s.ring.trips f.src (zeros 8)
  let s1 := { s with ring := { s.ring with trips := tset s.ring.trips f.src f.payload } }
  let s2 := s1.setVal (0xFF00 + f.src) { data := f.payload, stamp := f.stamp, seq := f.seq, src := f.src
                                         rxAt := s.now }
  if old == f.payload then s2 else s2.event 0x0510 [f.src, beRd f.payload 0 1, beRd f.payload 4 4]

def execDataFrameReceive (t : Nat) (east : Bool) (f : RingFrame) (s : State) : Host.Outcome State Fault Refusal :=
  .next (s.ringAccept t east f 1 (fun x => x.useData f))

def execBlockFrameReceive (t : Nat) (east : Bool) (f : RingFrame) (s : State) : Host.Outcome State Fault Refusal :=
  .next (s.ringAccept t east f 2 (fun x => x.useBlock f))

def execDropImageReceive (t : Nat) (east : Bool) (f : RingFrame) (s : State) : Host.Outcome State Fault Refusal :=
  .next (s.ringAccept t east f 3 (fun x => x.useDrop f))

def execTripFrameReceive (t : Nat) (east : Bool) (f : RingFrame) (s : State) : Host.Outcome State Fault Refusal :=
  .next (s.ringAccept t east f 5 (fun x => x.useTrip f))

/-- SERVICE_FRAME_RECEIVE: tool and host traffic has no effect on the module beyond its link and its forwarding. The row also
brings the frames that no other row does: a DROP_OUT frame, which only its drop uses, and kinds that no node sends (log 106). -/
def execServiceFrameReceive (t : Nat) (east : Bool) (f : RingFrame) (s : State) : Host.Outcome State Fault Refusal :=
  let mine : Bool := f.kind == 1 || f.kind == 2 || f.kind == 3 || f.kind == 5 || f.kind == 6 || f.kind == 8
  .next (if mine then s.tick t else s.ringAccept t east f f.kind (fun x => x))

/-! ### Time (R425 to R429) -/

/-- A node that is better placed as master: lower priority, then lower node number. -/
def betterMaster (p n p' n' : Nat) : Bool := p < p' || (p == p' && n < n')

/-- The time master that a SYNC frame announces, and its PERIOD: event 0x050A when it begins to differ (R420, R425). -/
def State.hearMaster (s : State) (f : RingFrame) : State :=
  let prio := beRd f.payload 0 1
  let node := beRd f.payload 1 1
  let mism := beRd f.payload 2 2 != s.ring.applied.period
  let s1 := if s.ring.master == node then s else s.setMaster node prio 2
  let s2 := { s1 with ring := { s1.ring with
    cfgMismatch := mism, masterPrio := prio, syncHops := f.hops, lastSync := some s.now } }
  if mism && !s.ring.cfgMismatch then s2.event 0x050A else s2

/-- The node that sent a SYNC frame is the time master for this one: it is a candidate, and no better master is heard (R425). -/
def State.followsSync (s : State) (f : RingFrame) : Bool :=
  let prio := beRd f.payload 0 1
  let node := beRd f.payload 1 1
  prio != 255 &&
    !(s.ring.master != node && s.ring.master != s.ownNode && s.syncHeard && betterMaster s.ring.masterPrio s.ring.master prio node)

/-- SYNC_TIMEOUT: no SYNC for 4 ring cycles puts module time in HOLDOVER. -/
def execSyncTimeout (t : Nat) (s : State) : Host.Outcome State Fault Refusal :=
  let s0 := s.tick t
  let r := s0.ring
  .next (
    if s0.ringActive && r.lastSync.isSome && !s0.syncHeard && (r.timeState == 2 || r.timeState == 3) then
      let s1 := { s0 with ring := { r with timeState := 5, lockRun := 0 } }
      if r.timeState == 3 then s1.event 0x0508 [ev r.timeOffset] else s1
    else s0)

/-! ### Links (R427, R430 to R433, R446) -/

def portNum (east : Bool) : Nat := if east then 0 else 1

/-- Entering and leaving ISOLATED: events 0x0504 and 0x0505; HOLDOVER unless master or a follower. -/
def State.isolationChange (old new : State) : State :=
  if !old.isolated && new.isolated then
    let r := new.ring
    let keep : Bool := r.timeState == 1 || new.modes.role == .follow
    ({ new with ring := { r with timeState := if keep then r.timeState else 5 } }).event 0x0504
  else if old.isolated && !new.isolated then new.event 0x0505
  else new

/-- A port's link is lost: counted, event 0x0501, and the node wraps at the port or is isolated (R430, R431, R446). -/
def State.loseLink (s : State) (east : Bool) (l : RingLink) : State :=
  let s1 := s.setLink east { l with
    up := false, lost := true, turned := true, seen := false, goodRun := 0, unwrapAt := none }
  let s2 := ({ s1 with ring := { s1.ring with wraps := satInc s1.ring.wraps } }).event 0x0501 [portNum east]
  let s3 := if (s.link (!east)).turned then s2 else s2.event 0x0502 [portNum east]
  State.isolationChange s s3

/-- LINK_LOST: the PHY reports link down or no valid idle; with the PHY up, no LINK frame has come for 4 ring cycles. -/
def execLinkLost (t : Nat) (port : PortLoss) (s : State) : Host.Outcome State Fault Refusal :=
  let s0 := s.tick t
  let l := s0.link port.east
  .next (
    if !s0.ringActive then s0
    else if port.phyUp then (if l.up && l.lastRx + s0.cycles 4 ≤ s0.mt then s0.loseLink port.east l else s0)
    else if l.lost && !l.up then s0.setLink port.east { l with phy := false }
    else s0.loseLink port.east { l with phy := false })

/-- RING_LINK_UP: the PHY is up; LINK frames can pass. -/
def execRingLinkUp (t : Nat) (east : Bool) (s : State) : Host.Outcome State Fault Refusal :=
  let s0 := s.tick t
  .next (if s0.ringActive then
    s0.setLink east { s0.link east with phy := true, up := true, goodRun := 0, seen := false, lastRx := s0.mt } else s0)

/-- First cycle that is a multiple of 16 and opens at least 32 cycles later. -/
def unwrapCycle (cycle : Nat) : Nat := ceilDiv (cycle + 32) 16 * 16

/-- Delay of a link from a LINK frame, in 0.25 ns units; none before the neighbour has seen a LINK frame. -/
def linkDelay (f : RingFrame) (mt : Nat) : Option Nat :=
  let t1 := beRd f.payload 8 8
  let t2 := beRd f.payload 16 8
  let t3 := f.stamp.toNat
  if t1 = 0 then none else some (2 * ((mt - t1) - (t3 - t2)))

/-- What a good LINK frame makes of a link: neighbour, delay over 16 frames, and the run of ring cycles in which LINK frames
passed both ways: this one came within two cycles of the last, and its ECHO has gone on (R427, R432). -/
def RingLink.heard (l : RingLink) (f : RingFrame) (mt period : Nat) : RingLink :=
  let echo := beRd f.payload 8 8
  let ds := match linkDelay f mt with
    | some d => (d :: l.delays).take 16
    | none => l.delays
  { l with
    up := l.up || l.phy, seen := true, neighbour := beRd f.payload 0 1, delays := ds, lastEcho := echo
    rxThere := beRd f.payload 4 4
    delay := if ds.isEmpty then l.delay else ds.sum / ds.length
    goodRun := if l.seen && mt < l.lastRx + 2 * period && echo != l.lastEcho then l.goodRun + 1 else 0
    lastStamp := f.stamp, lastRx := mt }

/-- The unwrap cycle of a link that is whole again: the lower node announces it, the other takes the announced one (R432). -/
def State.unwrapOf (s : State) (l : RingLink) (f : RingFrame) : Option Nat :=
  let cyc := s.ring.cycleNum
  if !(l.turned && l.whole) || l.unwrapAt.isSome then l.unwrapAt
  else if s.ownNode < l.neighbour then some (unwrapCycle cyc)
  else if bit (beRd f.payload 1 1) 7 then some (cyc + (beRd f.payload 2 2 + 65536 - cyc % 65536) % 65536)
  else none

/-- LINK_FRAME_RECEIVE: neighbour, delay, link health, and the unwrap cycle of a link that is whole again. -/
def execLinkFrameReceive (t : Nat) (east : Bool) (f : RingFrame) (s : State) : Host.Outcome State Fault Refusal :=
  let s0 := s.tick t
  .next (
    if !s0.ringActive || f.kind != 8 then s0
    else
      let s1 := s0.ringIn east f
      let l := s1.link east
      if !frameGood f then s1.setLink east { l with goodRun := 0 }
      else if f.src == s0.ownNode || !(s1.seqNew f) then s1
      else
        let l1 := l.heard f s0.mt (s0.cycles 1)
        let s2 := (s1.seqTake f).setLink east { l1 with unwrapAt := s1.unwrapOf l1 f }
        let s3 := if l1.up && !l.seen then s2.event 0x0500 [portNum east, l1.neighbour] else s2
        State.isolationChange s0 s3)

/-- A port unwraps at the opening of its cycle U (R432). -/
def State.unwrapPort (s : State) (east : Bool) : State :=
  let l := s.link east
  match l.unwrapAt with
  | none => s
  | some u =>
    if s.mt < s.ring.applied.opening u then s
    else if l.turned && l.whole then
      (s.setLink east { l with turned := false, lost := false, unwrapAt := none }).event 0x0503 [portNum east, u]
    else s.setLink east { l with unwrapAt := none }

/-- Every mended port whose cycle U has opened unwraps. -/
def State.unwrapDue (s : State) : State := (s.unwrapPort true).unwrapPort false

/-- UNWRAP. -/
def execUnwrap (t : Nat) (s : State) : Host.Outcome State Fault Refusal := .next (s.tick t).unwrapDue

/-! ### Losses (R438, R443) -/

/-- A value under a key is lost once it has been missing for a time. -/
def State.loseVal (s : State) (key wait : Nat) : State :=
  match tfind s.ring.vals key with
  | some v => if v.rxAt + wait ≤ s.now then s.setVal key { v with lost := true } else s
  | none => s

/-- VALUE_LOST: a C1 value, and the report of one, missing for 4 cycles, a block for VAL_TIMEOUT. -/
def execValueLost (t : Nat) (id : BitVec 16) (s : State) : Host.Outcome State Fault Refusal :=
  let s0 := s.tick t
  let n := id.toNat
  .next (
    if n < 0x8000 then (s0.loseVal n (s0.cycles 4)).loseVal (echoKey n) (s0.cycles 4)
    else if n < 0xFF00 then s0.loseVal n (s0.ring.applied.valTimeout * 1000000)
    else s0)

/-- DROP_LOST: no frame counts for TIMEOUT ring cycles. -/
def execDropLost (t : Nat) (node : Fin 64) (s : State) : Host.Outcome State Fault Refusal :=
  let s0 := s.tick t
  let v := tget s0.ring.images node.val {}
  let c := s0.ring.applied
  .next (
    if c.dropIn node.val && !v.lost && (v.rxAt + s0.cycles (c.dropTimeout node.val) ≤ s0.now || s0.isolated) then
      ({ s0 with ring := { s0.ring with images := tset s0.ring.images node.val { v with lost := true } } }).event 0x050D
        [node.val]
    else s0)

/-- STATE of a drop's section or status: 3 none yet, 2 lost, else the given code (Table 5-2). -/
def State.dropState (s : State) (node code : Nat) : Nat :=
  match tfind s.ring.images node with
  | none => 3
  | some v => if v.lost || s.isolated then 2 else code

/-! ### By-pass relays (R434, R435) -/

/-- A port's relay as Table 12-5 commands it; from a power-fail warning on the coils are released (Table 15-4). -/
def State.relayTarget (s : State) (east : Bool) : Bool := !s.ringActive || s.pwr.warn.isSome || (s.link east).forced

/-- BYPASS_FORCE: the relays named in AUX are forced closed; the completion follows RELAY_SENSE. -/
def execBypassForce (rid : Nat) (s : State) : Host.Outcome State Fault Refusal :=
  .next (s.onReq rid 0x0501 (fun r =>
    if s.ring.bypassRid.isSome then s
    else
      let s1 := (s.setLink true { s.ring.e with forced := r.aux.getLsbD 0 })
      let s2 := s1.setLink false { s1.ring.w with forced := r.aux.getLsbD 1 }
      if s2.ring.e.relayClosed == s2.relayTarget true && s2.ring.w.relayClosed == s2.relayTarget false then s2.complete r stOk
      else
        let s3 := s2.running rid
        { s3 with ring := { s3.ring with bypassRid := some (rid, s.now + 10000000) } }))

/-- RELAY_SENSE: the sense contacts; event 0x050C for each change; BYPASS_FORCE completes on the new state, or after 10 ms
with RESULT bit 0 set. -/
def execRelaySense (t : Nat) (eastClosed westClosed : Bool) (s : State) : Host.Outcome State Fault Refusal :=
  let s0 := s.tick t
  let put (st : State) (east : Bool) (closed : Bool) : State :=
    let l := st.link east
    let st1 := st.setLink east { l with relayClosed := closed }
    if l.relayClosed == closed then st1 else st1.event 0x050C [portNum east, b2n closed, b2n l.forced]
  let s1 := put (put s0 true eastClosed) false westClosed
  .next (match s1.ring.bypassRid with
    | none => s1
    | some (rid, due) =>
      let ok := eastClosed == s1.relayTarget true && westClosed == s1.relayTarget false
      if !ok && s1.now < due then s1
      else
        let s2 := { s1 with ring := { s1.ring with bypassRid := none } }
        match s2.findReq rid with
        | some r => s2.complete r stOk (b2n (!ok))
        | none => s2)

/-! ### Status (R448, R449) -/

/-- RING_STATUS: 1 600 bytes. -/
def execRingStatus (rid : Nat) (s : State) : Host.Outcome State Fault Refusal :=
  let c := s.ring.applied
  let drop (n : Nat) : List Byte :=
    let v := tget s.ring.images n {}
    let st := if !(c.dropIn n) && !(c.dropOut n) then 4 else s.dropState n 0
    u8 st ++ u8 (rd v.data 0 1) ++ zeros 2 ++ u32 v.seq.toNat ++ u64 v.stamp.toNat
  .next (s.onReq rid 0x0500 (fun r =>
    s.complete r stOk (data := some (
      u32 (s.ringWord 0x000) ++ u32 (s.ringWord 0x020) ++ u32 (s.ringWord 0x028) ++ u32 (s.ringWord 0x02C) ++
      u32 (s.ringWord 0x024) ++ zeros 4 ++ u64 s.ring.cycleNum ++ u32 s.ring.wraps ++ u32 s.ring.crcErr ++
      u32 s.ring.c1Late ++ u32 s.ring.dupId ++ u32 s.ring.dropErr ++ zeros 12 ++
      (List.range 64).flatMap drop ++ (List.range 64).flatMap (fun n => tget s.ring.trips n (zeros 8))))))

/-- DROP_SUBSCRIBE: NOT_PRESENT for a node without IN. -/
def execDropSubscribe (rid : Nat) (handle : BitVec 32) (s : State) : Host.Outcome State Fault Refusal :=
  .next (s.onReq rid 0x0502 (fun r =>
    let n := bits r.aux.toNat 8 6
    if !(s.ring.applied.dropIn n) then s.complete r stNotPresent
    else s.subscribe r { handle := handle, opcode := 0x0502, ctx := bits r.aux.toNat 0 8, target := n }))

end Sys2Proof.Machine
end

