-- ==== Sys2Proof/Machine/Strings.lean ====
section
/-! DEFINITION. Machine/Strings.lean: string ports: chain frames, enumeration, sweeps, balancing, probe sweeps, the
fault tone and chain breaks (08_string_ports.md). -/

namespace Sys2Proof.Machine

/-! ### Positions (R275) -/

def posOf (sats : Nat) (endB : Bool) (i : Nat) : Nat := if endB then sats - 1 - i else i

/-- Satellite at a position, if the chain has it. -/
def satAt (sats : Nat) (endB : Bool) (pos : Nat) : Option Nat := if pos < sats then some (posOf sats endB pos) else none

/-- Connected cells of a satellite (Table 8-16). -/
def PortPlan.mask (p : PortPlan) (sat : Nat) : BitVec 16 := if sat + 1 = p.sats then p.lastMask else p.cellMask

/-! ### Frames (R274, R276, Tables 8-3 to 8-9) -/

/-- Header, payload and CRC-32 of a command frame. -/
def chainFrame (cmd : Nat) (endB ack : Bool) (addr : Nat) (payload : List Byte) : List Byte :=
  let body := u8 cmd ++ u8 (b2n endB + fld 1 1 (b2n ack)) ++ u16 addr ++ u16 0 ++ u16 payload.length ++ payload
  body ++ u32 (crc32 body).toNat

/-- Time of a frame of a payload length on the line, with preamble, delimiter, header and CRC, ns. -/
def chainTime (payload : Nat) : Nat := (3 + 8 + payload + 4) * 160

/-- A frame leaves an end of a port: from this module, or from the partner that holds the end, on the lead's instruction
(R270). -/
def State.chainOut (s : State) (n : Nat) (endB : Bool) (bytes : List Byte) : State :=
  if s.holdsEnd endB then s.emit (.chain n endB bytes)
  else if s.leadsPair then s.emit (.mirror (.chainSend n endB bytes))
  else s

/-- Time of a frame through the whole chain, from the delays of its last satellite, where both are measured. -/
def State.transit (s : State) (n : Nat) : Option Nat :=
  match tget (s.port n).delays (s.sats n - 1) (none, none) with
  | (some a, some b) => some (a + b)
  | _ => none

/-- What the far end is to see of a frame that leaves the command end of a whole chain: the same frame, no later than its
arrival plus 2 us (R270, R302). -/
def State.expectFar (s : State) (n : Nat) (endB : Bool) (bytes : List Byte) : List FarFrame :=
  let p := s.port n
  let len := rd bytes 6 2
  match s.transit n with
  | some w =>
    if endB != s.cmdEnd || !s.farHeld || p.broken || p.enumerating || !p.ready then p.farDue
    else ({ due := s.now + w + chainTime len + 2000, cmd := rd bytes 0 1, payload := slice bytes 8 len } :: p.farDue).take 8
  | none => p.farDue

/-- A frame leaves an end, and the line is busy with it and its reply for a time (R268). -/
def State.sendFrame (s : State) (n : Nat) (endB : Bool) (dur : Nat) (bytes : List Byte) : State :=
  let s1 := s.chainOut n endB bytes
  let p := s1.port n
  s1.setPort n { p with
    lineUntil := max p.lineUntil (s.now + dur), lastCast := if rd bytes 2 2 = 0x3FF then s.now else p.lastCast
    farDue := s.expectFar n endB bytes }

/-- Duration of a frame that no satellite answers. -/
def State.castTime (s : State) (n payload : Nat) : Nat := chainTime payload + (s.transit n).getD 0

/-- The lead tells its follower what its string engine holds of a port, where that has changed (R313; log 102). -/
def State.reportPort (s : State) (was : Port) (n : Nat) : State :=
  if s.leadsPair && s.port n != was then s.emit (.mirror (.port n { s.port n with sweeps := [] })) else s

def sampleFrame (endB : Bool) (seq : Nat) (probe : Option Nat) : List Byte :=
  chainFrame (if probe.isSome then 0x06 else 0x03) endB false 0x3FF (u16 seq ++ u8 (probe.getD 0) ++ u8 0 ++ u32 400000)

def readFrame (endB : Bool) (seq first count : Nat) (probe : Bool) : List Byte :=
  chainFrame 0x04 endB false 0x3FF (u16 seq ++ u16 first ++ u16 count ++ u8 (b2n probe) ++ u8 0)

/-- CFG of a satellite (Table 8-8); a port outside the plan gets the index and delays only (R311). -/
def State.cfgPayload (s : State) (n sat : Nat) : List Byte :=
  let p := s.port n
  let d := tget p.delays sat (none, none)
  let dl (x : Option Nat) : List Byte := u32 (x.getD 0xFFFFFFFF)
  let clear : Bool := !p.ready || p.resetSeen.contains sat
  match s.portPlan n with
  | none => u16 sat ++ u16 (b2n clear) ++ dl d.1 ++ dl d.2 ++ zeros 36
  | some e => u16 sat ++ u16 (b2n clear + fld 1 1 (b2n (e.store && !p.ready))) ++ dl d.1 ++ dl d.2 ++
      e.cfg.take 28 ++ u16 (e.mask sat).toNat ++ zeros 6

/-- PHASED in the BAL frame of a satellite (R291). -/
def Port.phased (p : Port) (sat : Nat) : Bool :=
  let m := (tget p.balOn sat 0).toNat
  m.land (2 * m) != 0 || (bit m 15 && bit (tget p.balOn (sat + 1) 0).toNat 0) ||
  (bit m 0 && sat != 0 && bit (tget p.balOn (sat - 1) 0).toNat 15)

/-! ### Instants of the sweep schedule (R278, R282, Table 8-12) -/

def CellPlan.isInstant (c : CellPlan) (at_ : Nat) : Bool :=
  c.sweepPhase * 1000 ≤ at_ && (at_ - c.sweepPhase * 1000) % (c.sweepPeriod * 1000000) == 0

/-- The next departure of SAMPLE or PROBE after an instant. -/
def CellPlan.nextDeparture (c : CellPlan) (mt : Nat) : Nat :=
  let p := c.sweepPeriod * 1000000
  let ph := c.sweepPhase * 1000
  ph + ((mt + 400000 - ph) / p + 1) * p - 400000

/-- Modes in which sweeps run (R285). -/
def State.sweepMode (s : State) : Bool :=
  s.modes.mode == .run || s.modes.mode == .hold || s.modes.mode == .maintenance

/-- At least 1 us of idle line has passed since the last frame, its reply or its block stream (Table 8-1). -/
def State.lineIdle (s : State) (n : Nat) : Bool :=
  let u := (s.port n).lineUntil
  u == 0 || u + 1000 ≤ s.now

/-- The sweep whose blocks come in: the newest that was sent out. -/
def Port.current (p : Port) : Option Sweep := p.sweeps.find? (fun w => !w.skip && !w.dead)

/-- READ of a sweep leaves at this module time (Table 8-12, R295). -/
def Sweep.readAt (w : Sweep) : Nat := w.mt + (if w.probe.isSome then 4070000 else 30000)

/-- A frame ends 2 us before the next departure; a port that does not sweep has no departure (R278). -/
def State.beforeDeparture (s : State) (n dur : Nat) : Bool :=
  match s.cells.plan with
  | some c => !(s.port n).ready || s.mt + dur + 2000 ≤ c.nextDeparture s.mt
  | none => true

/-- Free time of the sweep schedule for a frame and its reply of a length: from the end of the sweep's block streams to the
next departure (R278, Table 8-12). -/
def State.freeTime (s : State) (n dur : Nat) : Bool :=
  let reading : Bool := (s.port n).current.any (fun w => !w.readSent && !w.closed && s.mt ≤ w.readAt)
  s.lineIdle n && !reading && s.beforeDeparture n dur

/-! ### Tone events (R299, R305) -/

/-- TONE_STATE_CHANGE at an end that this module holds. -/
def execToneStateChange (t : Nat) (port : Fin 16) (endB : Bool) (tone : Tone) (s : State) :
    Host.Outcome State Fault Refusal :=
  let s0 := s.tick t
  .next (if s0.live && s0.bonded port.val && s0.holdsEnd endB then s0.putTone port.val endB tone else s0)

/-- TONE_REPORT: the partner's state of its end. -/
def execToneReport (t : Nat) (port : Fin 16) (endB : Bool) (tone : Tone) (s : State) :
    Host.Outcome State Fault Refusal :=
  let s0 := s.tick t
  .next (
    if s0.live && s0.bonded port.val && !(s0.holdsEnd endB) && s0.twinUp then
      let s1 := s0.goodFrame.setPort port.val { s0.port port.val with toneFarAt := s0.now }
      s1.putTone port.val endB tone
    else s0)

/-- TONE_REPORT_STALE: a partner report older than 30 us counts as NONE. -/
def execToneReportStale (t : Nat) (port : Fin 16) (s : State) : Host.Outcome State Fault Refusal :=
  let s0 := s.tick t
  let p := s0.port port.val
  let far := !s0.slotB
  .next (
    if s0.cfg.ee.slots != 1 && p.toneFarAt + 30000 < s0.now && (if far then p.toneB else p.toneA) != .none then
      s0.putTone port.val far .none
    else s0)

/-- LOOP_OPEN: the gap has lasted OPEN_DELAY. -/
def execLoopOpen (t : Nat) (port : Fin 16) (s : State) : Host.Outcome State Fault Refusal :=
  let s0 := s.tick t
  .next (if s0.live && s0.bonded port.val then s0.judgeTone port.val else s0)

/-! ### The end of a sweep (R286, R296, R304, R312) -/

def Port.setSweep (p : Port) (w : Sweep) : Port :=
  { p with sweeps := p.sweeps.map (fun x => if x.seq == w.seq then w else x) }

/-- Raw sweep item of a satellite (Table 8-17). -/
def rawItem (port sat : Nat) (skip : Bool) (x : SatSample) : List Byte :=
  u16 (port * 4096 + sat * 8) ++ u8 (fld 4 1 (b2n skip) + fld 2 2 x.path + fld 0 2 x.state) ++ u8 x.band ++
  u16 x.status.toNat ++ zeros 2 ++
  (if x.state = 0 then x.cells.flatMap (fun c => u32 c.toNat) else zeros 64) ++ u16 x.temp0.toNat ++ u16 x.temp1.toNat ++
  zeros 4

/-- The probe sweep of a port is done: PROBE_SWEEP completes with the sample instant of group 0 (R296). -/
def State.probeDone (s : State) (n : Nat) : State :=
  let p := s.port n
  let s1 := (s.setPort n { p with probing := false, probeRid := none }).event 0x090B [n]
  match p.probeRid.bind s1.findReq with
  | some r => s1.complete r stOk p.probeT0
  | none => s1

/-- The port has left the plan: a probe sweep that runs ends, its command NOT_PRESENT (log 104). -/
def State.probeGone (s : State) (n : Nat) : State :=
  let p := s.port n
  let s1 := s.setPort n { p with probing := false, probeRid := none }
  match p.probeRid.bind s1.findReq with
  | some r => s1.complete r stNotPresent
  | none => s1

/-- Continuity of a broken chain in a sweep: every block has come and both ends are HEALTHY; ten in a row make the chain
whole (R304). A module that holds one end only makes no such check (R272). -/
def State.continuity (s : State) (n notSampled : Nat) : State :=
  let p := s.port n
  if !p.broken || !s.farHeld then s
  else if notSampled = 0 && s.tonesWhole n then
    if p.wholeRun + 1 < 10 then s.setPort n { p with wholeRun := p.wholeRun + 1 }
    else
      ((s.setPort n { p with broken := false, wholeRun := 0, chain := 1, reachA := some (s.sats n - 1)
                             reachB := some 0 }).event 0x0903 [n]).judgeTone n
  else s.setPort n { p with wholeRun := 0 }

/-- A sweep of a port ends: its not-sampled satellites, STRn.SWEEP_INFO, event 0x0909, raw records, continuity, and the
end of a probe sweep (R286, R312; log 112). -/
def State.closeSweep (s : State) (n : Nat) (w : Sweep) : State :=
  if w.closed then s
  else
    let k := s.sats n
    let p := s.port n
    let xs := (List.range k).map (fun i => tget w.got i {})
    let no := (xs.filter (fun x => x.state != 0)).length
    let far := (xs.filter (fun x => x.state == 0 && x.path != 0)).length
    let got := (xs.zipIdx.filter (fun (x, _) => x.state == 0)).map (·.2)
    let real := !(w.skip || w.dead || w.probe.isSome)
    let s0 := if s.twin.checking && real && s.twin.swapMt ≤ w.mt && (tfind s.twin.drill.after n).isNone then
        { s with twin := { s.twin with drill := { s.twin.drill with after := tset s.twin.drill.after n got } } } else s
    let s1 := s0.setPort n { p.setSweep { w with closed := true } with
      seq := w.seq, sweepMt := w.mt, infoPath := far, infoNot := no, lastGot := if real then got else p.lastGot }
    let s2 := if no != 0 && p.infoNot == 0 then s1.event 0x0909 [n, no] else s1
    let items := xs.zipIdx.map (fun (x, i) => rawItem n i w.skip x)
    let s3 := (s2.subsOf 0x0406).foldl (fun st x =>
      if x.target == n && x.content == 0 && w.seq % x.param == 0 then st.deliver x.handle w.mt items else st) s2
    let s4 := if w.skip || w.dead then s3 else s3.continuity n no
    if w.probe == some 3 then s4.probeDone n else s4

/-- Close the sweeps of a port that are still open. -/
def State.closeOpen (s : State) (n : Nat) : State :=
  match (s.port n).current with
  | some w => s.closeSweep n w
  | none => s

/-! ### Enumeration (R279, R280, R311) -/

/-- Start the enumeration of a port, for a request or on the module's own account; a request that waits for the port's
enumeration waits for this one. A sweep under way ends as it stands. -/
def State.startEnum (s : State) (n : Nat) (rid : Option Nat) : State :=
  let s1 := s.closeOpen n
  let p := s1.port n
  let s2 := s1.setPort n { p with
    enumerating := true, enumRid := rid.orElse (fun _ => p.enumRid), enumA := 0, enumB := 0, uids := [], delaysB := []
    ready := false, cfgTodo := [], remeasure := [], resetSeen := [], timeoutSeen := [], awaiting := none, chain := 4
    suspect := false, farDue := []
    enumDoneA := s.cmdEnd && !s.farHeld, enumDoneB := !s.cmdEnd && !s.farHeld }
  (s2.judgeTone n).reportPort (s.port n) n

/-- The enumeration of a port is done once every CFG is settled: the port is ready unless it found another number of
satellites than planned, and STR_ENUM completes (R285, R311). -/
def State.enumSettle (s : State) (n : Nat) : State :=
  let p := s.port n
  if !p.enumerating || !p.enumDoneA || !p.enumDoneB || !p.cfgTodo.isEmpty then s
  else
    let planned := (s.portPlan n).map (·.sats)
    let differs : Bool := match planned with | some k => k != p.found | none => false
    let s1 := s.setPort n { p with enumerating := false, enumRid := none, ready := planned.isSome && !differs
                                   chain := if planned.isNone then 0 else p.chain }
    match p.enumRid.bind s1.findReq with
    | some r => s1.complete r stOk (p.enumA + p.enumB * 65536 + fld 31 1 (b2n differs))
    | none => s1

/-- Delays from end B of a port outside the plan, kept by position until the count of its satellites is known. -/
def Port.delaysFromB (p : Port) (sats : Nat) : Tab (Option Nat × Option Nat) :=
  p.delaysB.foldl (fun (m : Tab (Option Nat × Option Nat)) e =>
    if e.1 < sats then tset m (sats - 1 - e.1) ((tget m (sats - 1 - e.1) (none, none)).1, some e.2) else m) p.delays

/-- Both ends have been counted: mismatch, a break, or a whole chain; then the CFG frames (R279 step 4, R280). -/
def State.enumCounted (s : State) (n : Nat) : State :=
  let p := s.port n
  if !p.enumDoneA || !p.enumDoneB then s
  else
    let total := p.uids.length
    let s1 := s.event 0x0900 [n, p.enumA, p.enumB]
    let sat := match s.portPlan n with | some e => e.sats | none => total
    let lastA : Option Nat := if p.enumA = 0 then none else some (p.enumA - 1)
    let firstB : Option Nat := if p.enumB = 0 then none else some (sat - p.enumB)
    let whole : Bool := (p.enumA == sat || p.enumB == sat) && !(p.enumA == sat && s.farHeld && p.enumB != sat) &&
      !(p.enumB == sat && s.farHeld && p.enumA != sat)
    let p1 : Port := { p with found := total, reachA := lastA, reachB := firstB, cfgTodo := List.range sat }
    let s2 := match s.portPlan n with
      | none => s1.setPort n { p1 with broken := false, delays := p.delaysFromB total }
      | some e =>
        if total != e.sats then
          (s1.setPort n { p1 with
            chain := 5, cfgTodo := p1.cfgTodo.filter (fun i => i < p.enumA || sat - p.enumB ≤ i) }).event 0x0901 [n, total, e.sats]
        else if whole then s1.setPort n { p1 with chain := 1, broken := false, wholeRun := 0 }
        else
          (s1.setPort n { p1 with chain := 2, broken := true, wholeRun := 0, breaks := satInc p.breaks }).event 0x0902
            [n, lastA.getD 0x8000, firstB.getD 0x8000]
    (s2.judgeTone n).enumSettle n

/-- ENUM_TIMEOUT: no reply within 200 us ends the enumeration from that end, or a measurement of R306. -/
def execEnumTimeout (t : Nat) (port : Fin 16) (endB : Bool) (s : State) : Host.Outcome State Fault Refusal :=
  let s0 := s.tick t
  let n := port.val
  let p := s0.port n
  .next (match p.awaiting with
    | some { f := .enum pos, endB := e, sentAt := a, again := _ } =>
      if e != endB || s0.now < a + 200000 then s0
      else if p.enumerating && !(if endB then p.enumDoneB else p.enumDoneA) then
        ((s0.setPort n { p with
          awaiting := none, enumDoneA := p.enumDoneA || !endB
          enumDoneB := p.enumDoneB || endB }).enumCounted n).reportPort p n
      else
        (s0.setPort n { p with
          awaiting := none, remeasure := p.remeasure.filter (fun i => some i != satAt (s0.sats n) endB pos) }).reportPort p n
    | _ => s0)

/-- STR_ENUM: enumerate one port; a request waits while the port is being enumerated. -/
def execStrEnum (rid : Nat) (s : State) : Host.Outcome State Fault Refusal :=
  .next (s.onReq rid 0x0402 (fun r =>
    if (s.port r.value).enumerating then s else (s.startEnum r.value (some rid)).running rid))

/-! ### Balancing (R288 to R292) -/

/-- The masks that a BAL_PLAN buffer names. -/
def balMasks (b : List Byte) : Tab (BitVec 16) :=
  (entriesOf 4 (slice b 16 (4 * rd b 2 2))).foldl (fun m e => tset m (rd e 0 2) (BitVec.ofNat 16 (rd e 2 2))) []

/-- Buffer of BAL_PLAN: its length and its header's reserved field and ranges. -/
def balPlanOk (b : List Byte) : Bool :=
  b.length == 32 + 4 * rd b 2 2 && zeroAt b 1 1 && zeroAt b 4 4 && rd b 2 2 ≤ 512

/-- The first entry whose INDEX or MASK does not fit the plan or stands twice. -/
def balBad (e : PortPlan) (b : List Byte) : Option Nat :=
  let es := entriesOf 4 (slice b 16 (4 * rd b 2 2))
  (es.zipIdx.find? (fun (x, i) =>
    let k := rd x 0 2
    e.sats ≤ k || (BitVec.ofNat 16 (rd x 2 2) &&& ~~~(e.mask k)) != 0 || (es.take i).any (fun y => rd y 0 2 == k))).map (·.2)

/-- A plan's command completes OK with a result, if it still waits. -/
def State.balDone (s : State) (rid result : Nat) : State :=
  match s.findReq rid with
  | some r => if r.opcode == 0x0403 then s.complete r stOk result else s
  | none => s

/-- BAL_PLAN: in RUN the plan waits for its sweep period; in HOLD and MAINTENANCE it is stored. -/
def execBalPlan (rid : Nat) (s : State) : Host.Outcome State Fault Refusal :=
  .next (s.onReq rid 0x0403 (fun r =>
    let n := rd r.buf 0 1
    match s.portPlan n with
    | none => s.complete r stNotPresent
    | some e =>
      match balBad e r.buf with
      | some i => s.complete r stNotPresent i
      | none =>
        let b : BalPlan := { rid := rid, acc := s.accMt r, endMt := rd r.buf 8 8, masks := balMasks r.buf }
        let p := s.port n
        if s.modes.mode == .run then (s.setPort n { p with balWait := p.balWait ++ [b] }).running rid
        else (s.setPort n { p with balPlan := some b, balActive := false }).complete r stOk 0))

/-- Ends from which a broadcast reaches the chain: the command end, and of a broken chain the far end too (R304). -/
def State.castEnds (s : State) (n : Nat) : List Bool :=
  if (s.port n).broken && s.farHeld then [s.cmdEnd, !s.cmdEnd] else [s.cmdEnd]

/-- A plan takes effect: event 0x090A, and its BAL frames are due; with nothing to send it completes at once. -/
def State.balStart (s : State) (n : Nat) (b : BalPlan) : State :=
  let p := s.port n
  let on := b.masks.filter (fun e => e.2 != 0)
  let todo := ((on ++ p.balOn).map (·.1)).dedup
  let s1 := s.setPort n { p with balPlan := some b, balActive := true, balOn := on, balPhased := [], balTodo := todo
                                 stopEnds := if on.isEmpty then s.castEnds n else [] }
  let s2 := s1.event 0x090A [n, on.length]
  if todo.isEmpty then s2.balDone b.rid s2.mt else s2

/-- At a sweep period's start in RUN a waiting plan takes effect 50 us after its acceptance, and the stored plan after an
entry to RUN (R289). -/
def State.balPeriod (s : State) (n : Nat) : State :=
  let p := s.port n
  if s.modes.mode != .run || !p.balTodo.isEmpty then s
  else
    match p.balWait with
    | b :: r => if b.acc + 50000 ≤ s.mt then ((s.setPort n { p with balWait := r }).balStart n b) else s
    | [] =>
      match p.balPlan with
      | some b => if p.balActive || (b.endMt != 0 && b.endMt ≤ s.mt) then s else s.balStart n b
      | none => s

/-- Balancing of a port stops: a broadcast BAL with MASK 0 is due, and waiting plans are kept as stored plans (R289,
R290). -/
def State.balStop (s : State) (n : Nat) (keep : Bool) : State :=
  let p := s.port n
  let plan := if keep then (match p.balWait.getLast? with | some b => some b | none => p.balPlan) else none
  let s1 := s.setPort n { p with stopEnds := if p.balActive then s.castEnds n else p.stopEnds, balActive := false, balOn := []
                                 balTodo := [], balPhased := [], balWait := if keep then [] else p.balWait, balPlan := plan }
  let rids := (match p.balPlan with | some b => if p.balTodo.isEmpty then [] else [b.rid] | none => []) ++
    (if keep then p.balWait.map (·.rid) else [])
  rids.foldl (fun st rid => st.balDone rid 0) s1

/-- BAL_END: END_MT is reached. -/
def execBalEnd (t : Nat) (port : Fin 16) (s : State) : Host.Outcome State Fault Refusal :=
  let s0 := s.tick t
  let p := s0.port port.val
  .next (match p.balPlan with
    | some b => if p.balActive && b.endMt != 0 && b.endMt ≤ s0.mt then s0.balStop port.val false else s0
    | none => s0)

/-- At the hold instant every port stops balancing. -/
def State.holdStrings (s : State) : State := (List.range 16).foldl (fun st n => st.balStop n true) s

/-! ### Free-time frames (R278, R281, R289, R306) -/

/-- Duration of a frame and its reply, from the satellite's delay. -/
def State.chainDur (s : State) (n : Nat) (endB : Bool) (sat payload reply : Nat) : Nat :=
  let d := tget (s.port n).delays sat (none, none)
  let w := (if endB then d.2 else d.1).getD 0
  chainTime payload + 1000 + 2 * w + chainTime reply

/-- A frame waits for a reply that may still come; a heartbeat's echo counts as missed after 200 us. -/
def State.chainBusy (s : State) (n : Nat) : Bool :=
  match (s.port n).awaiting with
  | none => false
  | some w => match w.f with | .heartbeat _ => decide (s.now < w.sentAt + 200000) | _ => true

/-- Send a frame that awaits a reply. -/
def State.chainAsk (s : State) (n : Nat) (endB : Bool) (f : ChainSend) (again : Bool) (dur : Nat) (bytes : List Byte) :
    State :=
  let s1 := s.sendFrame n endB dur bytes
  s1.setPort n { s1.port n with awaiting := some { f := f, endB := endB, sentAt := s.now, again := again } }

/-- Data reach a satellite from an end. -/
def Port.reaches (p : Port) (endB : Bool) (sat : Nat) : Bool :=
  if endB then (match p.reachB with | some i => i ≤ sat | none => false)
  else (match p.reachA with | some i => sat ≤ i | none => false)

/-- The frame of a CFG or BAL for a satellite. -/
def State.satFrame (s : State) (n : Nat) (endB : Bool) (f : ChainSend) : List Byte :=
  let k := s.sats n
  match f with
  | .cfg sat => chainFrame 0x02 endB true (posOf k endB sat) (s.cfgPayload n sat)
  | .bal sat => chainFrame 0x05 endB true (posOf k endB sat)
      (u16 (tget (s.port n).balOn sat 0).toNat ++ u8 (b2n ((s.port n).phased sat)) ++ u8 0)
  | .balStop => chainFrame 0x05 endB false 0x3FF (zeros 4)
  | .enum pos => chainFrame 0x01 endB false pos []
  | .heartbeat echo => chainFrame 0x07 endB false 0x3FF (u16 echo ++ zeros 2)

/-- Without another broadcast frame before the next SAMPLE the gap would pass STRn.HB_PERIOD (R292). -/
def State.castDue (s : State) (n : Nat) : Bool :=
  match s.cells.plan with
  | some c => (s.port n).lastCast + (s.port n).hbPeriod * 1000000 < s.now + (c.nextDeparture s.mt - s.mt)
  | none => false

/-- The frame is due: what the engine has to send from this end. -/
def State.frameDue (s : State) (n : Nat) (endB : Bool) (f : ChainSend) : Bool :=
  let p := s.port n
  let k := s.sats n
  match f with
  | .enum pos =>
    if p.enumerating && !(if endB then p.enumDoneB else p.enumDoneA) then pos == (if endB then p.enumB else p.enumA)
    else (satAt k endB pos).any (fun i => p.remeasure.contains i)
  | .cfg sat => p.cfgTodo.contains sat && !p.remeasure.contains sat && p.reaches endB sat &&
      (!p.enumerating || (p.enumDoneA && p.enumDoneB))
  | .bal sat => s.modes.mode == .run && p.balTodo.contains sat && p.reaches endB sat
  | .balStop => p.stopEnds.contains endB
  | .heartbeat echo =>
    s.sweepMode && p.ready &&
    (if echo = 0x3FF then s.castDue n
     else echo == (if endB then p.hbNextB else p.hbNextA) &&
       (if endB then p.hbSeqB else p.hbSeqA) != (p.sweeps.head?.map (·.seq)))

/-- Time of a frame on the line, its reply included. -/
def State.frameTime (s : State) (n : Nat) (endB : Bool) (f : ChainSend) : Nat :=
  let k := s.sats n
  match f with
  | .enum pos => s.chainDur n endB (posOf k endB pos) 0 16
  | .cfg sat => s.chainDur n endB sat 48 0
  | .bal sat => s.chainDur n endB sat 4 0
  | .balStop => s.castTime n 4
  | .heartbeat echo => if echo = 0x3FF then s.castTime n 4 else s.chainDur n endB (posOf k endB echo) 4 0

/-- Modes in which a frame may leave (R285). -/
def State.frameMode (s : State) (f : ChainSend) : Bool :=
  s.sweepMode || (s.modes.mode == .startup && (match f with | .enum _ | .cfg _ => true | _ => false))

/-- A frame may start now: in free time; the broadcast that stops balancing follows the frame or stream in progress
(R278, R290). -/
def State.frameSlot (s : State) (n : Nat) (endB : Bool) (f : ChainSend) : Bool :=
  match f with
  | .balStop => s.lineIdle n && s.beforeDeparture n (s.frameTime n endB f)
  | _ => s.freeTime n (s.frameTime n endB f)

/-- What a frame claims a port's command slot with: the class of the command it belongs to, else the service class; the
string engines are the keel's, die 0 (R278, R29; log 103). -/
def State.frameClaim (s : State) (n : Nat) (f : ChainSend) : Claim :=
  let of (rid : Option Nat) : Claim := { cls := match rid.bind s.findReq with | some r => s.reqClass r | none => 3, die := 0 }
  match f with
  | .enum _ => of (s.port n).enumRid
  | .bal _ => of ((s.port n).balPlan.map (·.rid))
  | _ => of none

/-- No frame that waits for the same slot of the port wins over this one (R27). -/
def State.frameWins (s : State) (n : Nat) (f : ChainSend) : Bool :=
  (s.frameClaim n f).wins (s.pending.filterMap (fun c => match c with
    | .chainFrameSend t port endB g =>
      if t ≤ s.now && port.val == n && s.frameMode g && s.frameDue n endB g then some (s.frameClaim n g) else none
    | _ => none))

/-- CHAIN_FRAME_SEND: a frame that is due starts in the free time of the sweep schedule. -/
def execChainFrameSend (t : Nat) (port : Fin 16) (endB : Bool) (f : ChainSend) (s : State) :
    Host.Outcome State Fault Refusal :=
  let s0 := s.tick t
  let n := port.val
  let p := s0.port n
  let k := s0.sats n
  let dur := s0.frameTime n endB f
  .next (
    if !(s0.bonded n) || !s0.drivesChain || !(s0.frameMode f) || !(s0.canSend endB) || s0.chainBusy n ||
      !(s0.frameSlot n endB f) || !(s0.frameDue n endB f) || !(s0.frameWins n f) then s0
    else
      let bytes := s0.satFrame n endB f
      let s1 := match f with
        | .balStop => (s0.setPort n { p with stopEnds := p.stopEnds.filter (· != endB) }).sendFrame n endB dur bytes
        | .heartbeat echo =>
          if echo = 0x3FF then s0.sendFrame n endB dur bytes
          else
            let next := if echo + 1 < k then echo + 1 else 0
            let q : Option Nat := p.sweeps.head?.map (fun (w : Sweep) => w.seq)
            (s0.setPort n (if endB then { p with hbNextB := next, hbSeqB := q }
                           else { p with hbNextA := next, hbSeqA := q })).chainAsk n endB f false dur bytes
        | .bal sat =>
          (s0.setPort n { p with balPhased := if p.phased sat then (sat :: p.balPhased).dedup
                                              else p.balPhased.filter (· != sat) }).chainAsk n endB f false dur bytes
        | _ => s0.chainAsk n endB f false dur bytes
      s1.reportPort p n)

/-- A BAL of a satellite is settled; the plan completes with the last (R289). -/
def State.balSettled (s : State) (n sat : Nat) : State :=
  let p := s.port n
  let left := p.balTodo.filter (· != sat)
  let s1 := s.setPort n { p with balTodo := left, awaiting := none }
  match p.balPlan with
  | some b => if left.isEmpty && !p.balTodo.isEmpty then s1.balDone b.rid s1.mt else s1
  | none => s1

/-- One-way delay from a round trip and the duration of the frame sent (R279). -/
def hopDelay (rtt payload : Nat) : Nat := (rtt - chainTime payload - 1000) / 2

/-- A delay of a satellite from an end. -/
def Port.setDelay (p : Port) (sat : Nat) (endB : Bool) (d : Nat) : Port :=
  let x := tget p.delays sat (none, none)
  { p with delays := tset p.delays sat (if endB then (x.1, some d) else (some d, x.2)) }

/-- A RESET flag of a satellite: the first is counted, its delays are measured again, and CFG and BAL follow (R306). -/
def State.satReset (s : State) (n sat : Nat) : State :=
  let p := s.port n
  if p.resetSeen.contains sat || p.enumerating then s
  else
    (s.setPort n { p with
      resetSeen := sat :: p.resetSeen, satResets := satInc p.satResets, remeasure := sat :: p.remeasure
      cfgTodo := (sat :: p.cfgTodo).dedup
      balTodo := if p.balActive && (tget p.balOn sat 0) != 0 then (sat :: p.balTodo).dedup else p.balTodo }).event 0x0907
        [n, sat]

/-- Data have reached a satellite from an end: a block or an echo of it arrived (R302). -/
def State.reachSeen (s : State) (n : Nat) (endB : Bool) (sat : Nat) : State :=
  let p := s.port n
  if p.enumerating || p.reaches endB sat then s
  else
    let p1 : Port := if endB then { p with reachB := some sat } else { p with reachA := some sat }
    (s.setPort n { p1 with chain := if p.chain = 3 && p1.reachedAll (s.sats n) then 2 else p.chain }).judgeTone n

/-- The frame of a reply that has arrived: header, length and CRC-32 are good (R274). -/
def chainGood (bytes : List Byte) : Bool :=
  let len := bytes.length
  12 ≤ len && rd bytes (len - 4) 4 == (crc32 (bytes.take (len - 4))).toNat && rd bytes 6 2 == len - 12

/-- A command frame has come through the whole chain to the far end (R270): its HOP counts every satellite. -/
def State.farSeen (s : State) (n : Nat) (bytes : List Byte) : State :=
  let p := s.port n
  let seen (f : FarFrame) : Bool := f.cmd == rd bytes 0 1 && f.payload == slice bytes 8 (rd bytes 6 2)
  if rd bytes 4 2 != s.sats n then s
  else match p.farDue.find? seen with
    | some f => s.setPort n { p with farDue := p.farDue.erase f }
    | none => s

/-- The reply to an ENUM: a satellite of the enumeration, or its delays measured again (R279, R306). -/
def State.enumReply (s : State) (n : Nat) (endB : Bool) (pos rtt : Nat) (bytes : List Byte) : State :=
  let p := s.port n
  let unplanned := (s.portPlan n).isNone
  let sat : Option Nat := if p.enumerating && unplanned then (if endB then none else some pos) else satAt (s.sats n) endB pos
  let d := hopDelay rtt 0
  let p1 := match sat with
    | some i => { (p.setDelay i endB d) with rbal := tset p.rbal i (rd bytes 0x12 2) }
    | none => if p.enumerating && unplanned then { p with delaysB := tset p.delaysB pos d } else p
  if p.enumerating then
    let u := BitVec.ofNat 64 (rd bytes 8 8)
    let cnt := (if endB then p.enumB else p.enumA) + 1
    let p2 : Port := { p1 with
      awaiting := none, uids := if p.uids.contains u then p.uids else u :: p.uids
      enumA := if endB then p.enumA else cnt, enumB := if endB then cnt else p.enumB
      enumDoneA := p.enumDoneA || (!endB && cnt == 512), enumDoneB := p.enumDoneB || (endB && cnt == 512) }
    (s.setPort n p2).enumCounted n
  else s.setPort n { p1 with awaiting := none, remeasure := p.remeasure.filter (fun i => some i != sat) }

/-- The echo of a HEARTBEAT: a delay that has moved by more than 4 ns is written to the satellite (R281). -/
def State.echoReply (s : State) (n : Nat) (endB : Bool) (sat rtt : Nat) : State :=
  let p := s.port n
  let d := hopDelay rtt 4
  let x := tget p.delays sat (none, none)
  let moved : Bool := match if endB then x.2 else x.1 with | some o => o + 4 < d || d + 4 < o | none => true
  if moved then
    (s.setPort n { p.setDelay sat endB d with cfgTodo := (sat :: p.cfgTodo).dedup }).event 0x090C [n, sat]
  else s

/-- The satellite that a frame asks. -/
def chainSat (f : ChainSend) (sats : Nat) (endB : Bool) : Option Nat :=
  match f with
  | .enum pos => satAt sats endB pos
  | .cfg i => some i
  | .bal i => some i
  | .heartbeat echo => satAt sats endB echo
  | .balStop => none

/-- A good reply answers the frame in hand, from the end that sent it; a RESET flag in it counts (R306). -/
def State.chainAnswer (s : State) (n : Nat) (endB : Bool) (rtt : Nat) (bytes : List Byte) : State :=
  match (s.port n).awaiting with
  | none => s
  | some w =>
    let cmd := rd bytes 0 1
    let code : Nat := match w.f with | .enum _ => 0x81 | .cfg _ => 0x82 | .bal _ => 0x85 | .heartbeat _ => 0x87 | .balStop => 0
    if w.endB != endB || cmd != code || (cmd == 0x81) != (bytes.length == 28) then s
    else
      let at_ := chainSat w.f (s.sats n) endB
      let s1 := match at_ with
        | some i => if bit (rd bytes 1 1) 2 then s.satReset n i else s
        | none => s
      let s2 := match at_ with | some i => s1.reachSeen n endB i | none => s1
      let p := s2.port n
      let nack := bit (rd bytes 1 1) 3
      match w.f with
      | .enum pos => s2.enumReply n endB pos rtt bytes
      | .cfg sat =>
        if nack then s2
        else
          (s2.setPort n { p with awaiting := none, cfgTodo := p.cfgTodo.filter (· != sat)
                                 resetSeen := p.resetSeen.filter (· != sat) }).enumSettle n
      | .bal sat => if nack then s2 else s2.balSettled n sat
      | .heartbeat _ =>
        let s3 := s2.setPort n { p with awaiting := none }
        match at_ with
        | some i => s3.echoReply n endB i rtt
        | none => s3
      | .balStop => s2

/-- A good frame that arrived at an end: a command frame seen at the far end, or a reply. -/
def State.chainIn (s : State) (n : Nat) (endB : Bool) (rtt : Nat) (bytes : List Byte) : State :=
  let s1 :=
    if rd bytes 0 1 < 0x80 then (if endB != s.cmdEnd then s.farSeen n bytes else s)
    else s.chainAnswer n endB rtt bytes
  s1.reportPort (s.port n) n

/-- CHAIN_REPLY: a frame arrives at an end that the module holds. With a wrong CRC it is discarded and counted; the far end
of a pair passes a good one to the lead (R270, R277). -/
def execChainReply (t : Nat) (port : Fin 16) (endB : Bool) (rtt : Nat) (bytes : List Byte) (s : State) :
    Host.Outcome State Fault Refusal :=
  let s0 := s.tick t
  let n := port.val
  let p := s0.port n
  .next (
    if !s0.live || !(s0.bonded n) || !(s0.holdsEnd endB) then s0
    else if !(chainGood bytes) then s0.setPort n { p with crcErr := satInc p.crcErr }
    else if s0.follows then s0.emit (.mirror (.chainIn n endB rtt bytes))
    else if s0.drivesChain then s0.chainIn n endB rtt bytes
    else s0)

/-- Satellite and payload lengths of a command with ACK_REQ. -/
def ackOf : ChainSend → Option (Nat × Nat)
  | .cfg sat => some (sat, 48)
  | .bal sat => some (sat, 4)
  | _ => none

/-- No good reply has come: the frame is sent again once, in free time and while it is still due; the second failure is a
reply timeout, and the engine goes on with the next satellite (R277, R278). -/
def State.replyLate (s : State) (n : Nat) (w : ChainWait) (sat : Nat) : State :=
  let p := s.port n
  let dur := s.frameTime n w.endB w.f
  if !w.again then
    if !(s.frameDue n w.endB w.f) then s.setPort n { p with awaiting := none }
    else if !(s.frameMode w.f) || !(s.frameSlot n w.endB w.f) || !(s.canSend w.endB) then s
    else s.chainAsk n w.endB w.f true dur (s.satFrame n w.endB w.f)
  else
    let s1 := s.setPort n { p with timeouts := satInc p.timeouts, awaiting := none, cfgTodo := p.cfgTodo.filter (· != sat) }
    match w.f with
    | .bal _ => s1.balSettled n sat
    | _ => s1.enumSettle n

/-- REPLY_TIMEOUT. -/
def execReplyTimeout (t : Nat) (port : Fin 16) (s : State) : Host.Outcome State Fault Refusal :=
  let s0 := s.tick t
  let n := port.val
  let p := s0.port n
  .next (match p.awaiting with
    | none => s0
    | some w =>
      match ackOf w.f with
      | none => s0
      | some (sat, len) =>
        if !s0.drivesChain || s0.now < w.sentAt + s0.chainDur n w.endB sat len 0 + 10000 then s0
        else (s0.replyLate n w sat).reportPort p n)

/-! ### The far end of a pair (R270, R313) -/

/-- A frame that the lead instructs this module to send from its end. -/
def State.sendTold (s : State) (n : Nat) (endB : Bool) (bytes : List Byte) : State :=
  if s.bonded n && s.holdsEnd endB then s.emit (.chain n endB bytes) else s

/-- A follower's port after the lead's report: what the lead's string engine knows of the chain. Sweeps, balancing plans,
probe state, tones, counters and requests are the module's own; no frame waits for a reply here (log 102). -/
def Port.follow (p lead : Port) : Port :=
  { p with
    found := lead.found, chain := lead.chain, reachA := lead.reachA, reachB := lead.reachB, delays := lead.delays
    delaysB := lead.delaysB, rbal := lead.rbal, uids := lead.uids, enumerating := lead.enumerating, enumA := lead.enumA
    enumB := lead.enumB, enumDoneA := lead.enumDoneA, enumDoneB := lead.enumDoneB, ready := lead.ready
    cfgTodo := lead.cfgTodo, remeasure := lead.remeasure, resetSeen := lead.resetSeen, broken := lead.broken
    wholeRun := lead.wholeRun, hbNextA := lead.hbNextA, hbNextB := lead.hbNextB, hbSeqA := lead.hbSeqA
    hbSeqB := lead.hbSeqB, balTodo := lead.balTodo, balPhased := lead.balPhased, stopEnds := lead.stopEnds
    suspect := lead.suspect, farDue := [], awaiting := none }

/-- The lead's report of a port reaches the follower: the mirrored STR_ENUM and BAL_PLAN end there as they did at the
lead. -/
def State.followPort (s : State) (n : Nat) (lead : Port) : State :=
  let p := s.port n
  let s1 := (s.setPort n (p.follow lead)).judgeTone n
  let s2 :=
    if p.enumerating && !lead.enumerating then
      let st := s1.setPort n { s1.port n with enumRid := none }
      match p.enumRid.bind st.findReq with
      | some r => st.complete r stOk
      | none => st
    else s1
  match p.balPlan with
  | some b => if !p.balTodo.isEmpty && lead.balTodo.isEmpty then s2.balDone b.rid s2.mt else s2
  | none => s2

/-- A port as a joining module takes it from the lead's state image: requests of the lead are none of its own, and its
tones, trip source and counters stay (R385). -/
def Port.joined (p lead : Port) (rid : Nat) : Port :=
  let own (b : BalPlan) : BalPlan := { b with rid := rid }
  { p.follow lead with
    hbPeriod := lead.hbPeriod, sweeps := lead.sweeps, seq := lead.seq, sweepMt := lead.sweepMt, infoPath := lead.infoPath
    infoNot := lead.infoNot, balOn := lead.balOn, balPlan := lead.balPlan.map own, balActive := lead.balActive
    balWait := lead.balWait.map own, probing := lead.probing, probeGroup := lead.probeGroup, probeSent := lead.probeSent
    probeT0 := lead.probeT0, probeRid := none, enumRid := none, timeoutSeen := lead.timeoutSeen }

/-! ### Sweeps (R282 to R287, R294 to R296, R303, R304) -/

/-- Satellites to read from an end. -/
def Port.readCount (p : Port) (sats : Nat) (endB : Bool) : Nat :=
  if endB then (match p.reachB with | some i => sats - i | none => 0)
  else (match p.reachA with | some i => i + 1 | none => 0)

/-- End of a probe group's block streams in module time; both ends of a broken chain are read at once (R295, R304). -/
def Port.probeEnd (p : Port) (w : Sweep) (sats : Nat) : Nat :=
  let k := if !w.both then sats else max (p.readCount sats false) (p.readCount sats true)
  w.mt + 4075000 + 16960 * k

/-- Count of sweeps of the station: one more at each sweep instant at which a port sweeps (R282). -/
def State.sweepCount (s : State) (at_ : Nat) : Nat × State :=
  let c := s.cells
  if c.seqMt == some at_ then (c.seqNext - 1, s)
  else (c.seqNext, { s with cells := { c with seqNext := c.seqNext + 1, seqMt := some at_ } })

/-- A port that found another number of satellites than planned does not sweep: its cells are not-sampled in every sweep
(R280). -/
def Port.mismatched (p : Port) : Bool := p.chain == 5 && !p.enumerating

/-- The probe group that a sweep of a port runs next. -/
def Port.nextGroup (p : Port) : Option Nat := if p.probing && p.probeSent < 4 then some p.probeSent else none

/-- A sweep opens, with the probe group that it runs. -/
def Port.openSweep (p : Port) (w : Sweep) : Port :=
  { p with
    sweeps := (w :: p.sweeps).take 3, probeGroup := w.probe.getD p.probeGroup
    probeSent := if w.probe.isSome then p.probeSent + 1 else p.probeSent
    probeT0 := if w.probe == some 0 then w.mt else p.probeT0 }

/-- SAMPLE_SEND: 400 us before a sweep instant. -/
def execSampleSend (t : Nat) (port : Fin 16) (s : State) : Host.Outcome State Fault Refusal :=
  let s0 := s.tick t
  let n := port.val
  let p := s0.port n
  let at_ := s0.mt + 400000
  .next (match s0.cells.plan, s0.portPlan n with
    | some c, some e =>
      let newer : Bool := match p.sweeps with | w :: _ => w.mt != at_ | [] => true
      if !(c.isInstant at_) || !s0.sweepMode || !(p.ready || p.mismatched) || !newer then s0
      else
        let skip : Bool := p.sweeps.any (fun w => w.probe.isSome && !w.dead && s0.mt < p.probeEnd w e.sats)
        let (seq, s1) := s0.sweepCount at_
        let prev : Bool := p.sweeps.any (fun w => w.mt + c.sweepPeriod * 1000000 == at_ && !w.dead)
        let w0 : Sweep := { seq := seq, mt := at_, cmdB := s0.cmdEnd, noPrev := !prev, lost := true, trip := p.tripSrc != 0 }
        if !p.ready then
          let w : Sweep := { w0 with dead := true, probe := p.nextGroup }
          (s1.setPort n (p.openSweep w)).closeSweep n w
        else if skip then
          let w : Sweep := { w0 with skip := true }
          ((s1.setPort n (p.openSweep w)).closeSweep n w).balPeriod n
        else
          let s2 := s1.closeOpen n
          let p2 := s2.port n
          let both : Bool := p2.broken && s2.farHeld
          let w : Sweep := { w0 with both := both, probe := p2.nextGroup }
          let s3 := s2.setPort n (p2.openSweep w)
          let cmd := s3.cmdEnd
          let far := !cmd
          let dur := s3.castTime n 8
          let s4 := if s3.drivesChain then s3.sendFrame n cmd dur (sampleFrame cmd seq w.probe) else s3
          let s5 := if s3.drivesChain && both then s4.sendFrame n far dur (sampleFrame far seq w.probe) else s4
          s5.balPeriod n
    | _, _ => s0)

/-- Time of a block of a sweep on the line, ns (R276). -/
def Sweep.blockTime (w : Sweep) : Nat := if w.probe.isSome then 16960 else 11840

/-- READ of the open sweep leaves an end for a number of satellites, if there are any (Table 8-6: 1 to 512). -/
def State.readFrom (s : State) (n : Nat) (endB : Bool) (first count : Nat) : State :=
  match (s.port n).current with
  | none => s
  | some w =>
    if count = 0 then s
    else
      let s1 :=
        if s.drivesChain then
          s.sendFrame n endB (5000 + w.blockTime * count) (readFrame endB w.seq first count w.probe.isSome)
        else s
      let run : ReadRun := { endB := endB, sentAt := s.now, first := first, count := count }
      s1.setPort n ((s1.port n).setSweep { w with readSent := true, reads := w.reads ++ [run] })

/-- READ_SEND: 30 us after the sample instant, 4 070 us after a probe's. -/
def execReadSend (t : Nat) (port : Fin 16) (s : State) : Host.Outcome State Fault Refusal :=
  let s0 := s.tick t
  let n := port.val
  let p := s0.port n
  .next (match p.current with
    | none => s0
    | some w =>
      if w.readSent || w.closed || s0.mt != w.readAt || !s0.sweepMode then s0
      else
        let k := s0.sats n
        let s1 := s0.setPort n (p.setSweep { w with readSent := true })
        let cmd := s1.cmdEnd
        if w.both && s1.farHeld then
          (s1.readFrom n cmd 0 (p.readCount k cmd)).readFrom n (!cmd) 0 (p.readCount k (!cmd))
        else s1.readFrom n cmd 0 k)

/-- Satellites that a READ may still read before the next departure (R278). -/
def State.readRoom (s : State) (w : Sweep) : Nat :=
  match s.cells.plan with
  | some c => (c.nextDeparture s.mt - 2000 - (s.mt + 5000)) / w.blockTime
  | none => 0

/-- A new lead reads every satellite whose block has not reached the station, in the same sweep and from its own end, which
the sweep's values name as the other end (R271, R287). -/
def State.finishSweep (s : State) (n : Nat) : State :=
  match (s.port n).current with
  | none => s
  | some w =>
    let k := s.sats n
    let miss := (List.range k).filter (fun pos => (satAt k s.cmdEnd pos).any (fun i => (tfind w.got i).isNone))
    match miss.head?, miss.getLast? with
    | some a, some b =>
      if !w.readSent || w.closed || w.cmdB == s.cmdEnd || !s.sweepMode then s
      else s.readFrom n s.cmdEnd a (min (b + 1 - a) (s.readRoom w))
    | _, _ => s

/-- The lead holds its own end only: nothing is reached from the other end or waits there (R272). -/
def State.farLost (s : State) (n : Nat) : State :=
  let p := s.port n
  let far := !s.cmdEnd
  if s.farHeld || (s.portPlan n).isNone then s
  else
    let p1 : Port := { p with
      reachA := if far then p.reachA else none, reachB := if far then none else p.reachB
      enumDoneA := p.enumDoneA || !far, enumDoneB := p.enumDoneB || far, stopEnds := p.stopEnds.filter (· != far)
      farDue := [], awaiting := match p.awaiting with | some w => if w.endB == far then none else some w | none => none }
    let chain : Nat := if (p.chain = 1 || p.chain = 2) && !(p1.reachedAll (s.sats n)) then 3 else p.chain
    let s1 := s.setPort n { p1 with chain := chain }
    if p.enumerating && !(p.enumDoneA && p.enumDoneB) then s1.enumCounted n else s1.judgeTone n

/-- The string ports of a module that has just come to lead, or has lost the other module of its pair (R271, R272). -/
def State.takeChains (s : State) : State :=
  (List.range 16).foldl (fun (st : State) n =>
    if st.bonded n && st.drivesChain then (st.farLost n).finishSweep n else st) s

/-- The cells of a block: state, path, band and words (Table 8-7). -/
def SatSample.read (b : List Byte) (path : Nat) : SatSample :=
  let pos := rd b 0 2
  { state := if bit pos 10 then 2 else if bit pos 11 then 1 else 0
    path := path, band := bits pos 12 2, status := BitVec.ofNat 16 (rd b 0x46 2)
    cells := (List.range 16).map (fun i => rdW b (2 + 4 * i))
    temp0 := BitVec.ofNat 16 (rd b 0x42 2), temp1 := BitVec.ofNat 16 (rd b 0x44 2)
    probe := if b.length = 106 then (List.range 8).map (fun i => rdW b (0x48 + 4 * i)) else [] }

/-- A good block of a satellite is judged for the sweep: the first of each satellite counts. -/
def State.useChainBlock (s : State) (n : Nat) (endB : Bool) (b : List Byte) : State :=
  let p := s.port n
  let k := s.sats n
  match p.current, satAt k endB (bits (rd b 0 2) 0 10) with
  | some w, some sat =>
    if !w.readSent || (tfind w.got sat).isSome then s
    else
      let x := SatSample.read b (if endB == w.cmdB then 0 else if endB then 2 else 1)
      let w1 := { w with got := tset w.got sat x }
      let tmo := bit x.status.toNat 14
      let again : Bool := tmo && p.balActive && (tget p.balOn sat 0) != 0 && s.modes.mode == .run
      let s1 := s.setPort n { p.setSweep w1 with
        balTodo := if again then (sat :: p.balTodo).dedup else p.balTodo
        timeoutSeen := if tmo then (sat :: p.timeoutSeen).dedup else p.timeoutSeen.filter (· != sat) }
      let s2 := if tmo && !p.timeoutSeen.contains sat then s1.event 0x0908 [n, sat] else s1
      let s3 := (if x.state = 2 then s2.satReset n sat else s2).reachSeen n endB sat
      if !w.closed && (List.range k).all (fun i => (tfind w1.got i).isSome) then s3.closeSweep n w1 else s3
  | _, _ => s

/-- BLOCK_RECEIVE: a block with a wrong CRC is discarded and counted; the far end's blocks pass to the lead, and the lead
mirrors every block. -/
def execBlockReceive (t : Nat) (port : Fin 16) (endB : Bool) (bytes : List Byte) (s : State) :
    Host.Outcome State Fault Refusal :=
  let s0 := s.tick t
  let n := port.val
  let p := s0.port n
  let len := bytes.length
  .next (
    if !s0.live || !(s0.bonded n) || !(s0.holdsEnd endB) then s0
    else if (len != 74 && len != 106) || (crc16 (bytes.take (len - 2))).toNat != rd bytes (len - 2) 2 then
      s0.setPort n { p with crcErr := satInc p.crcErr }
    else if s0.follows then s0.emit (.mirror (.block n endB bytes))
    else
      let s1 := if s0.leadsPair then s0.emit (.mirror (.block n endB bytes)) else s0
      (s1.useChainBlock n endB bytes).reportPort p n)

/-- Blocks of a READ that have arrived in order: those up to the farthest that came through its end. -/
def State.blocksIn (s : State) (n : Nat) (w : Sweep) (r : ReadRun) : Nat :=
  let k := s.sats n
  let path := if r.endB == w.cmdB then 0 else if r.endB then 2 else 1
  (List.range r.count).foldl (fun m j =>
    if (satAt k r.endB (r.first + j)).any (fun i => (tfind w.got i).any (fun x => x.path == path)) then j + 1 else m) 0

/-- The next block of a READ is missing 10 us after its expected time (R302). -/
def State.blockLate (s : State) (n : Nat) (w : Sweep) (r : ReadRun) : Bool :=
  let j := s.blocksIn n w r
  j < r.count && r.sentAt + 5000 + w.blockTime * j + 10000 ≤ s.now

/-- The READ of a sweep from an end whose stream has broken off. -/
def State.lateRead (s : State) (n : Nat) (endB : Bool) : Option (Sweep × ReadRun) :=
  (s.port n).current.bind (fun w => (w.reads.find? (fun r => r.endB == endB && s.blockLate n w r)).map (fun r => (w, r)))

/-- The last satellite reachable from an end: that of the last block of a stream that broke off, else what the echoes
gave (R302). -/
def State.reachNow (s : State) (n : Nat) (endB : Bool) (echo : Option Nat) : Option Nat :=
  match s.lateRead n endB with
  | some (w, r) =>
    let j := s.blocksIn n w r
    if 0 < r.first + j then satAt (s.sats n) endB (r.first + j - 1) else none
  | none => echo

/-- Where a chain is broken: reach, count, event 0x0902, and the trip source (R302, R305). A module that has no partner, or
has marked it lost, reaches nothing from the far end (R272); a chain that every end held reaches whole is not broken. -/
def State.locate (s : State) (n : Nat) (lastA firstB : Option Nat) : State :=
  let p := s.port n
  let k := s.sats n
  let a := if s.canSend false then lastA else none
  let b := if s.canSend true then firstB else none
  let p1 : Port := { p with reachA := a, reachB := b, suspect := false, farDue := [] }
  let whole : Bool := (!(s.canSend false) || a == some (k - 1)) && (!(s.canSend true) || b == some 0)
  let s1 :=
    if whole then s.setPort n { p1 with chain := if p.chain = 3 then 2 else p.chain }
    else
      let p2 : Port := { p1 with wholeRun := 0, chain := if p1.reachedAll k then 2 else 3, broken := true }
      if p.broken && p.reachA == a && p.reachB == b then s.setPort n p2
      else (s.setPort n { p2 with breaks := satInc p.breaks }).event 0x0902 [n, a.getD 0x8000, b.getD 0x8000]
  s1.judgeTone n

/-- BLOCK_MISSING: a block is overdue, a command frame was not seen at the far end in time, or an end has left HEALTHY: the
break is located, by the blocks that arrived and by echoes, which the operands give. Satellites that latched are read from
the far end in the same sweep, as many as the free time allows (R302, R303). -/
def execBlockMissing (t : Nat) (port : Fin 16) (lastA firstB : Option Nat) (s : State) : Host.Outcome State Fault Refusal :=
  let s0 := s.tick t
  let n := port.val
  let p := s0.port n
  let suspected : Bool := p.suspect || p.farDue.any (fun f => f.due ≤ s0.now) || (s0.lateRead n false).isSome ||
    (s0.lateRead n true).isSome
  .next (
    if (s0.portPlan n).isNone || !p.ready || !s0.sweepMode || !s0.drivesChain || !suspected then s0
    else
      let s1 := s0.locate n (s0.reachNow n false lastA) (s0.reachNow n true firstB)
      let far := !s1.cmdEnd
      let s2 := match (s1.port n).current with
        | none => s1
        | some w =>
          let cnt := min ((s1.port n).readCount (s1.sats n) far) (s1.readRoom w)
          if (w.reads.any (fun r => r.endB == far)) || !w.readSent || w.closed || !s1.farHeld || !(s1.port n).broken then s1
          else s1.readFrom n far 0 cnt
      s2.reportPort p n)

/-- PROBE_SWEEP: four groups at four sweep instants of a port. -/
def execProbeSweep (rid : Nat) (s : State) : Host.Outcome State Fault Refusal :=
  .next (s.onReq rid 0x0405 (fun r =>
    let n := r.value
    let p := s.port n
    if (s.portPlan n).isNone then s.complete r stNotPresent
    else if p.probing then s.complete r stBusy
    else (s.setPort n { p with probing := true, probeSent := 0, probeRid := some rid }).running rid))

/-- CELL_SUBSCRIBE: raw sweeps, cell records, or aggregates of a port. -/
def execCellSubscribe (rid : Nat) (handle : BitVec 32) (s : State) : Host.Outcome State Fault Refusal :=
  .next (s.onReq rid 0x0406 (fun r =>
    s.subscribe r { handle := handle, opcode := 0x0406, ctx := bits r.aux.toNat 0 8, target := r.value
                    param := bits r.aux.toNat 8 16, content := bits r.aux.toNat 24 8 }))

end Sys2Proof.Machine
end

