-- ==== Sys2Proof/Machine/Sources.lean ====
section
/-! DEFINITION. Machine/Sources.lean: aggregate items and the sample and set-point sources that loops, string currents and
the contactor sequencer read (Table 7-8, Tables 9-6 to 9-8). -/

namespace Sys2Proof.Machine

/-! ### Aggregate items (R335, R337, R339) -/

/-- Bits of FLAGS of an aggregate item (Table 9-6). -/
def Agg.sopValid (a : Agg) : Bool := a.flags.getLsbD 0
def Agg.lost (a : Agg) : Bool := a.flags.getLsbD 5

def Quant.bytes (q : Quant) : List Byte :=
  u32 q.min.toNat ++ u32 q.max.toNat ++ u32 q.mean.toNat ++ u32 q.spread.toNat ++ u32 q.minCell.toNat ++
  u32 q.maxCell.toNat

/-- The 192 bytes of an item; `port` is 0xFF for the plant. -/
def Agg.bytes (a : Agg) (port : Nat) : List Byte :=
  u8 port ++ u8 a.flags.toNat ++ u16 a.validStrings ++ u32 a.sampled ++ u32 a.notSampled ++ u32 a.current.toNat ++
  a.volt.bytes ++ a.temp.bytes ++ a.soc.bytes ++ a.res.bytes ++ a.soh.bytes ++ a.sop.flatMap (fun w => u32 w.toNat) ++
  u8 a.contactor ++ zeros 7

/-- The items as published last before an instant (R334). -/
def State.pubs (s : State) (at_ : Nat) : PubSet :=
  let c := s.cells
  if s.before at_ c.pubNow then
    { cells := c.pub, agg := c.aggPub, good := c.aggGood, plant := c.plantPub, plantGood := c.plantGood }
  else c.pubOld

/-- The item as published last before an instant, of a port or of the plant. -/
def State.pubItem (s : State) (at_ port : Nat) (plant : Bool) : Agg :=
  if plant then (s.pubs at_).plant else tget (s.pubs at_).agg port { flags := 0x20 }

/-- The four words of a quantity block by number. -/
def Quant.word (q : Quant) : Nat → BitVec 32
  | 0 => q.min | 1 => q.max | 2 => q.mean | _ => q.spread

/-- A listed scalar code (Table 9-8). -/
def estCodeOk (c : Nat) : Bool := c ≤ 0x0E || (0x10 ≤ c && c < 0x1C)

/-- The scalar of a code (Table 9-8). -/
def Agg.scalar (a : Agg) (c : Nat) : BitVec 32 :=
  if c = 0 then a.current
  else if c ≤ 4 then a.volt.word (c - 1)
  else if c ≤ 8 then a.temp.word (c - 5)
  else if c ≤ 12 then a.soc.word (c - 9)
  else if c = 0x0D then a.res.max
  else if c = 0x0E then a.soh.min
  else a.sop[c - 0x10]?.getD 0

/-! ### Sources (Table 7-8, R244, R245) -/

def srcKind (w : BitVec 32) : Nat := bits w.toNat 24 8
def srcRef (w : BitVec 32) : Nat := bits w.toNat 0 24

/-- Value of an ESTIMATE source, and whether it is lost (R340). -/
def State.estSource (s : State) (at_ ref : Nat) : BitVec 32 × Bool :=
  let a := s.pubItem at_ (bits ref 0 4) (bit ref 4)
  let c := bits ref 8 8
  (a.scalar c, if 0x10 ≤ c then !a.sopValid else a.lost)

/-- Value of a VARIABLE source: the OUT word at the last harvest point, forced bytes at their forced value (R241). -/
def State.varSource (s : State) (ref : Nat) : BitVec 32 × Bool :=
  let task := bits ref 18 6
  let off := bits ref 0 18 * 4
  (BitVec.ofNat 32 (leNat (mread (s.task task).outForced off 4)), false)

/-- Value of a source at an instant, and whether its chapter declares it lost. PULSE_COUNT gives the count itself. A value
that came at the very instant belongs to the next one (R9). -/
def State.source (s : State) (at_ : Nat) (w : BitVec 32) : BitVec 32 × Bool :=
  let r := srcRef w
  match srcKind w with
  | 1 => (tget s.fio.fai (bits r 0 3) 0, s.fio.faiOver.getLsbD (bits r 0 3))
  | 2 => ((s.clAt (bits r 0 3) at_).ma, (s.clAt (bits r 0 3) at_).lost)
  | 3 => ((s.pulse (bits r 0 2)).freqAt at_, (s.pulse (bits r 0 2)).lost)
  | 4 => (ofInt32 ((s.pulse (bits r 0 2)).countAt at_), (s.pulse (bits r 0 2)).lost)
  | 5 => match s.ringVal at_ (bits r 0 16) with
    | some v => (v.value, v.lost)
    | none => (0, true)
  | 6 => s.estSource at_ r
  | 7 => s.varSource r
  | _ => (0, false)

/-- The channel of a FAST_AI, CL_IN or RING_C1 source is there and in the role it needs (R322, R343). -/
def State.sourceThere (s : State) (w : BitVec 32) : Bool :=
  let r := srcRef w
  match srcKind w with
  | 1 => r < 8
  | 2 => r < 8 && (s.cl r).isIn
  | 5 => r < 0x8000
  | _ => false

end Sys2Proof.Machine
end

