-- ==== Sys2Proof/Machine/Cells.lean ====
section
/-! DEFINITION. Machine/Cells.lean: the cell plan, chemistry tables, string current, the per-cell filter, capacity,
aggregates, state of power and publication (09_cell_estimation_and_dispatch.md). -/

namespace Sys2Proof.Machine

/-! ### Exponential of a negative rational, rounded once to binary32 (R320) -/

/-- Fixed-point Taylor sum of exp(-y): terms y^k / k! with P fractional bits, alternating. -/
def expTaylor (p y : Nat) : Nat → Nat → Nat → Int → Int
  | 0, _, _, acc => acc
  | n + 1, k, term, acc =>
    let next := term * y / 2 ^ p / (k + 1)
    expTaylor p y n (k + 1) next (if k % 2 = 0 then acc + term else acc - term)

/-- Square a fixed-point value n times. -/
def squareTimes (p : Nat) : Nat → Nat → Nat
  | 0, v => v
  | n + 1, v => squareTimes p n (v * v / 2 ^ p)

/-- exp(-n / d) with 512 fractional bits: the argument is divided by 256 first. -/
def expFixed (n d : Nat) : Nat :=
  let p := 512
  let y := n * 2 ^ p / d / 256
  squareTimes p 8 (expTaylor p y 120 0 (2 ^ p) 0).toNat

/-- exp(-dt / (r c)) rounded once to binary32; dt in ms, r and c positive and finite. -/
def alphaOf (dtMs : Nat) (r c : F) : F :=
  match (f32.decode r.toNat).mul (f32.decode c.toNat) with
  | .fin _ m e =>
    if m = 0 then f0
    else
      let num := dtMs * 2 ^ (-e).toNat
      let den := 1000 * m * 2 ^ e.toNat
      if 200 * den ≤ num then f0 else fw (f32.round false (expFixed num den) (-512) true)
  | _ => f0

/-! ### Chemistry tables (R317 to R320, Table 9-1) -/

def words (b : List Byte) (off n : Nat) : List F := (List.range n).map (fun i => rdW b (off + 4 * i))

def Chem.read (b : List Byte) : Chem :=
  { id := rd b 0 1, crc := crc32 b, capNom := rdW b 4, vMax := rdW b 8, vMin := rdW b 0xC, iChg := rdW b 0x10
    iDis := rdW b 0x14, tGrid := words b 0x18 8, resOhm := words b 0x38 8, resPol := words b 0x58 8
    capPol := words b 0x78 8, derChg := words b 0x98 8, derDis := words b 0xB8 8, qSoc := rdW b 0xD8, qPol := rdW b 0xDC
    qRes := rdW b 0xE0, measVar := rdW b 0xE4, socMin := rdW b 0xE8, socMax := rdW b 0xEC, probeVar := rdW b 0xF0
    anchorVar := rdW b 0xF4, dsocMin := rdW b 0xF8, capGain := rdW b 0xFC, ocv := words b 0x100 256 }

/-- Word i of a list of binary32 words. -/
def nth (l : List F) (i : Nat) : F := l[i]?.getD f0

/-- The conditions of R318, and the buffer's length and reserved bytes. -/
def chemOk (b : List Byte) : Bool :=
  let c := Chem.read b
  let pos (x : F) : Bool := flt f0 x
  let unit (x : F) : Bool := fle f0 x && fle x f1
  b.length == 1296 && rd b 0 1 < 8 && zeroAt b 1 3 && (words b 4 319).all (fun x => !(fbad x)) &&
  (List.range 7).all (fun i => flt (nth c.tGrid i) (nth c.tGrid (i + 1))) &&
  (List.range 31).all (fun j => (List.range 8).all (fun m => fle (nth c.ocv (8 * j + m)) (nth c.ocv (8 * j + 8 + m)))) &&
  (c.resOhm ++ c.resPol ++ c.capPol).all pos &&
  [c.capNom, c.iChg, c.iDis, c.measVar, c.probeVar, c.anchorVar].all pos && flt c.vMin c.vMax &&
  (c.derChg ++ c.derDis).all unit && fle f0 c.socMin && flt c.socMin c.socMax && fle c.socMax f1 &&
  fle 0x3D4CCCCD c.dsocMin && fle c.dsocMin f1 && unit c.capGain

/-- CHEM_LOAD: the table replaces the one of its number (R317). -/
def execChemLoad (rid : Nat) (s : State) : Host.Outcome State Fault Refusal :=
  .next (s.onReq rid 0x0401 (fun r =>
    let c := Chem.read r.buf
    let s1 := { s with cells := { s.cells with chems := tset s.cells.chems c.id c } }
    (s1.event 0x0A01 [c.id, c.crc.toNat]).complete r stOk))

/-- lerp of R320. -/
def lerp (a b w : F) : F := ffma w (fsub b a) a

/-- Grid position of a temperature: index and weight (R320). -/
def Chem.tpos (c : Chem) (t : F) : Nat × F :=
  let u := fmin (fmax t (nth c.tGrid 0)) (nth c.tGrid 7)
  let m := ((List.range 7).filter (fun i => fle (nth c.tGrid i) u)).getLast?.getD 0
  (m, fdiv (fsub u (nth c.tGrid m)) (fsub (nth c.tGrid (m + 1)) (nth c.tGrid m)))

/-- A per-point quantity at a position. -/
def at8 (l : List F) (p : Nat × F) : F := lerp (nth l p.1) (nth l (p.1 + 1)) p.2

def f31 : F := 0x41F80000
def f3600 : F := 0x45610000

/-- o(j) of R320. -/
def Chem.o (c : Chem) (p : Nat × F) (j : Nat) : F := lerp (nth c.ocv (8 * j + p.1)) (nth c.ocv (8 * j + p.1 + 1)) p.2

/-- ocv_lookup: value and slope. -/
def Chem.ocvAt (c : Chem) (p : Nat × F) (s : F) : F × F :=
  let u := fmul (fmin (fmax s f0) f1) f31
  let j := min (f32.toI64 false u.toNat).toNat 30
  let a := c.o p j
  let b := c.o p (j + 1)
  (lerp a b (fsub u (ofInt32 j)), fmul (fsub b a) f31)

/-- ALPHA per grid point for a step in ms. -/
def Chem.alphas (c : Chem) (ms : Nat) : List F := (List.range 8).map (fun m => alphaOf ms (nth c.resPol m) (nth c.capPol m))

/-! ### The cell plan (R309, R310, R321 to R324) -/

def PortPlan.read (b : List Byte) : PortPlan :=
  { port := rd b 0 1, store := bit (rd b 1 1) 0, sats := rd b 2 2, cellMask := BitVec.ofNat 16 (rd b 4 2)
    lastMask := BitVec.ofNat 16 (rd b 6 2), openDelay := rd b 8 2, cfg := slice b 0xC 32 }

def EstPlan.read (b : List Byte) : EstPlan :=
  { port := rd b 0 1, chem := rd b 1 1, place := rd b 2 1, iSrc := rdW b 4, iScale := rdW b 8, iOffset := rdW b 0xC
    capInit := rdW b 0x10, socInit := rdW b 0x14, curMax := rdW b 0x18 }

/-- Ports of a mask, ascending. -/
def maskPorts (m : Nat) : List Nat := (List.range 16).filter (bit m)

def planPorts (b : List Byte) : List Nat := maskPorts (rd b 8 2)

/-- Buffer of CELL_PLAN: its length, its reserved fields, and a PLANT_RULE that Table 9-2 lists (R321, R7). -/
def cellPlanOk (b : List Byte) : Bool :=
  let n := (planPorts b).length
  let e := 16 + 48 * n
  b.length == 48 + 80 * n && zeroAt b 0xA 6 &&
  (List.range n).all (fun i => let o := 16 + 48 * i
    rd b (o + 1) 1 < 2 && zeroAt b (o + 0xA) 2 && zeroAt b (o + 0x16) 2 && zeroAt b (o + 0x2A) 6) &&
  rd b e 1 < 2 && rd b (e + 3) 1 < 2 && zeroAt b (e + 4) 12 &&
  (List.range n).all (fun i => let o := e + 16 + 32 * i; zeroAt b (o + 3) 1 && zeroAt b (o + 0x1C) 4)

def CellPlan.read (b : List Byte) : CellPlan :=
  let n := (planPorts b).length
  let e := 16 + 48 * n
  { sweepPeriod := rd b 0 4, sweepPhase := rd b 4 4, portMask := BitVec.ofNat 16 (rd b 8 2)
    ports := (entriesOf 48 (slice b 16 (48 * n))).map PortPlan.read
    plantRule := rd b e 1, minValid := rd b (e + 1) 1, staleSweeps := rd b (e + 2) 1, thermHigh := bit (rd b (e + 3) 1) 0
    ests := (entriesOf 32 (slice b (e + 16) (32 * n))).map EstPlan.read }

/-- Ranges of a port entry (Tables 8-8, 8-16). -/
def PortPlan.rangeOk (p : PortPlan) (port : Nat) : Bool :=
  let t (i : Nat) : Int := sx 16 (rd p.cfg (4 + 2 * i) 2)
  p.port == port && 1 ≤ p.sats && p.sats ≤ 512 && 10 ≤ p.openDelay && p.openDelay ≤ 1000 &&
  10 ≤ rd p.cfg 0 2 && rd p.cfg 0 2 ≤ 2000 && 1 ≤ rd p.cfg 2 1 && 1 ≤ rd p.cfg 3 1 && rd p.cfg 3 1 ≤ 100 &&
  t 0 < t 1 && t 1 < t 2 && (List.range 4).all (fun i => rd p.cfg (0xE + 4 * i) 2 < rd p.cfg (0xC + 4 * i) 2)

/-- Ranges and source of an estimation entry (condition 5 of R322). -/
def State.estOk (s : State) (e : EstPlan) (port : Nat) : Bool :=
  e.port == port && e.chem < 8 && s.sourceThere e.iSrc && fle e.socInit f1

/-- Outcome of the plan's checks: status and RESULT of the first failure (R310, R322). -/
def State.planFails (s : State) (c : CellPlan) : Option (Nat × Nat) :=
  let ports := maskPorts c.portMask.toNat
  let first := ports.head?.getD 0
  let adm (k port : Nat) : Option (Nat × Nat) := some (stAdmission, k + port * 256)
  let most := c.ports.foldl (fun a p => max a p.sats) 0
  let ps := c.ports.zip ports
  let es := c.ests.zip ports
  if ports.any (fun n => !(s.bonded n)) || c.ests.any (fun e => s.cfg.variant.tiles < e.place) then
    some (stNotPresent, 0)
  else if c.sweepPeriod < 10 || 10000 < c.sweepPeriod || c.sweepPeriod * 1000 ≤ c.sweepPhase then adm 2 first
  else
    match ps.find? (fun (p, n) => !(p.rangeOk n)) with
    | some (_, n) => adm 2 n
    | none =>
      if c.sweepPeriod * 1000 < 3000 + 12 * most then
        adm 3 ((ps.find? (fun (p, _) => p.sats == most)).map (·.2) |>.getD first)
      else
        match ps.find? (fun (p, _) => rd p.cfg 0 2 < 4 * c.sweepPeriod) with
        | some (_, n) => adm 4 n
        | none =>
          if c.minValid < 1 || 16 < c.minValid || c.staleSweeps < 1 then adm 5 first
          else
            match es.find? (fun (e, n) => !(s.estOk e n)) with
            | some (_, n) => adm 5 n
            | none =>
              match es.find? (fun (e, _) => (tfind s.cells.chems e.chem).isNone) with
              | some (_, n) => adm 6 n
              | none => if (c.placed s.cfg.variant.tiles).any (fun x => 4096 < x.2) then adm 7 first else none

/-! ### String current (R325) -/

def State.estPlan (s : State) (n : Nat) : Option EstPlan := s.cells.plan.bind (fun c => c.ests.find? (fun e => e.port == n))

def State.setCur (s : State) (n : Nat) (c : Cur) : State := { s with cells := { s.cells with curs := tset s.cells.curs n c } }
def State.cur (s : State) (n : Nat) : Cur := tget s.cells.curs n {}

/-- Mean of the values latched since the last sample instant: the binary64 sum by the count, rounded once. -/
def Cur.mean (c : Cur) : F :=
  if c.cnt = 0 then f0 else fw (f32.divV (f64.decode c.sum.toNat) (.fin false c.cnt 0))

/-- A scaled value of a port's current latched at a module time: a sample instant closes the mean of its sweep and opens
the next; a whole multiple of 100 us counts in the mean; T + 4 000 us of a probe group is kept. -/
def State.latchCurrent (s : State) (n mt : Nat) (v : F) (lost : Bool) : State :=
  let c := s.cur n
  let p := s.port n
  let sweepAt : Bool := match s.cells.plan with | some q => q.isInstant mt | none => false
  let s1 :=
    if sweepAt then
      let upd (w : Sweep) : Sweep :=
        if w.mt = mt then { w with ia := c.mean, im := v, lost := w.noPrev || c.lost || lost || c.cnt = 0, trip := p.tripSrc != 0 }
        else w
      (s.setPort n { p with sweeps := p.sweeps.map upd }).setCur n { c with sum := 0, cnt := 0, lost := false }
    else
      let at4 (w : Sweep) : Bool := w.probe.isSome && w.mt + 4000000 == mt
      let s2 := s.setPort n { p with sweeps := p.sweeps.map (fun (w : Sweep) => if at4 w then { w with im4 := v } else w) }
      if p.sweeps.any at4 then s2.setCur n { c with lost := c.lost || lost } else s2
  if mt % 100000 = 0 then
    let d := s1.cur n
    s1.setCur n { d with sum := BitVec.ofNat 64 (f64.add d.sum.toNat (f64of v)), cnt := d.cnt + 1, lost := d.lost || lost }
  else s1

/-- CURRENT_LATCH: the lead latches and mirrors; a follower takes the mirrored values (R270). -/
def execCurrentLatch (t : Nat) (port : Fin 16) (s : State) : Host.Outcome State Fault Refusal :=
  let s0 := s.tick t
  let n := port.val
  .next (match s0.estPlan n, s0.cells.plan with
    | some e, some c =>
      let probe : Bool := (s0.port n).sweeps.any (fun w => w.probe.isSome && w.mt + 4000000 == s0.mt)
      if s0.modes.role == .follow || !s0.sweepMode || !(s0.mt % 100000 == 0 || c.isInstant s0.mt || probe) then s0
      else
        let (v, lost) := s0.source s0.mt e.iSrc
        let a := ffma e.iScale v e.iOffset
        let s1 := if s0.leadsPair then s0.emit (.mirror (.current n s0.mt a (lost || fbad v))) else s0
        s1.latchCurrent n s0.mt a (lost || fbad v)
    | _, _ => s0)

/-! ### The filter (R326 to R330, R332) -/

/-- What the filter takes of a chemistry table at a temperature. -/
structure Coef where
  pos : Nat × F
  alpha : F
  resPol : F
  resOhm : F
  deriving DecidableEq, Repr

def Chem.coef (c : Chem) (alphas : List F) (theta : F) : Coef :=
  let p := c.tpos theta
  { pos := p, alpha := at8 alphas p, resPol := at8 c.resPol p, resOhm := at8 c.resOhm p }

/-- Prediction over one sweep (R326); the accumulator takes the same charge (R332). -/
def Cell.predict (x : Cell) (c : Chem) (k : Coef) (ia dt : F) : Cell :=
  let q := fdiv (fmul ia dt) f3600
  { x with
    soc := fsub x.soc (fdiv q x.cap)
    vpol := ffma k.alpha x.vpol (fmul (fmul k.resPol (fsub f1 k.alpha)) ia)
    p00 := fadd x.p00 c.qSoc
    p01 := fmul k.alpha x.p01
    p11 := ffma (fmul k.alpha k.alpha) x.p11 c.qPol
    p12 := fmul k.alpha x.p12
    p22 := fadd x.p22 c.qRes
    qAcc := BitVec.ofNat 64 (f64.add x.qAcc.toNat (f64of q)) }

/-- The prediction over a gap of sweeps (R329), which also drops the anchor. -/
def Cell.predictGap (x : Cell) (c : Chem) (g : Nat) : Cell :=
  let gf := ofInt32 (min g 10000)
  { x with vpol := f0, p01 := f0, p12 := f0, p11 := 0x38D1B717, p00 := ffma gf c.qSoc x.p00, p22 := ffma gf c.qRes x.p22
           sAnchor := 0xBF800000 }

def f25 : F := 0x41C80000
def f01 : F := 0x3DCCCCCD

/-- The update with a measured voltage, or GATED (R326). -/
def Cell.update (x : Cell) (c : Chem) (k : Coef) (volt im : F) : Cell :=
  let (ocv, h0) := c.ocvAt k.pos x.soc
  let h2 := fneg im
  let e := fsub volt (ffma (fneg x.res) im (fsub ocv x.vpol))
  let ph0 := ffma h2 x.p02 (fsub (fmul h0 x.p00) x.p01)
  let ph1 := ffma h2 x.p12 (fsub (fmul h0 x.p01) x.p11)
  let ph2 := ffma h2 x.p22 (fsub (fmul h0 x.p02) x.p12)
  let sv := ffma h2 ph2 (fsub (ffma h0 ph0 c.measVar) ph1)
  let y :=
    if flt (fmul f25 sv) (fmul e e) then { x with gated := true }
    else
      let k0 := fdiv ph0 sv
      let k1 := fdiv ph1 sv
      let k2 := fdiv ph2 sv
      { x with
        soc := ffma k0 e x.soc, vpol := ffma k1 e x.vpol, res := ffma k2 e x.res
        p00 := ffma (fneg k0) ph0 x.p00, p01 := ffma (fneg k0) ph1 x.p01, p02 := ffma (fneg k0) ph2 x.p02
        p11 := ffma (fneg k1) ph1 x.p11, p12 := ffma (fneg k1) ph2 x.p12, p22 := ffma (fneg k2) ph2 x.p22 }
  { y with soc := fmin (fmax y.soc f0) f1
           res := fmin (fmax y.res (fmul f01 k.resOhm)) (fmul 0x41200000 k.resOhm) }

/-- Initialisation at the first sampled sweep (R327); SOH is CAP / CAP_NOM (Table 9-4). -/
def Cell.start (x : Cell) (c : Chem) (e : EstPlan) (k : Coef) (volt im : F) : Cell :=
  let r := k.resOhm
  let target := ffma r im volt
  let soc :=
    if fle f0 e.socInit then e.socInit
    else if fle target (c.o k.pos 0) then f0
    else if fle (c.o k.pos 31) target then f1
    else
      let j := ((List.range 31).find? (fun j => fle target (c.o k.pos (j + 1)))).getD 30
      let a := c.o k.pos j
      fdiv (fadd (ofInt32 j) (fdiv (fsub target a) (fsub (c.o k.pos (j + 1)) a))) f31
  let cap := if feq e.capInit f0 then c.capNom else e.capInit
  { x with
    res := r, vpol := f0, cap := cap, soh := fdiv cap c.capNom, soc := soc
    p00 := 0x3C23D70A, p11 := 0x38D1B717, p22 := fmul (fmul f01 r) (fmul f01 r), p01 := f0, p02 := f0, p12 := f0
    init := true }

/-- A probe's resistance measurement (R330). -/
def Cell.probed (x : Cell) (c : Chem) (rMeas : F) : Cell :=
  let e := fsub rMeas x.res
  let sv := fadd x.p22 c.probeVar
  if fle (fmul e e) (fmul f25 sv) then
    let k0 := fdiv x.p02 sv
    let k1 := fdiv x.p12 sv
    let k2 := fdiv x.p22 sv
    { x with
      soc := ffma k0 e x.soc, vpol := ffma k1 e x.vpol, res := ffma k2 e x.res
      p00 := ffma (fneg k0) x.p02 x.p00, p01 := ffma (fneg k0) x.p12 x.p01, p11 := ffma (fneg k1) x.p12 x.p11
      p02 := ffma (fneg k0) x.p22 x.p02, p12 := ffma (fneg k1) x.p22 x.p12, p22 := ffma (fneg k2) x.p22 x.p22 }
  else x

/-- Capacity and health after an update (R332); true when the capacity moved. -/
def Cell.anchor (x : Cell) (c : Chem) : Cell × Bool :=
  if !x.init || !(fle x.p00 c.anchorVar) then (x, false)
  else if flt x.sAnchor f0 then ({ x with sAnchor := x.soc, qAcc := 0 }, false)
  else
    let d := fsub x.sAnchor x.soc
    if fle c.dsocMin (fabs d) then
      let q := f64.div x.qAcc.toNat (f64of d)
      let y := { x with sAnchor := x.soc, qAcc := 0 }
      if !(feq x.sAnchor x.soc) && f64.lt 0 q then
        let cm := f32of q
        let lim := fmul 0x3CA3D70A x.cap
        let cap := fadd x.cap (fmin (fmax (fmul c.capGain (fsub cm x.cap)) (fmul 0xBCA3D70A x.cap)) lim)
        ({ y with cap := cap, soh := fdiv cap c.capNom }, true)
      else (y, false)
    else (x, false)

/-- Cell index of a cell (R312). -/
def cellIndex (port sat cell : Nat) : Nat := port * 8192 + sat * 16 + cell

/-- Temperature of a cell from a block, degrees C (R321). -/
def SatSample.theta (x : SatSample) (high : Bool) (cell : Nat) : F :=
  let a := x.temp0.toInt
  let b := x.temp1.toInt
  let t : Int := if high then max a b else if cell < 8 then a else b
  ofRat (decide (t < 0)) t.natAbs 100

/-- VOLT of a cell word, V. -/
def cellVolt (w : BitVec 32) : F :=
  let v := sx 24 (bits w.toNat 0 24)
  ofRat (decide (v < 0)) v.natAbs 1000000

/-- The probe measurement of a cell by the group of a sweep; none where its P1 word is not valid or the current moved
(R330). -/
def Sweep.rMeas (w : Sweep) (sat cell rBal : Nat) : Option F :=
  match w.probe, tfind w.got sat with
  | some g, some x =>
    if cell % 4 != g || x.state != 0 then none
    else
      match x.cells[cell]?, x.probe[2 * (cell / 4)]? with
      | some w0, some w1 =>
        let p1 := cellVolt w1
        let i := fdiv p1 (ofRat false rBal 1000)
        if w1.getLsbD 29 || !(flt f0 p1) || rBal = 0 || !(flt (fabs (fsub w.im w.im4)) (fdiv i 0x41200000)) then none
        else some (fdiv (fsub (cellVolt w0) p1) i)
      | _, _ => none
  | _, _ => none

/-- What the estimation of a cell needs of its string. -/
structure EstIn where
  chem : Chem
  plan : EstPlan
  alphas : List F
  dt : F
  high : Bool
  sw : Sweep
  prev : Option Sweep
  gap : Option Nat
  deriving DecidableEq, Repr

/-- The estimation of one connected cell: its sample, prediction, update or initialisation, probe and anchor. The flag
says whether its capacity moved. -/
def Cell.estimate (x : Cell) (a : EstIn) (sat cell rBal : Nat) : Cell × Bool :=
  let smp := tget a.sw.got sat {}
  let on : Bool := smp.state = 0
  let w := smp.cells[cell]?.getD 0
  let x1 : Cell :=
    if on then
      { x with sample := 0, path := smp.path, band := smp.band, limit := w.getLsbD 31 || w.getLsbD 30, open_ := w.getLsbD 29
               volt := cellVolt w, temp := smp.theta a.high cell, gated := false, cur := a.sw.im
               nsCount := if a.sw.lost then min 65535 (x.nsCount + 1) else 0 }
    else { x with sample := smp.state, volt := f0, gated := false, cur := a.sw.im, nsCount := min 65535 (x.nsCount + 1) }
  if a.sw.lost then ({ x1 with sAnchor := 0xBF800000 }, false)
  else
    let k := a.chem.coef a.alphas x1.temp
    if !x1.init then (if on then x1.start a.chem a.plan k x1.volt a.sw.im else x1, false)
    else
      let x2 := match a.gap with
        | some g => x1.predictGap a.chem g
        | none => x1.predict a.chem k a.sw.ia a.dt
      let x3 := if on then x2.update a.chem k x1.volt a.sw.im else x2
      let x4 := match a.prev.bind (fun v => v.rMeas sat cell rBal) with
        | some r => x3.probed a.chem r
        | none => x3
      if on then x4.anchor a.chem else (x4, false)

/-! ### Aggregates and state of power (R335 to R339) -/

/-- Sum in binary64 in the given order. -/
def sum64 (l : List F) : Nat := l.foldl (fun a x => f64.add a (f64of x)) 0

/-- A quantity block over cells in ascending index. -/
def quantOf (l : List (Nat × F)) : Quant :=
  match l with
  | [] => {}
  | (i, v) :: r =>
    let lo := r.foldl (fun (a : Nat × F) x => if flt x.2 a.2 then x else a) (i, v)
    let hi := r.foldl (fun (a : Nat × F) x => if flt a.2 x.2 then x else a) (i, v)
    { min := lo.2, max := hi.2
      mean := fw (f32.divV (f64.decode (sum64 (l.map (·.2)))) (.fin false l.length 0))
      spread := fsub hi.2 lo.2, minCell := BitVec.ofNat 32 lo.1, maxCell := BitVec.ofNat 32 hi.1 }

/-- Current limits of a cell for a horizon in s: ocv, av, den, discharge and charge (R336). -/
def Cell.limits (x : Cell) (c : Chem) (ahs : List F) (h : Nat) : F × F × F × F × F :=
  let p := c.tpos x.temp
  let ah := at8 ahs p
  let den := ffma (at8 c.resPol p) (fsub f1 ah) x.res
  let av := fmul ah x.vpol
  let (ocv, _) := c.ocvAt p x.soc
  let hf := ofInt32 h
  let id := fmin (fmin (fdiv (fsub (fsub ocv av) c.vMin) den)
    (fdiv (fmul (fmul (fsub x.soc c.socMin) x.cap) f3600) hf)) (fmul c.iDis (at8 c.derDis p))
  let ic := fmin (fmin (fdiv (fadd (fsub c.vMax ocv) av) den)
    (fdiv (fmul (fmul (fsub c.socMax x.soc) x.cap) f3600) hf)) (fmul c.iChg (at8 c.derChg p))
  (ocv, av, den, fmax id f0, fmax ic f0)

/-- The four SOP words of a string for a horizon. -/
def sopOf (c : Chem) (curMax : F) (h : Nat) (xs : List Cell) : List F :=
  let ahs := c.alphas (h * 1000)
  let ls := xs.map (fun x => x.limits c ahs h)
  match ls with
  | [] => [f0, f0, f0, f0]
  | _ :: _ =>
    let cap (i : F) : F := if feq curMax f0 then i else fmin i curMax
    let low (l : List F) : F := match l with | [] => f0 | a :: r => r.foldl fmin a
    let id := cap (low (ls.map (fun (_, _, _, d, _) => d)))
    let ic := cap (low (ls.map (fun (_, _, _, _, g) => g)))
    let sd := f32of (sum64 (ls.map (fun (o, a, n, _, _) => fsub (fsub o a) (fmul n id))))
    let sc := f32of (sum64 (ls.map (fun (o, a, n, _, _) => fadd (fsub o a) (fmul n ic))))
    [id, ic, fmax (fmul id sd) f0, fmax (fmul ic sc) f0]

/-- The item of a string from its connected cells. -/
def State.stringItem (s : State) (n : Nat) (plan : CellPlan) (e : EstPlan) (c : Chem) (w : Sweep)
    (xs : List (Nat × Cell)) : Agg :=
  let ini := xs.filter (fun x => x.2.init)
  let smp := xs.filter (fun x => x.2.sample == 0)
  let of (f : Cell → F) (l : List (Nat × Cell)) : Quant := quantOf (l.map (fun x => (x.1, f x.2)))
  let notInit := ini.length != xs.length
  let stale : Bool := xs.any (fun x => plan.staleSweeps ≤ x.2.nsCount)
  let valid := !notInit && !stale && !w.lost && !w.trip
  let lost := smp.isEmpty || w.lost
  { flags := BitVec.ofNat 8 (b2n valid + fld 1 1 (b2n w.lost) + fld 2 1 (b2n w.trip) + fld 3 1 (b2n stale) +
      fld 4 1 (b2n notInit) + fld 5 1 (b2n lost))
    sampled := smp.length, notSampled := xs.length - smp.length, current := w.ia
    volt := of (·.volt) (smp.filter (fun x => x.2.init)), temp := of (·.temp) ini, soc := of (·.soc) ini
    res := of (·.res) ini, soh := of (·.soh) ini
    sop := if valid then [2, 10, 60].flatMap (fun h => sopOf c e.curMax h (ini.map (·.2))) else List.replicate 12 f0
    contactor := match s.cells.conts.find? (fun k => k.plan.port == n && !k.leaving) with | some k => k.state | none => 0xFF
    sampleMt := w.mt, seq := w.seq }

/-- Connected cells of a port, satellite and cell, ascending. -/
def PortPlan.cells (p : PortPlan) : List (Nat × Nat) :=
  (List.range p.sats).flatMap (fun i => ((List.range 16).filter (fun c => (p.mask i).getLsbD c)).map (fun c => (i, c)))

def State.cell (s : State) (i : Nat) : Cell := tget s.cells.work i {}

/-- Estimate the closed sweep of a port (R326 to R332), with the event of each capacity change, then its item; what it gave waits for its
publication. -/
def State.estimateSweep (s : State) (n : Nat) (plan : CellPlan) (p : PortPlan) (e : EstPlan) (w : Sweep) : State :=
  let c := tget s.cells.chems e.chem {}
  let k := s.cur n
  let period := plan.sweepPeriod * 1000000
  let gap : Option Nat := if k.stepped then some 10000 else match k.lastEst with
    | some a => if a + period = w.mt then none else some ((w.mt - a) / period)
    | none => none
  let a : EstIn := {
    chem := c, plan := e, alphas := c.alphas plan.sweepPeriod, dt := ofRat false plan.sweepPeriod 1000
    high := plan.thermHigh, sw := w, prev := (s.port n).sweeps.find? (fun v => v.mt + period == w.mt && v.probe.isSome)
    gap := gap }
  let rb := (s.port n).rbal
  let res := p.cells.map (fun (i, j) =>
    let x := s.cell (cellIndex n i j)
    (cellIndex n i j, x, x.estimate a i j (tget rb i 0)))
  let work := res.foldl (fun t (i, _, y) => tset t i y.1) s.cells.work
  let s1 := { s with cells := { s.cells with work := work } }
  let s2 := res.foldl (fun st (i, x, y) => if y.2 then st.event 0x0A08 [i, x.cap.toNat, y.1.cap.toNat] else st) s1
  let gated := (res.filter (fun (_, _, y) => y.1.gated)).length
  let s3 := if gated = 0 then s2 else s2.event 0x0A09 [n, gated]
  let s4 := if w.lost && !k.episode then s3.event 0x0A06 [n] else if !w.lost && k.episode then s3.event 0x0A07 [n] else s3
  let s5 := s4.setCur n { s4.cur n with episode := w.lost, lastEst := if w.noPrev then k.lastEst else some w.mt,
                                          stepped := w.noPrev && k.stepped }
  let item := s5.stringItem n plan e c w (res.map (fun (i, _, y) => (i, y.1)))
  let cells : Tab Cell := res.foldl (fun (m : Tab Cell) (i, _, y) => tset m i y.1) []
  let done : EstDone := { mt := w.mt, seq := w.seq, port := n, cells := cells, item := item }
  { s5 with cells := { s5.cells with fin := done :: s5.cells.fin.filter (fun d => d.port != n || d.mt != w.mt) } }

/-- A tile that estimates satellites of a port switches its source (R517). -/
def State.portWaits (s : State) (p : PortPlan) : Bool :=
  match s.cells.plan with
  | some c => (List.range p.sats).any (fun i => (c.tileOf s.cfg.variant.tiles p.port i).any s.tileWaits)
  | none => false

/-- ESTIMATION, in modes in which sweeps run: the oldest sweep of a port that has not been estimated, closed first if blocks are still missing. -/
def execEstimation (t : Nat) (port : Fin 16) (s : State) : Host.Outcome State Fault Refusal :=
  let s0 := s.tick t
  let n := port.val
  .next (match s0.cells.plan, s0.portPlan n, s0.estPlan n with
    | some plan, some p, some e =>
      if !s0.sweepMode || s0.portWaits p then s0
      else match ((s0.port n).sweeps.filter (fun w => !w.estimated && w.mt < s0.mt)).getLast? with
      | none => s0
      | some w0 =>
        let s1 := s0.closeSweep n w0
        match (s1.port n).sweeps.find? (fun w => w.seq == w0.seq) with
        | none => s1
        | some w =>
          let s2 := s1.setPort n ((s1.port n).setSweep { w with estimated := true })
          s2.estimateSweep n plan p e w
    | _, _, _ => s0)

/-! ### Publication (R334, R337, R338, R350) -/

/-- STATE of a cell record (Table 9-5). -/
def Cell.stateByte (x : Cell) : Nat :=
  fld 7 1 (b2n x.open_) + fld 6 1 (b2n x.limit) + fld 5 1 (b2n x.gated) + fld 4 1 (b2n x.init) + fld 2 2 x.path +
  fld 0 2 x.sample

/-- The 64-byte record of a cell (Table 9-4). -/
def Cell.bytes (x : Cell) (i : Nat) : List Byte :=
  u32 i ++ u8 x.stateByte ++ u8 x.band ++ u16 x.nsCount ++
  [x.volt, x.temp, x.soc, x.vpol, x.res, x.cap, x.soh, x.cur, x.p00, x.p01, x.p02, x.p11, x.p12, x.p22].flatMap
    (fun w => u32 w.toNat)

/-- A cell of the plan in a publication; an unconnected cell keeps SAMPLE 3 (R333). -/
def PortPlan.cell (p : PortPlan) (pub : Tab Cell) (i j : Nat) : Cell :=
  if (p.mask i).getLsbD j then tget pub (cellIndex p.port i j) {} else { sample := 3 }

/-- Records of every cell of a port. -/
def PortPlan.items (p : PortPlan) (pub : Tab Cell) : List (List Byte) :=
  (List.range p.sats).flatMap (fun i => (List.range 16).map (fun j => (p.cell pub i j).bytes (cellIndex p.port i j)))

/-- Satellite item (Table 9-9). -/
def PortPlan.satItem (p : PortPlan) (pub : Tab Cell) (i : Nat) (high : F) : List Byte :=
  let xs := ((List.range 16).map (fun j => (j, p.cell pub i j))).filter (fun x => x.2.sample != 3)
  let v := quantOf ((xs.filter (fun x => x.2.sample == 0)).map (fun x => (x.1, x.2.volt)))
  let c := quantOf ((xs.filter (fun x => x.2.init)).map (fun x => (x.1, x.2.soc)))
  let q (k : Quant) : List Byte := u32 k.min.toNat ++ u32 k.max.toNat ++ u32 k.mean.toNat ++ u32 k.spread.toNat
  u16 i ++ u8 ((xs.filter (fun x => x.2.sample == 0)).length) ++ zeros 1 ++ q v ++ q c ++ u32 high.toNat ++ zeros 8

/-- Higher thermistor of a satellite in the sweep of a sample instant; of the last cells' temperatures otherwise. -/
def State.satTemp (s : State) (p : PortPlan) (i at_ : Nat) : F :=
  match ((s.port p.port).sweeps.find? (fun w => w.mt == at_)).bind (fun w => tfind w.got i) with
  | some x => x.theta true 0
  | none => fmax (p.cell s.cells.pub i 0).temp (p.cell s.cells.pub i 15).temp

/-- Plant words of R338: sums over valid strings, or the number of strings times the smallest. -/
def plantSop (rule : Nat) (items : List Agg) : List F :=
  (List.range 12).map (fun k =>
    let vs := items.map (fun a => nth a.sop k)
    if rule = 0 then f32of (sum64 ((items.filter (·.sopValid)).map (fun a => nth a.sop k)))
    else match vs with | [] => f0 | a :: r => fmul (ofInt32 vs.length) (r.foldl fmin a))

/-- The plant item over the strings' items and every connected cell of the plan. -/
def CellPlan.plantItem (c : CellPlan) (pub : Tab Cell) (at_ seq : Nat) (items : List (Nat × Agg)) : Agg :=
  let xs := c.ports.flatMap (fun p => p.cells.map (fun (i, j) =>
    (cellIndex p.port i j, tget pub (cellIndex p.port i j) {})))
  let as := items.map (·.2)
  let ini := xs.filter (fun x => x.2.init)
  let smp := xs.filter (fun x => x.2.sample == 0)
  let of (f : Cell → F) (l : List (Nat × Cell)) : Quant := quantOf (l.map (fun x => (x.1, f x.2)))
  let good := (as.filter (·.sopValid)).length
  let valid : Bool := if c.plantRule = 0 then c.minValid ≤ good else good == as.length && !as.isEmpty
  let any (b : Nat) : Bool := as.any (fun a => a.flags.getLsbD b)
  let lost : Bool := as.all (·.lost)
  { flags := BitVec.ofNat 8 (b2n valid + fld 1 1 (b2n (any 1)) + fld 2 1 (b2n (any 2)) + fld 3 1 (b2n (any 3)) +
      fld 4 1 (b2n (any 4)) + fld 5 1 (b2n lost))
    validStrings := good, sampled := smp.length, notSampled := xs.length - smp.length
    current := f32of (sum64 (as.map (·.current)))
    volt := of (·.volt) (smp.filter (fun x => x.2.init)), temp := of (·.temp) ini, soc := of (·.soc) ini
    res := of (·.res) ini, soh := of (·.soh) ini
    sop := if valid then plantSop c.plantRule as else List.replicate 12 f0, sampleMt := at_, seq := seq }

/-- A port of the plan that has no estimation for a sweep: its cells are not-sampled and its current is lost (R280). -/
def State.unswept (s : State) (c : CellPlan) (p : PortPlan) (at_ seq : Nat) : State :=
  match s.estPlan p.port with
  | none => s
  | some e =>
    s.estimateSweep p.port c p e { seq := seq, mt := at_, noPrev := true, lost := true, trip := (s.port p.port).tripSrc != 0
                                   closed := true, estimated := true }

/-- Digest of a sweep of a port: every cell record and the item published (Table 10-2). -/
def State.sweepDigest (s : State) (p : PortPlan) : BitVec 64 :=
  crc64 ((p.items s.cells.pub).flatten ++ (tget s.cells.aggPub p.port {}).bytes p.port)

/-- Digests go to the follower, or wait for the lead's (R361). -/
def State.digest (s : State) (k : DigestKind) (id : Nat) (v : BitVec 64) : State :=
  let s1 := { s with twin := { s.twin with digests := ((k, id, v) :: s.twin.digests).take 64 } }
  if s.leadsPair then s1.emit (.digest k id v) else s1

/-- Records of content 1 and 2 for a port at P(k) (R350). -/
def State.postEstimates (s : State) (p : PortPlan) (at_ seq : Nat) : State :=
  (s.subsOf 0x0406).foldl (fun st x =>
    if x.target != p.port || x.content = 0 || seq % x.param != 0 then st
    else if x.content = 1 then st.deliver x.handle at_ (p.items st.cells.pub)
    else st.deliver x.handle at_ ([(tget st.cells.aggPub p.port {}).bytes p.port, st.cells.plantPub.bytes 0xFF] ++
      (List.range p.sats).map (fun i => p.satItem st.cells.pub i (st.satTemp p i at_)))) s

/-- What the estimation of the sweep of an instant gave for a port. -/
def State.estDone (s : State) (at_ n : Nat) : Option EstDone := s.cells.fin.find? (fun d => d.mt == at_ && d.port == n)

/-- PUBLICATION: at P(k) = T(k) + SWEEP_PERIOD + 500 us every record, item and state of power of sweep k shows. -/
def execPublication (t : Nat) (s : State) : Host.Outcome State Fault Refusal :=
  let s0 := s.tick t
  .next (match s0.cells.plan with
    | none => s0
    | some c =>
      let at_ := s0.mt - c.sweepPeriod * 1000000 - 500000
      match s0.cells.fin.find? (fun d => d.mt == at_) with
      | none => s0
      | some d0 =>
        if !(c.isInstant at_) || at_ == s0.cells.lastPub || !s0.sweepMode then s0
        else
          let seq := d0.seq
          let s1 := c.ports.foldl (fun (st : State) p =>
            if (st.estDone at_ p.port).isSome then st else st.unswept c p at_ seq) s0
          let got := c.ports.filterMap (fun p => s1.estDone at_ p.port)
          let items := got.map (fun d => (d.port, d.item))
          let pub := got.foldl (fun (m : Tab Cell) d => d.cells.foldl (fun (m : Tab Cell) e => tset m e.1 e.2) m) s1.cells.pub
          let plant := c.plantItem pub at_ seq items
          let good := items.filter (fun x => !x.2.lost)
          let s2 := { s1 with cells := { s1.cells with
            pub := pub, fin := s1.cells.fin.filter (fun d => d.mt != at_ && s0.mt < d.mt + 4 * c.sweepPeriod * 1000000)
            aggPub := items
            aggGood := good.foldl (fun m x => tset m x.1 x.2) s1.cells.aggGood
            plantPub := plant, plantGood := if plant.lost then s1.cells.plantGood else some plant, lastPub := at_, pubNow := s0.now
            pubOld := if s0.cells.pubNow < s0.now then s0.pubs (s0.mt + 1) else s0.cells.pubOld
            sopStr := items.map (fun x => (x.1, x.2.sopValid)), sopPlant := plant.sopValid } }
          let s3 := items.foldl (fun st (n, a) =>
            let was := tget s0.cells.sopStr n false
            if a.sopValid && !was then st.event 0x0A03 [n]
            else if !a.sopValid && was then st.event 0x0A02 [n, a.flags.toNat] else st) s2
          let s4 := if plant.sopValid && !s0.cells.sopPlant then s3.event 0x0A05
            else if !plant.sopValid && s0.cells.sopPlant then s3.event 0x0A04 [plant.validStrings] else s3
          let s5 := c.ports.foldl (fun st p => st.digest .sweep p.port (st.sweepDigest p)) s4
          c.ports.foldl (fun st p => st.postEstimates p at_ seq) s5)

/-- Module time is stepped: sweeps under way end, no publication of the old time is due, and the next estimation of each
port is a gap (R521). -/
def State.stepSweeps (s : State) : State :=
  let s1 := (List.range 16).foldl (fun (st : State) n =>
    let st1 := st.closeOpen n
    st1.setPort n { st1.port n with sweeps := [] }) s
  { s1 with cells := { s1.cells with
      fin := [], lastPub := 0, seqMt := none, curs := tmap (fun _ (k : Cur) => { k with stepped := true }) s1.cells.curs } }

/-- CELL_COMMIT: every 10 s cell records and accumulators go to MRAM (R132). -/
def execCellCommit (t : Nat) (s : State) : Host.Outcome State Fault Refusal :=
  let s0 := s.tick t
  .next (
    if s0.now < s0.cells.lastCommit + 10000000000 then s0
    else { s0 with cells := { s0.cells with mram := s0.cells.work, lastCommit := s0.now } })

/-- CELL_READ: the record of a cell of the plan as published last before this instant (R334, R349). -/
def execCellRead (rid : Nat) (s : State) : Host.Outcome State Fault Refusal :=
  .next (s.onReq rid 0x0407 (fun r =>
    let i := bits r.value 0 17
    let n := i / 8192
    let k := i % 8192 / 16
    match s.portPlan n with
    | none => s.complete r stNotPresent
    | some p =>
      if p.sats ≤ k then s.complete r stNotPresent
      else s.complete r stOk (data := some ((p.cell (s.pubs s.mt).cells k (i % 16)).bytes i))))

end Sys2Proof.Machine
end

