-- ==== Sys2Proof/Machine/Contactors.lean ====
section
/-! DEFINITION. Machine/Contactors.lean: the contactor plan and its sequencer (R343 to R348). -/

namespace Sys2Proof.Machine

/-! ### The plan (R343, Table 9-12) -/

def Contactor.read (b : List Byte) : Contactor :=
  { port := rd b 0 1, preUsed := bit (rd b 1 1) 0, negUsed := bit (rd b 1 1) 1, preDo := rd b 2 1, posDo := rd b 3 1
    negDo := rd b 4 1, fbDi := rd b 5 1, req := rdW b 8, busSrc := rdW b 0xC, busScale := rdW b 0x10, matchV := rdW b 0x14
    preTime := rd b 0x18 4, overlap := rd b 0x1C 2, fbTime := rd b 0x1E 2, iOpen := rdW b 0x20, openWait := rd b 0x24 4 }

/-- Ranges and reserved fields of an entry. -/
def contactorOk (b : List Byte) : Bool :=
  let c := Contactor.read b
  let k := srcKind c.busSrc
  c.port < 16 && rd b 1 1 < 4 && (if c.preUsed then c.preDo < 16 else c.preDo == 0xFF) && c.posDo < 16 &&
  (if c.negUsed then c.negDo < 16 else c.negDo == 0xFF) && (c.fbDi < 32 || c.fbDi == 0xFF) && zeroAt b 6 2 &&
  (k == 1 || k == 2 || k == 5) && flt f0 c.matchV && 10 ≤ c.preTime && c.preTime ≤ 60000 && 10 ≤ c.overlap &&
  c.overlap ≤ 1000 && 10 ≤ c.fbTime && c.fbTime ≤ 1000 && c.openWait ≤ 60000 && zeroAt b 0x28 8

def contEntries (b : List Byte) : List (List Byte) := entriesOf 48 (slice b 16 (48 * rd b 0 2))

def contactorPlanOk (b : List Byte) : Bool :=
  rd b 0 2 ≤ 16 && b.length == 32 + 48 * rd b 0 2 && zeroAt b 2 14 && (contEntries b).all contactorOk

/-- Digital outputs that task bindings and safety functions name. -/
def State.doTaken (s : State) (n : Nat) : Bool :=
  (match s.prog.loaded with
    | some i => i.tasks.any (fun t => (t.binds.flatMap Bind.dests).contains (.dout n))
    | none => false) ||
  s.trip.fns.any (fun f => f.isDo && f.idx == n)

/-- Status of the first failing entry with its index. -/
def State.contFails (s : State) (cs : List Contactor) : Option (Nat × Nat) :=
  (cs.zipIdx.findSome? (fun (c, i) =>
    let before := cs.take i
    if (s.portPlan c.port).isNone || handleSpace c.req != 1 || !(s.varValid .read c.req 1) then some (stNotPresent, i)
    else if before.any (fun d => d.port == c.port) || !(distinct c.douts) ||
      c.douts.any (fun o => s.doTaken o || before.any (fun d => d.douts.contains o)) || !(s.sourceThere c.busSrc) then
      some (stAdmission, i)
    else none))

/-! ### Inputs of the sequencer (R344) -/

/-- V_STRING: the sum of VOLT, defined only when every connected cell was sampled in the sweep published last before an
instant. -/
def State.vString (s : State) (at_ n : Nat) : Option F :=
  match s.portPlan n with
  | none => none
  | some p =>
    let xs := p.cells.map (fun (i, j) => p.cell (s.pubs at_).cells i j)
    if xs.all (fun x => x.sample == 0) then some (f32of (sum64 (xs.map (·.volt)))) else none

/-- FB: the debounced auxiliary contact at an instant, if one is named. -/
def State.contFb (s : State) (at_ : Nat) (c : Contactor) : Option Bool :=
  if c.fbDi = 0xFF then none else some (s.diAt c.fbDi at_)

/-- Field inputs of the entries at a tick: V_BUS and FB of each, in the order of the plan. -/
def State.contInputs (s : State) (at_ : Nat) : List (BitVec 32 × Option Bool) :=
  s.cells.conts.map (fun k => (fmul k.plan.busScale (s.source at_ k.plan.busSrc).1, s.contFb at_ k.plan))

/-- The auxiliary contact reads closed, or none is named. -/
def fbClosed (fb : Option Bool) : Bool := fb != some false
def fbOpen (fb : Option Bool) : Bool := fb != some true

/-! ### Transitions (Tables 9-13, 9-14) -/

/-- The next state of an entry at a tick, from its V_BUS and FB, and the cause of an entry to FAULT; the first row that
applies. -/
def State.contNext (s : State) (at_ : Nat) (k : ContactorRun) (bus : BitVec 32) (fb : Option Bool) : Option (Nat × Nat) :=
  let c := k.plan
  let req : Bool := (s.varValue c.req 1).1 != 0
  let healthy : Bool := (s.port c.port).tripSrc == 0
  let item := s.pubItem at_ c.port false
  let past (ms : Nat) : Bool := k.since + ms * 1000000 ≤ at_
  let matched : Bool := match s.vString at_ c.port with | some v => fle (fabs (fsub bus v)) c.matchV | none => false
  let go (n : Nat) : Option (Nat × Nat) := some (n, 0)
  if 1 ≤ k.state && k.state ≤ 4 && !healthy then go 5
  else if (k.state == 1 || k.state == 2) && !req then go 5
  else
    match k.state with
    | 0 => if req && healthy && item.sopValid then go (if c.preUsed then 1 else 2) else none
    | 1 => if matched then go 2 else if past c.preTime then some (6, 1) else none
    | 2 => if past c.overlap && fbClosed fb then go 3 else if fb == some false && past c.fbTime then some (6, 2) else none
    | 3 => if !req then go 4 else none
    | 4 => if feq c.iOpen f0 || fle (fabs item.current) c.iOpen || past c.openWait then go 5 else none
    | 5 => if fbOpen fb then go 0 else if past c.fbTime then some (6, 3) else none
    | _ => if !req && fbOpen fb then go 0 else none

/-- Outputs of a state: precharge, positive, negative (Table 9-13). -/
def contOutputs : Nat → Bool × Bool × Bool
  | 1 => (true, false, true)
  | 2 => (true, true, true)
  | 3 => (false, true, true)
  | 4 => (false, true, true)
  | _ => (false, false, false)

/-- The sequencer's value for an output. -/
def State.contDrive (s : State) (n : Nat) (b : Option Bool) : State := s.setDo n { s.do_ n with cont := b }

/-- Drive the outputs of an entry by its state. -/
def State.contApply (s : State) (k : ContactorRun) : State :=
  let (pre, pos, neg) := contOutputs k.state
  let s1 := if k.plan.preUsed then s.contDrive k.plan.preDo (some pre) else s
  let s2 := s1.contDrive k.plan.posDo (some pos)
  if k.plan.negUsed then s2.contDrive k.plan.negDo (some neg) else s2

/-- Drive every entry's outputs, those of a plan that is leaving first; outputs of no entry are free. -/
def State.contOut (s : State) : State :=
  let named := s.cells.conts.flatMap (fun k => k.plan.douts)
  let s1 := (List.range 16).foldl (fun st n =>
    if named.contains n || (st.do_ n).cont.isNone then st else st.contDrive n none) s
  (s1.cells.conts.filter (·.leaving) ++ s1.cells.conts.filter (fun k => !k.leaving)).foldl State.contApply s1

/-- An entry moves to a state at an instant, with its events (R345). -/
def State.contMove (s : State) (at_ : Nat) (k : ContactorRun) (n cause : Nat) : ContactorRun × State :=
  let s1 := if k.state = n then s else s.event 0x0A0A [k.plan.port, k.state, n]
  ({ k with state := n, since := at_ }, if n = 6 then s1.event 0x0A0B [k.plan.port, cause] else s1)

/-- The state in which an entry starts at a restart instant (R346). -/
def State.contStart (s : State) (at_ : Nat) (c : Contactor) : ContactorRun :=
  { plan := c, state := if (s.do_ c.posDo).readback && fbClosed (s.contFb at_ c) then 3 else 0, since := at_ }

/-- The lead tells its follower the states in which its entries stand: a follower does not use its own inputs (R344). -/
def State.tellConts (s : State) : State :=
  if s.leadsPair then s.emit (.mirror (.contStates (s.cells.conts.map (fun (k : ContactorRun) => k.state)))) else s

/-- The lead's entries stand in these states. -/
def State.toldConts (s : State) (states : List Nat) : State :=
  if s.cells.conts.length != states.length then s
  else
    ({ s with cells := { s.cells with
      conts := s.cells.conts.zipWith (fun (k : ContactorRun) n => { k with state := n }) states } }).contOut

/-- At a restart instant every entry starts anew; entries that were leaving are gone (R346). -/
def State.contRestart (s : State) : State :=
  let ks := (s.cells.conts.filter (fun k => !k.leaving)).map (fun k => (k, s.contStart s.mt k.plan))
  let s1 := ks.foldl (fun (st : State) (k, n) => if k.state = n.state then st else st.event 0x0A0A [k.plan.port, k.state, n.state]) s
  { s1 with cells := { s1.cells with conts := ks.map (fun (x : ContactorRun × ContactorRun) => x.2) } }.contOut.tellConts

/-- Same contactors: the entry keeps its state (R347). -/
def sameContactor (a b : Contactor) : Bool :=
  a.port == b.port && a.preDo == b.preDo && a.posDo == b.posDo && a.negDo == b.negDo

/-- A new plan takes effect in RUN at a tick: kept entries, new ones, and the others releasing (R347). -/
def State.contSwap (s : State) (at_ : Nat) (cs : List Contactor) (crc : BitVec 32) : State :=
  let old := s.cells.conts
  let fresh := cs.map (fun c =>
    match old.find? (fun k => !k.leaving && sameContactor k.plan c) with
    | some k => { k with plan := c }
    | none => s.contStart at_ c)
  let gone := old.filter (fun k => k.leaving || !(cs.any (fun c => sameContactor k.plan c)))
  let (left, s1) := gone.foldl (fun (acc : List ContactorRun × State) k =>
    if k.leaving then (acc.1 ++ [k], acc.2)
    else
      let (k', st) := acc.2.contMove at_ k 5 0
      (acc.1 ++ [{ k' with leaving := true }], st)) ([], s)
  ({ s1 with cells := { s1.cells with conts := fresh ++ left, contCrc := crc } }).tellConts.event 0x0A0C [crc.toNat]

/-- A plan takes effect outside RUN: at acceptance (R347). -/
def State.contTake (s : State) (cs : List Contactor) (crc : BitVec 32) : State :=
  (({ s with cells := { s.cells with conts := cs.map (s.contStart s.mt), contCrc := crc } }).contOut.tellConts).event 0x0A0C [crc.toNat]

/-- CONTACTOR_PLAN. -/
def execContactorPlan (rid : Nat) (s : State) : Host.Outcome State Fault Refusal :=
  .next (s.onReq rid 0x0404 (fun r =>
    let cs := (contEntries r.buf).map Contactor.read
    match s.contFails cs with
    | some (st, i) => s.complete r st i
    | none =>
      if s.modes.mode == .run then
        ({ s with cells := { s.cells with contWait := s.cells.contWait ++ [(rid, s.accMt r, crc32 r.buf, cs)] } }).running rid
      else (s.contTake cs (crc32 r.buf)).complete r stOk s.mt))

/-- Plans that wait take effect at a tick, 50 us after their acceptance, and their commands complete. -/
def State.contDue (s : State) (at_ : Nat) : State :=
  let due := s.cells.contWait.filter (fun (_, acc, _, _) => acc + 50000 ≤ at_)
  due.foldl (fun (st : State) (rid, _, crc, cs) =>
    let st1 := st.contSwap at_ cs crc
    match st1.findReq rid with
    | some r => if r.opcode == 0x0404 then st1.complete r stOk at_ else st1
    | none => st1) { s with cells := { s.cells with contWait := s.cells.contWait.filter (fun (_, acc, _, _) => at_ < acc + 50000) } }

/-- Plans that still wait at a hold instant take effect there. -/
def State.contHold (s : State) : State :=
  s.cells.contWait.foldl (fun (st : State) (rid, _, crc, cs) =>
    let st1 := st.contTake cs crc
    match st1.findReq rid with
    | some r => if r.opcode == 0x0404 then st1.complete r stOk st1.mt else st1
    | none => st1) { s with cells := { s.cells with contWait := [] } }

/-- A tick of the sequencer on the inputs of its instant: every entry is evaluated and its outputs driven (R344, R345). -/
def State.contRun (s : State) (at_ : Nat) (ins : List (BitVec 32 × Option Bool)) : State :=
  let (ks, s1) := (s.cells.conts.zip ins).foldl
    (fun (acc : List ContactorRun × State) (k, bus, fb) =>
      match acc.2.contNext at_ k bus fb with
      | none => (acc.1 ++ [k], acc.2)
      | some (n, cause) =>
        let (k', st) := acc.2.contMove at_ k n cause
        (acc.1 ++ [k'], st)) ([], s)
  ({ s1 with cells := { s1.cells with conts := ks.filter (fun k => !(k.leaving && k.state == 0)) } }).contOut

/-- The lead's tick in its follower: the same plans, and the inputs that the lead took (R344). -/
def State.contTold (s : State) (at_ : Nat) (ins : List (BitVec 32 × Option Bool)) : State :=
  if s.modes.mode != .run then s else (s.contDue at_).contRun at_ ins

/-! ### The cell plan takes effect (R310, R324) -/

/-- A new cell plan clears the contactor plan: its outputs are released, and the commands of plans that waited complete at
this instant (R343; log 104). -/
def State.contGone (s : State) (waits : List (Nat × Nat × BitVec 32 × List Contactor)) : State :=
  waits.foldl (fun (st : State) w =>
    match st.findReq w.1 with
    | some r => if r.opcode == 0x0404 then st.complete r stOk st.mt else st
    | none => st) s.contOut

/-- What a new cell plan does at a port: its sweeps end, balancing stops and its plans complete, a probe sweep of a port that
left ends, and the chain is enumerated where the plan or a command asks for it (R289, R310, R311; log 104). -/
def State.planPort (s : State) (n : Nat) : State :=
  let p := s.port n
  let s1 := s.setPort n { p with
    balPlan := none, balWait := [], balActive := false, balOn := [], balTodo := [], balPhased := []
    stopEnds := if p.balActive then s.castEnds n else p.stopEnds, sweeps := [], ready := false
    enumerating := false, broken := false, chain := 0, reachA := none, reachB := none }
  let s2 := p.balWait.foldl (fun (x : State) b => x.balDone b.rid 0) s1
  let s3 := match p.balPlan with | some b => if p.balTodo.isEmpty then s2 else s2.balDone b.rid 0 | none => s2
  let s4 := if (s3.portPlan n).isSome then s3 else s3.probeGone n
  if (s4.portPlan n).isSome || p.enumRid.isSome then s4.startEnum n none else s4.judgeTone n

/-- A plan takes effect: cell records and accumulators reset, balancing and contactor plans cleared with their
outputs released, loads set, and every port enumerated (R310, R324, R289, R343). -/
def State.applyPlan (s : State) (c : CellPlan) : State :=
  let loads := c.placed s.cfg.variant.tiles
  let waits := s.cells.contWait
  let s1 := { s with cells := { plan := some c, chems := s.cells.chems, lastCommit := s.cells.lastCommit } }
  let s3 := (List.range 16).foldl State.planPort s1
  (s3.contGone waits).event 0x0A00 [c.ports.length, loads.foldl (fun a x => max a x.2) 0]

/-- CELL_PLAN. -/
def execCellPlan (rid : Nat) (s : State) : Host.Outcome State Fault Refusal :=
  .next (s.onReq rid 0x0400 (fun r =>
    let c := CellPlan.read r.buf
    match s.planFails c with
    | some (st, res) => s.complete r st res
    | none => (s.applyPlan c).complete r stOk))

end Sys2Proof.Machine
end

