-- ==== Sys2Proof/Machine/CycleCore.lean ====
section
/-! DEFINITION. Machine/CycleCore.lean: the cycle-core instructions, one meaning each (06_cycle_instruction_set.md). -/

namespace Sys2Proof.Machine

/-! ### Shapes of effect -/

/-- rd := f rs1 rs2. -/
def alu (f : FmtA) (op : BitVec 64 → BitVec 64 → BitVec 64) (_ : Env) (c : Cyc) : CoreRes :=
  .ok (c.setReg f.rd (op (c.reg f.rs1) (c.reg f.rs2))).next

/-- rd := f rd rs1 rs2. -/
def alu3 (f : FmtA) (op : BitVec 64 → BitVec 64 → BitVec 64 → BitVec 64) (_ : Env) (c : Cyc) : CoreRes :=
  .ok (c.setReg f.rd (op (c.reg f.rd) (c.reg f.rs1) (c.reg f.rs2))).next

/-- pd := f rs1 rs2. -/
def cmp (f : FmtA) (op : BitVec 64 → BitVec 64 → Bool) (_ : Env) (c : Cyc) : CoreRes :=
  .ok (c.setPred f.rd.toNat (op (c.reg f.rs1) (c.reg f.rs2))).next

/-- pd := f ps1 ps2. -/
def predOp (f : FmtA) (op : Bool → Bool → Bool) (_ : Env) (c : Cyc) : CoreRes :=
  .ok (c.setPred f.rd.toNat (op (c.pred f.rs1.toNat) (c.pred f.rs2.toNat))).next

/-- A division: 0 and the sticky DIV_ZERO bit for a zero divisor, no trap (R204). -/
def divOp (f : FmtA) (op : BitVec 64 → BitVec 64 → BitVec 64) (_ : Env) (c : Cyc) : CoreRes :=
  if c.reg f.rs2 = 0 then
    .ok { ((c.setReg f.rd 0).next) with divZero := true, divZeroPc := if c.divZero then c.divZeroPc else c.pc }
  else .ok (c.setReg f.rd (op (c.reg f.rs1) (c.reg f.rs2))).next

/-- rd := f rd IMM. -/
def immOp (f : FmtI) (op : BitVec 64 → BitVec 16 → BitVec 64) (_ : Env) (c : Cyc) : CoreRes :=
  .ok (c.setReg f.rd (op (c.reg f.rd) f.imm)).next

/-- A binary32 operand is bits 31:0; a result is written with the upper half 0 (R206). -/
def fpArg (d : Bool) (v : BitVec 64) : Nat := if d then v.toNat else v.toNat % 2 ^ 32
def fpRes (n : Nat) : BitVec 64 := BitVec.ofNat 64 n

/-- rd := f rs1 rs2 in the format. -/
def fp2 (d : Bool) (f : FmtA) (op : Fmt → Nat → Nat → Nat) : Env → Cyc → CoreRes :=
  alu f (fun a b => fpRes (op (Fmt.ofD d) (fpArg d a) (fpArg d b)))

/-- rd := f rs1 in the format. -/
def fp1 (d : Bool) (f : FmtA) (op : Fmt → Nat → Nat) : Env → Cyc → CoreRes :=
  alu f (fun a _ => fpRes (op (Fmt.ofD d) (fpArg d a)))

/-- pd := f rs1 rs2 in the format. -/
def fpCmp (d : Bool) (f : FmtA) (op : Fmt → Nat → Nat → Bool) : Env → Cyc → CoreRes :=
  cmp f (fun a b => op (Fmt.ofD d) (fpArg d a) (fpArg d b))

/-- Signed minimum and maximum (Table 6-3). -/
def smin (a b : BitVec 64) : BitVec 64 := if b.slt a then b else a
def smax (a b : BitVec 64) : BitVec 64 := if a.slt b then b else a

/-- High 64 bits of a signed and of an unsigned product (Table 6-3). -/
def mulHigh (a b : BitVec 64) : BitVec 64 := BitVec.ofInt 64 (a.toInt * b.toInt / 2 ^ 64)
def mulHighU (a b : BitVec 64) : BitVec 64 := BitVec.ofNat 64 (a.toNat * b.toNat / 2 ^ 64)

/-- Signed quotient toward zero and its remainder (Table 6-3, R204). -/
def divS (a b : BitVec 64) : BitVec 64 := BitVec.ofInt 64 (a.toInt.tdiv b.toInt)
def remS (a b : BitVec 64) : BitVec 64 := BitVec.ofInt 64 (a.toInt.tmod b.toInt)

/-- Shift amount of a register: its low six bits. -/
def shAmt (b : BitVec 64) : Nat := b.toNat % 64

/-- Position and length of a bit field (R205). -/
def bfPos (v : BitVec 64) : Nat := bits v.toNat 0 6
def bfLen (v : BitVec 64) : Nat := min (bits v.toNat 8 7) (64 - bfPos v)

def bfExtract (a b : BitVec 64) : BitVec 64 := BitVec.ofNat 64 (bits a.toNat (bfPos b) (bfLen b))

def bfExtractS (a b : BitVec 64) : BitVec 64 :=
  if bfLen b = 0 then 0 else BitVec.ofInt 64 (sx (bfLen b) (bits a.toNat (bfPos b) (bfLen b)))

def bfInsert (rd a b : BitVec 64) : BitVec 64 :=
  let p := bfPos b
  let l := bfLen b
  BitVec.ofNat 64 (rd.toNat - bits rd.toNat p l * 2 ^ p + bits a.toNat 0 l * 2 ^ p)

/-- Replace 16 bits of a register (LIH1 to LIH3, Table 6-6). -/
def putHalf (k : Nat) (rd : BitVec 64) (i : BitVec 16) : BitVec 64 :=
  BitVec.ofNat 64 (rd.toNat - bits rd.toNat (16 * k) 16 * 2 ^ (16 * k) + i.toNat * 2 ^ (16 * k))

/-- Target of a branch: its own offset plus four times OFFSET (R212). -/
def target (c : Cyc) (off : BitVec 20) : Nat := twos 64 ((c.pc : Int) + 4 * off.toInt)

/-- Store a value at a new top of the stack: g30 goes down by 8; a bad g30 traps (R213). -/
def push (e : Env) (c : Cyc) (v : Nat) : CoreRes :=
  let sp := (c.reg 30).toNat
  if sp % 8 ≠ 0 ∨ sp < 8 ∨ e.d.stkSize < sp then .trap 3
  else .ok ((c.setReg 30 (BitVec.ofNat 64 (sp - 8))).store 6 (sp - 8) (leBytes 8 v))

/-- Take the value at the top of the stack into the program counter (R213). -/
def popPc (e : Env) (c : Cyc) : CoreRes :=
  let sp := (c.reg 30).toNat
  if sp % 8 ≠ 0 ∨ e.d.stkSize < sp + 8 then .trap 3
  else .ok { c.setReg 30 (BitVec.ofNat 64 (sp + 8)) with pc := leNat (mread c.sp.stk sp 8) }

/-- Task status words (Table 6-9). -/
def tsrValue (e : Env) (c : Cyc) (sel : Nat) : Nat :=
  match sel with
  | 0 => c.start
  | 1 => e.d.period * 10000
  | 2 => c.n
  | 3 => b2n (c.divZero || e.tk.fault.getLsbD 0)
  | 4 => e.n
  | 5 => c.start + e.d.harvest * 10000
  | 6 => e.s.prog.startMt
  | _ => e.s.prog.startKind

/-! ### Timer and edge records (R217 to R220) -/

/-- A record's start, preset and state bits (Tables 6-11, 6-12). -/
structure TRec where
  start : Nat := 0
  preset : Nat := 0
  kind : Nat := 0
  exp : Bool := false
  arm : Bool := false
  mem : Bool := false
  run : Bool := false
  q : Bool := false
  deriving DecidableEq, Repr

def TRec.read (b : List Byte) : TRec :=
  let w := rd b 0x18 8
  { start := rd b 8 8, preset := rd b 0x10 8, kind := bits w 8 8, exp := bit w 4, arm := bit w 3, mem := bit w 2
    run := bit w 1, q := bit w 0 }

/-- Bytes 0x08 to 0x1F of a record, reserved bits written back as 0. -/
def TRec.bytes (r : TRec) : List Byte :=
  u64 r.start ++ u64 r.preset ++
  u64 (fld 8 8 r.kind + fld 4 1 (b2n r.exp) + fld 3 1 (b2n r.arm) + fld 2 1 (b2n r.mem) + fld 1 1 (b2n r.run) + b2n r.q)

/-- Elapsed time, modulo 2^64, has reached PRESET (R219). -/
def TRec.due (r : TRec) (now : Nat) : Bool := r.preset ≤ (now + 2 ^ 64 - r.start) % 2 ^ 64

def tonStep (now : Nat) (i : Bool) (r : TRec) : TRec :=
  if !i then { r with run := false, q := false, exp := false, mem := i }
  else
    let r1 := if !r.mem then { r with start := now, run := true, q := false, exp := false } else r
    let r2 := if r1.run && r1.due now then { r1 with q := true, run := false, exp := true } else r1
    { r2 with mem := i }

def tofStep (now : Nat) (i : Bool) (r : TRec) : TRec :=
  if i then { r with q := true, run := false, exp := false, mem := i }
  else
    let r1 := if r.mem then { r with start := now, run := true, exp := false } else r
    let r2 := if r1.run && r1.due now then { r1 with q := false, run := false, exp := true } else r1
    { r2 with mem := i }

def tpStep (now : Nat) (i : Bool) (r : TRec) : TRec :=
  let r1 := if i && !r.mem && !r.run then { r with start := now, run := true, q := true, exp := false } else r
  let r2 := if r1.run && r1.due now then { r1 with q := false, run := false, exp := true } else r1
  let r3 := if !i && !r2.run then { r2 with exp := false } else r2
  { r3 with mem := i }

def rtrigStep (_ : Nat) (i : Bool) (r : TRec) : TRec :=
  if r.arm then { r with q := false, arm := false, mem := i } else { r with q := i && !r.mem, mem := i }

def ftrigStep (_ : Nat) (i : Bool) (r : TRec) : TRec :=
  if r.arm then { r with q := false, arm := false, mem := i } else { r with q := r.mem && !i, mem := i }

/-- Address of a record (R217). -/
def tAddr (c : Cyc) (f : FmtT) : Nat := ((c.reg (f.ibase.zeroExtend 5)).toNat + 32 * f.index.toNat) % 2 ^ 64

/-- A timer or edge instruction of a kind: SPACE trap, kind mismatch, the step, and its output predicate. -/
def timerOp (kind : Nat) (stepf : Nat → Bool → TRec → TRec) (f : FmtT) (e : Env) (c : Cyc) : CoreRes :=
  let a := tAddr c f
  if a % 32 ≠ 0 ∨ e.d.instSize < a + 32 then .trap 1
  else
    let r := TRec.read (mread c.sp.inst a 32)
    if r.kind ≠ kind then .trap 2
    else
      let r' := stepf c.start (c.pred f.ps.toNat) r
      .ok ((c.store 5 (a + 8) r'.bytes).setPred f.dst.toNat r'.q).next

/-- Elapsed time of a timer record (R220). -/
def TRec.elapsed (r : TRec) (now : Nat) : Nat :=
  if r.run then min ((now + 2 ^ 64 - r.start) % 2 ^ 64) r.preset else if r.exp then r.preset else 0

def tetOp (f : FmtT) (e : Env) (c : Cyc) : CoreRes :=
  let a := tAddr c f
  if a % 32 ≠ 0 ∨ e.d.instSize < a + 32 then .trap 1
  else
    let r := TRec.read (mread c.sp.inst a 32)
    if r.kind < 1 ∨ 3 < r.kind then .trap 2
    else .ok (c.setReg f.dst (BitVec.ofNat 64 (r.elapsed c.start))).next

/-! ### Integer instructions (Table 6-3) -/

/-- ADD: rd := rs1 + rs2. -/
def execAdd (task : Fin 64) (f : FmtA) (s : State) : Host.Outcome State Fault Refusal :=
  .next (s.core task (encA f 0x000#10) (alu f (fun a b => a + b)))

/-- SUB: rd := rs1 - rs2. -/
def execSub (task : Fin 64) (f : FmtA) (s : State) : Host.Outcome State Fault Refusal :=
  .next (s.core task (encA f 0x001#10) (alu f (fun a b => a - b)))

/-- MUL: low 64 bits of the product. -/
def execMul (task : Fin 64) (f : FmtA) (s : State) : Host.Outcome State Fault Refusal :=
  .next (s.core task (encA f 0x002#10) (alu f (fun a b => a * b)))

/-- MULH: high 64 bits, signed by signed. -/
def execMulh (task : Fin 64) (f : FmtA) (s : State) : Host.Outcome State Fault Refusal :=
  .next (s.core task (encA f 0x003#10) (alu f mulHigh))

/-- MULHU: high 64 bits, unsigned. -/
def execMulhu (task : Fin 64) (f : FmtA) (s : State) : Host.Outcome State Fault Refusal :=
  .next (s.core task (encA f 0x004#10) (alu f mulHighU))

/-- DIV: signed, toward zero (R204). -/
def execDiv (task : Fin 64) (f : FmtA) (s : State) : Host.Outcome State Fault Refusal :=
  .next (s.core task (encA f 0x005#10) (divOp f divS))

/-- DIVU: unsigned (R204). -/
def execDivu (task : Fin 64) (f : FmtA) (s : State) : Host.Outcome State Fault Refusal :=
  .next (s.core task (encA f 0x006#10) (divOp f (fun a b => a / b)))

/-- REM: the sign follows rs1 (R204). -/
def execRem (task : Fin 64) (f : FmtA) (s : State) : Host.Outcome State Fault Refusal :=
  .next (s.core task (encA f 0x007#10) (divOp f remS))

/-- REMU: unsigned (R204). -/
def execRemu (task : Fin 64) (f : FmtA) (s : State) : Host.Outcome State Fault Refusal :=
  .next (s.core task (encA f 0x008#10) (divOp f (fun a b => a % b)))

/-- MIN: the smaller, signed. -/
def execMin (task : Fin 64) (f : FmtA) (s : State) : Host.Outcome State Fault Refusal :=
  .next (s.core task (encA f 0x009#10) (alu f smin))

/-- MAX: the larger, signed. -/
def execMax (task : Fin 64) (f : FmtA) (s : State) : Host.Outcome State Fault Refusal :=
  .next (s.core task (encA f 0x00A#10) (alu f smax))

/-- AND. -/
def execAnd (task : Fin 64) (f : FmtA) (s : State) : Host.Outcome State Fault Refusal :=
  .next (s.core task (encA f 0x010#10) (alu f (fun a b => a &&& b)))

/-- OR. -/
def execOr (task : Fin 64) (f : FmtA) (s : State) : Host.Outcome State Fault Refusal :=
  .next (s.core task (encA f 0x011#10) (alu f (fun a b => a ||| b)))

/-- XOR. -/
def execXor (task : Fin 64) (f : FmtA) (s : State) : Host.Outcome State Fault Refusal :=
  .next (s.core task (encA f 0x012#10) (alu f (fun a b => a ^^^ b)))

/-- ANDN: rs1 and not rs2. -/
def execAndn (task : Fin 64) (f : FmtA) (s : State) : Host.Outcome State Fault Refusal :=
  .next (s.core task (encA f 0x013#10) (alu f (fun a b => a &&& ~~~b)))

/-- SHL: by rs2 and 63. -/
def execShl (task : Fin 64) (f : FmtA) (s : State) : Host.Outcome State Fault Refusal :=
  .next (s.core task (encA f 0x014#10) (alu f (fun a b => a <<< shAmt b)))

/-- SHR: zero fill. -/
def execShr (task : Fin 64) (f : FmtA) (s : State) : Host.Outcome State Fault Refusal :=
  .next (s.core task (encA f 0x015#10) (alu f (fun a b => a >>> shAmt b)))

/-- SAR: sign fill. -/
def execSar (task : Fin 64) (f : FmtA) (s : State) : Host.Outcome State Fault Refusal :=
  .next (s.core task (encA f 0x016#10) (alu f (fun a b => a.sshiftRight (shAmt b))))

/-- BFX: field, zero-extended (R205). -/
def execBfx (task : Fin 64) (f : FmtA) (s : State) : Host.Outcome State Fault Refusal :=
  .next (s.core task (encA f 0x018#10) (alu f bfExtract))

/-- BFXS: field, sign-extended (R205). -/
def execBfxs (task : Fin 64) (f : FmtA) (s : State) : Host.Outcome State Fault Refusal :=
  .next (s.core task (encA f 0x019#10) (alu f bfExtractS))

/-- BFI: insert a field (R205). -/
def execBfi (task : Fin 64) (f : FmtA) (s : State) : Host.Outcome State Fault Refusal :=
  .next (s.core task (encA f 0x01A#10) (alu3 f bfInsert))

/-! ### Compares and predicates (Table 6-4) -/

/-- CEQ. -/
def execCeq (task : Fin 64) (f : FmtA) (s : State) : Host.Outcome State Fault Refusal :=
  .next (s.core task (encA f 0x040#10) (cmp f (fun a b => a == b)))

/-- CNE. -/
def execCne (task : Fin 64) (f : FmtA) (s : State) : Host.Outcome State Fault Refusal :=
  .next (s.core task (encA f 0x041#10) (cmp f (fun a b => a != b)))

/-- CLT: signed. -/
def execClt (task : Fin 64) (f : FmtA) (s : State) : Host.Outcome State Fault Refusal :=
  .next (s.core task (encA f 0x042#10) (cmp f (fun a b => a.slt b)))

/-- CLE: signed. -/
def execCle (task : Fin 64) (f : FmtA) (s : State) : Host.Outcome State Fault Refusal :=
  .next (s.core task (encA f 0x043#10) (cmp f (fun a b => a.sle b)))

/-- CLTU: unsigned. -/
def execCltu (task : Fin 64) (f : FmtA) (s : State) : Host.Outcome State Fault Refusal :=
  .next (s.core task (encA f 0x044#10) (cmp f (fun a b => a.ult b)))

/-- CLEU: unsigned. -/
def execCleu (task : Fin 64) (f : FmtA) (s : State) : Host.Outcome State Fault Refusal :=
  .next (s.core task (encA f 0x045#10) (cmp f (fun a b => a.ule b)))

/-- BTST: bit (rs2 and 63) of rs1. -/
def execBtst (task : Fin 64) (f : FmtA) (s : State) : Host.Outcome State Fault Refusal :=
  .next (s.core task (encA f 0x046#10) (cmp f (fun a b => a.getLsbD (shAmt b))))

/-- PAND. -/
def execPand (task : Fin 64) (f : FmtA) (s : State) : Host.Outcome State Fault Refusal :=
  .next (s.core task (encA f 0x060#10) (predOp f (fun a b => a && b)))

/-- POR. -/
def execPor (task : Fin 64) (f : FmtA) (s : State) : Host.Outcome State Fault Refusal :=
  .next (s.core task (encA f 0x061#10) (predOp f (fun a b => a || b)))

/-- PXOR. -/
def execPxor (task : Fin 64) (f : FmtA) (s : State) : Host.Outcome State Fault Refusal :=
  .next (s.core task (encA f 0x062#10) (predOp f (fun a b => a != b)))

/-- PANDN. -/
def execPandn (task : Fin 64) (f : FmtA) (s : State) : Host.Outcome State Fault Refusal :=
  .next (s.core task (encA f 0x063#10) (predOp f (fun a b => a && !b)))

/-- PGET: rd := ps1. -/
def execPget (task : Fin 64) (f : FmtA) (s : State) : Host.Outcome State Fault Refusal :=
  .next (s.core task (encA f 0x064#10) (fun _ c => .ok (c.setReg f.rd (BitVec.ofNat 64 (b2n (c.pred f.rs1.toNat)))).next))

/-- PSET: pd := rs1 is not 0. -/
def execPset (task : Fin 64) (f : FmtA) (s : State) : Host.Outcome State Fault Refusal :=
  .next (s.core task (encA f 0x065#10) (cmp f (fun a _ => a != 0)))

/-! ### Floating point (Table 6-5) -/

/-- FADD. -/
def execFadd (task : Fin 64) (d : Bool) (f : FmtA) (s : State) : Host.Outcome State Fault Refusal :=
  .next (s.core task (encA f (fpFunc 0x080#10 d)) (fp2 d f Fmt.add))

/-- FSUB. -/
def execFsub (task : Fin 64) (d : Bool) (f : FmtA) (s : State) : Host.Outcome State Fault Refusal :=
  .next (s.core task (encA f (fpFunc 0x081#10 d)) (fp2 d f Fmt.sub))

/-- FMUL. -/
def execFmul (task : Fin 64) (d : Bool) (f : FmtA) (s : State) : Host.Outcome State Fault Refusal :=
  .next (s.core task (encA f (fpFunc 0x082#10 d)) (fp2 d f Fmt.mul))

/-- FDIV (R210). -/
def execFdiv (task : Fin 64) (d : Bool) (f : FmtA) (s : State) : Host.Outcome State Fault Refusal :=
  .next (s.core task (encA f (fpFunc 0x083#10 d)) (fp2 d f Fmt.div))

/-- FSQRT (R210). -/
def execFsqrt (task : Fin 64) (d : Bool) (f : FmtA) (s : State) : Host.Outcome State Fault Refusal :=
  .next (s.core task (encA f (fpFunc 0x084#10 d)) (fp1 d f Fmt.sqrt))

/-- FMA: rs1 x rs2 + rd, rounded once (R208). -/
def execFma (task : Fin 64) (d : Bool) (f : FmtA) (s : State) : Host.Outcome State Fault Refusal :=
  .next (s.core task (encA f (fpFunc 0x085#10 d)) (alu3 f (fun r a b => fpRes ((Fmt.ofD d).fma (fpArg d a) (fpArg d b) (fpArg d r)))))

/-- FMIN (R210). -/
def execFmin (task : Fin 64) (d : Bool) (f : FmtA) (s : State) : Host.Outcome State Fault Refusal :=
  .next (s.core task (encA f (fpFunc 0x086#10 d)) (fp2 d f Fmt.fmin))

/-- FMAX (R210). -/
def execFmax (task : Fin 64) (d : Bool) (f : FmtA) (s : State) : Host.Outcome State Fault Refusal :=
  .next (s.core task (encA f (fpFunc 0x087#10 d)) (fp2 d f Fmt.fmax))

/-- FNEG (R209). -/
def execFneg (task : Fin 64) (d : Bool) (f : FmtA) (s : State) : Host.Outcome State Fault Refusal :=
  .next (s.core task (encA f (fpFunc 0x088#10 d)) (fp1 d f Fmt.neg))

/-- FABS (R209). -/
def execFabs (task : Fin 64) (d : Bool) (f : FmtA) (s : State) : Host.Outcome State Fault Refusal :=
  .next (s.core task (encA f (fpFunc 0x089#10 d)) (fp1 d f Fmt.abs))

/-- FCEQ (R210). -/
def execFceq (task : Fin 64) (d : Bool) (f : FmtA) (s : State) : Host.Outcome State Fault Refusal :=
  .next (s.core task (encA f (fpFunc 0x08A#10 d)) (fpCmp d f Fmt.eq))

/-- FCLT (R210). -/
def execFclt (task : Fin 64) (d : Bool) (f : FmtA) (s : State) : Host.Outcome State Fault Refusal :=
  .next (s.core task (encA f (fpFunc 0x08B#10 d)) (fpCmp d f Fmt.lt))

/-- FCLE (R210). -/
def execFcle (task : Fin 64) (d : Bool) (f : FmtA) (s : State) : Host.Outcome State Fault Refusal :=
  .next (s.core task (encA f (fpFunc 0x08C#10 d)) (fpCmp d f Fmt.le))

/-- FCUN: an operand is a NaN. -/
def execFcun (task : Fin 64) (d : Bool) (f : FmtA) (s : State) : Host.Outcome State Fault Refusal :=
  .next (s.core task (encA f (fpFunc 0x08D#10 d)) (fpCmp d f (fun t a b => t.nan a || t.nan b)))

/-- FTOI: to nearest even (R210). -/
def execFtoi (task : Fin 64) (d : Bool) (f : FmtA) (s : State) : Host.Outcome State Fault Refusal :=
  .next (s.core task (encA f (fpFunc 0x08E#10 d)) (alu f (fun a _ => BitVec.ofInt 64 ((Fmt.ofD d).toI64 true (fpArg d a)))))

/-- FTRUNC: toward zero (R210). -/
def execFtrunc (task : Fin 64) (d : Bool) (f : FmtA) (s : State) : Host.Outcome State Fault Refusal :=
  .next (s.core task (encA f (fpFunc 0x08F#10 d)) (alu f (fun a _ => BitVec.ofInt 64 ((Fmt.ofD d).toI64 false (fpArg d a)))))

/-- ITOF: a signed integer in the format. -/
def execItof (task : Fin 64) (d : Bool) (f : FmtA) (s : State) : Host.Outcome State Fault Refusal :=
  .next (s.core task (encA f (fpFunc 0x090#10 d)) (alu f (fun a _ => fpRes ((Fmt.ofD d).ofInt a.toInt))))

/-- FCVT.S to binary64, FCVT.D to binary32 (R206). -/
def execFcvt (task : Fin 64) (d : Bool) (f : FmtA) (s : State) : Host.Outcome State Fault Refusal :=
  .next (s.core task (encA f (fpFunc 0x091#10 d)) (alu f (fun a _ => fpRes ((Fmt.ofD d).cvt (Fmt.ofD (!d)) (fpArg d a)))))

/-! ### Immediates (Table 6-6) -/

/-- LI: rd := sext(IMM). -/
def execLi (task : Fin 64) (f : FmtI) (s : State) : Host.Outcome State Fault Refusal :=
  .next (s.core task (encI f 0#4) (immOp f (fun _ i => i.signExtend 64)))

/-- LIH1: bits 31:16. -/
def execLih1 (task : Fin 64) (f : FmtI) (s : State) : Host.Outcome State Fault Refusal :=
  .next (s.core task (encI f 1#4) (immOp f (putHalf 1)))

/-- LIH2: bits 47:32. -/
def execLih2 (task : Fin 64) (f : FmtI) (s : State) : Host.Outcome State Fault Refusal :=
  .next (s.core task (encI f 2#4) (immOp f (putHalf 2)))

/-- LIH3: bits 63:48. -/
def execLih3 (task : Fin 64) (f : FmtI) (s : State) : Host.Outcome State Fault Refusal :=
  .next (s.core task (encI f 3#4) (immOp f (putHalf 3)))

/-- ADDI. -/
def execAddi (task : Fin 64) (f : FmtI) (s : State) : Host.Outcome State Fault Refusal :=
  .next (s.core task (encI f 4#4) (immOp f (fun r i => r + i.signExtend 64)))

/-- ANDI. -/
def execAndi (task : Fin 64) (f : FmtI) (s : State) : Host.Outcome State Fault Refusal :=
  .next (s.core task (encI f 5#4) (immOp f (fun r i => r &&& i.zeroExtend 64)))

/-- ORI. -/
def execOri (task : Fin 64) (f : FmtI) (s : State) : Host.Outcome State Fault Refusal :=
  .next (s.core task (encI f 6#4) (immOp f (fun r i => r ||| i.zeroExtend 64)))

/-- XORI. -/
def execXori (task : Fin 64) (f : FmtI) (s : State) : Host.Outcome State Fault Refusal :=
  .next (s.core task (encI f 7#4) (immOp f (fun r i => r ^^^ i.zeroExtend 64)))

/-- SHLI: IMM 0 to 63. -/
def execShli (task : Fin 64) (f : FmtI) (s : State) : Host.Outcome State Fault Refusal :=
  .next (s.core task (encI f 8#4) (immOp f (fun r i => r <<< i.toNat)))

/-- SHRI: zero fill. -/
def execShri (task : Fin 64) (f : FmtI) (s : State) : Host.Outcome State Fault Refusal :=
  .next (s.core task (encI f 9#4) (immOp f (fun r i => r >>> i.toNat)))

/-- SARI: sign fill. -/
def execSari (task : Fin 64) (f : FmtI) (s : State) : Host.Outcome State Fault Refusal :=
  .next (s.core task (encI f 10#4) (immOp f (fun r i => r.sshiftRight i.toNat)))

/-! ### Branches and control (Tables 6-7, 6-8) -/

/-- BR: pc := target (R212). -/
def execBr (task : Fin 64) (f : FmtB) (s : State) : Host.Outcome State Fault Refusal :=
  .next (s.core task (encB f 0#5) (fun _ c => .ok { c with pc := target c f.off }))

/-- CALL: push pc + 4, then pc := target (R212, R213). -/
def execCall (task : Fin 64) (f : FmtB) (s : State) : Host.Outcome State Fault Refusal :=
  .next (s.core task (encB f 1#5) (fun e c => match push e c (c.pc + 4) with
    | .ok c1 => .ok { c1 with pc := target c f.off }
    | .trap b => .trap b))

/-- RET: pc := pop (R213). -/
def execRet (task : Fin 64) (f : FmtA) (s : State) : Host.Outcome State Fault Refusal :=
  .next (s.core task (encA f 0x100#10) (fun e c => popPc e c))

/-- END: the cycle is complete and waits for its harvest point (R214). -/
def execEndCycle (task : Fin 64) (f : FmtA) (s : State) : Host.Outcome State Fault Refusal :=
  .next (s.core task (encA f 0x101#10) (fun _ c => .ok { c with done := true }))

/-- FENCE: a speculative cycle is held until the latch; otherwise no effect (R215). -/
def execFence (task : Fin 64) (f : FmtA) (s : State) : Host.Outcome State Fault Refusal :=
  .next (s.core task (encA f 0x102#10) (fun _ c => if c.spec then .ok { c with held := true } else .ok c.next))

/-- TSR: a task status word by the selector in RS2 (R216). -/
def execTsr (task : Fin 64) (f : FmtA) (s : State) : Host.Outcome State Fault Refusal :=
  .next (s.core task (encA f 0x103#10) (fun e c => .ok (c.setReg f.rd (BitVec.ofNat 64 (tsrValue e c f.rs2.toNat))).next))

/-! ### Timers and edges (Table 6-10) -/

/-- TON (R219). -/
def execTon (task : Fin 64) (f : FmtT) (s : State) : Host.Outcome State Fault Refusal :=
  .next (s.core task (encT f 1#3) (timerOp 1 tonStep f))

/-- TOF (R219). -/
def execTof (task : Fin 64) (f : FmtT) (s : State) : Host.Outcome State Fault Refusal :=
  .next (s.core task (encT f 2#3) (timerOp 2 tofStep f))

/-- TP (R219). -/
def execTp (task : Fin 64) (f : FmtT) (s : State) : Host.Outcome State Fault Refusal :=
  .next (s.core task (encT f 3#3) (timerOp 3 tpStep f))

/-- RTRIG (R219). -/
def execRtrig (task : Fin 64) (f : FmtT) (s : State) : Host.Outcome State Fault Refusal :=
  .next (s.core task (encT f 4#3) (timerOp 4 rtrigStep f))

/-- FTRIG (R219). -/
def execFtrig (task : Fin 64) (f : FmtT) (s : State) : Host.Outcome State Fault Refusal :=
  .next (s.core task (encT f 5#3) (timerOp 5 ftrigStep f))

/-- TET: elapsed time (R220). -/
def execTet (task : Fin 64) (f : FmtT) (s : State) : Host.Outcome State Fault Refusal :=
  .next (s.core task (encT f 6#3) (tetOp f))

/-! ### Loads and stores (R200 to R202) -/

/-- LDU: zero-extends. -/
def execLdu (task : Fin 64) (f : FmtM) (s : State) : Host.Outcome State Fault Refusal :=
  .next (s.core task (encM f 4#3) (loadOp false f))

/-- LDS: sign-extends. -/
def execLds (task : Fin 64) (f : FmtM) (s : State) : Host.Outcome State Fault Refusal :=
  .next (s.core task (encM f 5#3) (loadOp true f))

/-- ST: stores the low bytes of RD. -/
def execSt (task : Fin 64) (f : FmtM) (s : State) : Host.Outcome State Fault Refusal :=
  .next (s.core task (encM f 6#3) (storeOp f))

end Sys2Proof.Machine
end

