-- ==== Sys2Proof/Machine/Loops.lean ====
section
/-! DEFINITION. Machine/Loops.lean: the loop engine: admission, sampling, split-phase commit, output, parameters, modes
and reading (07_loop_engine.md). -/

namespace Sys2Proof.Machine

/-! ### Records and blocks (Tables 7-3 to 7-7) -/

def LoopPar.read (b : List Byte) : LoopPar :=
  let w (i : Nat) : F := rdW b (4 * i)
  { spConst := w 0, spScale := w 1, spOffset := w 2, spRate := w 3, k0 := w 4, k1 := w 5, k2 := w 6, k3 := w 7, k4 := w 8
    k5 := w 9, outMin := w 10, outMax := w 11, outRate := w 12, manOut := w 13, clampScale := w 14, outStart := w 15 }

def LoopPar.bytes (p : LoopPar) : List Byte :=
  [p.spConst, p.spScale, p.spOffset, p.spRate, p.k0, p.k1, p.k2, p.k3, p.k4, p.k5, p.outMin, p.outMax, p.outRate,
    p.manOut, p.clampScale, p.outStart].flatMap (fun w => u32 w.toNat)

def LoopRec.read (b : List Byte) : LoopRec :=
  { handle := BitVec.ofNat 16 (rd b 0 2), type := bits (rd b 2 1) 0 4, ctrl := rd b 3 1, period := rd b 4 4
    samplePhase := rd b 8 4, outputPhase := rd b 0xC 4, sampleSrc := rdW b 0x10, spSrc := rdW b 0x14, dest := rdW b 0x18
    clamp := BitVec.ofNat 8 (rd b 0x1E 1), ext := rd b 0x1F 1, par := LoopPar.read (slice b 0x20 64) }

def LoopRec.head (r : LoopRec) : List Byte :=
  u16 r.handle.toNat ++ u8 r.type ++ u8 r.ctrl ++ u32 r.period ++ u32 r.samplePhase ++ u32 r.outputPhase ++
  u32 r.sampleSrc.toNat ++ u32 r.spSrc.toNat ++ u32 r.dest.toNat ++ zeros 2 ++ u8 r.clamp.toNat ++ u8 r.ext

def Ext.read (b : List Byte) : Ext :=
  { die := rd b 0 1, index := rd b 1 1, nx := rd b 2 1, nu := rd b 3 1, ny := rd b 4 1, sample2 := rdW b 8, dest2 := rdW b 0xC
    outMin := rdW b 0x10, outMax := rdW b 0x14, outRate := rdW b 0x18, a := words b 0x20 64, b := words b 0x120 16
    c := words b 0x160 16, d := words b 0x1A0 4 }

def fbytes (l : List F) : List Byte := l.flatMap (fun w => u32 w.toNat)

def Ext.bytes (e : Ext) : List Byte :=
  u8 e.die ++ u8 e.index ++ u8 e.nx ++ u8 e.nu ++ u8 e.ny ++ zeros 3 ++ u32 e.sample2.toNat ++ u32 e.dest2.toNat ++
  fbytes [e.outMin, e.outMax, e.outRate] ++ zeros 4 ++ fbytes (e.a ++ e.b ++ e.c ++ e.d) ++
  fbytes ((List.range 8).map (nth e.x)) ++ u32 e.out2.toNat ++ zeros 44

def LoopRec.die (r : LoopRec) : Nat := bits r.handle.toNat 13 3
def LoopRec.index (r : LoopRec) : Nat := bits r.handle.toNat 4 9
def LoopRec.lostSafe (r : LoopRec) : Bool := bit r.ctrl 2

/-- Buffer of LOOP_ADMIT: length, reserved fields, no die 0, and state words of 0 (R14, R249, R253). -/
def loopAdmitOk (b : List Byte) : Bool :=
  let n := rd b 0 2
  let m := rd b 2 2
  n ≤ 3584 && b.length == 32 + 128 * n + 512 * m && zeroAt b 4 12 &&
  (entriesOf 128 (slice b 16 (128 * n))).all (fun r =>
    bits (rd r 2 1) 4 4 == 0 && bits (rd r 3 1) 3 5 == 0 && zeroAt r 0x1C 2 && zeroAt r 0x60 32 &&
    bits (rd r 0 2) 13 3 != 0) &&
  (entriesOf 512 (slice b (16 + 128 * n) (512 * m))).all (fun e =>
    zeroAt e 5 3 && zeroAt e 0x1C 4 && zeroAt e 0x1D4 44 && rd e 0 1 != 0)

def LoopSet.read (b : List Byte) : LoopSet :=
  let n := rd b 0 2
  { recs := (entriesOf 128 (slice b 16 (128 * n))).map LoopRec.read
    exts := (entriesOf 512 (slice b (16 + 128 * n) (512 * rd b 2 2))).map Ext.read }

/-! ### Admission (R246, R254, R255, Tables 7-8 to 7-11) -/

/-- A listed source: kind and reference; `sample` for a sample source. -/
def srcListed (w : BitVec 32) (sample : Bool) : Bool :=
  let r := srcRef w
  match srcKind w with
  | 0 => !sample && r == 0
  | 1 | 2 => r < 8
  | 3 | 4 => r < 4
  | 5 => r < 0x10000
  | 6 => bits r 5 3 == 0 && bits r 16 8 == 0 && estCodeOk (bits r 8 8)
  | 7 => !sample
  | _ => false

/-- A listed destination; kind 6 only for output 0. -/
def destListed (w : BitVec 32) (second : Bool) : Bool :=
  let r := srcRef w
  match srcKind w with
  | 1 => r < 4
  | 2 => r < 8
  | 3 => r < 0x10000
  | 4 => bits r 3 5 == 0 && bits r 14 2 == 0 && bits r 21 3 == 0
  | 5 => true
  | 6 => !second && r < 0x10000
  | _ => false

/-- The extension block of a type 5 loop, on its own tile. -/
def LoopSet.extOf (l : LoopSet) (r : LoopRec) : Option Ext := l.exts.find? (fun e => e.die == r.die && e.index == r.ext)

/-- Condition 1. -/
def LoopSet.cond1 (l : LoopSet) (r : LoopRec) : Bool :=
  let p := r.period * 100
  bits r.handle.toNat 0 4 == 0 && 1 ≤ r.type && r.type ≤ 6 && bits r.ctrl 0 2 ≤ 2 && 20 ≤ r.period && r.period ≤ 1000000 &&
  r.samplePhase < p && r.outputPhase < p && 16 ≤ (r.outputPhase + p - r.samplePhase) % p &&
  srcListed r.sampleSrc true && srcListed r.spSrc false && destListed r.dest false &&
  (if r.type = 5 then
    r.ext < 64 && (match l.extOf r with
      | some e => 1 ≤ e.nx && e.nx ≤ 8 && 1 ≤ e.nu && e.nu ≤ 2 && 1 ≤ e.ny && e.ny ≤ 2 &&
          (if e.nu = 2 then srcListed e.sample2 true else e.sample2 == 0) &&
          (if e.ny = 2 then destListed e.dest2 true else e.dest2 == 0)
      | none => true)
   else r.ext == 0xFF)

/-- Condition 2, for a record at an index of the set. -/
def LoopSet.cond2 (l : LoopSet) (r : LoopRec) (i : Nat) : Bool :=
  !((l.recs.take i).any (fun q => q.handle == r.handle)) &&
  (l.recs.filter (fun q => q.die == r.die)).length ≤ 512 && (l.exts.filter (fun e => e.die == r.die)).length ≤ 64 &&
  (if r.type = 5 then
    (l.exts.filter (fun e => e.die == r.die && e.index == r.ext)).length == 1 &&
    (l.recs.filter (fun q => q.type == 5 && q.die == r.die && q.ext == r.ext)).length == 1
   else true) &&
  l.exts.all (fun e => l.recs.any (fun q => q.type == 5 && q.die == e.die && q.ext == e.index))

/-- A source is present and in its role. -/
def State.srcPresent (s : State) (w : BitVec 32) : Bool :=
  let r := srcRef w
  match srcKind w with
  | 2 => (s.cl (bits r 0 3)).isIn
  | 5 => r < 0x8000
  | 6 => bit r 4 || (s.portPlan (bits r 0 4)).isSome
  | 7 => (s.prog.stored.bind (fun i => i.taskDef (bits r 18 6))).any (fun t => bits r 0 18 * 4 + 4 ≤ t.outSize)
  | _ => true

/-- A destination is present and in its role. -/
def State.destPresent (s : State) (l : LoopSet) (w : BitVec 32) : Bool :=
  let r := srcRef w
  match srcKind w with
  | 2 => (s.cl (bits r 0 3)).isOut
  | 3 => s.hasC1 (bits r 0 16)
  | 4 => match (s.chan (bits r 0 3)).matrix with
    | some m => m.slots.any (fun e => e.cycle == bits r 8 6 && e.slot == bits r 16 5 && e.source == 2)
    | none => false
  | 5 => (s.prog.stored.bind (fun i => i.taskDef (bits r 18 6))).any (fun t =>
      let o := bits r 0 18 * 4
      o + 4 ≤ t.inSize && t.binds.all (fun b => b.space != 0 || o + 4 ≤ b.offset || b.offset + b.width ≤ o))
  | 6 => l.recs.any (fun q => q.handle.toNat == r)
  | _ => true

/-- Condition 3. -/
def State.cond3 (s : State) (l : LoopSet) (r : LoopRec) : Bool :=
  s.srcPresent r.sampleSrc && s.srcPresent r.spSrc && s.destPresent l r.dest &&
  (bits r.clamp.toNat 6 2 == 0 || bit r.clamp.toNat 4 || (s.portPlan (bits r.clamp.toNat 0 4)).isSome) &&
  (if r.type = 5 then
    (match l.extOf r with
      | some e => (e.nu != 2 || s.srcPresent e.sample2) && (e.ny != 2 || s.destPresent l e.dest2)
      | none => true)
   else true)

/-- Destination words of a record. -/
def LoopSet.destWords (l : LoopSet) (r : LoopRec) : List (BitVec 32) :=
  r.dest :: (if r.type = 5 then (match l.extOf r with | some e => if e.ny = 2 then [e.dest2] else [] | none => []) else [])

/-- Condition 4: against the records before it and the tasks and contactors of an image. -/
def State.cond4 (s : State) (img : Option Image) (l : LoopSet) (r : LoopRec) (i : Nat) : Bool :=
  let mine := l.destWords r
  let others := (l.recs.take i).flatMap l.destWords
  let tasks := (match img with | some g => g.tasks.flatMap (fun t => t.binds.flatMap Bind.dests) | none => []) ++
    s.contPlan.flatMap (fun c => c.douts.map .dout)
  distinct mine && mine.all (fun w => !(others.contains w) &&
    (match destOf w with | some d => !(tasks.contains d) | none => true))

/-- Length of a chain of cascades from a record, up to a bound. -/
def LoopSet.stages (l : LoopSet) : Nat → LoopRec → Nat
  | 0, _ => 0
  | k + 1, r =>
    if srcKind r.dest != 6 then 1
    else match l.recs.find? (fun q => q.handle.toNat == srcRef r.dest) with
      | some q => 1 + l.stages k q
      | none => 1

/-- Some loop of the set names this one as its inner loop. -/
def LoopSet.hasOuter (l : LoopSet) (r : LoopRec) : Bool :=
  l.recs.any (fun q => srcKind q.dest == 6 && srcRef q.dest == r.handle.toNat)

/-- The chain that a record opens ends within four stages and comes back to no loop; a loop that starts in cascade mode has an
outer loop (R246, R248; log 100). -/
def LoopSet.cond5 (l : LoopSet) (r : LoopRec) : Bool :=
  (bits r.ctrl 0 2 != 2 || l.hasOuter r) &&
  if srcKind r.dest != 6 then true
  else
    match l.recs.find? (fun q => q.handle.toNat == srcRef r.dest) with
    | none => false
    | some q =>
      let p := r.period * 100
      q.die == r.die && q.period == r.period && q.samplePhase == (r.samplePhase + 16) % p &&
      r.outputPhase == r.samplePhase + 16 &&
      (l.recs.filter (fun x => srcKind x.dest == 6 && srcRef x.dest == srcRef r.dest)).length == 1 && l.stages 6 r ≤ 4

/-- Run-ahead cost in LOOP cycles (Table 7-11). -/
def LoopSet.cost (l : LoopSet) (r : LoopRec) : Nat :=
  (match r.type with
    | 1 | 2 => 40
    | 3 => 48
    | 4 => 24
    | 5 => match l.extOf r with | some e => 32 + 4 * e.nx * (e.nx + e.nu + e.ny) | none => 32
    | _ => 16) + (if bits r.clamp.toNat 6 2 = 0 then 0 else 8)

/-- fits of R255: the load sum is compared exactly with 0.85 over the common multiple of the periods. -/
def LoopSet.fits (l : LoopSet) (lane : List LoopRec) : Bool :=
  let apart (u v : LoopRec) : Bool :=
    let g := Nat.gcd (u.period * 100) (v.period * 100)
    let d := (u.samplePhase + g * (v.samplePhase / g + 1) - v.samplePhase) % g
    16 ≤ d && 16 ≤ g - d
  let m := lane.foldl (fun a u => Nat.lcm a u.period) 1
  lane.length ≤ 16 && lane.zipIdx.all (fun (u, i) => (lane.take i).all (fun v => apart u v)) &&
  100 * (lane.map (fun u => (l.cost u + 64) * (m / u.period))).sum ≤ 85 * 400 * m

/-- Put a loop on the first lane where it fits. -/
def LoopSet.placeLane (l : LoopSet) (r : LoopRec) : List (List LoopRec) → Option (List (List LoopRec))
  | [] => none
  | x :: rest => if l.fits (x ++ [r]) then some ((x ++ [r]) :: rest) else (l.placeLane r rest).map (x :: ·)

/-- The first loop that no lane of its tile takes. -/
def LoopSet.placeLoops (l : LoopSet) : List LoopRec → List (List LoopRec) → Option LoopRec
  | [], _ => none
  | r :: rest, lanes =>
    match l.placeLane r lanes with
    | some lanes' => l.placeLoops rest lanes'
    | none => some r

def insertLoop (r : LoopRec) : List LoopRec → List LoopRec
  | [] => [r]
  | q :: rest =>
    if r.period < q.period || (r.period == q.period && r.handle.toNat < q.handle.toNat) then r :: q :: rest
    else q :: insertLoop r rest

/-- The loop of each tile that fails condition 6: the first that no lane takes. -/
def LoopSet.cond6 (l : LoopSet) : List LoopRec :=
  (List.range 8).filterMap (fun die =>
    l.placeLoops ((l.recs.filter (fun r => r.die == die)).foldr insertLoop []) (List.replicate 32 []))

/-- The first failing record with its condition (R254), against an image's bindings. A set of blocks alone fails condition 2 at
record 0, since no loop names them. -/
def State.loopFails (s : State) (img : Option Image) (l : LoopSet) : Option (Nat × Nat) :=
  let lanes := l.cond6
  if l.recs.isEmpty && !l.exts.isEmpty then some (0, 2)
  else
    l.recs.zipIdx.findSome? (fun (r, i) =>
      if !(l.cond1 r) then some (i, 1)
      else if !(l.cond2 r i) then some (i, 2)
      else if !(s.cond3 l r) then some (i, 3)
      else if !(s.cond4 img l r i) then some (i, 4)
      else if !(l.cond5 r) then some (i, 5)
      else if lanes.any (fun q => q.handle == r.handle) then some (i, 6) else none)

/-- A die of the set that is absent (R14, R253). -/
def State.loopDieAbsent (s : State) (l : LoopSet) : Bool :=
  l.recs.any (fun r => !(s.diePresent r.die)) || l.exts.any (fun e => !(s.diePresent e.die))

/-- LOOP_ADMIT: the set is stored and takes effect at the next restart (R256). -/
def execLoopAdmit (rid : Nat) (s : State) : Host.Outcome State Fault Refusal :=
  .next (s.onReq rid 0x0300 (fun r =>
    let l := LoopSet.read r.buf
    if s.loopDieAbsent l then s.complete r stNotPresent
    else
      match s.loopFails s.prog.stored l with
      | some (i, k) => (s.event 0x0801 [i, k]).complete r stAdmission (i % 65536 + k * 65536)
      | none => ({ s with loops := { s.loops with stored := l, admitted := true } }).complete r stOk))

/-! ### State of a loop (R229, R231, R249) -/

def Loop.handle (l : Loop) : Nat := l.lrec.handle.toNat

def State.loop (s : State) (h : Nat) : Option Loop := tfind s.loops.loops h

def State.setLoop (s : State) (l : Loop) : State :=
  { s with loops := { s.loops with loops := tset s.loops.loops l.handle l } }

/-- The loop that names this one as its inner loop. -/
def State.outerOf (s : State) (h : Nat) : Option Loop :=
  (s.loops.loops.find? (fun e => srcKind e.2.lrec.dest == 6 && srcRef e.2.lrec.dest == h)).map (·.2)

/-- Derived constants (R231). -/
structure LoopConst where
  t : F
  a : F
  kdb : F
  kit : F
  g : F
  deriving DecidableEq, Repr

def LoopConst.of (period : Nat) (p : LoopPar) : LoopConst :=
  let t := ofRat false period 1000000
  let tf := fmax p.k3 f0
  let kdb := fdiv p.k2 (fadd tf t)
  { t := t, a := fdiv tf (fadd tf t), kdb := kdb, kit := fmul p.k1 t, g := fadd p.k0 kdb }

/-- PREV from a sample (Table 7-3). -/
def Loop.prevOf (l : Loop) (r y : F) : F :=
  match l.lrec.type with
  | 1 | 4 => fsub r y
  | 2 => y
  | 3 => fsub (fmul l.par.k5 r) y
  | _ => l.prev

/-- The proportional argument pe (R232). -/
def Loop.pe (l : Loop) (p : LoopPar) (r y : F) : F := if l.lrec.type = 3 then fsub (fmul p.k4 r) y else fsub r y

/-- Raw set-point from a source value (R241). -/
def Loop.rawSp (l : Loop) (v : F) : F :=
  if srcKind l.lrec.spSrc = 0 then l.par.spConst else ffma l.par.spScale v l.par.spOffset

/-- A loop of a set as it stands from admission or a restart until its first sample (R249). -/
def LoopSet.fresh (l : LoopSet) (r : LoopRec) (mode : Nat) : Loop :=
  { lrec := r, par := r.par, ext := if r.type = 5 then l.extOf r else none, mode := mode, shown := { par := r.par } }

/-- Initialise from a sample (R229). -/
def Loop.start (l : Loop) (r y : F) : Loop :=
  let t := l.lrec.type
  { l with
    initialised := true, sp := r, rNext := r, pv := y, out := l.par.outStart, uraw := l.par.outStart
    dstate := if t ≤ 3 then f0 else l.dstate
    prev := l.prevOf r y
    integ := if t ≤ 3 then fsub l.par.outStart (fmul l.par.k0 (l.pe l.par r y)) else l.integ
    ext := l.ext.map (fun e => { e with x := List.replicate 8 f0, out2 := l.par.outStart })
    srcLost := false }

/-! ### Sampling (R241, R244, R261, R246, R247) -/

/-- A sample of a loop: PULSE_COUNT gives the increment over the loop's period. -/
def State.loopSource (s : State) (at_ : Nat) (w : BitVec 32) (period : Nat) : F × Bool :=
  if srcKind w = 4 then
    let p := s.pulse (bits (srcRef w) 0 2)
    (ofInt32 (p.countAt at_ - p.countAt (at_ - period * 1000)), p.lost)
  else s.source at_ w

/-- A destination's saturation report (Table 7-2). -/
def State.destReport (s : State) (w : BitVec 32) : Bool :=
  let r := srcRef w
  match srcKind w with
  | 2 => (s.cl (bits r 0 3)).compl
  | 3 => (tfind s.ring.vals (echoKey (bits r 0 16))).any (fun v => bit v.vflags 0)
  | 6 => match s.loop r with | some q => q.saturated || q.mode != 2 | none => false
  | _ => false

/-- Limits of the dynamic clamp from the latest publication before a sample instant: discharge and charge; none without a
clamp (R239, R342). -/
def State.clampOf (s : State) (at_ : Nat) (l : Loop) : Option (F × F) × Bool :=
  let c := l.lrec.clamp.toNat
  let h := bits c 6 2
  if h = 0 then (none, false)
  else
    let a := s.pubItem at_ (bits c 0 4) (bit c 4)
    let q := 4 * (h - 1) + (if bit c 5 then 2 else 0)
    (some (nth a.sop q, nth a.sop (q + 1)), !a.sopValid)

/-- A mode takes effect: MAN_OUT follows OUT at a switch to manual, the mode is committed to MRAM, event 0x0802 (R248,
R261). -/
def State.loopModeTo (s : State) (l : Loop) (m : Nat) : State :=
  let l1 : Loop := { l with mode := m, par := if m = 0 && l.mode != 0 then { l.par with manOut := l.out } else l.par }
  let s1 := s.setLoop l1
  ({ s1 with loops := { s1.loops with modesMram := tset s1.loops.modesMram l.handle m } }).event 0x0802 [l.handle, l.mode, m]

/-- LOOP_MODE requests that fall due at a sample instant, in the order accepted. -/
def State.loopModesDue (s : State) (h at_ : Nat) : State :=
  match s.loop h with
  | none => s
  | some l =>
    let due := l.modeReqs.filter (fun (_, _, acc) => acc + 50000 ≤ at_)
    let s1 := s.setLoop { l with modeReqs := l.modeReqs.filter (fun (_, _, acc) => at_ < acc + 50000) }
    due.foldl (fun (st : State) (rid, m, _) =>
      match st.loop h with
      | none => st
      | some x =>
        let st1 := st.loopModeTo x m
        match st1.findReq rid with
        | some r => if r.opcode == 0x0302 then st1.complete r stOk at_ else st1
        | none => st1) s1

/-- The set-point that an initialising sample takes, unramped: the outer loop's output in cascade mode, else the value latched
with the sample, else the last one (R229, R243, R246). -/
def Loop.startSp (l : Loop) (m : LoopSmp) : F :=
  if l.mode = 2 then l.rNext else if m.spLost then l.sp else l.rawSp m.sp

/-- A sample instant of a loop (R226). -/
def LoopRec.isSample (r : LoopRec) (mt : Nat) : Bool :=
  r.samplePhase * 10 ≤ mt && (mt - r.samplePhase * 10) % (r.period * 1000) == 0

/-! ### The law and the commit (R232 to R236) -/

/-- What a law gives at a commit: raw outputs, the new DSTATE, PREV, the unsaturated integrator and the successor state. -/
structure Law where
  u : F := 0
  u2 : F := 0
  dstate : F := 0
  prev : F := 0
  integ : F := 0
  x : List F := []
  deriving DecidableEq, Repr

/-- Types 1 to 3. -/
def Loop.pid (l : Loop) (k : LoopConst) (r y : F) : Law :=
  let p := l.par
  let pr := if l.lrec.type = 3 then fmul p.k4 r else r
  let dr := match l.lrec.type with
    | 1 => fsub r l.prev
    | 2 => l.prev
    | _ => fsub (fmul p.k5 r) l.prev
  let dc := ffma k.a l.dstate (fmul k.kdb dr)
  let c := fadd (ffma p.k0 pr l.integ) dc
  let iu := ffma k.kit r l.integ
  { u := ffma (fneg k.g) y c, dstate := ffma (fneg k.kdb) y dc, integ := ffma (fneg k.kit) y iu, prev := l.prevOf r y }

/-- Type 5: outputs and successor state (R233). An entry beyond NU counts as 0, as s2 does (R252; log 101). -/
def Loop.stateSpace (l : Loop) (e : Ext) (r y s2 : F) : Law :=
  let s2 := if e.nu = 2 then s2 else f0
  let d (j m : Nat) : F := if m < e.nu then nth e.d (2 * j + m) else f0
  let out (j : Nat) : F :=
    let c := (List.range e.nx).foldl (fun c i => ffma (nth e.c (8 * j + i)) (nth e.x i) c) (fmul (d j 0) r)
    ffma (d j 1) s2 (ffma (fneg (d j 0)) y c)
  let er := fsub r y
  let b2 (i : Nat) : F := if e.nu = 2 then nth e.b (2 * i + 1) else f0
  let next (i : Nat) : F :=
    let a := (List.range e.nx).foldl (fun a m => ffma (nth e.a (8 * i + m)) (nth e.x m) a) f0
    ffma (b2 i) s2 (ffma (nth e.b (2 * i)) er a)
  { u := out 0, u2 := if e.ny = 2 then out 1 else f0, dstate := l.dstate, prev := l.prev, integ := l.integ
    x := (List.range 8).map (fun i => if i < e.nx then next i else nth e.x i) }

/-- The law of a loop for its set-point and samples (Table 7-1). -/
def Loop.law (l : Loop) (k : LoopConst) (r y s2 : F) : Law :=
  let p := l.par
  let keep : Law := { dstate := l.dstate, prev := l.prev, integ := l.integ }
  match l.lrec.type with
  | 1 | 2 | 3 => l.pid k r y
  | 4 => { keep with
      u := ffma (fneg p.k0) y (ffma (fneg p.k2) l.out (ffma p.k1 l.prev (fmul p.k0 r))), prev := fsub r y }
  | 5 => match l.ext with | some e => l.stateSpace e r y s2 | none => keep
  | _ => { keep with u := ffma p.k0 y r }

/-- A shaped output and its flags (R234, R235). -/
structure Shaped where
  u : F
  rate : Bool
  satHi : Bool
  satLo : Bool
  nonfinite : Bool
  deriving DecidableEq, Repr

/-- Shaping of R234. `raw` says that the target is the law's output. -/
def shape (lo hi rate t out target : F) (raw : Bool) : Shaped :=
  let bad := raw && fbad target
  let target := if bad then out else target
  let step := fmul rate t
  let u1 := if flt f0 rate then fmin (fmax target (fsub out step)) (fadd out step) else target
  { u := fmin (fmax u1 lo) hi, rate := !(feq u1 target), satHi := flt hi u1, satLo := flt u1 lo, nonfinite := bad }

def Shaped.sat (x : Shaped) : Bool := x.rate || x.satHi || x.satLo || x.nonfinite

/-- STATUS of a commit (Table 7-6). -/
def statusWord (mode paramSeq : Nat) (track nonfinite spRate clampBad spLost srcLost frozen destSat clamp rate lo hi : Bool) :
    BitVec 32 :=
  BitVec.ofNat 32 (fld 16 8 paramSeq + fld 14 1 (b2n track) + fld 13 1 (b2n nonfinite) + fld 12 1 (b2n spRate) +
    fld 11 1 (b2n clampBad) + fld 10 1 (b2n spLost) + fld 9 1 (b2n srcLost) + fld 8 1 (b2n frozen) + fld 7 1 (b2n destSat) +
    fld 6 1 (b2n clamp) + fld 5 1 (b2n rate) + fld 4 1 (b2n lo) + fld 3 1 (b2n hi) + fld 0 3 mode)

/-- Output instant of a period from its sample instant (R227). -/
def LoopRec.outputAt (r : LoopRec) (sample : Nat) : Nat :=
  let start := sample - r.samplePhase * 10
  start + r.outputPhase * 10 + (if r.samplePhase + 16 ≤ r.outputPhase then 0 else r.period * 1000)

/-- Run-ahead after a sample: the set-point of the next period from the value latched with this one, rate limited; kept
while its source is lost (R241 to R243). -/
def Loop.runAhead (l : Loop) (m : LoopSmp) (t : F) : Loop :=
  if m.spLost then { l with rNext := l.sp, spLost := true, spRateOn := false }
  else
    let raw := l.rawSp m.sp
    let step := fmul l.par.spRate t
    let r := if flt f0 l.par.spRate then fmin (fmax raw (fsub l.sp step)) (fadd l.sp step) else raw
    { l with rNext := r, spLost := false, spRateOn := !(feq r raw) }

/-- A normal commit of a loop (R232 to R240): the loop, and whether its raw output was not finite. -/
def Loop.commitNormal (l : Loop) (m : LoopSmp) : Loop × Bool :=
  let p := l.par
  let k := LoopConst.of l.lrec.period p
  let r := l.rNext
  let w := l.law k r m.y m.s2
  let (dynLo, dynHi) : Option F × Option F := match m.dyn with
    | none => (none, none)
    | some (dis, chg) =>
      if m.dynBad then (some f0, some f0) else (some (fneg (fmul p.clampScale chg)), some (fmul p.clampScale dis))
  let lo := match dynLo with | some d => fmax p.outMin d | none => p.outMin
  let hi := match dynHi with | some d => fmin p.outMax d | none => p.outMax
  let manual := l.mode == 0
  let target := if manual then p.manOut else match m.track with | some x => x | none => w.u
  let law : Bool := !manual && m.track.isNone
  let x := shape lo hi p.outRate k.t l.out target law
  let x2 : Shaped := match l.ext with
    | some e =>
      if e.ny = 2 then shape e.outMin e.outMax e.outRate k.t e.out2 (if manual then p.manOut else match m.track with
        | some x => x | none => w.u2) law
      else { u := e.out2, rate := false, satHi := false, satLo := false, nonfinite := false }
    | none => { u := f0, rate := false, satHi := false, satLo := false, nonfinite := false }
  let clamp := (x.satHi && (match dynHi with | some d => flt d p.outMax | none => false)) ||
    (x.satLo && (match dynLo with | some d => flt p.outMin d | none => false))
  let destSat := m.destSat || m.track.isSome
  let sat := x.sat || destSat || x2.sat
  let tracks := manual || m.track.isSome
  let pid := l.lrec.type ≤ 3
  let integ :=
    if !pid then l.integ
    else if tracks then fsub x.u (ffma p.k0 (l.pe p r m.y) w.dstate)
    else if sat then l.integ else w.integ
  let keepX := manual || sat
  let frozen := (pid && !tracks && sat) || (l.lrec.type == 5 && keepX)
  ({ l with
    out := x.u, integ := integ, dstate := w.dstate, prev := w.prev, sp := r, pv := m.y, uraw := w.u, saturated := sat
    count := (l.count + 1) % 2 ^ 32, srcLost := false, smp := none
    ext := l.ext.map (fun e => { e with x := if keepX then e.x else w.x, out2 := x2.u })
    pend := some (l.lrec.outputAt m.mt, some (x.u, x2.u))
    status := statusWord l.mode l.paramSeq m.track.isSome (x.nonfinite || x2.nonfinite) l.spRateOn (m.dyn.isSome && m.dynBad)
      l.spLost false frozen destSat clamp x.rate x.satLo x.satHi },
   x.nonfinite || x2.nonfinite)

/-- OUT is committed again, state words kept, with SRC_LOST as given (R245). -/
def Loop.commitAgain (l : Loop) (m : LoopSmp) (lost : Bool) : Loop :=
  { l with
    count := (l.count + 1) % 2 ^ 32, smp := none, srcLost := lost
    pend := some (l.lrec.outputAt m.mt, some (l.out, match l.ext with | some e => e.out2 | none => f0))
    status := BitVec.ofNat 32 (bits l.status.toNat 10 22 * 1024 + fld 9 1 (b2n lost) + bits l.status.toNat 3 6 * 8 + l.mode) }

/-- Entries of the loop digest of a commit (Table 10-2). -/
def Loop.digestBytes (l : Loop) : List Byte :=
  u16 l.handle ++ u32 l.out.toNat ++ u32 l.integ.toNat ++ u32 l.dstate.toNat ++ u32 l.status.toNat

/-- A commit enters the digest of its tile's 1 ms window; the first commit of a later window closes the earlier one
(R361). -/
def State.loopDigest (s : State) (l : Loop) : State :=
  let die := l.lrec.die
  let win := s.mt / 1000000
  let (old, bytes) := tget s.loops.window die (win, [])
  let s1 := if old = win || bytes.isEmpty then s else s.digest .loop die (crc64 bytes)
  let acc := if old = win then bytes else []
  { s1 with loops := { s1.loops with window := tset s1.loops.window die (win, acc ++ l.digestBytes) } }

/-- Item of a loop stream (Table 7-12). -/
def Loop.item (l : Loop) : List Byte :=
  u16 l.handle ++ zeros 2 ++ u32 l.status.toNat ++ fbytes [l.sp, l.pv, l.out, l.integ, l.uraw] ++ u32 l.count

/-- Records of the loop's subscriptions, one at every Nth commit (R267). -/
def State.postLoop (s : State) (l : Loop) (stamp : Nat) : State :=
  (s.subsOf 0x0304).foldl (fun st x =>
    if x.target != l.handle || x.param = 0 then st
    else if x.count + 1 < x.param then st.setSub { x with count := x.count + 1 }
    else (st.setSub { x with count := 0 }).deliver x.handle stamp [l.item]) s

/-- The stored set keeps a loop's parameter block (R258). -/
def State.storePar (s : State) (h : Nat) (p : LoopPar) : State :=
  { s with loops := { s.loops with stored := { s.loops.stored with
      recs := s.loops.stored.recs.map (fun r => if r.handle.toNat == h then { r with par := p } else r) } } }

/-- A parameter set is applied at a sample instant: INTEG takes the step out of the proportional term, PARAM_SEQ and
event 0x0803, its command completes, and the waiting set runs (R258 to R260). -/
def State.applyPar (s : State) (l : Loop) (rid : Nat) (p : LoopPar) (at_ : Nat) (pe : Option (F × F)) : State :=
  let integ := match pe with
    | some (r, y) =>
      if l.lrec.type ≤ 3 then ffma (fsub l.par.k0 p.k0) (l.pe l.par r y) l.integ else l.integ
    | none => l.integ
  let seq := (l.paramSeq + 1) % 256
  let l1 : Loop := { l with
    par := p, integ := integ, paramSeq := seq, parRun := l.parWait, parWait := none
    status := (l.status &&& ~~~0xFF0000#32) ||| BitVec.ofNat 32 (seq * 65536) }
  let s1 := ((s.setLoop l1).storePar l.handle p).event 0x0803 [l.handle, at_]
  match s1.findReq rid with
  | some r => if r.opcode == 0x0301 then s1.complete r stOk at_ 0x0100 else s1
  | none => s1

/-- A parameter set that falls due at a sample instant is applied there (R258); `pe`: set-point and sample of that instant. -/
def State.parDue (s : State) (h at_ : Nat) (pe : Option (F × F)) : State :=
  match s.loop h with
  | some l =>
    (match l.parRun with
      | some (rid, p, acc) => if acc + 50000 ≤ at_ then s.applyPar l rid p at_ pe else s
      | none => s)
  | none => s

/-- A sample reaches a loop: the first after a restart initialises it, a later one waits for its commit. In cascade mode
the outer loop's output is the set-point, and no rate limit acts. Events 0x0805 and 0x0807 open a loss. -/
def State.takeSample (s : State) (h : Nat) (m : LoopSmp) : State :=
  let s1 := s.loopModesDue h m.mt
  match s1.loop h with
  | none => s1
  | some l =>
    let s2 := if m.lost && !l.srcLost then s1.event 0x0805 [h] else s1
    let s3 := if m.spLost && !l.spLost then s2.event 0x0807 [h] else s2
    let casc : Option F := if l.mode = 2 then (s1.outerOf h).map (·.out) else none
    let l1 : Loop := match casc with | some r => { l with rNext := r, spRateOn := false } | none => l
    if l.initialised then s3.setLoop { l1 with smp := some m }
    else if m.lost then
      (s3.setLoop { l1 with srcLost := true, spLost := m.spLost, status := l1.status ||| 0x200 }).parDue h m.mt none
    else
      let r := l1.startSp m
      let s4 := if l.srcLost then s3.event 0x0806 [h] else s3
      (s4.setLoop { l1.start r m.y with spLost := m.spLost, status := l1.status &&& ~~~0x200#32 }).parDue h m.mt
        (some (r, m.y))

/-- What LOOP_READ shows from a commit on (R266). -/
def Loop.show_ (l : Loop) : Loop :=
  { l with shown := {
      par := l.par, integ := l.integ, dstate := l.dstate, prev := l.prev, out := l.out, sp := l.sp, pv := l.pv, status := l.status
      count := l.count, x := match l.ext with | some e => e.x | none => []
      out2 := match l.ext with | some e => e.out2 | none => f0 } }

/-- The loop's tile was switching its source at an instant of module time that has come, and does so no more (R517). -/
def State.loopWaited (s : State) (l : Loop) (due : Nat) : Bool := s.now ≤ (s.tile (bits l.handle 13 3)).quietEnd + (s.mt - due)

/-- A loop's sample is to be committed at this instant: 160 ns after it; in a follower also later, and where its tile switches its
source once it has done so (R227, R264, R517). -/
def State.commitDue (s : State) (l : Loop) : Option LoopSmp :=
  l.smp.filter (fun m => s.modes.mode == .run && !(s.tileWaits (bits l.handle 13 3)) &&
    (s.mt == m.mt + 160 || (m.mt + 160 ≤ s.mt && (s.modes.role == .follow || s.loopWaited l (m.mt + 160)))))

/-- What a sample's commit makes of a loop with its events, and whether it commits: a lost sample, the first valid one after a
loss, or a normal one (R232 to R240, R245). -/
def State.commitSample (s : State) (l : Loop) (m : LoopSmp) : Loop × State × Bool :=
  if m.lost then
    if l.lrec.lostSafe then
      ({ l with smp := none, srcLost := true, pend := some (l.lrec.outputAt m.mt, none), status := l.status ||| 0x200 }, s, false)
    else (l.commitAgain m true, s, true)
  else if l.srcLost then
    let s1 := s.event 0x0806 [l.handle]
    if l.lrec.lostSafe then
      ({ l.start (l.startSp m) m.y with smp := none, status := l.status &&& ~~~0x200#32 }, s1, false)
    else
      ({ (l.commitAgain m false) with
          dstate := if l.lrec.type ≤ 3 then f0 else l.dstate, prev := l.prevOf l.rNext m.y, pv := m.y, sp := l.rNext },
       s1, true)
  else
    let (x, bad) := l.commitNormal m
    let s1 := if bad && !l.status.getLsbD 13 then s.event 0x0808 [l.handle] else s
    let s2 := if m.dyn.isSome && m.dynBad && !l.status.getLsbD 11 then s1.event 0x0809 [l.handle] else s1
    (x, s2, true)

/-- A loop's commit with what follows at its instant: digest, stream, a parameter set that falls due, and the run-ahead. -/
def State.commitLoop (s : State) (l : Loop) (m : LoopSmp) : State :=
  let k := LoopConst.of l.lrec.period l.par
  let (l1, s1, commits) := s.commitSample l m
  let s2 := if commits then ((s1.setLoop l1.show_).loopDigest l1).postLoop l1 m.mt else s1.setLoop l1
  let s3 := s2.parDue l.handle m.mt (if m.lost then none else some (l1.sp, m.y))
  match s3.loop l.handle with
  | none => s3
  | some l2 => s3.setLoop (if l2.mode = 2 then { l2 with spLost := m.spLost } else l2.runAhead m k.t)

/-- LOOP_COMMIT: 160 ns after the sample. -/
def execLoopCommit (t : Nat) (handle : BitVec 16) (s : State) : Host.Outcome State Fault Refusal :=
  let s0 := s.tick t
  .next (match s0.loop handle.toNat with
    | none => s0
    | some l =>
      match s0.commitDue l with
      | none => s0
      | some m => s0.commitLoop l m)

/-! ### Output (R228, R245, Table 7-9) -/

/-- A destination takes a value, or its safe state, at an output instant; `lost`: the loop's own source is lost. -/
def State.loopDrive (s : State) (at_ : Nat) (w : BitVec 32) (v : Option F) (lost : Bool) : State :=
  let r := srcRef w
  match srcKind w, v with
  | 1, some x => s.setFao (bits r 0 2) ((s.fao (bits r 0 2)).commit x)
  | 1, none => s.setFao (bits r 0 2) { s.fao (bits r 0 2) with committed := false }
  | 2, some x => s.setCl (bits r 0 3) ((s.cl (bits r 0 3)).commit x)
  | 2, none => s.setCl (bits r 0 3) { s.cl (bits r 0 3) with committed := false }
  | 3, some x => { s with ring := { s.ring with outVals := tset s.ring.outVals (bits r 0 16) (x, lost) } }
  | 3, none => { s with ring := { s.ring with outVals := terase s.ring.outVals (bits r 0 16) } }
  | 4, some x =>
    let c := s.chan (bits r 0 3)
    s.setChan (bits r 0 3) { c with vals := tset c.vals (slotKey (bits r 8 6) (bits r 16 5)) (u32 x.toNat) }
  | 4, none =>
    let c := s.chan (bits r 0 3)
    s.setChan (bits r 0 3) { c with vals := terase c.vals (slotKey (bits r 8 6) (bits r 16 5)) }
  | 5, some x =>
    let t := s.task (bits r 18 6)
    let o := bits r 0 18 * 4
    s.setTask (bits r 18 6) { t with
      loopIn := tset t.loopIn o (at_, x), loopInOld := keepOld (·.1) t.loopIn t.loopInOld o (at_, x) }
  | _, _ => s

/-- The destinations of a loop apply its committed values where its output instant has come. -/
def State.outputLoop (s : State) (l : Loop) : State :=
  match l.pend with
  | none => s
  | some (at_, v) =>
    if s.modes.mode != .run || s.mt < at_ || s.tileWaits (bits l.handle 13 3) then s
    else
      let s1 := (s.setLoop { l with pend := none }).loopDrive at_ l.lrec.dest (v.map (·.1)) l.srcLost
      match l.ext with
      | some e => if e.ny = 2 then s1.loopDrive at_ e.dest2 (v.map (·.2)) l.srcLost else s1
      | none => s1

/-- LOOP_OUTPUT: the destinations apply the committed values at the output instant. -/
def execLoopOutput (t : Nat) (handle : BitVec 16) (s : State) : Host.Outcome State Fault Refusal :=
  let s0 := s.tick t
  .next (match s0.loop handle.toNat with
    | none => s0
    | some l => s0.outputLoop l)

/-- Every output instant that has come. -/
def State.outputsDue (s : State) : State := s.loops.loops.foldl (fun (st : State) e =>
  match st.loop e.1 with | some l => st.outputLoop l | none => st) s

/-! ### Parameters, modes, reading (R258 to R267) -/

/-- LOOP_PARAM: under the region rule in RUN; in HOLD the block is applied at acceptance. -/
def execLoopParam (rid : Nat) (s : State) : Host.Outcome State Fault Refusal :=
  .next (s.onReq rid 0x0301 (fun r =>
    let h := r.value
    let p := LoopPar.read r.buf
    match s.loop h with
    | none => s.complete r stNotPresent
    | some l =>
      if s.modes.mode != .run then s.applyPar l rid p s.mt none
      else
        match l.parRun, l.parWait with
        | none, _ => (s.setLoop { l with parRun := some (rid, p, s.accMt r) }).running rid
        | some _, none => (s.setLoop { l with parWait := some (rid, p, s.accMt r) }).running rid
        | some _, some (old, _, _) =>
          let s1 := ((s.setLoop { l with parWait := some (rid, p, s.accMt r) }).running rid).event 0x0804 [h]
          match s1.findReq old with
          | some q => s1.complete q stSuperseded
          | none => s1))

/-- LOOP_MODE. -/
def execLoopMode (rid : Nat) (s : State) : Host.Outcome State Fault Refusal :=
  .next (s.onReq rid 0x0302 (fun r =>
    let h := r.value
    let m := r.aux.toNat
    match s.loop h with
    | none => s.complete r stNotPresent
    | some l =>
      if m = 2 && (s.outerOf h).isNone then s.complete r stNotPresent
      else if s.modes.mode != .run then (s.loopModeTo l m).complete r stOk s.mt
      else (s.setLoop { l with modeReqs := l.modeReqs ++ [(rid, m, s.accMt r)] }).running rid))

/-- STATUS as LOOP_READ shows it: MODE 4 in HOLD and MAINTENANCE (R249). -/
def State.loopStatus (s : State) (w : BitVec 32) : Nat :=
  if s.modes.mode == .hold || s.modes.mode == .maintenance then w.toNat / 8 * 8 + 4 else w.toNat

/-- The record with its state words as the last commit left them, and the extension block of a type 5 loop (R265, R266). -/
def State.loopBytes (s : State) (l : Loop) : List Byte :=
  let v := l.shown
  l.lrec.head ++ v.par.bytes ++ fbytes [v.integ, v.dstate, v.prev, v.out, v.sp, v.pv] ++ u32 (s.loopStatus v.status) ++
  u32 v.count ++ (match l.ext with | some e => { e with x := v.x, out2 := v.out2 : Ext }.bytes | none => [])

/-- LOOP_READ. -/
def execLoopRead (rid : Nat) (s : State) : Host.Outcome State Fault Refusal :=
  .next (s.onReq rid 0x0303 (fun r =>
    match s.loop r.value with
    | none => s.complete r stNotPresent
    | some l => s.complete r stOk (data := some (s.loopBytes l))))

/-- LOOP_SUBSCRIBE. -/
def execLoopSubscribe (rid : Nat) (handle : BitVec 32) (s : State) : Host.Outcome State Fault Refusal :=
  .next (s.onReq rid 0x0304 (fun r =>
    match s.loop r.value with
    | none => s.complete r stNotPresent
    | some _ => s.subscribe r { handle := handle, opcode := 0x0304, ctx := bits r.aux.toNat 0 8, target := r.value
                                param := bits r.aux.toNat 8 24 }))

/-! ### HOLD and restart (R256, R265) -/

/-- At the hold instant every loop stops without a commit; parameter sets and modes that wait are applied there. -/
def State.holdLoops (s : State) : State :=
  s.loops.loops.foldl (fun (st : State) e =>
    let h := e.1
    let par (st : State) : State := match st.loop h with
      | some l => match l.parRun with | some (rid, p, _) => st.applyPar l rid p st.mt none | none => st
      | none => st
    let st1 := par (par st)
    match st1.loop h with
    | none => st1
    | some l =>
      let st2 := st1.setLoop { l with smp := none, pend := none, modeReqs := [] }
      l.modeReqs.foldl (fun (x : State) (rid, m, _) =>
        match x.loop h with
        | none => x
        | some q =>
          let x1 := x.loopModeTo q m
          match x1.findReq rid with
          | some r => if r.opcode == 0x0302 then x1.complete r stOk x1.mt else x1
          | none => x1) st2) s

/-- The stored set takes effect at a restart: modes from the records or, warm, as they were committed last, which the next
unit holds (R248, R256, R261, Table 4-7). -/
def State.startLoops (s : State) (warm : Bool) : State :=
  let l := s.loops.stored
  let mode (r : LoopRec) : Nat :=
    let m := if warm then tget s.loops.modesMram r.handle.toNat (bits r.ctrl 0 2) else bits r.ctrl 0 2
    if m = 2 && !(l.hasOuter r) then bits r.ctrl 0 2 else m
  { s with loops := { s.loops with
      loops := l.recs.foldl (fun t r => tset t r.handle.toNat (l.fresh r (mode r))) []
      window := []
      modesMram := l.recs.foldl (fun t r => tset t r.handle.toNat (mode r)) [] } }

end Sys2Proof.Machine
end

