-- ==== Sys2Proof/Machine/Inputs.lean ====
section
/-! DEFINITION. Machine/Inputs.lean: input images of tasks, forces on images, and what a harvest applies to the outputs
(R150, R151, R154 to R156, R180, R437, R443, R464, R471). -/

namespace Sys2Proof.Machine

/-! ### Sections (Table 5-2) -/

/-- The image of a section's source that is complete at a latch: header values, data, and whether the source is lost. -/
structure Sect2 where
  mt : Nat := 0
  seq : Nat := 0
  data : List Byte := []
  lost : Bool := false

/-- What tells one image of a source from another: its sample time and sequence number. -/
def sectKey (mt seq : Nat) : Nat := mt * 2 ^ 32 + seq

/-- Bytes of a section of a width: NONE without an image, LOST, FRESH, or REPEAT of the image seen last. -/
def sectionOf (width source : Nat) (seen : Option Nat) : Option Sect2 → List Byte
  | none => (sectHeader 0 0 3 source ++ zeros (width - 16)).take width
  | some x =>
    let st := if x.lost then 2 else if seen = some (sectKey x.mt (x.seq % 2 ^ 32)) then 1 else 0
    let b := sectHeader x.mt x.seq st source ++ x.data
    b.take width ++ zeros (width - b.length)

/-- A value entry, a block or a trip report as a section carries it (R443, log 50). -/
def ringData (id : Nat) (v : RingVal) : List Byte :=
  if id < 0x8000 then u16 id ++ u8 v.vflags ++ zeros 1 ++ u32 v.value.toNat else v.data

/-- Ring images count once they arrived after the last restart. -/
def State.ringSect (s : State) (data : RingVal → List Byte) (more : Bool) (v : Option RingVal) : Option Sect2 :=
  (v.filter (fun x => s.modes.rstNow ≤ x.rxAt)).map (fun x =>
    { mt := x.stamp.toNat, seq := x.seq.toNat, data := data x, lost := x.lost || more })

/-- The latest frame of a receive filter before an instant (R464). -/
def State.canSect (s : State) (at_ ch filter : Nat) : Option Sect2 :=
  let c := s.chan ch
  ((s.latestBefore at_ (·.at_) (tfind c.rx filter) (tfind c.rxOld filter)).filter (fun x =>
      x.count != 0 && s.modes.rstNow ≤ x.at_)).map (fun x =>
    { mt := x.stamp, seq := x.count, data := frameRecord x.f x.own filter
      lost := x.lost || c.state == 2 || !c.enabled })

/-- The string item of a port, or the plant item, as published last before an instant (R341, R334). -/
def State.estSect (s : State) (at_ : Nat) (plant : Bool) (port : Nat) : Option Sect2 :=
  let p := s.pubs at_
  let cur : Option Agg := if plant then some p.plant else tfind p.agg port
  let good : Option Agg := if plant then p.plantGood else tfind p.good port
  let there : Bool := if plant then s.cells.plan.isSome else (s.portPlan port).isSome
  let period : Nat := match s.cells.plan with | some c => c.sweepPeriod * 1000000 + 500000 | none => 0
  if !there then none
  else
    (good.filter (fun a => s.modes.rstMt ≤ a.sampleMt + period)).map (fun a =>
      { mt := a.sampleMt, seq := a.seq, data := a.bytes (if plant then 0xFF else port)
        lost := match cur with | some c => c.lost | none => true })

/-! ### Field inputs (Table 14-2) -/

def State.diIn (s : State) (n : Nat) : Bool := s.diAt n s.mt && !(s.di n).wb

/-- Bytes of a field input binding. -/
def State.fioIn (s : State) (ref : Nat) : List Byte :=
  let g := bits ref 8 8
  let c := bits ref 0 8
  match g with
  | 0 =>
    if c = 0xFF then u32 (mask 32 s.diIn) ++ u32 (mask 32 (fun n => (s.di n).wb))
    else u8 (b2n (s.diIn c)) ++ u8 (b2n (s.di c).wb) ++ zeros 6
  | 2 =>
    let x := s.clAt c s.mt
    u32 x.value.toNat ++ u32 x.ma.toNat ++ u32 ((s.setCl c x).clStatus c) ++ zeros 4
  | 3 => u32 (tget s.fio.fai c 0).toNat ++ u32 (b2n (s.fio.faiOver.getLsbD c))
  | 5 =>
    let p := s.pulse c
    u64 (ev (p.countAt s.mt)) ++ u32 (p.freqAt s.mt).toNat ++ u32 (p.periodNs s.mt) ++ u32 p.status ++ zeros 4
  | _ => []

/-- Bytes of an IN binding at a latch instant, given the image of its section seen last. -/
def State.bindIn (s : State) (at_ : Nat) (seen : Option Nat) (b : Bind) : List Byte :=
  let r := b.ref.toNat
  match b.kind with
  | 0 => s.fioIn r
  | 1 =>
    let n := bits r 0 6
    sectionOf b.width n seen (s.ringSect (·.data) s.isolated (s.dropImage at_ n))
  | 2 =>
    let id := bits r 0 16
    let v := s.ringVal at_ id
    sectionOf b.width (match v with | some x => x.src | none => 0) seen (s.ringSect (ringData id) false v)
  | 3 => sectionOf b.width (bits r 0 3) seen (s.canSect at_ (bits r 0 3) (bits r 8 24))
  | 5 => mread (s.task (bits r 0 6)).outForced (bits r 32 23) b.width
  | 6 =>
    let plant := bits r 8 8 == 0xC1
    sectionOf b.width (if plant then 0xFF else bits r 0 4) seen (s.estSect at_ plant (bits r 0 4))
  | _ => []

/-- The input bindings of a task with their places in its table. -/
def TaskDef.inBinds (d : TaskDef) : List (Bind × Nat) := (d.binds.zipIdx).filter (fun (b, _) => b.space == 0)

/-- The input image that the module acquires for a task: its bindings, then the words of VARIABLE loop destinations. -/
def State.acquire (s : State) (at_ : Nat) (d : TaskDef) (tk : Task) : Mem :=
  let m := d.inBinds.foldl (fun m (x : Bind × Nat) => mwrite m x.1.offset (s.bindIn at_ (tfind tk.seen x.2) x.1)) ([] : Mem)
  tk.loopIn.foldl (fun m (o, w) =>
    match (if w.1 < at_ then some w else (tfind tk.loopInOld o).filter (fun x => x.1 < at_)) with
    | some x => mwrite m o (u32 x.2.toNat)
    | none => m) m

/-- The section images that a task has seen with an acquired image, this module's own or its lead's: a section of STATE NONE
brings none (Table 5-2). -/
def TaskDef.seenIn (d : TaskDef) (img : Mem) (seen : Tab Nat) : Tab Nat :=
  d.inBinds.foldl (fun t (x : Bind × Nat) =>
    let h := mread img x.1.offset 16
    if [1, 2, 3, 6].contains x.1.kind && rd h 12 1 != 3 then tset t x.2 (sectKey (rd h 0 8) (rd h 8 4)) else t) seen

/-! ### Forces (R180 to R182) -/

def Force.at_ (f : Force) (task sp : Nat) : Bool := handleTask f.handle == task && handleSpace f.handle == sp

def Force.same (f g : Force) : Bool := f.handle == g.handle && f.width == g.width

/-- At a latch or harvest point the changes of a task's forces in a space that were accepted at least 50 us before take
effect (R180 to R182). -/
def State.syncForces (s : State) (task sp : Nat) : State :=
  let p := s.prog
  let young (acc : Nat) : Bool := s.mt < acc + 50000
  let keep (f : Force) : Bool :=
    p.forces.any (fun g => g.same f && young g.acc) ||
    (!(p.forces.any (fun g => g.same f)) && p.released.any (fun (h, acc) => h == f.handle && young acc))
  let old := p.effForces.filter (fun f => !(f.at_ task sp) || keep f)
  let new := p.forces.filter (fun f => f.at_ task sp && !(young f.acc))
  { s with prog := { p with effForces := old ++ new } }

/-- The refresh of MAINTENANCE puts every change into effect (R141). -/
def State.syncAll (s : State) : State := { s with prog := { s.prog with effForces := s.prog.forces, released := [] } }

/-- Lay the forces of a task's space over an image. -/
def State.forceOver (s : State) (task sp : Nat) (m : Mem) : Mem :=
  (s.prog.effForces.filter (fun f => f.at_ task sp)).foldl (fun a f =>
    mwrite a (handleOff f.handle) (leBytes f.width f.value.toNat)) m

/-- What a source or a binding reads of every task before its first harvest: OUT as initialised, forces over it (R180, R241). -/
def State.showOuts (s : State) : State :=
  { s with prog := { s.prog with
    tasks := s.prog.tasks.map (fun e => (e.1, { e.2 with outForced := s.forceOver e.1 1 e.2.sp.out })) } }

/-! ### Outputs of a harvest (R151) -/

/-- A committed value reaches a field output. -/
def State.fioOut (s : State) (ref : Nat) (b : List Byte) : State :=
  let c := bits ref 0 8
  match bits ref 8 8 with
  | 1 =>
    if c = 0xFF then (List.range 16).foldl (fun st n => st.setDo n ((st.do_ n).commit (bit (rd b 0 2) n))) s
    else s.setDo c ((s.do_ c).commit (bit (rd b 0 1) 0))
  | 2 => s.setCl c ((s.cl c).commit (rdW b 0))
  | 4 => s.setFao c ((s.fao c).commit (rdW b 0))
  | _ => s

/-- Apply an OUT binding's bytes at a harvest point. -/
def State.bindOut (s : State) (hp : Nat) (b : Bind) (bs : List Byte) : State :=
  let r := b.ref.toNat
  match b.kind with
  | 0 => s.fioOut r bs
  | 1 => { s with ring := { s.ring with dropOut := tset s.ring.dropOut (bits r 0 6) bs } }
  | 2 =>
    let id := bits r 0 16
    if id < 0x8000 then { s with ring := { s.ring with taskVals := tset s.ring.taskVals id (rdW bs 0) } }
    else { s with ring := { s.ring with blocks := tset s.ring.blocks id (bs, hp), blockDue := s.ring.blockDue ++ [id] } }
  | 4 =>
    let ch := bits r 0 3
    let c := s.chan ch
    s.setChan ch { c with vals := tset c.vals (slotKey (bits r 8 6) (bits r 16 5)) bs }
  | _ => s

/-- Apply a task's committed OUT image to its bindings. -/
def State.applyOuts (s : State) (d : TaskDef) (hp : Nat) : State :=
  let m := (s.task d.task).outForced
  (d.binds.filter (fun b => b.space == 1)).foldl (fun st b => st.bindOut hp b (mread m b.offset b.width)) s

end Sys2Proof.Machine
end

