-- ==== Sys2Proof/Machine/Tasks.lean ====
section
/-! DEFINITION. Machine/Tasks.lean: task cycles, online change, forcing, reading of variables and the stored program
(05_cycle_execution.md). -/

namespace Sys2Proof.Machine

/-! ### Instants and charged time (R148, R162) -/

/-- The module executes cycles: RUN, an admitted task set, and a role that runs it. -/
def State.runsTasks (s : State) : Bool :=
  s.modes.mode == .run && s.prog.admitted &&
  (s.modes.role == .simplex || s.modes.role == .lead || s.modes.role == .follow)

/-- Start of cycle n of a task: S + n PERIOD. -/
def State.cycleAt (s : State) (d : TaskDef) (n : Nat) : Nat := s.prog.anchor + n * d.period * 10000

def TaskDef.harvestNs (d : TaskDef) : Nat := d.harvest * 10000

/-- 80 % of BUDGET, and the watchdog limit, in 100 ns units (R163, R164). -/
def TaskDef.warnAt (d : TaskDef) : Nat := ceilDiv (d.budget * 80) 100
def TaskDef.limit (d : TaskDef) : Nat := ceilDiv d.charge 100

/-- Charged time of a cycle that ends: 0 where it was complete before its latch, else a free value between what its
budget warning showed and the next threshold (R162, log 11). -/
def State.drawCharge (s : State) (d : TaskDef) (c : Cyc) : Nat × State :=
  if c.prior then (0, s)
  else
    let hi := if c.warned then d.limit else d.warnAt
    (c.charged + (Config.freeWord s.free).toNat % max 1 (hi - c.charged), { s with free := s.free + 1 })

/-! ### Latch (R150, R157 to R160, R194) -/

/-- A cycle as it starts from the checkpoint. -/
def freshCycle (d : TaskDef) (tk : Task) (n start : Nat) (img : Mem) (spec : Bool) : Cyc :=
  { n := n, start := start, spec := spec, regs := tset [] 30 (BitVec.ofNat 64 d.stkSize), pc := d.entry, img := img
    sp := { tk.sp with stk := [] } }

/-- A speculative cycle's recorded words are equal in the new image. -/
def sameWords (c : Cyc) (img : Mem) : Bool := c.readSet.all (fun w => mread c.img (8 * w) 8 == mread img (8 * w) 8)

/-- A confirmed speculation: what it held takes effect now (R159, R160, R223). -/
def State.confirm (s : State) (n : Nat) (tk : Task) (c : Cyc) (img : Mem) : State :=
  let c1 : Cyc := { c with spec := false, img := img, held := false, trap := none, prior := c.done }
  let s1 := s.setTask n { tk with cyc := some c1, confirmed := satInc tk.confirmed }
  let s2 := if c.filterFull then s1.event 0x0709 [n] else s1
  let s3 := if c.divZero && !tk.fault.getLsbD 0 then s2.event 0x070B [n, c.divZeroPc] else s2
  match c.trap with
  | some (b, pc) => s3.taskFault n b pc
  | none => s3

/-- A cycle start with its latched image, over which the task's IN forces are laid; `lat` is the mirror latency in a
follower. -/
def State.latch (s : State) (d : TaskDef) (tk : Task) (start : Nat) (raw : Mem) (lat : Nat) : State :=
  let img := s.forceOver d.task 0 raw
  let base : Task := { tk with
    img := img, seen := d.seenIn raw tk.seen, mirrored := none, nextN := tk.nextN + 1, everLatched := true }
  let fresh := { freshCycle d tk tk.nextN start img false with lat := lat }
  match tk.cyc with
  | some c =>
    if c.n == tk.nextN && sameWords c img then s.confirm d.task base { c with lat := lat } img
    else s.setTask d.task { base with cyc := some fresh, squashes := satInc tk.squashes }
  | none => s.setTask d.task { base with cyc := some fresh }

/-! ### Watchdog (R163, R164) -/

/-- BUDGET_WARNING. -/
def execBudgetWarning (t : Nat) (task : Fin 64) (charged : Nat) (s : State) : Host.Outcome State Fault Refusal :=
  let s0 := s.tick t
  let n := task.val
  let tk := s0.task n
  .next (match s0.taskDef n, tk.cyc with
    | some d, some c =>
      if !s0.runsTasks || c.spec || c.warned || c.done || charged * 100 < d.budget * 80 then s0
      else
        (s0.setTask n { tk with cyc := some { c with warned := true, charged := charged }
                                warnings := satInc tk.warnings }).event 0x0701 [n, charged]
    | _, _ => s0)

/-- The cycle watchdog trips: the cycle is abandoned, event 0x0700, the watchdog trip source, HOLD with cause 4. -/
def State.watchdogTrip (s : State) (n charged : Nat) : State :=
  let tk := s.task n
  let s1 := (s.setTask n { tk.setFault 4 with cyc := none, overruns := satInc tk.overruns }).event 0x0700 [n, charged]
  (({ s1 with trip := { s1.trip with watchdog := true } }).tripSettle).stationHold 4 n

/-- WATCHDOG_TRIP: the charged time of an incomplete cycle reaches the limit. -/
def execWatchdogTrip (t : Nat) (task : Fin 64) (charged : Nat) (s : State) : Host.Outcome State Fault Refusal :=
  let s0 := s.tick t
  let n := task.val
  .next (match s0.taskDef n, (s0.task n).cyc with
    | some d, some c =>
      if !s0.runsTasks || c.spec || c.done || charged * 100 < d.charge then s0 else s0.watchdogTrip n charged
    | _, _ => s0)

/-! ### Online-change sets (R73, R75, R175 to R178, R184) -/

def OcSet.tasks (o : OcSet) : List Nat := (o.entries.map (fun e => handleTask e.handle)).eraseDups

def OcSet.shares (a b : OcSet) : Bool := a.tasks.any b.tasks.contains

/-- Store a value in a space of a task. -/
def Task.put (t : Task) (h : BitVec 32) (b : List Byte) : Task :=
  let o := handleOff h
  match handleSpace h with
  | 1 => { t with sp := { t.sp with out := mwrite t.sp.out o b } }
  | 2 => { t with sp := { t.sp with var := mwrite t.sp.var o b } }
  | 3 => { t with sp := { t.sp with ret := mwrite t.sp.ret o b } }
  | 4 => { t with con := mwrite t.con o b }
  | _ => t

def VarEntry.bytes (e : VarEntry) : List Byte := leBytes e.width e.value.toNat

/-- A force in effect covers a byte of a variable. -/
def State.covered_ (s : State) (e : VarEntry) : Bool :=
  (List.range e.width).any (fun i =>
    (forcedByte s.prog.effForces (handleTask e.handle) (handleSpace e.handle) (handleOff e.handle + i)).isSome)

/-- Apply the entries of a set that write a task, in buffer order, underneath any force. -/
def State.applySet (s : State) (o : OcSet) (n at_ : Nat) : State × OcSet :=
  let es := o.entries.filter (fun e => handleTask e.handle == n)
  let s1 := es.foldl (fun st e => st.setTask n ((st.task n).put e.handle e.bytes)) s
  let hit := es.filter s1.covered_
  let s2 := hit.foldl (fun st e => st.event 0x070A [e.handle.toNat]) s1
  (s2.event 0x0703 [n, es.length],
   { o with left := o.left.filter (· != n), forced := o.forced || !hit.isEmpty
            harvests := if o.harvests = 0 || o.lastHarvest != at_ then o.harvests + 1 else o.harvests, lastHarvest := at_ })

/-- The completion of a set that has been applied everywhere (R178). -/
def State.setDone (s : State) (o : OcSet) : State :=
  match s.findReq o.rid with
  | some r =>
    if r.opcode == 0x0203 then
      s.complete r (if o.forced then stForced else stOk) o.lastHarvest
        (o.harvests * 256 + (if 1 < o.harvests then 2 else 0))
    else s
  | none => s

/-- A set is applied whole at an instant (R75, R138). -/
def State.applyWhole (s : State) (o : OcSet) : State :=
  let r : State × OcSet := o.left.foldl (fun (x : State × OcSet) n => x.1.applySet x.2 n s.mt) (s, o)
  (r.1.commitTasks o.tasks).setDone r.2

/-- Sets that wait and share no task with a running set begin: they run in RUN, and are applied at once elsewhere. -/
def State.startSets (s : State) : State :=
  s.prog.waiting.foldl (fun (st : State) o =>
    if st.prog.running.any o.shares then st
    else
      let st1 := { st with prog := { st.prog with waiting := st.prog.waiting.filter (fun x => x.rid != o.rid) } }
      if st1.modes.mode == .run then { st1 with prog := { st1.prog with running := st1.prog.running ++ [o] } }
      else st1.applyWhole o) s

/-- At the hold instant running sets are applied whole, and then what waited (R138). -/
def State.holdSets (s : State) : State :=
  let run := s.prog.running
  let s1 := { s with prog := { s.prog with running := [] } }
  let s2 := run.foldl (fun (st : State) o => st.applyWhole o) s1
  let wait := s2.prog.waiting
  wait.foldl (fun (st : State) o => st.applyWhole o) { s2 with prog := { s2.prog with waiting := [] } }

/-! ### Harvest (R151 to R153, R177) -/

/-- The harvest digest (Table 10-2): words written, entries applied, sticky fault bits. -/
def harvestDigest (n : Nat) (c : Cyc) (entries : List VarEntry) (fault : BitVec 32) : BitVec 64 :=
  let space (sp : Nat) : Mem := match sp with | 1 => c.sp.out | 2 => c.sp.var | 3 => c.sp.ret | _ => c.sp.inst
  let ws := [1, 2, 3, 5].flatMap (fun sp =>
    ((c.written.filter (fun w => w.1 == sp)).map (·.2)).mergeSort.flatMap (fun k =>
      u8 sp ++ u32 (8 * k) ++ mread (space sp) (8 * k) 8))
  let es := entries.flatMap (fun e => u32 e.handle.toNat ++ u8 e.width ++ zeros 3 ++ u64 e.value.toNat)
  crc64 (u8 n ++ u64 c.n ++ ws ++ es ++ u32 (fault.toNat % 32))

/-- A variable entry as it is returned (Table 5-5). -/
def State.entryOut (s : State) (e : VarEntry) : List Byte :=
  let (v, forced) := s.varValue e.handle e.width
  u32 e.handle.toNat ++ u8 e.width ++ u8 (b2n forced) ++ zeros 2 ++ u64 v

/-- The commit of a complete cycle at its harvest point: the cycle's writes and outputs, then the entries of sets, the
retained unit, the fault bits, the digest, and the deliveries. -/
def State.harvest (s : State) (i : Image) (d : TaskDef) (c : Cyc) (hp : Nat) : State :=
  let n := d.task
  let s1 := s.syncForces n 1
  let tk := s1.task n
  let out := s1.forceOver n 1 c.sp.out
  let s2 := (s1.setTask n { tk with sp := c.sp, outForced := out, cyc := none }).applyOuts d hp
  let due := s2.prog.running.filter (fun o => o.left.contains n && o.acc + 50000 ≤ hp)
  let r : State × List OcSet := due.foldl (fun (x : State × List OcSet) o =>
    let (st, o1) := x.1.applySet o n hp
    (st, x.2 ++ [o1])) (s2, [])
  let upd (o : OcSet) : OcSet := (r.2.find? (fun x => x.rid == o.rid)).getD o
  let run := (r.1.prog.running.map upd).filter (fun o => !o.left.isEmpty)
  let s3 := { r.1 with prog := { r.1.prog with running := run } }
  let (ch, s4) := s3.drawCharge d c
  let tk2 := s4.task n
  let f1 := (if c.divZero then tk2.fault ||| 1#32 else tk2.fault)
  let f2 := (f1 &&& ~~~0x20#32) ||| (if c.filterFull then 0x20#32 else 0)
  let s5 := s4.setTask n { tk2 with
    fault := f2, harvested := true, cycles := tk2.cycles + 1, lastCharged := ch, maxCharged := max tk2.maxCharged ch
    lastHarvest := hp }
  let s6 := s5.commitUnit i n
  let es := due.flatMap (fun o => o.entries.filter (fun e => handleTask e.handle == n))
  let s7 := s6.digest .harvest n (harvestDigest n c es f2)
  let s8 := (s7.subsOf 0x0208).foldl (fun st x =>
    if x.target == n then st.deliver x.handle hp (x.entries.map st.entryOut) else st) s7
  let s9 := (r.2.filter (fun o => o.left.isEmpty)).foldl (fun st o => st.setDone o) s8
  s9.startSets

/-! ### Harvest points that have come (R151, R153, R164, R357) -/

/-- The harvest point of a task's cycle, if it has come. -/
def State.harvestAt (s : State) (d : TaskDef) : Option Nat :=
  match (s.task d.task).cyc with
  | some c => if c.spec || s.mt < c.start + d.harvestNs then none else some (c.start + d.harvestNs)
  | none => none

/-- A task's harvest point that has come: a complete cycle is committed; an incomplete one trips the watchdog, in a follower
only once its mirror latency has passed too (R357). -/
def State.harvestOne (s : State) (i : Image) (d : TaskDef) : State :=
  match (s.task d.task).cyc, s.harvestAt d with
  | some c, some hp =>
    if c.done then (if s.tileWaits d.die then s else s.harvest i d c hp)
    else if s.mt < hp + c.lat then s
    else
      let (ch, s1) := s.drawCharge d c
      s1.watchdogTrip d.task ch
  | _, _ => s

/-- Put a task and its harvest point in order: by instant, then by task number (R153). -/
def insertHarvest (x : Nat × TaskDef) : List (Nat × TaskDef) → List (Nat × TaskDef)
  | [] => [x]
  | y :: r => if x.1 < y.1 || (x.1 == y.1 && x.2.task < y.2.task) then x :: y :: r else y :: insertHarvest x r

/-- The harvest points that have come, in the order in which they commit. -/
def State.dueHarvests (s : State) (i : Image) : List (Nat × TaskDef) :=
  (i.tasks.filterMap (fun d => (s.harvestAt d).map (fun hp => (hp, d)))).foldr insertHarvest []

/-- Every harvest point that has come, or those up to a task's own, is carried out. -/
def State.harvestDue (s : State) (upTo : Option Nat) : State :=
  match s.prog.loaded with
  | none => s
  | some i =>
    if !s.runsTasks then s
    else
      let due := s.dueHarvests i
      let now_ : List (Nat × TaskDef) := match upTo with
        | none => due
        | some n => due.takeWhile (fun x => x.2.task != n) ++ due.filter (fun x => x.2.task == n)
      now_.foldl (fun (st : State) x => st.harvestOne i x.2) s

/-- HARVEST_POINT: the task's harvest point, after every other that fell before it (R151, R153). -/
def execHarvestPoint (t : Nat) (task : Fin 64) (s : State) : Host.Outcome State Fault Refusal :=
  let s0 := s.tick t
  let n := task.val
  .next (match (s0.taskDef n).bind s0.harvestAt with
    | some _ => s0.harvestDue (some n)
    | none => s0)

/-! ### Cycle starts -/

/-- CYCLE_START: every harvest point that has come commits first (R153); then the lead or a SIMPLEX module acquires the image,
and a lead mirrors it; a follower takes the image that its lead mirrored (R150, R156, R356, R357). -/
def execCycleStart (t : Nat) (task : Fin 64) (s : State) : Host.Outcome State Fault Refusal :=
  let s0 := s.tick t
  let n := task.val
  let h := s0.harvestDue none
  .next (match h.taskDef n with
    | none => s0
    | some d =>
      let tk := h.task n
      let start := h.cycleAt d tk.nextN
      let busy : Bool := match tk.cyc with | some c => !c.spec | none => false
      if !h.runsTasks || h.mt < start || busy || h.tileWaits d.die then s0
      else
        let s1 := h.syncForces n 0
        if h.modes.role == .follow then
          match tk.mirrored with
          | some (k, img) => if k = tk.nextN then s1.latch d tk start img tk.mirrorLat else s0
          | none => s0
        else
          let img := s1.acquire start d tk
          let s2 := if s1.leadsPair then s1.emit (.mirror (.taskImage n tk.nextN start (mbytes img d.inSize))) else s1
          s2.latch d tk start img 0)

/-- SPECULATION_START: after the harvest commit, at or after the next cycle start less the horizon, on a core that no
non-speculative work holds (R149, R157). -/
def execSpeculationStart (t : Nat) (task : Fin 64) (s : State) : Host.Outcome State Fault Refusal :=
  let s0 := s.tick t
  let n := task.val
  .next (match s0.prog.loaded, s0.taskDef n with
    | some i, some d =>
      let tk := s0.task n
      let next := s0.cycleAt d tk.nextN
      if !s0.runsTasks || d.horizon = 0 || tk.nextN = 0 || tk.cyc.isSome || next ≤ s0.mt ||
        s0.mt + d.horizon * d.period * 100 < next then s0
      else
        let c := freshCycle d tk tk.nextN next tk.img true
        if s0.coreWaits i d c then s0 else s0.setTask n { tk with cyc := some c }
    | _, _ => s0)

/-! ### Variable buffers (R170, R171) -/

def VarEntry.read (b : List Byte) : VarEntry :=
  { handle := rdW b 0, width := rd b 4 1, value := BitVec.ofNat 64 (rd b 8 8) }

def varEntries (b : List Byte) : List VarEntry := (entriesOf 16 (slice b 16 (16 * rd b 0 2))).map VarEntry.read

/-- Content of a variable buffer: COUNT, reserved bytes; of a change, FLAGS 0 and VALUE bytes beyond WIDTH 0. -/
def varBufOk (b : List Byte) (top : Nat) (change : Bool) : Bool :=
  let n := rd b 0 2
  1 ≤ n && n ≤ top && b.length == 16 + 16 * n + (if change then 16 else 0) && zeroAt b 2 14 &&
  (entriesOf 16 (slice b 16 (16 * n))).all (fun e =>
    zeroAt e 6 2 && (!change || (zeroAt e 5 1 &&
      (let w := rd e 4 1
       !(w == 1 || w == 2 || w == 4 || w == 8) || rd e 8 8 < 256 ^ w))))

/-- Index of the first entry that is not valid. -/
def State.badEntry (s : State) (u : VarUse) (es : List VarEntry) : Option Nat :=
  es.findIdx? (fun e => !(s.varValid u e.handle e.width))

/-- ONLINE_CHANGE: runs or waits in RUN; elsewhere it is applied whole (R73, R75). -/
def execOnlineChange (rid : Nat) (s : State) : Host.Outcome State Fault Refusal :=
  .next (s.onReq rid 0x0203 (fun r =>
    let es := varEntries r.buf
    match s.badEntry .change es with
    | some i => s.complete r stNotPresent i
    | none =>
      let o : OcSet := { rid := rid, entries := es, acc := s.accMt r, left := (es.map (fun e => handleTask e.handle)).eraseDups }
      let s1 := s.running rid
      if s.modes.mode != .run then s1.applyWhole o
      else
        let old := s1.prog.waiting.filter o.shares
        let s2 := { s1 with prog := { s1.prog with waiting := s1.prog.waiting.filter (fun w => !(o.shares w)) ++ [o] } }
        let s3 := old.foldl (fun (st : State) w =>
          let st1 := st.event 0x0704
          match st1.findReq w.rid with
          | some q => if q.opcode == 0x0203 then st1.complete q stSuperseded else st1
          | none => st1) s2
        s3.startSets))

/-! ### Forcing (R179 to R183) -/

/-- Byte ranges of two forces overlap. -/
def forceOverlap (h : BitVec 32) (w : Nat) (f : Force) : Bool :=
  handleTask h == handleTask f.handle && handleSpace h == handleSpace f.handle &&
  handleOff h < handleOff f.handle + f.width && handleOff f.handle < handleOff h + w

/-- The table with the entries of a set; none where an entry overlaps with another offset or width, or it is too
large. -/
def addForces (acc : Nat) : List Force → List VarEntry → Option (List Force)
  | fs, [] => if fs.length ≤ 1024 then some fs else none
  | fs, e :: r =>
    let same (f : Force) : Bool := f.handle == e.handle && f.width == e.width
    if fs.any (fun f => !(same f) && forceOverlap e.handle e.width f) then none
    else addForces acc (fs.filter (fun f => !(same f)) ++ [{ acc := acc, handle := e.handle, width := e.width, value := e.value }]) r

/-- A force change outside RUN enters a new retained unit of each task concerned. It acts at the next refresh of MAINTENANCE,
or at the next restart (R141, R181). -/
def State.forcesChanged (s : State) (handles : List (BitVec 32)) : State :=
  if s.modes.mode == .run then s else s.commitTasks (handles.map handleTask).eraseDups

/-- FORCE_SET. -/
def execForceSet (rid : Nat) (s : State) : Host.Outcome State Fault Refusal :=
  .next (s.onReq rid 0x0204 (fun r =>
    let es := varEntries r.buf
    match s.badEntry .force es with
    | some i => s.complete r stNotPresent i
    | none =>
      match addForces (s.accMt r) s.prog.forces es with
      | none => s.complete r stAdmission
      | some fs =>
        let s1 := { s with prog := { s.prog with forces := fs } }
        let s2 := es.foldl (fun st e => st.event 0x0705 [e.handle.toNat, e.value.toNat]) s1
        (s2.forcesChanged (es.map (·.handle))).complete r stOk))

/-- FORCE_RELEASE: one handle's force, or every force with TARGET NONE. -/
def execForceRelease (rid : Nat) (s : State) : Host.Outcome State Fault Refusal :=
  .next (s.onReq rid 0x0205 (fun r =>
    let all : Bool := r.kind == 0
    let gone : List Force := s.prog.forces.filter (fun f => all || f.handle.toNat == r.value)
    if gone.isEmpty && !all then s.complete r stNotPresent
    else
      let s1 := { s with prog := { s.prog with
        forces := s.prog.forces.filter (fun (f : Force) => !(all || f.handle.toNat == r.value))
        released := s.prog.released ++ gone.map (fun (f : Force) => (f.handle, s.accMt r)) } }
      let s2 := gone.foldl (fun st (f : Force) => st.event 0x0706 [f.handle.toNat]) s1
      (s2.forcesChanged (gone.map (·.handle))).complete r stOk))

/-- Forces in ascending handle order. -/
def sortForces (l : List Force) : List Force := l.mergeSort (fun (a b : Force) => a.handle.toNat ≤ b.handle.toNat)

/-- FORCE_LIST. -/
def execForceList (rid : Nat) (s : State) : Host.Outcome State Fault Refusal :=
  .next (s.onReq rid 0x0206 (fun r =>
    let fs := sortForces s.prog.forces
    let b := u16 fs.length ++ zeros 14 ++
      fs.flatMap (fun (f : Force) => u32 f.handle.toNat ++ u8 f.width ++ u8 1 ++ zeros 2 ++ u64 f.value.toNat)
    s.complete r stOk fs.length (data := some (b ++ zeros (16400 - b.length)))))

/-- FORCE_REFRESH: every 1 ms in MAINTENANCE the forces are laid directly over the images (R141). -/
def execForceRefresh (t : Nat) (s : State) : Host.Outcome State Fault Refusal :=
  let s0 := s.tick t
  .next (
    if s0.modes.mode != .maintenance || s0.now < s0.prog.refreshed + 1000000 then s0
    else
      let s1 := ({ s0 with prog := { s0.prog with refreshed := s0.now } }).syncAll
      s1.prog.tasks.foldl (fun (st : State) e =>
        let tk := st.task e.1
        st.setTask e.1 { tk with img := st.forceOver e.1 0 tk.img, outForced := st.forceOver e.1 1 tk.sp.out }) s1)

/-! ### Reading (R172 to R174) -/

/-- VAR_READ. -/
def execVarRead (rid : Nat) (s : State) : Host.Outcome State Fault Refusal :=
  .next (s.onReq rid 0x0207 (fun r =>
    let es := varEntries r.buf
    match s.badEntry .read es with
    | some i => s.complete r stNotPresent i
    | none => s.complete r stOk (data := some (r.buf.take 16 ++ es.flatMap s.entryOut))))

/-- VAR_SUBSCRIBE: every entry is of the task in AUX. -/
def execVarSubscribe (rid : Nat) (handle : BitVec 32) (s : State) : Host.Outcome State Fault Refusal :=
  .next (s.onReq rid 0x0208 (fun r =>
    let es := varEntries r.buf
    let n := bits r.aux.toNat 8 24
    match es.findIdx? (fun e => !(s.varValid .read e.handle e.width) || handleTask e.handle != n) with
    | some i => s.complete r stNotPresent i
    | none =>
      s.subscribe r { handle := handle, opcode := 0x0208, ctx := bits r.aux.toNat 0 8, target := n, entries := es }))

/-- SUB_CANCEL. -/
def execSubCancel (rid : Nat) (s : State) : Host.Outcome State Fault Refusal :=
  .next (s.onReq rid 0x0209 (fun r =>
    ({ s with host := { s.host with subs := s.host.subs.filter (fun x => x.handle.toNat != r.value) } }).complete r stOk))

/-- The 64 bytes of Table 5-6. -/
def State.taskStatus (s : State) (n : Nat) : List Byte :=
  match s.taskDef n with
  | none => zeros 64
  | some d =>
    let k := s.task n
    let st := if !s.prog.admitted then 3 else if s.modes.mode == .run then 1 else 2
    u8 st ++ u8 d.die ++ u8 d.priority ++ zeros 1 ++ u32 d.period ++ u32 d.budget ++ u32 k.lastCharged ++ u32 k.maxCharged ++
    u32 k.warnings ++ u64 k.cycles ++ u32 k.squashes ++ u32 k.confirmed ++ u32 k.fault.toNat ++ u32 k.overruns ++
    u64 k.lastHarvest ++ u32 k.skipped ++ zeros 4

/-- TASK_STATUS. -/
def execTaskStatus (rid : Nat) (s : State) : Host.Outcome State Fault Refusal :=
  .next (s.onReq rid 0x020A (fun r => s.complete r stOk (data := some (s.taskStatus r.value))))

/-! ### Program image (R190, R191) -/

/-- PROG_INFO: CRC-32 of the image that PROG_LOAD loaded, 0 when none (log 26). -/
def execProgInfo (rid : Nat) (s : State) : Host.Outcome State Fault Refusal :=
  .next (s.onReq rid 0x0200 (fun r =>
    s.complete r stOk (match s.prog.stored with | some i => i.crc.toNat | none => 0)))

/-- Status of an image's checks past its structure: CMAC, then variant and dies (R187, R190). -/
def State.imageStatus (s : State) (b : List Byte) (i : Image) : Nat :=
  if !(s.imageAuth b) then stAuthFail else if !(s.imagePresent i) then stNotPresent else stOk

/-- PROG_LOAD: the image is stored by FLASH_STORE_DONE. A buffer tag of 16 bytes follows no image (R98, R185). While another
image is being stored the request waits at step 9: DESIGN CHOICE, log 99. -/
def execProgLoad (rid : Nat) (s : State) : Host.Outcome State Fault Refusal :=
  .next (s.onReq rid 0x0201 (fun r =>
    if s.prog.storing.isSome then s
    else
      match parseImage r.buf with
      | none => s.complete r stBad 5
      | some i =>
        let st := s.imageStatus r.buf i
        if st != stOk then s.complete r st
        else ({ s with prog := { s.prog with storing := some (rid, i) } }).running rid))

end Sys2Proof.Machine
end

