-- ==== Sys2Proof/Machine/Instants.lean ====
section
/-! DEFINITION. Machine/Instants.lean: commands of an instant that read what tasks and loops commit at that instant: a loop's
sample, a ring cycle and its C1 slots, a CAN slot (R151, R153, R241, R246, Table 7-9). -/

namespace Sys2Proof.Machine

/-- The outer loop of a cascade commits before its inner loop samples at the same instant (R246). -/
def State.outerFirst (s : State) (h : Nat) : State :=
  match s.outerOf h with
  | some o => (match s.commitDue o with | some m => s.commitLoop o m | none => s)
  | none => s

/-- LOOP_SAMPLE: after the harvest points that have come and an outer loop's commit of this instant (R241, R246), sample, set-point source, destination report and clamp are latched; in a pair they are mirrored. -/
def execLoopSample (t : Nat) (handle : BitVec 16) (s : State) : Host.Outcome State Fault Refusal :=
  let h := handle.toNat
  let s0 := ((s.tick t).harvestDue none).outerFirst h
  .next (match s0.loop h with
    | none => s0
    | some l =>
      if s0.modes.mode != .run || s0.modes.role == .follow || l.smp.isSome || !(l.lrec.isSample s0.mt) ||
        s0.mt < s0.modes.rstMt then s0
      else
        let (y, lostY) := s0.loopSource s0.mt l.lrec.sampleSrc l.lrec.period
        let two : Option Ext := l.ext.filter (fun e => e.nu == 2)
        let (s2, lost2) := match two with | some e => s0.loopSource s0.mt e.sample2 l.lrec.period | none => (f0, false)
        let (sp, spLost) := s0.loopSource s0.mt l.lrec.spSrc l.lrec.period
        let (dyn, bad) := s0.clampOf s0.mt l
        let sat := s0.destReport l.lrec.dest || (match l.ext with | some e => e.ny == 2 && s0.destReport e.dest2 | none => false)
        let track : Option F := if srcKind l.lrec.dest = 6 then
            (match s0.loop (srcRef l.lrec.dest) with | some q => if q.mode = 2 then none else some q.sp | none => none)
          else none
        let m : LoopSmp := {
          mt := s0.mt, y := y, s2 := s2, lost := lostY || lost2 || fbad y || fbad s2, sp := sp
          spLost := srcKind l.lrec.spSrc != 0 && (spLost || fbad sp), destSat := sat, dyn := dyn, dynBad := bad
          track := track }
        let s1 := if s0.leadsPair then s0.emit (.mirror (.loopSample h m.mt y s2 sp m.lost m.spLost sat)) else s0
        s1.takeSample h m)

/-- RING_CYCLE_OPEN: what tasks committed at or before it goes out from this cycle on (R151); the cycle's number, a pending configuration, mastership and SYNC, DROP_OUT and BLOCK frames. -/
def execRingCycleOpen (t : Nat) (s : State) : Host.Outcome State Fault Refusal :=
  let h := (s.tick t).harvestDue none
  let s0 := { h with ring := { h.ring with
    outVals := h.ring.taskVals.foldl (fun (t : Tab (BitVec 32 × Bool)) (e : Nat × BitVec 32) => tset t e.1 (e.2, false)) h.ring.outVals
    taskVals := [] } }
  .next (
    if !s0.ringActive || s0.mt % s0.cycles 1 != 0 then s.tick t
    else
      let s1 := match s0.ring.pendingApply with
        | some (at_, c) =>
          if at_ ≤ s0.mt then
            ({ s0 with ring := { s0.ring with applied := c, pendingApply := none, applyResult := 1 } }).event 0x0509
          else s0
        | none => s0
      let s2 := { s1 with ring := { s1.ring with cycleNum := s1.mt / (s1.ring.applied.period * 1000) } }
      let s3 := s2.electMaster.unwrapDue
      if !s3.ringEmits then s3 else s3.sendSync.sendDrops.sendBlocks)

/-- C1_SLOT: the slot's DATA frame, with every loop output of this instant (Table 7-9); an identifier without a commit since the restart goes out LOST with value 0, one whose loop has lost its source LOST too (Table 12-3). -/
def execC1Slot (t : Nat) (slot : Fin 64) (leftAt : Nat) (s : State) : Host.Outcome State Fault Refusal :=
  let s0 := (s.tick t).outputsDue
  .next (match s0.ring.applied.used.find? (fun e => e.1 == slot.val) with
    | none => s0
    | some (n, x) =>
      let open_ := s0.ring.applied.opening s0.ring.cycleNum + x.offset
      if !s0.ringEmits || s0.mt != open_ then s0
      else
        let p := x.ids.flatMap (fun i =>
          match tfind s0.ring.outVals i with
          | some v => beBytes 2 i ++ beBytes 1 (fld 1 1 (b2n v.2)) ++ zeros 1 ++ beBytes 4 v.1.toNat
          | none => beBytes 2 i ++ beBytes 1 2 ++ zeros 5)
        let s1 := s0.ringSend 1 1 n open_ p
        if open_ + 2000 < leftAt then { s1 with ring := { s1.ring with c1Late := satInc s1.ring.c1Late } } else s1)

/-- CAN_SLOT_OPEN: the slot's frame is built from what was committed at or before its opening (R151, Table 7-9), and started when the bus is idle and it ends in time. The slot before it closes first. -/
def execCanSlotOpen (t : Nat) (ch : Fin 8) (slot : Fin 32) (busIdle : Bool) (s : State) :
    Host.Outcome State Fault Refusal :=
  let s0 := (((s.tick t).harvestDue none).outputsDue).slotClose ch.val
  let c := s0.chan ch.val
  .next (match c.matrix with
    | none => s0
    | some m =>
      let q := m.cycleAt s0.mt
      let opening := m.phase * 1000 + q * (m.bcLen * 1000)
      match m.slots.find? (fun e => e.cycle == q % m.ncycles && e.slot == slot.val) with
      | none => s0
      | some e =>
        if !(s0.canSends ch.val) || s0.mt != opening + e.offset * 1000 || c.open_.isSome then s0
        else
          match s0.slotFrame ch.val e with
          | none => s0
          | some (f, job) =>
            let closeMt := opening + (e.offset + e.window) * 1000
            let go := busIdle && c.fits f s0.mt closeMt
            let s1 := s0.setChan ch.val { c with open_ := some { slot := e, f := f, closeMt := closeMt, started := go, job := job } }
            if go then s1.emit (.can ch.val f) else s1)

/-- CONTACTOR_TICK: in RUN, at each whole millisecond and after the harvest points that have come, every entry is evaluated
and its outputs driven; a follower takes the tick from its lead (R344, R345). -/
def execContactorTick (t : Nat) (s : State) : Host.Outcome State Fault Refusal :=
  let s0 := (s.tick t).harvestDue none
  .next (
    if s0.modes.mode != .run || s0.mt % 1000000 != 0 || s0.follows then s0
    else
      let s1 := s0.contDue s0.mt
      let ins := s1.contInputs s1.mt
      let s2 := if s1.leadsPair then s1.emit (.mirror (.contTick s1.mt ins)) else s1
      s2.contRun s2.mt ins)

end Sys2Proof.Machine
end

