-- ==== Sys2Proof/Machine/Pair.lean ====
section
/-! DEFINITION. Machine/Pair.lean: entering HOLD, yielding, takeover, Frost and Thaw, loss of the follower, role settling
at power-up, self-diagnosis and digests (04_modes_and_start.md, 10_station_pair.md). -/

namespace Sys2Proof.Machine

/-! ### Entering HOLD (R135 to R138) -/

/-- Work in progress is abandoned without a harvest: cycles, loops and balancing stop; parameter sets, contactor plans
and online-change sets under way are applied at this instant. -/
def State.holdWork (s : State) : State :=
  let s1 := { s with prog := { s.prog with tasks := tmap (fun _ (tk : Task) => { tk with cyc := none }) s.prog.tasks } }
  s1.holdLoops.holdStrings.contHold.holdSets

/-- HOLD is entered at this instant, whatever transition was under way (R125, R135). -/
def State.holdNow (s : State) (cause task : Nat) : State :=
  let s1 := s.abandonTrans.enterHold cause task
  if s.modes.mode == .run then s1.holdWork else s1

/-- HOLD_INSTANT: the hold instant of the transition under way; the command that asked for it completes (R125, R135). -/
def execHoldInstant (t : Nat) (s : State) : Host.Outcome State Fault Refusal :=
  let s0 := s.tick t
  .next (match s0.modes.trans with
    | some (.toHold cause task rid instant) =>
      if !(s0.holdReady instant) then s0
      else
        let s1 := s0.enterHold cause task
        let s2 := if s0.modes.mode == .run then s1.holdWork else s1
        match rid.bind s2.findReq with
        | some r => s2.complete r stOk
        | none => s2
    | _ => s0)

/-! ### Requests that the pair ends -/

/-- Complete a request of an opcode by its number, if it is still there. STATION is as the command found the pair. -/
def State.endReq (s : State) (rid : Option Nat) (op status result flags : Nat) : State :=
  match rid.bind s.findReq with
  | some r => if r.opcode == op then s.complete r status result flags else s
  | none => s

/-- A running request of an opcode. -/
def State.runningReq (s : State) (op : Nat) : Option Req :=
  s.host.reqs.find? (fun r => r.opcode == op && r.phase == .running)

/-- An Equinox, drill or exchange under way is given up: its command completes BUSY; an exchange whose old lead cannot join
any more completes OK without STATION (R374, R382, R383; log 74). -/
def State.dropSwap (s : State) : State :=
  let s1 := match s.twin.equinox with
    | some e => (s.endReq e.rid 0x0103 stBusy 0 0).endReq e.rid 0x0104 stBusy 0 0
    | none => s
  let s2 := match s1.twin.exchange with
    | some x =>
      if s1.modes.role == Role.syncing then s1.endReq (some x.rid) 0x0202 stOk (x.x + 5000000) 0
      else s1.endReq (some x.rid) 0x0202 stBusy 0 0
    | none => s1
  { s2 with twin := { s2.twin with
      equinox := none, drilling := false, checking := false, exchange := none
      exActive := false, exPhase := if s2.twin.exActive then 6 else s2.twin.exPhase } }

/-! ### Yielding (R364 to R366) -/

/-- The code of a check in events 0x0603 and 0x0607: Table 10-4 in order; 8 a failed twin link, 9 a missing mirror
acknowledgement, 10 a digest mismatch with both self-tests passed (log 73). -/
def checkCode : Check → Nat
  | .ecc => 0 | .lockstep => 1 | .clock => 2 | .supply => 3 | .dieLink => 4 | .selfTest => 5 | .aliveWatchdog => 6
  | .prsnt => 7

/-- The module yields: outputs of a lead hold as they stand, role YIELDED in HOLD with cause 15, commits and emissions
stop, YIELD_N low, LEAD_ALIVE released (R365). Table 4-4 lists no such change from DORMANT (R119, R121). -/
def State.yield (s : State) (check : Nat) : State :=
  if s.modes.role == .yielded || s.modes.mode == .recovery || s.modes.mode == .dormant then s
  else
    let s := s.markFault
    let lead := s.twin.aliveDrive || s.modes.role == .lead
    let s1 := s.holdOuts.dropSwap
    let s2 := { s1 with twin := { s1.twin with
      yieldedAt := if lead then some s.now else none, stagesReleased := !lead, yieldDrive := true, aliveDrive := false
      claimDrive := false, frost := false, hbLossAt := none, inStep := false, dead := none }
                        modes := { s1.modes with role := .yielded } }
    let s3 := ((s2.event 0x0002 [roleCode s.modes.role, 4]).cause causeRole).endSession
    (s3.event 0x0607 [check]).holdNow 15 0

/-- A check of Table 10-4 fires: a module of a pair yields; a SIMPLEX module takes the last column's action. -/
def State.diagnose (s : State) (c : Check) : State :=
  if s.modes.mode == .recovery then s
  else
    match s.modes.role with
    | .lead | .follow | .syncing => s.yield (checkCode c)
    | .yielded => s
    | .simplex =>
      match c with
      | .clock | .selfTest => s
      | .supply | .prsnt => if s.modes.mode == .dormant then s else s.markFault.holdNow 16 0
      | _ => s.faultHold 6 0

/-- ECC_ERROR: an uncorrectable error on a die or its link. A tile reads FAULT and is fenced for its reset (R37, R364). -/
def execEccError (t : Nat) (die : Fin 8) (link : Bool) (s : State) : Host.Outcome State Fault Refusal :=
  let s0 := s.tick t
  let n := die.val
  .next (
    if s0.modes.mode == .recovery || !(s0.diePresent n) then s0
    else
      let s1 := if n = 0 then s0 else s0.setTile n { s0.tile n with state := .fault, fencedAt := some s0.now }
      s1.diagnose (if link then .dieLink else .ecc))

/-- LOCKSTEP_MISMATCH: every ward output demands until module reset, event 0x0407 (R403, R364). -/
def execLockstepMismatch (t : Nat) (s : State) : Host.Outcome State Fault Refusal :=
  let s0 := s.tick t
  .next (
    if s0.trip.lockstep || !s0.trip.safetyRun then s0
    else
      let s1 := ({ s0 with trip := { s0.trip with lockstep := true } }).event 0x0407
      s1.wardEval.diagnose .lockstep)

/-- LEAD_ALIVE_WATCHDOG: the expiry is latched, and LEAD_ALIVE released until a module reset (R354); a SIMPLEX module enters
HOLD from the modes that Table 4-4 lists (R121, log 95). -/
def execLeadAliveWatchdog (t : Nat) (s : State) : Host.Outcome State Fault Refusal :=
  let s0 := s.tick t
  .next (
    if s0.modes.mode == .recovery || s0.twin.aliveLatched then s0
    else
      let s1 := { s0 with twin := { s0.twin with aliveLatched := true } }
      let s2 := if s1.modes.role == .simplex then
          (if s1.faultLeaves then s1.markFault.holdNow 6 0 else s1)
        else s1.diagnose .aliveWatchdog
      { s2 with twin := { s2.twin with aliveDrive := false } })

/-- YIELD_SAFE_TIMEOUT: no CLAIM within 5 ms of the yield, or 4.4 ms after a power-fail warning: safe states (R365). -/
def execYieldSafeTimeout (t : Nat) (s : State) : Host.Outcome State Fault Refusal :=
  let s0 := s.tick t
  .next (match s0.twin.yieldedAt with
    | some y =>
      let due : Bool := y + 5000000 ≤ s0.now || (match s0.pwr.warn with | some w => w + 4400000 ≤ s0.now | none => false)
      if s0.modes.role == .yielded && due && !s0.twin.stagesReleased then { s0 with twin := { s0.twin with yieldedAt := none } } else s0
    | none => s0)

/-! ### Loss of the follower (R371) -/

/-- A held completion no longer waits for the follower, and carries STATION = 0 (R69, R101). -/
def State.dropAcks (s : State) : State :=
  let waiting := s.host.reqs.filter (fun r => r.needAck)
  waiting.foldl (fun (st : State) r => (st.updReq r.rid (fun q => { q with
    needAck := false, held := q.held.map (fun h => (h.1, h.2.1 - 8 * bits h.2.1 3 1, h.2.2)) })).release r.rid) s

/-- The lead marks its follower lost and goes on as SIMPLEX with PARTNER = 1: causes 1 YIELD_N, 2 heartbeat loss,
3 mirror acknowledgement, 4 YIELDED in a heartbeat (R371; log 73). A new lead's partner is lost at Thaw (R368 step 4). -/
def State.markLost (s : State) (cause : Nat) : State :=
  if s.modes.role != .lead || s.twin.lost || s.twin.frost then s
  else
    let s1 := s.dropSwap
    let s2 := ({ s1 with twin := { s1.twin with lost := true, inStep := false, stagesReleased := false } }).setRole .simplex
    ((s2.event 0x0604 [cause]).takeChains).dropAcks

/-- MIRROR_TIMEOUT: an acknowledgement missing after 100 us: the lead marks the follower lost, a follower yields; a module
that has neither role any more waits no longer (R101, R359). -/
def execMirrorTimeout (t : Nat) (s : State) : Host.Outcome State Fault Refusal :=
  let s0 := s.tick t
  .next (
    if !(s0.host.reqs.any (fun r => r.needAck && r.mirrorAt + 100000 ≤ s0.now)) then s0
    else if s0.modes.role == .lead then s0.markLost 3
    else if s0.modes.role == .follow && !s0.modes.detached then (s0.yield 9).dropAcks
    else s0.dropAcks)

/-- MIRROR_ACK: the partner acknowledged what a request mirrored (R68, R359). -/
def execMirrorAck (t : Nat) (rid : Nat) (s : State) : Host.Outcome State Fault Refusal :=
  let s0 := s.tick t
  .next ((s0.goodFrame.updReq rid (fun q => { q with needAck := false })).release rid)

/-! ### Takeover, Frost and Thaw (R367 to R370) -/

/-- Load every stage with its readback and hold it (R368 step 2, R373 step 3). The measured voltage of a fast analogue
output is free (log 10). -/
def State.loadStages (s : State) : State :=
  let s1 := { s with fio := { s.fio with
    dout := (List.range 16).foldl (fun t n => tset t n { s.do_ n with held := some (s.do_ n).readback }) s.fio.dout
    cl := (List.range 8).foldl (fun t n => tset t n { s.cl n with held := some (s.cl n).ma }) s.fio.cl } }
  (List.range 4).foldl (fun (st : State) n =>
    let (v, st1) := st.fresh
    st1.setFao n { st1.fao n with held := some v }) s1

/-- A latch that fell before the takeover: the mirrored image if it came, else the cycle is skipped (R369). -/
def State.takeLatch (s : State) (d : TaskDef) : State :=
  let n := d.task
  let tk := s.task n
  let start := s.cycleAt d tk.nextN
  if !s.runsTasks || s.mt ≤ start then s
  else
    match tk.mirrored with
    | some (k, img) =>
      if k = tk.nextN then (s.syncForces n 0).latch d tk start img 0
      else s.setTask n { tk with nextN := tk.nextN + 1, skipped := satInc tk.skipped }
    | none => s.setTask n { tk with nextN := tk.nextN + 1, skipped := satInc tk.skipped }

/-- The follower takes over: role LEAD, LEAD_ALIVE, stages held at their readback until Thaw (R368 steps 1 and 2).
Before the new program of an exchange runs it has none: LEAD in HOLD with safe outputs (Table 10-6). -/
def State.takeover (s : State) (cause : Nat) : State :=
  if s.modes.role != .follow || s.modes.detached || s.twin.frost then s
  else
    let noProg := s.twin.exActive && s.twin.exPhase < 3
    let s1 := s.dropSwap
    let s2 := s1.setRole .lead
    let s3 := { s2 with twin := { s2.twin with
      aliveDrive := !s2.twin.aliveLatched, frost := true, dead := some (cause, s.now), hbLossAt := none, inStep := false } }
    let s4 := s3.loadStages
    let s5 := match s4.prog.loaded with
      | some i => i.tasks.foldl (fun (st : State) d => st.takeLatch d) s4
      | none => s4
    let s6 := s5.takeChains
    if noProg then s6.holdNow 8 0 else s6

/-- THAW: the new lead drives CLAIM, and every stage carries its latest completed commit; the partner is lost, the role
SIMPLEX with PARTNER = 1 (R368 steps 3 and 4). -/
def execThaw (t : Nat) (s : State) : Host.Outcome State Fault Refusal :=
  let s0 := s.tick t
  .next (match s0.twin.dead with
    | some (cause, at_) =>
      if !s0.twin.frost then s0
      else
        let dur := min 0xFFFF (ceilDiv (s0.now - at_) 1000)
        let s1 := { s0 with twin := { s0.twin with
          frost := false, dead := none, claimDrive := true, claimAt := s0.now, lost := true
          takeovers := satInc s0.twin.takeovers, lastTakeover := some s0.now
          swapDur := dur, swapCause := cause, swapMt := s0.mt } }
        (((s1.setRole .simplex).event 0x0602 [cause, dur]).takeChains).dropAcks
    | none => s0)

/-- An old lead that joins again after an exchange, while its new lead fails: role LEAD in HOLD with safe outputs
(Table 10-6). -/
def State.syncingLead (s : State) : State :=
  if s.modes.role == .syncing && s.twin.exActive then
    let s1 := s.dropSwap.setRole .lead
    ({ s1 with twin := { s1.twin with aliveDrive := !s1.twin.aliveLatched, syncActive := false, lost := true } }).holdNow 8 0
  else s

/-- YIELD_N_ASSERT: the partner gave up control (R367, R371). -/
def execYieldNAssert (t : Nat) (check : Nat) (s : State) : Host.Outcome State Fault Refusal :=
  let s0 := s.tick t
  .next (
    if s0.twin.yieldSeen || s0.modes.settle != .settled || s0.modes.role == .yielded then s0
    else
      let s1 := ({ s0 with twin := { s0.twin with yieldSeen := true } }).event 0x0603 [check]
      match s1.modes.role with
      | .lead => s1.markLost 1
      | .follow => s1.takeover 1
      | .syncing => s1.syncingLead
      | _ => s1)

/-- LEAD_ALIVE_DEASSERT: the lead is dead; within 20 us of a heartbeat loss it confirms that loss (R367). -/
def execLeadAliveDeassert (t : Nat) (s : State) : Host.Outcome State Fault Refusal :=
  let s0 := s.tick t
  let s1 := { s0 with twin := { s0.twin with aliveSeen := false } }
  .next (
    if s1.modes.settle != .settled then s1
    else if s1.modes.role == .follow && !s1.claimed then s1.takeover (if s1.twin.hbLossAt.isSome then 3 else 2)
    else s1.syncingLead)

/-! ### Heartbeats (R352, R367) -/

/-- HEARTBEAT_SEND: at every multiple of 10 us of module time. -/
def execHeartbeatSend (t : Nat) (s : State) : Host.Outcome State Fault Refusal :=
  let s0 := s.tick t
  .next (if s0.twinUp && s0.mt % 10000 == 0 then (s0.emit (.heartbeat s0.mt)).sendTones else s0)

/-- HEARTBEAT_MISSED: a window of 10 us of module time ends without a good frame; the third missed window in a row is a heartbeat loss; a SIMPLEX module's partner that went silent, into
RECOVERY too, counts as lost (R143, R352). -/
def execHeartbeatMissed (t : Nat) (s : State) : Host.Outcome State Fault Refusal :=
  let s0 := s.tick t
  .next (
    if !s0.modes.partner || s0.mt % 10000 != 0 || s0.now < s0.twin.hbLastRx + 10000 then s0
    else
      let k := s0.twin.hbRun + 1
      let s1 := { s0 with twin := { s0.twin with hbMissed := satInc s0.twin.hbMissed, hbRun := k } }
      if k != 3 || s1.twin.lost then s1
      else if s1.modes.role == .lead then s1.markLost 2
      else if s1.modes.role == .follow && !s1.modes.detached then
        { s1 with twin := { s1.twin with hbLossAt := some s1.now } }
      else if s1.modes.role == .simplex then { s1 with twin := { s1.twin with lost := true } }
      else s1)

/-- HEARTBEAT_CONFIRM: 20 us after a heartbeat loss, LEAD_ALIVE decides: dead lead, or a failed twin link (R367). -/
def execHeartbeatConfirm (t : Nat) (alive : Bool) (s : State) : Host.Outcome State Fault Refusal :=
  let s0 := s.tick t
  .next (match s0.twin.hbLossAt with
    | some a =>
      if s0.modes.role != .follow || s0.now < a + 20000 then s0
      else
        let s1 := { s0 with twin := { s0.twin with hbLossAt := none } }
        if alive then s1.yield 8 else s1.takeover 3
    | none => s0)

/-! ### Role settling at power-up (R355, R564) -/

/-- Power-up step 7 for the string ports: every port of the stored plan is enumerated, and its tone judged (R280, R297). -/
def State.startPorts (s : State) : State :=
  match s.cells.plan with
  | some c => (maskPorts c.portMask.toNat).foldl (fun (st : State) n => st.startEnum n none) s
  | none => s

/-- The role is settled: event 0x0601 with the role and the partner's serial number. A module that joins or stays detached
does not go on to step 7. -/
def State.settleDone (s : State) : State :=
  let s1 := ({ s with modes := { s.modes with settle := .settled } }).event 0x0601
    [roleCode s.modes.role, s.twin.partnerSerial.toNat]
  if s.modes.role == .syncing || s.modes.detached then s1 else s1.startPorts.springTiles

/-- Step 5: the module drives CLAIM and LEAD_ALIVE, and leads: LEAD with a partner on the link, else SIMPLEX. -/
def State.settleLead (s : State) : State :=
  let s1 := { s with twin := { s.twin with
    aliveDrive := !s.twin.aliveLatched, claimDrive := true, claimAt := s.now, inStep := s.twinUp }
                     modes := { s.modes with partner := s.twinUp } }
  (s1.setRole (if s.twinUp then .lead else .simplex)).settleDone

/-- Step 4: another module leads: FOLLOW with the link up; else SIMPLEX, detached, in HOLD. -/
def State.settleFollow (s : State) : State :=
  if s.twinUp then
    let s1 := { s with twin := { s.twin with aliveSeen := true, inStep := true }, modes := { s.modes with partner := true } }
    (s1.setRole .follow).settleDone
  else
    let s1 := { s with twin := { s.twin with aliveSeen := true }, modes := { s.modes with detached := true } }
    ((s1.setRole .simplex).settleDone).holdNow 0 0

/-- ROLE_WAIT_END: the link is up, or 50 ms have passed. -/
def execRoleWaitEnd (t : Nat) (s : State) : Host.Outcome State Fault Refusal :=
  let s0 := s.tick t
  .next (match s0.modes.settle with
    | .waitLink since =>
      if !s0.twinUp && s0.now < since + 50000000 then s0
      else if s0.twinUp && (s0.twin.p.slotId.getLsbD 0 == s0.cfg.slotId.getLsbD 0) then
        let s1 := s0.event 0x0022 [s0.cfg.slotId.toNat, s0.twin.p.slotId.toNat]
        ((({ s1 with modes := { s1.modes with detached := true } }).setRole .simplex).settleDone).holdNow 0 0
      else if s0.twin.claimSeen.isSome then s0.settleFollow
      else if s0.slotB then { s0 with modes := { s0.modes with settle := .claimDelay s0.now } }
      else s0.settleLead
    | _ => s0)

/-- CLAIM_DRIVE: slot B, 200 us after the end of its step 2. -/
def execClaimDrive (t : Nat) (s : State) : Host.Outcome State Fault Refusal :=
  let s0 := s.tick t
  .next (match s0.modes.settle with
    | .claimDelay since =>
      if s0.now < since + 200000 then s0
      else if s0.twin.claimSeen.isSome then s0.settleFollow else s0.settleLead
    | _ => s0)

/-- CLAIM_SEEN: the partner drives CLAIM. It decides a module that settles its role; it makes a yielding lead, or the old
lead of an Equinox window, release its stages (R355 steps 4 and 6, R365, R373). -/
def execClaimSeen (t : Nat) (s : State) : Host.Outcome State Fault Refusal :=
  let s0 := s.tick t
  let s1 := { s0 with twin := { s0.twin with claimSeen := some s0.now } }
  .next (
    match s1.modes.settle with
    | .claimDelay _ => s1.settleFollow
    | .settled =>
      if s1.modes.mode == .startup && s1.slotB && s1.twin.claimDrive then
        ({ s1 with twin := { s1.twin with claimDrive := false, aliveDrive := false } }).settleFollow
      else if s1.modes.role == .yielded then { s1 with twin := { s1.twin with stagesReleased := true } }
      else if s1.windowOpen && s1.modes.role == .lead then
        { s1 with twin := { s1.twin with stagesReleased := true, aliveDrive := false, aliveSeen := true } }
      else s1
    | _ => s1)

/-- CLAIM_RELEASE: 1 ms after the lead was taken (R353). -/
def execClaimRelease (t : Nat) (s : State) : Host.Outcome State Fault Refusal :=
  let s0 := s.tick t
  .next (
    if s0.twin.claimDrive && s0.twin.claimAt + 1000000 ≤ s0.now then
      { s0 with twin := { s0.twin with claimDrive := false } }
    else s0)

/-! ### Digests and the self-test (R361 to R363) -/

/-- A mark of a partner, kept by its serial number (R384). -/
def State.setMark (s : State) (m : Nat) : State :=
  let rest := s.twin.marks.filter (fun e => e.1 != s.twin.partnerSerial)
  { s with twin := { s.twin with mark := m, marks := if m = 0 then rest else (s.twin.partnerSerial, m) :: rest } }

def kindCode : DigestKind → Nat
  | .harvest => 0 | .loop => 1 | .sweep => 2

/-- DIGEST_COMPARE: at the follower, the lead's digest against its own; a mismatch starts the self-test in both modules.
Harvest digests are not compared from the mapping instant of an exchange (R361, R363, R379). -/
def execDigestCompare (t : Nat) (kind : DigestKind) (id : Nat) (lead : BitVec 64) (s : State) :
    Host.Outcome State Fault Refusal :=
  let s0 := s.tick t
  let k := kindCode kind
  .next (match s0.twin.digests.find? (fun d => kindCode d.1 == k && d.2.1 == id) with
    | some (_, _, v) =>
      let s1 := { s0 with twin := { s0.twin with digests := s0.twin.digests.filter (fun d => !(kindCode d.1 == k && d.2.1 == id)) } }
      if s1.modes.role != .follow || !s1.twin.inStep || v == lead || (k == 0 && s1.twin.exActive && 2 ≤ s1.twin.exPhase) then s1
      else
        let s2 := { s1 with twin := { s1.twin with digestMismatch := satInc s1.twin.digestMismatch, selfTest := some s1.now } }
        (s2.event 0x0605 [k, id]).emit (.mirror .selfTest)
    | none => s0)

/-- SELF_TEST_DONE: 50 us after its start the results, true for a pass, decide by Table 10-3. A lead runs its self-test with
its follower's. -/
def execSelfTestDone (t : Nat) (own partner : Bool) (s : State) : Host.Outcome State Fault Refusal :=
  let s0 := s.tick t
  .next (
    if !(s0.twin.selfTest.any (fun a => a + 50000 ≤ s0.now)) then s0
    else
      let s1 := ({ s0 with twin := { s0.twin with selfTest := none } }).event 0x0606 [b2n own, b2n partner]
      match s1.modes.role with
      | .lead =>
        if own then (if partner then s1.setMark 1 else s1)
        else if partner then s1.yield 5
        else s1.faultHold 6 0
      | .follow =>
        if own then (if partner then s1.yield 10 else s1)
        else s1.yield 5
      | _ => s1)

/-- READBACK_DIFF: a follower's readback differs from the lead's commit for 10 ms (R360). -/
def execReadbackDiff (t : Nat) (group : Nat) (ch : Fin 16) (durNs : Nat) (s : State) : Host.Outcome State Fault Refusal :=
  let s0 := s.tick t
  .next (
    if s0.modes.role == .follow && !s0.modes.detached && 10000000 ≤ durNs then s0.event 0x0611 [group * 256 + ch.val] else s0)

/-- LANE_DOWN: the lane is dropped without loss of frames (R351). -/
def execLaneDown (t : Nat) (lane : Fin 4) (s : State) : Host.Outcome State Fault Refusal :=
  let s0 := s.tick t
  .next (
    if s0.twin.lanes.getLsbD lane.val then
      ({ s0 with twin := { s0.twin with lanes := s0.twin.lanes &&& ~~~(BitVec.ofNat 4 (2 ^ lane.val)) } }).event 0x0610 [lane.val]
    else s0)

end Sys2Proof.Machine
end

