-- ==== Sys2Proof/Machine/Tiles.lean ====
section
/-! DEFINITION. Machine/Tiles.lean: compute tiles: power policy, reset, Spring and Autumn ramps, and the clock monitor with
its source switches (01_levels_and_guarantees.md, 15_clocks_power_time.md). -/

namespace Sys2Proof.Machine

/-! ### Work on a tile -/

/-- Tasks of the loaded image on a tile. -/
def State.dieTasks (s : State) (n : Nat) : List TaskDef :=
  match s.prog.loaded with | some i => i.tasks.filter (fun d => d.die == n) | none => []

/-- Loops on a tile. -/
def State.dieLoops (s : State) (n : Nat) : Tab Loop := s.loops.loops.filter (fun e => bits e.1 13 3 == n)

/-- Work in progress on a tile: a cycle up to its commit, a loop between its sample and its output, a request under way
(R508). -/
def State.dieBusy (s : State) (n : Nat) : Bool :=
  (s.dieTasks n).any (fun d => (s.task d.task).cyc.isSome) ||
  (s.dieLoops n).any (fun e => e.2.smp.isSome || e.2.pend.isSome) ||
  s.fabric.any (fun x => x.die == n)

/-- The first instant at or after `mt` of a schedule with a phase and a period, ns. -/
def nextAt (phase period mt : Nat) : Nat := if mt ≤ phase then phase else phase + ceilDiv (mt - phase) period * period

/-- The instant of a tile's next due work, from the schedule matrices of tasks, loops and sweeps; none without any (R33,
15_clocks_power_time.md; log 110). -/
def State.nextDue (s : State) (n : Nat) : Option Nat :=
  let tasks := if s.runsTasks then (s.dieTasks n).map (fun d => s.cycleAt d (s.task d.task).nextN) else []
  let loops := if s.modes.mode == .run then
      (s.dieLoops n).map (fun e => nextAt (e.2.lrec.samplePhase * 10) (e.2.lrec.period * 1000) s.mt)
    else []
  let sweeps := match s.cells.plan with
    | some c => if s.sweepMode && s.tileSats n != 0 then [nextAt (c.sweepPhase * 1000) (c.sweepPeriod * 1000000) s.mt] else []
    | none => []
  (tasks ++ loops ++ sweeps).min?

/-- R508 allows a tile to be gated: OFF, or AUTO with no work in progress and none due within twice the wake lead time; a start
sequence needs the tiles up (R127 step 8). -/
def State.mayGate (s : State) (n : Nat) : Bool :=
  let x := s.tile n
  s.modes.mode != .startup && !(s.dieBusy n) && (x.policy == 2 ||
    (x.policy == 0 && (match s.nextDue n with | some d => s.mt + 2 * s.wakeLead ≤ d | none => true)))

/-- A tile command in RUN is denied for a tile that carries work (R36). -/
def State.tileDenied (s : State) (n : Nat) : Bool := s.modes.mode == .run && s.tileLoaded n

/-- TILE_POWER: the tile's POLICY (R36, R46). Outside RUN, OFF on a tile that carries work is ignored and recorded. -/
def execTilePower (rid : Nat) (s : State) : Host.Outcome State Fault Refusal :=
  .next (s.onReq rid 0x0107 (fun r =>
    let n := r.value
    let p := bits r.aux.toNat 0 2
    if !(s.diePresent n) then s.complete r stNotPresent
    else if p == 2 && s.tileDenied n then s.complete r stModeDenied
    else if p == 2 && s.tileLoaded n then s.ignoreWrite.complete r stOk
    else (s.setTile n { s.tile n with policy := p }).complete r stOk))

/-- TILE_RESET: the die is fenced, and its reset begins (R36, R38). -/
def execTileReset (rid : Nat) (s : State) : Host.Outcome State Fault Refusal :=
  .next (s.onReq rid 0x0108 (fun r =>
    let n := r.value
    if !(s.diePresent n) then s.complete r stNotPresent
    else if s.tileDenied n then s.complete r stModeDenied
    else (s.setTile n { s.tile n with state := .fenced, fencedAt := some s.now }).complete r stOk))

/-- The claim of a fabric transaction: class, source die, request (R27, R29). -/
def Xact.claim (x : Xact) : Claim := { cls := x.cls, die := x.src, num := x.rid }

/-- Transactions that wait at a die, in the order in which the hub grants them: express classes before preemptable ones, then
by source die (R21, R23, R27). -/
def State.atDie (s : State) (n : Nat) : List Xact := inOrder Xact.claim (s.fabric.filter (fun x => x.die == n))

/-- Requests to a die that are under way complete RETRACTED; the replies to come are stale (R38 step 3, R39). -/
def State.retract (s : State) (n : Nat) : State :=
  let xs := s.atDie n
  let s1 := { s with late := s.late ++ xs }
  xs.foldl (fun (st : State) x =>
    match st.findReq x.rid with
    | some r => st.complete r stRetracted
    | none => st.answered x.rid) s1

/-- What a die itself has outstanding at the keel: the image traffic of its cycles, class C2, and the samples and outputs of
its loops, class C1 (R23, Table 1-4). The replies carry the epoch of the die (R22). -/
def State.ownXacts (s : State) (n : Nat) : List Xact :=
  let e := (s.tile n).epoch
  ((s.dieLoops n).filter (fun l => l.2.smp.isSome || l.2.pend.isSome)).map (fun _ => { src := n, die := n, cls := 1, epoch := e }) ++
  ((s.dieTasks n).filter (fun d => (s.task d.task).cyc.isSome)).map (fun _ => { src := n, die := n, cls := 2, epoch := e })

/-- Requests that a die issued are cancelled at their targets: its cycles and what its loops have sampled are gone, and the
replies are stale (R40). -/
def State.cancelOwn (s : State) (n : Nat) : State :=
  let s1 := { s with late := s.late ++ s.ownXacts n }
  let s2 := (s.dieTasks n).foldl (fun (st : State) d => st.setTask d.task { st.task d.task with cyc := none }) s1
  (s.dieLoops n).foldl (fun (st : State) e => st.setLoop { e.2 with smp := none, pend := none }) s2

/-- DRAIN_END: 10 us after the fence, or once nothing is outstanding: the rest is RETRACTED, what the die issued is cancelled,
the epoch goes on by one, the die is reset and its domain brought up (R38 steps 3 to 5, R40). `outstanding` counts requests
to the die that come neither from a queue context nor from the side-band port. -/
def execDrainEnd (t : Nat) (die : Fin 8) (outstanding : Nat) (s : State) : Host.Outcome State Fault Refusal :=
  let s0 := s.tick t
  let n := die.val
  .next (match (s0.tile n).fencedAt with
    | some f =>
      let own := (s0.fabric.filter (fun x => x.die == n)).length
      if n = 0 || !(s0.diePresent n) || (s0.now < f + 10000 && outstanding + own != 0) then s0
      else
        let s1 := (s0.retract n).cancelOwn n
        let x := s1.tile n
        s1.setTile n { x with
          retracted := min 0xFFFFFFFF (x.retracted + own + outstanding), epoch := (x.epoch + 1) % 256, state := .reset
          div := 0, pll := false, stepAt := s0.now, dwell := s0.clk.dwell, fencedAt := none, switchTo := none
          aborted := false, switching := false, quietEnd := if x.switching then s0.now else x.quietEnd }
    | none => s0)

/-- The transactions still to be answered once a stale reply of a die and epoch has come. -/
def dropLate (die epoch : Nat) : List Xact → List Xact
  | [] => []
  | x :: r => if x.die = die ∧ x.epoch = epoch then r else x :: dropLate die epoch r

/-- STALE_REPLY: a reply whose epoch is not its die's is discarded and counted (R39). -/
def execStaleReply (t : Nat) (die : Fin 8) (epoch : Byte) (s : State) : Host.Outcome State Fault Refusal :=
  let s0 := s.tick t
  let n := die.val
  .next (
    if n = 0 || !(s0.diePresent n) || epoch.toNat = (s0.tile n).epoch then s0
    else { s0.setTile n { s0.tile n with stale := satInc (s0.tile n).stale } with late := dropLate n epoch.toNat s0.late })

/-- CORRECTED_LINK_ERROR: counted (R47, Table 1-11). -/
def execCorrectedLinkError (t : Nat) (die : Fin 8) (s : State) : Host.Outcome State Fault Refusal :=
  let s0 := s.tick t
  let n := die.val
  .next (
    if n = 0 || !(s0.diePresent n) then s0
    else s0.setTile n { s0.tile n with linkErr := satInc (s0.tile n).linkErr })

/-! ### Ramps (R504 to R510) -/

/-- A domain's switch after a clock failure is over (R517). -/
def Tile.resumed (x : Tile) (now : Nat) : Tile :=
  { x with switching := false, quietEnd := if x.switching then now else x.quietEnd }

/-- An Autumn ramp starts: at divider 2, or at the divider that a Spring ramp had reached; a domain without a clock is
gated at once (R505). -/
def State.startAutumn (s : State) (n : Nat) : State :=
  let x := s.tile n
  match x.state with
  | .on => s.setTile n { x with state := .autumn, div := 2, stepAt := s.now, dwell := s.clk.dwell }
  | .spring =>
    if x.pll then s.setTile n { x with state := .autumn, div := max 2 x.div, stepAt := s.now, dwell := s.clk.dwell }
    else s.setTile n { x.resumed s.now with state := .gated, div := 0 }
  | _ => s

/-- Tiles run: not in DORMANT (R46) and not in RECOVERY (R143). -/
def State.tilesRun (s : State) : Bool :=
  s.modes.powered && !s.modes.inReset && s.modes.mode != .dormant && s.modes.mode != .recovery

/-- SPRING_RAMP: the wake lead time before the next due work, or at once for ALWAYS_ON (R33, R507). `due` is the work that the
ramp is made for: one that is not the tile's next by the schedules starts no ramp (log 110). -/
def execSpringRamp (t : Nat) (die : Fin 8) (due : Option Nat) (s : State) : Host.Outcome State Fault Refusal :=
  let s0 := s.tick t
  let n := die.val
  let x := s0.tile n
  let near : Bool := due == s0.nextDue n && (match due with | some d => d ≤ s0.mt + s0.wakeLead | none => false)
  .next (
    if n = 0 || !(s0.diePresent n) || !s0.tilesRun then s0
    else if x.policy == 1 || (x.policy != 2 && near) then s0.startSpring n
    else s0)

/-- ASYNC_WAKE: unforeseen work needs the tile (R506, R509). -/
def execAsyncWake (t : Nat) (die : Fin 8) (s : State) : Host.Outcome State Fault Refusal :=
  let s0 := s.tick t
  let n := die.val
  .next (
    if n = 0 || !(s0.diePresent n) || !s0.tilesRun || (s0.tile n).policy == 2 then s0
    else s0.startSpring n)

/-- AUTUMN_RAMP: no work in progress, and the next, `due`, at least twice the wake lead time away (R508; log 110). -/
def execAutumnRamp (t : Nat) (die : Fin 8) (due : Option Nat) (s : State) : Host.Outcome State Fault Refusal :=
  let s0 := s.tick t
  let n := die.val
  .next (
    if n = 0 || !(s0.diePresent n) || (s0.tile n).state != .on || due != s0.nextDue n || !(s0.mayGate n) then s0
    else s0.startAutumn n)

/-- PLL_LOCKED: the Summer domain starts at divider 16 (R504). -/
def execPllLocked (t : Nat) (die : Fin 8) (s : State) : Host.Outcome State Fault Refusal :=
  let s0 := s.tick t
  let n := die.val
  let x := s0.tile n
  .next (
    if (x.state == .spring || x.state == .reset) && !x.pll then
      s0.setTile n { x with pll := true, div := 16, stepAt := s0.now }
    else s0)

/-- A domain still runs on INTERNAL: CLK.STATUS.FALLBACK (Table 15-6). -/
def State.onInternal (s : State) : Bool := s.clk.source == 2 || s.tiles.any (fun e => e.2.src == 2)

/-- A reference is in use: the keel runs on it, or a tile does (R513). -/
def State.refInUse (s : State) (src : Nat) : Bool :=
  s.clk.source == src || (List.range 8).any (fun n => n != 0 && s.diePresent n && (s.tile n).src == src)

/-- Trip source 30 goes once every domain runs on a good reference again (R514). -/
def State.clockSettle (s : State) : State :=
  let fb := s.onInternal
  let good : Bool := !fb && (!(s.refInUse 0) || s.clk.int25Ok) && (!(s.refInUse 1) || s.clk.refOk)
  let s1 := { s with clk := { s.clk with fallback := fb }, trip := { s.trip with clockFail := s.trip.clockFail && !good } }
  if s1.trip.clockFail != s.trip.clockFail then s1.tripSettle else s1

/-- A tile's divider input has moved to a source (R515). -/
def State.tileSwitched (s : State) (n src : Nat) : State :=
  let x := s.tile n
  let s1 := s.setTile n { x with src := src, switchTo := none }
  let s2 := { s1 with clk := { s1.clk with switches := satInc s1.clk.switches } }
  (if x.src == 2 && src != 2 then s2.event 0x0102 [src] else s2).clockSettle

/-- A tile's clocks stop: its SRAM and register state stay (R503, R505). -/
def State.gate (s : State) (n : Nat) : State :=
  s.setTile n { (s.tile n).resumed s.now with
    state := .gated, div := 0, pll := false, stepAt := s.now, aborted := false }

/-- An Autumn ramp has held divider 16. It ends in the source switch that it was for, after which the tile springs again where
tiles run; or in gating, which a block that is still busy makes the module give up, until R508 allows it again (R505, R510,
R515). Where no tile runs, the tile is gated in any case (R46, R143). -/
def State.endAutumn (s : State) (n : Nat) (busy : Bool) : State :=
  let x := s.tile n
  match x.switchTo with
  | some src =>
    if s.tilesRun then
      (s.setTile n { x with state := .spring, pll := true, stepAt := s.now, dwell := s.clk.dwell }).tileSwitched n src
    else (s.gate n).tileSwitched n src
  | none =>
    if x.aborted && s.tilesRun && !(s.mayGate n) then s
    else if busy then
      ({ s.setTile n { x with stepAt := s.now, aborted := true } with
        clk := { s.clk with gateAborts := satInc s.clk.gateAborts } }).event 0x0104 [n]
    else s.gate n

/-- RAMP_STEP: the dwell of a divider step has passed. Spring ends at divider 1, or turns back where no tile runs (R504,
R46). -/
def execRampStep (t : Nat) (die : Fin 8) (busy : Bool) (s : State) : Host.Outcome State Fault Refusal :=
  let s0 := s.tick t
  let n := die.val
  let x := s0.tile n
  .next (
    if s0.now < x.stepAt + 250 * x.dwell then s0
    else
      match x.state with
      | .spring =>
        if !x.pll then s0
        else if !s0.tilesRun then s0.startAutumn n
        else if x.div ≤ 2 then s0.setTile n { x.resumed s0.now with state := .on, div := 1, stepAt := s0.now }
        else s0.setTile n { x with div := x.div / 2, stepAt := s0.now }
      | .reset =>
        if !x.pll then s0
        else if 2 < x.div then s0.setTile n { x with div := x.div / 2, stepAt := s0.now }
        else if x.policy == 1 && s0.tilesRun then s0.setTile n { x with state := .on, div := 1, stepAt := s0.now }
        else s0.gate n
      | .autumn =>
        if x.div < 16 then s0.setTile n { x with div := 2 * x.div, stepAt := s0.now }
        else s0.endAutumn n busy
      | _ => s0)

/-! ### References (R512 to R516) -/

/-- Every domain that runs on a source moves to INTERNAL: keel and ring island, gated tiles at once, clocked tiles by an
Autumn and a Spring ramp; event 0x0101 names the domains: bit n die n, bit 8 the ring island. -/
def State.fallBack (s : State) (old : Nat) : State :=
  let keel := s.clk.source == old
  let dies := ((List.range 8).filter (fun n => n != 0 && s.diePresent n && (s.tile n).src == old))
  let domains := (if keel then 0x101 else 0) + (dies.map (fun n => 2 ^ n)).sum
  let s1 := { s with clk := { s.clk with
    source := if keel then 2 else s.clk.source
    switches := min 0xFFFFFFFF (s.clk.switches + if keel then 2 else 0) } }
  let s2 := s1.event 0x0101 [domains]
  let s3 := dies.foldl (fun (st : State) n =>
    match (st.tile n).state with
    | .on | .spring | .autumn =>
      let st1 := st.startAutumn n
      if (st1.tile n).state == .gated then st1.tileSwitched n 2
      else st1.setTile n { st1.tile n with switchTo := some 2, switching := true }
    | _ => st.tileSwitched n 2) s2
  s3.clockSettle

/-- A planned switch to a source: a tile only while gated, keel and ring island only outside RUN (R515). -/
def State.plannedSwitch (s : State) (src : Nat) : State :=
  let dies := ((List.range 8).filter (fun n => n != 0 && s.diePresent n && (s.tile n).src != src && (s.tile n).state == .gated))
  let s1 := dies.foldl (fun (st : State) n => st.tileSwitched n src) s
  if s.modes.mode == .run || s.clk.source == src then s1
  else
    let s2 := { s1 with clk := { s1.clk with source := src, switches := min 0xFFFFFFFF (s1.clk.switches + 2) } }
    (if s.clk.source == 2 then s2.event 0x0102 [src] else s2).clockSettle

/-- The source that the module should run on by REF_CTRL (R512, R515): REFCLK when preferred, judged and good; from INTERNAL,
with AUTO_RETURN, INT25 when good. -/
def State.wantedSource (s : State) : Option Nat :=
  let c := s.clk
  let ref : Bool := c.refCtrl.getLsbD 0 && s.cfg.ee.refPresent && c.refJudged && c.refOk
  let ret : Bool := c.refCtrl.getLsbD 1
  if s.onInternal then
    if !ret then none else if ref then some 1 else if c.int25Ok then some 0 else none
  else if ref && c.source == 0 then some 1
  else none

/-- Accepted counts of a window (Table 15-2): 0 INT25, 1 REFCLK, 2 INTERNAL. -/
def State.windowOk (s : State) (clock count : Nat) : Bool :=
  if clock = 2 then 3032 ≤ count && count ≤ 3218
  else if clock = 1 && !s.cfg.ee.refFreq then 310 ≤ count && count ≤ 315
  else 774 ≤ count && count ≤ 789

/-- Count the windows of INT25 and REFCLK: a failed one marks the reference not OK until 16 in a row pass (R513); while
REFCLK is on trial, 16 windows pass it, and a failed one ends the trial with event 0x0105 (R512). -/
def State.judgeWindows (s : State) (int25 refclk : Nat) : State :=
  let c := s.clk
  let g0 := s.windowOk 0 int25
  let g1 := s.cfg.ee.refPresent && s.windowOk 1 refclk
  let run0 := if g0 then min 16 (c.int25Run + 1) else 0
  let run1 := if g1 then min 16 (c.refRun + 1) else 0
  let trial := c.refDelayDone && !c.refJudged
  let s1 := { s with clk := { c with
    int25Run := run0, int25Ok := g0 && (c.int25Ok || run0 == 16)
    refRun := run1, refOk := g1 && (c.refOk || run1 == 16)
    refJudged := c.refJudged || (trial && run1 == 16), refDelayDone := c.refDelayDone && !(trial && !g1)
    refFailed := c.refFailed || (trial && !g1) } }
  if trial && !g1 then s1.event 0x0105 else s1

/-- A clock monitor failure of a reference with its count: a non-maskable event, event 0x0100, trip source 30, and the switch of
every domain that runs on it to INTERNAL (R514). -/
def State.clockFailed (s : State) (src count : Nat) : State :=
  let s1 := { s.emit .nonMaskable with clk := { s.clk with failed := true }, trip := { s.trip with clockFail := true } }
  let s2 := (s1.event 0x0100 [src, count]).tripSettle
  if src = 2 then s2 else s2.fallBack src

/-- CLOCK_MONITOR_WINDOW: 256 Winter cycles have passed. A failed window of a reference in use is a clock monitor failure, and
in a pair the module yields (R513, R514); else a planned switch may be due. -/
def execClockMonitorWindow (t : Nat) (int25 refclk internal : Nat) (s : State) : Host.Outcome State Fault Refusal :=
  let s0 := s.tick t
  .next (
    if !s0.modes.powered || s0.modes.inReset then s0
    else
      let s1 := s0.judgeWindows int25 refclk
      let bad := [(0, int25), (1, refclk), (2, internal)].filter (fun (r, n) => s0.refInUse r && !(s0.windowOk r n))
      if bad.isEmpty then
        match s1.wantedSource with
        | some w => s1.plannedSwitch w
        | none => s1
      else (bad.foldl (fun (st : State) (x : Nat × Nat) => st.clockFailed x.1 x.2) s1).diagnose .clock)

/-- STOPPED_CLOCK: no edge of the old source for 8 Winter cycles: the switch is forced, at divider 16 (R516); where no tile
runs, the tile is gated (R46). -/
def execStoppedClock (t : Nat) (die : Fin 8) (s : State) : Host.Outcome State Fault Refusal :=
  let s0 := s.tick t
  let n := die.val
  let x := s0.tile n
  let to_ := x.switchTo.getD 2
  .next (
    if !s0.modes.powered || s0.modes.inReset || !(s0.diePresent n) then s0
    else
      let mark (st : State) : State := ({ st with clk := { st.clk with forced := true } }).event 0x0103 [n]
      if n = 0 then
        if s0.clk.source = 2 then mark s0
        else
          let s1 := { s0 with clk := { s0.clk with source := 2, switches := min 0xFFFFFFFF (s0.clk.switches + 2) } }
          (mark (s1.event 0x0101 [0x101])).clockSettle
      else if x.div = 0 || x.src = to_ then s0
      else
        let s1 :=
          if s0.tilesRun then
            s0.setTile n { x with
              state := .spring, div := 16, pll := true, stepAt := s0.now, dwell := s0.clk.dwell, switching := true }
          else s0.gate n
        let s2 := if x.switchTo.isNone then s1.event 0x0101 [2 ^ n] else s1
        mark (s2.tileSwitched n to_))

/-- REFCLK_DELAY_EXPIRY: the start-up delay, counted from supply good, has passed: REFCLK is on trial for 16 windows
(R512). -/
def execRefclkDelayExpiry (t : Nat) (s : State) : Host.Outcome State Fault Refusal :=
  let s0 := s.tick t
  .next (
    if s0.modes.powered && !s0.clk.refDelayDone && !s0.clk.refJudged && !s0.clk.refFailed && s0.cfg.ee.refPresent && s0.clk.refCtrl.getLsbD 0 &&
        s0.modes.supplyAt + 250000 * s0.cfg.ee.refDelay ≤ s0.now then
      { s0 with clk := { s0.clk with refDelayDone := true, refRun := 0 } }
    else s0)

end Sys2Proof.Machine
end

