-- ==== Sys2Proof/Machine/Times.lean ====
section
/-! DEFINITION. Machine/Times.lean: supply feeds and the power-fail warning, module time, the RTC with its backup domain, and
the alarm (15_clocks_power_time.md). -/

namespace Sys2Proof.Machine

/-! ### Feeds (R522, R528) -/

/-- The voltage of the backup rail is measured: a free value (log 10). Without a feed, its source is the higher of VBAK and
the capacitor, which no command brings: a free choice (R528). -/
def State.backupRail (s : State) : State :=
  let (w, s1) := s.fresh
  let src := if s.pwr.feedA || s.pwr.feedB then 0 else 1 + bits w.toNat 12 1
  { s1 with pwr := { s1.pwr with backupSrc := src, backupMv := bits w.toNat 0 12 } }

/-- FEED_GOOD: 17.0 V for 10 ms; event 0x0111 for a feed that is good again. -/
def execFeedGood (t : Nat) (b : Bool) (millivolt durNs : Nat) (tenMilliamp : Nat) (s : State) :
    Host.Outcome State Fault Refusal :=
  let s0 := s.tick t
  let p := s0.pwr
  .next (
    if (if b then p.feedB else p.feedA) || millivolt < 17000 || durNs < 10000000 then s0
    else
      let p1 : Pwr := if b then { p with feedB := true, voltB := millivolt, curB := tenMilliamp, goneB := false }
                      else { p with feedA := true, voltA := millivolt, curA := tenMilliamp, goneA := false }
      let s1 := { s0 with pwr := { p1 with holdup := true } }
      let s2 := if s1.modes.powered && (if b then p.goneB else p.goneA) then s1.event 0x0111 [b2n b] else s1
      s2.backupRail)

/-! ### Power-fail warning (R523, Table 15-4) -/

/-- The warning: event 0x0112 with its cause (0 both feeds, 1 a rail, 2 PRSNT_N); a pair yields, a SIMPLEX module enters
HOLD with cause 16; the panel darkens; retained units, cell records and accumulators are committed. -/
def State.powerFail (s : State) (cause : Nat) (c : Check) : State :=
  if s.pwr.warn.isSome || !s.modes.powered then s
  else
    let s1 := ({ s with pwr := { s.pwr with warn := some s.now, warnCause := cause } }).event 0x0112 [cause]
    let s2 := s1.diagnose c
    { s2 with dsp := { s2.dsp with on := false, front := [], running := [] }
              cells := { s2.cells with mram := s2.cells.work } }

/-- FEED_LOST: below 16.0 V for 10 us; the loss of both feeds is a power-fail warning. An OFF module records nothing. -/
def execFeedLost (t : Nat) (b : Bool) (millivolt durNs : Nat) (s : State) : Host.Outcome State Fault Refusal :=
  let s0 := s.tick t
  let p := s0.pwr
  .next (
    if !(if b then p.feedB else p.feedA) || 16000 ≤ millivolt || durNs < 10000 then s0
    else
      let p1 : Pwr := if b then { p with feedB := false, voltB := millivolt, curB := 0, goneB := true }
                      else { p with feedA := false, voltA := millivolt, curA := 0, goneA := true }
      let s1 :=
        if s0.modes.powered then
          ({ s0 with pwr := { p1 with
            flags := p1.flags ||| (if b then 2 else 1), feedLosses := satInc p1.feedLosses } }).event 0x0110 [b2n b]
        else { s0 with pwr := p1 }
      let s2 := s1.backupRail
      if p1.feedA || p1.feedB then s2 else s2.powerFail 0 .supply)

/-- RAIL_FAULT: a rail outside +-5 % for 10 us. -/
def execRailFault (t : Nat) (rail : Nat) (durNs : Nat) (s : State) : Host.Outcome State Fault Refusal :=
  let s0 := s.tick t
  .next (
    if durNs < 10000 || !s0.modes.powered then s0
    else
      let s1 := { s0 with pwr := { s0.pwr with railOk := false, flags := s0.pwr.flags ||| 4 } }
      (s1.event 0x0113 [rail]).powerFail 1 .supply)

/-- PRSNT_N_DEASSERT. -/
def execPrsntNDeassert (t : Nat) (s : State) : Host.Outcome State Fault Refusal :=
  let s0 := s.tick t
  .next (
    if !s0.pwr.prsnt || !s0.modes.powered then s0
    else ({ s0 with pwr := { s0.pwr with prsnt := false } }).powerFail 2 .prsnt)

/-! ### Module time (R518 to R521) -/

/-- TIME_READ. -/
def execTimeRead (rid : Nat) (s : State) : Host.Outcome State Fault Refusal :=
  .next (s.onReq rid 0x0700 (fun r => s.complete r stOk s.mt))

/-- CLK_MT_READ: the low word, with the high word latched. -/
def execClkMtRead (t : Nat) (s : State) : Host.Outcome State Fault Refusal :=
  let s0 := s.tick t
  .next (({ s0 with clk := { s0.clk with mtLatch := bits s0.mt 32 32 } }).emit
    (.readValue 0x3020 (BitVec.ofNat 64 (bits s0.mt 0 32))))

/-- A write of the RTC from a valid MT: the civil fields of the next whole second are staged (R525, R527). -/
def State.stageRtc (s : State) : State :=
  if !s.clk.valid then s
  else { s with rtc := { s.rtc with staged := some (civilOf ((s.mt / 1000000000 + 1) - mt2000 / 1000000000)) } }

/-- Row of Table 15-3 by the time state. -/
def State.timeRow (s : State) : Nat :=
  let st := s.ring.timeState
  if s.modes.role == .follow && s.twinUp then 2
  else if st = 0 && s.modes.mode != .run then 0
  else if st ≤ 1 then 1
  else 2

/-- MT steps to a value; schedules go on from it, and the next estimation of each port is a gap (R521). -/
def State.stepTime (s : State) (mt : Nat) : State :=
  let s1 := s.stepSweeps
  { s1 with mtOff := (mt : Int) - s.now, slew := none, clk := { s1.clk with slewing := false } }

/-- MT slews at 200 ppm toward a value. -/
def State.slewTime (s : State) (mt : Nat) : State :=
  { s with slew := some { startNow := s.now, startOff := s.offset, target := s.offset + ((mt : Int) - s.mt) }
           clk := { s.clk with slewing := true } }

/-- Seconds until a slew ends, rounded up: 1 ns in 5 000 ns. -/
def slewSeconds (old new : Nat) : Nat := ceilDiv (((new : Int) - old).natAbs * 5000) 1000000000

/-! ### Apertures of the fast analogue inputs (R486) -/

/-- An instant of a schedule with a phase and a period, ns, lies from `lo` on and before `hi`. -/
def dueIn (phase period lo hi : Nat) : Bool := nextAt phase period lo < hi

/-- A demand for an aperture falls from `lo` on and before `hi`: a sample of a loop on a fast analogue input, a latch of a task
that binds one, a record of a subscription to one (R486). -/
def State.faiDemand (s : State) (lo hi : Nat) : Bool :=
  let k (w : BitVec 32) : Bool := srcKind w == 1
  (s.modes.mode == .run && s.loops.loops.any (fun e =>
    (k e.2.lrec.sampleSrc || k e.2.lrec.spSrc || (match e.2.ext with | some x => x.nu == 2 && k x.sample2 | none => false)) &&
    dueIn (e.2.lrec.samplePhase * 10) (e.2.lrec.period * 1000) lo hi)) ||
  (s.runsTasks && (match s.prog.loaded with
    | some i => i.tasks.any (fun d => d.binds.any (fun b => b.kind == 0 && b.space == 0 && bits b.ref.toNat 8 8 == 3) &&
        lo ≤ s.cycleAt d (s.task d.task).nextN && s.cycleAt d (s.task d.task).nextN < hi)
    | none => false)) ||
  s.host.subs.any (fun x => x.opcode == 0x0B01 && x.target / 256 == 3 && x.param != 0 && dueIn 0 (x.param * 10000) lo hi)

/-- FAI_APERTURE: all eight inputs convert together, for a demand of this instant or, 500 ns after a whole millisecond, for none.
An aperture within 500 ns of the previous one does not open: a demand takes the previous result and is counted. One of a whole
millisecond does not open within 500 ns of a demand's either. -/
def execFaiAperture (t : Nat) (volts : List (BitVec 32)) (s : State) : Host.Outcome State Fault Refusal :=
  let s0 := s.tick t
  .next (
    let demand := s0.faiDemand s0.mt (s0.mt + 1)
    if !demand && (s0.mt % 1000000 != 500 || s0.mt < s0.fio.faiMt + 500 || s0.faiDemand s0.mt (s0.mt + 500)) then s0
    else if s0.mt < s0.fio.faiMt + 500 then { s0 with fio := { s0.fio with faiShared := satInc s0.fio.faiShared } }
    else
      let s1 := { s0 with fio := { s0.fio with faiMt := s0.mt } }
      (volts.take 8).zipIdx.foldl (fun st (v, n) => st.faiRead n v) s1)

/-! ### SYNC frames (R426, R428) -/

/-- Offset of this module's time from the master's at a SYNC's ingress. -/
def State.syncOffset (s : State) (east : Bool) (f : RingFrame) : Int :=
  (s.mt : Int) - ((f.stamp.toNat : Int) + sx 64 (beRd f.payload 8 8) / 256 + (((s.link east).delay / 4 : Nat) : Int))

/-- Discipline module time to the master: a step outside RUN above 1 us, else at most 200 ppm of the time `since` the SYNC
before; LOCKED after 64 consecutive offsets within +-20 ns (R428). `again`: the better copy of the SYNC used last, in whose
place it counts (R426). -/
def State.discipline (s : State) (off0 : Int) (since0 : Nat) (again : Bool) : State :=
  let r := s.ring
  let off : Int := if again then off0 + r.syncCorr else off0
  let since : Nat := if again then r.syncSince else since0
  let bound : Int := ((since / 5000 : Nat) : Int)
  let big : Bool := decide (1000 < off) || decide (off < -1000)
  let step : Bool := s.modes.mode != .run && big
  let corr : Int := if step then off else max (-bound) (min bound off)
  let near : Bool := decide (-20 ≤ off) && decide (off ≤ 20)
  let run := if !near then 0 else if again then max 1 r.lockRun else r.lockRun + 1
  let locked := r.timeState == 3
  let s0 := if step then s.stepSweeps else s
  let s1 := { s0 with
    mtOff := s.offset - corr + (if again then r.syncCorr else 0)
    slew := none
    clk := { s0.clk with slewing := false }
    ring := { s0.ring with
      timeOffset := off, lockRun := run, syncSince := since, syncCorr := corr
      timeState := if near && (locked || 64 ≤ run) then 3 else 2 } }
  if near && !locked && 64 ≤ run then (s1.event 0x0507).timeValid
  else if !near && locked then s1.event 0x0508 [ev off] else s1

/-- Use a SYNC frame: mastership, PERIOD, and the discipline of module time (R420, R425, R428). -/
def State.useSync (s : State) (east : Bool) (f : RingFrame) (again : Bool) : State :=
  if s.ownPrio != 255 && betterMaster s.ownPrio s.ownNode (beRd f.payload 0 1) (beRd f.payload 1 1) then
    s.setMaster s.ownNode s.ownPrio 1
  else if !(s.followsSync f) then s
  else
    let since := match s.ring.lastSync with
      | some a => s.now - a
      | none => s.cycles 1
    (s.hearMaster f).discipline (s.syncOffset east f) since again

/-- SYNC_RECEIVE. Of the two copies of a SYNC the one with the higher HOPS counts, EAST on a tie: the later copy is used
only then. -/
def execSyncReceive (t : Nat) (east : Bool) (f : RingFrame) (s : State) : Host.Outcome State Fault Refusal :=
  let s0 := s.tick t
  .next (
    if !s0.ringActive || f.kind != 6 then s0
    else
      let s1 := s0.ringIn east f
      let twin : Bool := s0.ring.seqs.any (fun (x, y, z, q, _) => x == f.src && y == 6 && z == 0 && q == f.seq)
      let better : Bool := twin && (s0.ring.syncHops < f.hops || (s0.ring.syncHops == f.hops && east))
      if !frameGood f || f.src == s0.ownNode || !(s1.seqNew f || better) then s1
      else (s1.seqTake f).ringUse f (fun x => x.useSync east f better))

/-- TIME_SET (R520, Table 15-3). -/
def execTimeSet (rid : Nat) (s : State) : Host.Outcome State Fault Refusal :=
  .next (s.onReq rid 0x0701 (fun r =>
    let old := s.mt
    let new := rd r.buf 0 8
    let row := s.timeRow
    if row = 2 then s.complete r stOk 2
    else
      let s1 := if row = 0 then s.stepTime new else s.slewTime new
      let res := if row = 0 then 0 else 1 + slewSeconds old new * 2 ^ 32
      let s2 := (s1.timeValid.stageRtc).event 0x0200 [old, new, r.actor, res]
      let s3 := if s.leadsPair then s2.emit (.mirror (.time s2.mt)) else s2
      s3.complete r stOk res))

/-- SLEW_END. -/
def execSlewEnd (t : Nat) (s : State) : Host.Outcome State Fault Refusal :=
  let s0 := s.tick t
  .next (match s0.slew with
    | some w =>
      if s0.offset = w.target then
        { s0 with mtOff := w.target, slew := none, clk := { s0.clk with slewing := false } }
      else s0
    | none => s0)

/-! ### RTC and backup domain (R524 to R531) -/

/-- RTC_SEC_READ: a snapshot of every field; the read returns the seconds. -/
def execRtcSecRead (t : Nat) (s : State) : Host.Outcome State Fault Refusal :=
  let s0 := s.tick t
  .next (({ s0 with rtc := { s0.rtc with snap := s0.rtcCivil, snapSub := s0.rtcSub } }).emit
    (.readValue 0x5000 (BitVec.ofNat 64 s0.rtcCivil.sec)))

/-- RTC_CHECK: every 60 s; the RTC is found apart from a valid MT by `drift` ns, and written at 0.5 s or more. -/
def execRtcCheck (t : Nat) (drift : Int) (s : State) : Host.Outcome State Fault Refusal :=
  let s0 := s.tick t
  .next (
    if !s0.clk.valid || s0.now < s0.rtc.lastCheck + 60000000000 then s0
    else
      let found := ((s0.mt : Int) - mt2000 + drift).toNat
      let s1 := { s0 with rtc := { s0.rtc with lastCheck := s0.now, base := found, baseAt := s0.now } }
      if 500000000 ≤ drift.natAbs then s1.stageRtc else s1)

/-- RTC_COMMIT: at a whole second of MT, within one Winter tick, the staged fields are committed, the prescaler restarts and
OSF clears; an invalid date is refused whole with event 0x0205. -/
def execRtcCommit (t : Nat) (s : State) : Host.Outcome State Fault Refusal :=
  let s0 := s.tick t
  .next (match s0.rtc.staged with
    | some c =>
      if 123 ≤ s0.mt % 1000000000 then s0
      else if c.valid then
        { s0 with rtc := { s0.rtc with staged := none, base := secsOf c * 1000000000, baseAt := s0.now, osf := false } }
      else ({ s0 with rtc := { s0.rtc with staged := none } }).event 0x0205
    | none => s0)

/-- BACKUP_LOST: the rail below 1.6 V for 1 us: OSF, the RTC at its start, backup memory and the alarm cleared. -/
def execBackupLost (t : Nat) (millivolt durNs : Nat) (s : State) : Host.Outcome State Fault Refusal :=
  let s0 := s.tick t
  .next (
    if 1600 ≤ millivolt || durNs < 1000 then s0
    else { s0 with rtc := { s0.rtc with
      backupLost := true, osf := true, base := 0, baseAt := s0.now, bkup := [], bkupValid := false, staged := none
      alarmBuf := zeros 16, alarmFired := none, wakeOut := none } })

/-- OSF: no edge of the crystal for 1 ms; the RTC stood still meanwhile. -/
def execOsf (t : Nat) (gapNs : Nat) (s : State) : Host.Outcome State Fault Refusal :=
  let s0 := s.tick t
  .next (
    if gapNs < 1000000 then s0
    else { s0 with rtc := { s0.rtc with osf := true, base := s0.rtcNs - gapNs, baseAt := s0.now } })

/-! ### Alarm and WAKE_OUT (R532, R533) -/

/-- Content of an RTC_ALARM buffer: fields in the range of R524, CTRL bits, reserved bytes, and no MATCH of 0 with
ENABLE. -/
def alarmOk (b : List Byte) : Bool :=
  let f (i : Nat) : Nat := rd b i 1
  f 0 < 60 && f 1 < 60 && f 2 < 24 && 1 ≤ f 3 && f 3 ≤ 31 && 1 ≤ f 4 && f 4 ≤ 12 && f 5 < 200 && f 6 < 64 && f 7 < 4 &&
  zeroAt b 12 4 && !(bit (f 7) 0 && f 6 == 0)

/-- RTC_ALARM: WAKE_OUT exists on XKP-08 alone. -/
def execRtcAlarm (rid : Nat) (s : State) : Host.Outcome State Fault Refusal :=
  .next (s.onReq rid 0x0702 (fun r =>
    if bit (rd r.buf 7 1) 1 && s.cfg.variant != .xkp08 then s.complete r stNotPresent
    else ({ s with rtc := { s.rtc with alarmBuf := r.buf.take 16, alarmFired := none } }).complete r stOk))

/-- The alarm's fields in the order of its buffer. -/
def Civil.fields (c : Civil) : List Nat := [c.sec, c.min, c.hour, c.day, c.month, c.year]

/-- Every compared field of the alarm equals the RTC. -/
def alarmHit (b : List Byte) (c : Civil) : Bool :=
  (List.range 6).all (fun i => !bit (rd b 6 1) i || rd b i 1 == c.fields.getD i 0)

/-- The compared fields advanced by REPEAT_S seconds, from the second at which the alarm fired. -/
def alarmAdvance (b : List Byte) (secs : Nat) : List Byte :=
  let rep := rd b 8 4
  if rep = 0 then b
  else
    let c := civilOf (secs + rep)
    ((List.range 6).map (fun i =>
      if bit (rd b 6 1) i then BitVec.ofNat 8 (c.fields.getD i 0) else b.getD i 0)) ++ b.drop 6

/-- ALARM_FIRE: at the start of a second at which every compared field matches; also while OFF, on the backup rail. -/
def execAlarmFire (t : Nat) (s : State) : Host.Outcome State Fault Refusal :=
  let s0 := s.tick t
  let b := s0.rtc.alarmBuf
  let secs := s0.rtcNs / 1000000000
  let ctrl := rd b 7 1
  .next (
    if !bit ctrl 0 || s0.rtcSub != 0 || !alarmHit b s0.rtcCivil || s0.rtc.alarmFired == some secs then s0
    else
      let s1 := { s0 with rtc := { s0.rtc with
        alarm := true, alarmFired := some secs, alarmBuf := alarmAdvance b secs
        wakeOut := if bit ctrl 1 && s0.cfg.variant == .xkp08 then some s0.now else s0.rtc.wakeOut } }
      if !s1.modes.powered then s1
      else
        let s2 := s1.event 0x0202
        if s2.modes.wakeOnAlarm then s2.wake 11 else s2)

/-- WAKE_TIMEOUT: WAKE_OUT is released 10 s after it was asserted. -/
def execWakeTimeout (t : Nat) (s : State) : Host.Outcome State Fault Refusal :=
  let s0 := s.tick t
  .next (match s0.rtc.wakeOut with
    | some a =>
      if s0.now < a + 10000000000 then s0
      else { s0 with rtc := { s0.rtc with wakeOut := none, wakeTimeout := true } }
    | none => s0)

end Sys2Proof.Machine
end

