-- ==== Sys2Proof/Machine/Start.lean ====
section
/-! DEFINITION. Machine/Start.lean: mode commands, module reset, power-up, firmware start, and the start and restart
sequences (04_modes_and_start.md). -/

namespace Sys2Proof.Machine

/-! ### Module reset (R18, R127) -/

/-- What a trip output keeps over a module reset: its configuration (Table 11-2). -/
def TripOut.stored (o : TripOut) : TripOut :=
  { orMask := o.orMask, andMask := o.andMask, ctrl := o.ctrl, pulseUs := o.pulseUs, testInterval := o.testInterval }

/-- The stored trip and safety configurations, a safety configuration that still waited included, with the proof times and
the inputs' levels; every function starts in demand (R403, R406). -/
def Trip.stored (t : Trip) : Trip :=
  let (period, fns) : Nat × List SafeFn := match t.newFns with | some x => x | none => (t.period, t.fns)
  { invert := t.invert, proofDays := t.proofDays, outs := tmap (fun _ (o : TripOut) => o.stored) t.outs
    cfgCrc := t.cfgCrc, safetyCrc := t.safetyCrc, levels := t.levels, overTemp := t.overTemp
    lastAssert := t.lastAssert, namedAt := t.namedAt, proofAt := t.proofAt, period := period
    cfgBad := t.cfgBad, safetyBad := t.safetyBad
    fns := fns.map (fun (f : SafeFn) => SafeFn.read f.raw) }

/-- The field configuration (R473). -/
def Fio.stored (f : Fio) : Fio :=
  { di := tmap (fun _ (d : Di) => { debounce := d.debounce }) f.di
    wbEn := f.wbEn
    dout := tmap (fun _ (d : Do) => { cfg := d.cfg }) f.dout
    cl := tmap (fun _ (c : Cl) => { ctrl := c.ctrl, lo := c.lo, hi := c.hi, comp := c.comp, zero := c.zero, span := c.span
                                    table := c.table }) f.cl
    fao := tmap (fun _ (a : Fao) => { cfg := a.cfg, safeV := a.safeV }) f.fao
    pi := tmap (fun _ (p : Pi) => { cfg := p.cfg, window := p.window }) f.pi }

/-- The ring configuration: what was applied last, or waits to be applied; the relays stand as sensed (R424, R434). -/
def Ring.stored (r : Ring) : Ring :=
  let c : RingCfg := match r.pendingApply with | some (_, c) => c | none => r.applied
  { node := r.node, written := c, applied := c, e := { relayClosed := r.e.relayClosed }
    w := { relayClosed := r.w.relayClosed } }

/-- A channel keeps its matrix alone (R456). -/
def Can.stored (c : Can) : Can :=
  { matrix := match c.newMatrix with | some (_, m) => some m | none => c.matrix }

/-- The recorder keeps what it wrote and its configuration; every bucket is full (R541, R544). -/
def Recorder.stored (r : Recorder) (now : Nat) : Recorder :=
  { nextRoutine := r.nextRoutine, nextSafety := r.nextSafety, seq := r.seq, seqAssigned := r.seq, boot := r.boot
    cfg := tmap (fun _ (c : CodeCfg) => { c with tokens := c.burst * tokenUnit, tokensAt := now, suppressed := 0 }) r.cfg
    configCrc := r.configCrc, slots := r.slots, bad := r.bad, fullWritten := r.fullWritten }

/-- Keys, counters, verifier, lockout and firmware slots (R99, R109, R111, R113). -/
def Sec.stored (c : Sec) : Sec :=
  { slots := c.slots, verifier := c.verifier, fails := c.fails, lockEnd := c.lockEnd, fwActiveB := c.fwActiveB
    fwAValid := c.fwAValid, fwBValid := c.fwBValid, fwPending := c.fwPending, fwMinVersion := c.fwMinVersion
    fwVersionA := c.fwVersionA, fwVersionB := c.fwVersionB, fwSigA := c.fwSigA, fwSigB := c.fwSigB }

/-- The MODE block's stored values (Table 4-9), and what the change of mode that follows reports. -/
def Modes.stored (m : Modes) (now cause : Nat) : Modes :=
  { powered := m.powered, prevMode := if m.powered then modeCode m.mode else 0, supplyAt := now, cause := cause
    startRun := m.startRun, startWarm := m.startWarm, wakeOnTrip := m.wakeOnTrip, wakeToRun := m.wakeToRun
    wakeOnAlarm := m.wakeOnAlarm, drillMinutes := m.drillMinutes }

/-- Cell plan, chemistry, cell records as committed last, and the contactor plan (R132, R310, R343). -/
def Cells.stored (c : Cells) : Cells :=
  { plan := c.plan, chems := c.chems, work := c.mram, pub := c.mram, mram := c.mram
    curs := tmap (fun _ (k : Cur) => { lastEst := k.lastEst, stepped := k.stepped }) c.curs
    conts := (c.conts.filter (fun k => !k.leaving)).map (fun (k : ContactorRun) => { plan := k.plan }), contCrc := c.contCrc }

/-- A module reset: STARTUP before power-up step 1, with every stored value kept and all else at its reset value; the helm
is the host's, with its link down (R90). -/
def State.moduleReset (s : State) (cause : Nat) : State :=
  { pending := s.pending, now := s.now, mtOff := s.offset, out := s.out, cfg := s.cfg, free := s.free
    host := { nextRid := s.host.nextRid }
    mgmt := { hostDownAt := some s.now }
    sec := s.sec.stored
    modes := s.modes.stored s.now cause
    prog := { stored := s.prog.stored, units := s.prog.units, forces := s.prog.storedForces, storedForces := s.prog.storedForces }
    loops := { stored := s.loops.stored, admitted := s.loops.admitted, modesMram := s.loops.modesMram }
    cells := { s.cells.stored with lastCommit := s.now }
    twin := { marks := s.twin.marks, lastDrill := s.now }
    trip := s.trip.stored
    ring := s.ring.stored
    can := tmap (fun _ (c : Can) => c.stored) s.can
    fio := s.fio.stored
    clk := { refCtrl := s.clk.refCtrl, dwell := s.clk.dwell }
    pwr := { s.pwr with warn := none, warnCause := 0, flags := 0, feedLosses := 0 }
    rtc := s.rtc
    recd := s.recd.stored s.now
    dsp := { grey := s.dsp.grey, greyUse := s.dsp.grey, scale := s.dsp.scale, scaleUse := s.dsp.scale
             limits := s.dsp.limits, pressed := s.dsp.pressed, lever := s.dsp.lever } }

/-- MODULE_RESET. -/
def execModuleReset (t : Nat) (s : State) : Host.Outcome State Fault Refusal :=
  let s0 := s.tick t
  .next (if s0.modes.powered then s0.moduleReset 0 else s0)

/-- WINTER_LOSS: no Winter edge for 1 us holds the module in reset (R502). -/
def execWinterLoss (t : Nat) (gapNs : Nat) (s : State) : Host.Outcome State Fault Refusal :=
  let s0 := s.tick t
  .next (
    if !s0.modes.powered || gapNs < 1000 then s0
    else
      let s1 := s0.moduleReset 0
      { s1 with modes := { s1.modes with inReset := true } })

/-- WINTER_RECOVERED: 256 good Winter cycles have passed (R502). -/
def execWinterRecovered (t : Nat) (goodCycles : Nat) (s : State) : Host.Outcome State Fault Refusal :=
  let s0 := s.tick t
  .next (
    if !s0.modes.inReset || goodCycles < 256 then s0
    else { s0 with modes := { s0.modes with inReset := false, supplyAt := s0.now } })

/-- POWER_DOWN_RESET: 4.5 ms after the warning the module is OFF; the records that could not be written are counted, and a
lockout stands still (R523, R544, R111). -/
def execPowerDownReset (t : Nat) (s : State) : Host.Outcome State Fault Refusal :=
  let s0 := s.tick t
  .next (match s0.pwr.warn with
    | some w =>
      if s0.now < w + 4500000 then s0
      else
        let s1 := s0.moduleReset 0
        { s1 with modes := { s1.modes with powered := false, prevMode := 0 }
                  sec := { s1.sec with lockEnd := s1.sec.lockEnd.map (fun e => e - s0.now) }
                  pwr := { s1.pwr with lostRecords := s0.recd.queue.length, railOk := false, holdup := false } }
    | none => s0)

/-! ### RECOVERY (R116, R143, R584, R585) -/

/-- A partner is present: the module has one, its link is up, or it drives LEAD_ALIVE. -/
def State.partnerHere (s : State) : Bool := s.modes.partner || s.twinUp || s.twin.aliveSeen

/-- Boot firmware runs alone: role SIMPLEX, detached when a partner is present. -/
def State.inRecovery (s : State) (partner : Bool) : State :=
  { s with modes := { s.modes with role := .simplex, detached := partner, trans := none, settle := .idle } }

/-- RECOVERY is entered from the power-up sequence. -/
def State.enterRecovery (s : State) (cause : Nat) : State := (s.setMode .recovery cause).inRecovery s.partnerHere

/-- Step 2 of R127: the trip network is armed from its stored configuration, every latching output latched (R394); one that
fails its CRC leaves every output de-energised, with event 0x0410, and for the safety functions event 0x0411. A source that
asserts already at that load has not come to assert: it sets no bit of TRIP.SRC_SEEN and writes no event 0x0403. The sentry core
copies what it guards of the stored cell plan (R297). -/
def State.loadTrip (s : State) (tripOk safetyOk : Bool) : State :=
  let latch (o : TripOut) : TripOut :=
    let l := o.enabled && o.latching
    { o with latched := l, safeNow := l }
  let s1 := { s with trip := { s.trip with
    loaded := tripOk, cfgBad := !tripOk, safetyBad := !safetyOk
    outs := if tripOk then tmap (fun _ o => latch o) s.trip.outs else s.trip.outs } }
  let s2 := if tripOk then s1 else s1.event 0x0410
  let s3 := if safetyOk then s2 else s2.event 0x0411
  let s4 := s3.loadStrings.judgeAll
  ({ s4 with trip := { s4.trip with src := s4.srcNow } }).tripEval

/-- RECOVERY_RESET: at least 10 ms after the completion of MODE_SET RECOVERY, once its event 0x0001 is recorded: the module
resets into boot firmware, with the trip network on its stored configuration. -/
def execRecoveryReset (t : Nat) (s : State) : Host.Outcome State Fault Refusal :=
  let s0 := s.tick t
  .next (match s0.modes.trans with
    | some (.toRecovery at_ cause seq) =>
      if s0.now < at_ + 10000000 || s0.recd.seq < seq then s0
      else
        let bad := s0.trip.cfgBad
        let s1 := s0.moduleReset cause
        let s2 := { s1 with
          modes := { s1.modes with mode := .recovery, puStep := 4 }
          recd := { s1.recd with ready := true }
          host := { s1.host with engine := true } }
        ((s2.inRecovery s0.partnerHere).loadTrip (!bad) (!s0.trip.safetyBad)).cause causeMode
    | _ => s0)

/-- ACTIVATE_RESET: in RECOVERY, 100 ms after an OK FW_ACTIVATE (Table 4-4). -/
def execActivateReset (t : Nat) (s : State) : Host.Outcome State Fault Refusal :=
  let s0 := s.tick t
  .next (match s0.sec.activateAt with
    | some a =>
      if s0.modes.mode != .recovery || s0.now < a + 100000000 then s0 else s0.moduleReset 0
    | none => s0)

/-- Exactly these keys are pressed. -/
def Panel.pressedAre (d : Panel) (ks : List Key) : Bool :=
  !d.lever && d.pressed.length == ks.length && ks.all (fun k => d.pressed.contains k)

/-- Since when exactly these keys have been held, the lever not pulled, in a hold that began in a mode (R585). -/
def Panel.held (d : Panel) (ks : List Key) (m : Mode) : Option Nat :=
  match d.hold with
  | some (h, at_, hm) =>
    if !d.lever && hm == m && h.length == ks.length && ks.all (fun k => h.contains k) then some at_ else none
  | none => none

/-- LEAVE_RECOVERY: MODE and DOWN held for 5 s reset the module into STARTUP with cause 14. -/
def execLeaveRecovery (t : Nat) (s : State) : Host.Outcome State Fault Refusal :=
  let s0 := s.tick t
  .next (match s0.dsp.held [.mode, .down] .recovery with
    | some a => if s0.modes.mode == .recovery && a + 5000000000 ≤ s0.now then s0.moduleReset 14 else s0
    | none => s0)

/-! ### Power-up (R127) -/

/-- Step 4: boot firmware starts the pending or active slot when its signature holds, else the other valid slot with event
0x0320; neither leads to RECOVERY with cause 9 (R116). DESIGN CHOICE, log 97: a start that boots the slot of FW_ACTIVATE is the
instant of event 0x0321, and both slots are checked, so that a boot clears VALID of the inactive one too. -/
def State.bootFirmware (s : State) : State :=
  let c := s.sec
  let a := c.fwAValid && s.modes.bootA
  let b := c.fwBValid && s.modes.bootB
  let want := c.fwPending.getD c.fwActiveB
  let good (x : Bool) : Bool := if x then b else a
  let s1 := { s with sec := { c with fwAValid := a, fwBValid := b, fwPending := none }, modes := { s.modes with puStep := 3 } }
  let start (st : State) (x : Bool) : State := { st with sec := { st.sec with fwActiveB := x } }
  if good want then
    let s2 := start s1 want
    if c.fwPending.isSome then s2.event 0x0321 [b2n want] else s2
  else
    let s2 := s1.event 0x0320 [b2n want]
    if good (!want) then start s2 (!want) else s2.enterRecovery 9

/-- Module time at power-up: the RTC's, to its prescaler, when OSF reads 0 (R519). -/
def State.powerUpTime (s : State) : Nat :=
  if s.rtc.osf then mt2000 else mt2000 + s.rtcNs / 1000000000 * 1000000000 + s.rtcSub * 1000000000 / 32768

/-- The EEPROM answers with a good MAGIC, FORMAT and CRC, and its SLOTS and REF_DELAY lie in their ranges (R567). -/
def eepromOk (e : Eeprom) : Bool :=
  e.valid && (e.slots == 1 || e.slots == 2) && decide (1 ≤ e.refDelay ∧ e.refDelay ≤ 16000)

/-- The carrier identity as taken: an invalid EEPROM reads as no REFCLK and two slots (R567). -/
def carrierOf (e : Eeprom) : Eeprom :=
  if eepromOk e then e else { e with slots := 2, refPresent := false, refFreq := false, refDelay := 0 }

/-- Steps 1 and 2 of R127, with what is recorded at power-up, then step 4 unless step 3 has keys to watch. The cause word
of 0x0020 is free: its numbering is not stated (log 108). Keys held count
from supply good at a power-up only, never after a reset out of another mode (R585). -/
def State.powerUp (s : State) (b : BootCheck) : State :=
  let off := !s.modes.powered
  let ee := carrierOf b.ee
  let lost := s.pwr.lostRecords
  let s1 := { s with
    cfg := { s.cfg with ee := ee }
    mtOff := (s.powerUpTime : Int) - s.now, slew := none
    clk := { s.clk with valid := !s.rtc.osf }
    modes := { s.modes with powered := true, mode := .startup, role := .simplex, puStep := 2, supplyAt := s.now
                            bootA := b.slotAOk, bootB := b.slotBOk }
    pwr := { s.pwr with railOk := true, prsnt := true, lostRecords := 0 }
    host := { s.host with engine := true }
    rtc := { s.rtc with wakeOut := none, lastCheck := s.now }
    recd := { s.recd with ready := true, boot := if off then s.recd.boot + 1 else s.recd.boot }
    sec := { s.sec with lockEnd := if off then s.sec.lockEnd.map (· + s.now) else s.sec.lockEnd }
    mgmt := { s.mgmt with hostDownAt := some s.now }
    dsp := { s.dsp with supplyHeld := s.modes.prevMode == 0 && s.dsp.pressedAre [.mode, .down] } }
  let s2 := if eepromOk b.ee then s1 else s1.fresh.2.event 0x0020 [s1.fresh.1.toNat]
  let s3 := if eepromOk b.ee && ee.powerW < s.cfg.variant.maxPowerW then s2.event 0x0023 [ee.powerW] else s2
  let s4 := if lost = 0 then s3 else s3.event 0x0011 [lost]
  let s5 := if b.unfinished = 0 then s4 else s4.event 0x0014 [b.unfinished]
  let s6 := if s.rtc.backupLost then s5.event 0x0115 else s5
  let s7 := if s.rtc.osf then s6.event 0x0203 else s6
  let s8 := (s7.event 0x0001 [s.modes.prevMode, 2, s.modes.cause]).cause causeMode
  let s9 := s8.loadTrip b.tripOk b.safetyOk
  if s9.dsp.supplyHeld then s9 else s9.bootFirmware

/-- A key that moves ends the watch of step 3, and step 4 follows (R127). -/
def State.keysMoved (s : State) : State :=
  let s1 := { s with dsp := { s.dsp with supplyHeld := false } }
  if s.dsp.supplyHeld && s.modes.mode == .startup && s.modes.puStep == 2 then s1.bootFirmware else s1

/-- SUPPLY_GOOD: a feed is good and PRSNT_N asserted, again where an OFF module was withdrawn: the power-up sequence runs its steps 1 and 2, and step 4 where no key is held; step 3 is
RECOVERY_KEY_SEQUENCE (Table 4-4, R561). -/
def execSupplyGood (t : Nat) (b : BootCheck) (s : State) : Host.Outcome State Fault Refusal :=
  let s0 := s.tick t
  .next (
    if (s0.modes.powered && (s0.modes.mode != .startup || s0.modes.puStep != 1)) || s0.modes.inReset || (s0.modes.powered && !s0.pwr.prsnt) ||
        !(s0.pwr.feedA || s0.pwr.feedB) || s0.pwr.warn.isSome then s0
    else s0.powerUp b)

/-- RECOVERY_KEY_SEQUENCE: MODE and DOWN held for 2 s from supply good. -/
def execRecoveryKeySequence (t : Nat) (s : State) : Host.Outcome State Fault Refusal :=
  let s0 := s.tick t
  .next (
    if s0.modes.mode == .startup && s0.modes.puStep == 2 && s0.dsp.supplyHeld &&
        s0.modes.supplyAt + 2000000000 ≤ s0.now then s0.enterRecovery 10
    else s0)

/-- KEEL_BROUGHT_UP: step 5; the safety task and the conversions start, and the role begins to settle (R403, R480). -/
def execKeelBroughtUp (t : Nat) (s : State) : Host.Outcome State Fault Refusal :=
  let s0 := s.tick t
  .next (
    if !s0.modes.powered || s0.modes.mode != .startup || s0.modes.puStep != 3 then s0
    else
      ({ s0 with
        modes := { s0.modes with puStep := 6, settle := .readAlive s0.now }
        fio := { s0.fio with cl := tmap (fun _ (c : Cl) =>
          if bits c.ctrl.toNat 0 2 = 0 then c else { c with startMt := s0.mt, noData := c.isIn, burdenHz := some s0.highZ }) s0.fio.cl } }).safetyFollow)

/-! ### Joining a running lead (R355 step 1, R384) -/

/-- Why SYNCING is refused (Table 10-10), 0 when it is not. `joining`: this module would join; else its partner would. -/
def State.syncRefusal (s : State) (joining : Bool) : Nat :=
  let p := s.twin.p
  let ownEmpty := (List.range 16).all (fun n => n == 0 || !(s.keySlot n).present)
  if p.variant != s.cfg.variant then 1
  else if p.step != 2 then 2
  else if p.proto != s.cfg.proto.toNat then 3
  else if !p.keysEqual && !(if joining then ownEmpty else p.keysEmpty) then 4
  else if p.tripCrc != s.trip.cfgCrc || p.safetyCrc != s.trip.safetyCrc then 5
  else if joining && p.marksUs != 0 then 6
  else if !joining && s.twin.mark != 0 then 6
  else 0

/-- The role changes, if it is another; at power-up it comes from none (Table 4-8). -/
def State.toRole (s : State) (r : Role) : State :=
  if s.modes.role == r && s.modes.settle == .settled then s else s.setRole r

/-- HOLD is entered, unless the module is there. -/
def State.toHoldMode (s : State) : State := if s.modes.mode == .hold then s else s.holdNow 0 0

/-- A module that is refused stays detached in HOLD: as FOLLOW for a mark, else as SIMPLEX. -/
def State.syncRefused (s : State) (k : Nat) : State :=
  let s1 := { s with
    twin := { s.twin with syncActive := false, syncPhase := 5, syncRefuse := k }
    modes := { s.modes with detached := true, partner := true } }
  s1.toHoldMode.toRole (if k = 6 then .follow else .simplex)

/-- A module beside a running lead enters SYNCING, or is refused. Without the link there is nothing to check yet. -/
def State.trySyncing (s : State) : State :=
  let k := if s.twinUp then s.syncRefusal true else 0
  if k ≠ 0 then s.syncRefused k
  else
    let s1 := { s with
      twin := { s.twin with syncActive := s.twinUp, syncPhase := if s.twinUp then 1 else 0, syncRefuse := 0, syncPercent := 0 }
      modes := { s.modes with partner := s.twinUp, detached := false } }
    s1.toRole .syncing

/-- LEAD_ALIVE_READ_END: asserted throughout for 100 us means a running lead; else the module waits for the twin link. -/
def execLeadAliveReadEnd (t : Nat) (asserted : Bool) (s : State) : Host.Outcome State Fault Refusal :=
  let s0 := s.tick t
  .next (match s0.modes.settle with
    | .readAlive since =>
      if s0.now < since + 100000 then s0
      else if asserted then
        ({ s0 with twin := { s0.twin with aliveSeen := true } }).trySyncing.settleDone
      else { s0 with modes := { s0.modes with settle := .waitLink s0.now } }
    | _ => s0)

/-! ### Start and restart sequences (R127 steps 7 to 9, R128 to R133) -/

/-- Every task has a valid unit of the image (R128, R129). -/
def State.warmOk (s : State) (i : Image) : Bool :=
  i.tasks.all (fun d => match tfind s.prog.units d.task with | some u => u.crc == i.crc | none => false)

/-- Store a block of the image in a task's space. -/
def Task.place (t : Task) (h : BitVec 32) (b : List Byte) : Task :=
  if handleSpace h = 5 then { t with sp := { t.sp with inst := mwrite t.sp.inst (handleOff h) b } } else t.put h b

/-- A task as a restart sets it (Table 4-7): the image's blocks, and warm the retained space and the timer and edge records
of its last valid unit. Counts since module reset go on (Table 5-6). -/
def State.buildTask (s : State) (i : Image) (warm : Bool) (n : Nat) : Task :=
  let old := s.task n
  let blocks := (i.const ++ i.init).filter (fun b => handleTask b.1 == n)
  let t0 : Task := { overruns := old.overruns, skipped := old.skipped, lastHarvest := old.lastHarvest }
  let t1 := blocks.foldl (fun (t : Task) b => t.place b.1 b.2) t0
  match warm, tfind s.prog.units n with
  | true, some u =>
    let recs := i.insts.filter (fun x => x.kind ≤ 5 && handleTask x.handle == n)
    let inst := recs.foldl (fun m x => mwrite m (handleOff x.handle) (mread u.insts (handleOff x.handle) 32)) t1.sp.inst
    { t1 with sp := { t1.sp with ret := u.ret, inst := inst } }
  | _, _ => t1

/-- Step 3: the program of an image is set up: tasks, forces kept or cleared, and loops (Table 4-7, R130, R191). It is not
admitted yet. -/
def State.loadProgram (s : State) (i : Image) (warm : Bool) : State :=
  let tasks := i.tasks.foldl (fun (t : Tab Task) d => tset t d.task (s.buildTask i warm d.task)) []
  let forces := if warm then s.prog.forces else []
  let s1 := { s with prog := { s.prog with
    loaded := some i, admitted := false, tasks := tasks, forces := forces, effForces := forces, released := []
    storedForces := forces, running := [], waiting := [] } }
  s1.showOuts.startLoops warm

/-- The sequence ends in HOLD with a cause; the command that began it completes with a status and the cause. -/
def State.startFails (s : State) (status cause : Nat) : State :=
  let rid : Option Nat := match s.modes.trans with | some (.restart _ r _) => r | _ => none
  let s1 := s.enterHold cause 0
  match rid.bind s1.findReq with
  | some r => s1.complete r status cause
  | none => s1

/-- Admission of the stored image, loop set and cell plan: the event of the first that fails (R166, R254, R322). -/
def State.admission (s : State) (i : Image) : Option State :=
  match s.admitTasks i with
  | some (n, k) => some (s.event 0x0708 [n, k])
  | none =>
    if s.loopDieAbsent s.loops.stored then some (s.event 0x0801 [0, 1])
    else
      match s.loopFails (some i) s.loops.stored with
      | some (n, k) => some (s.event 0x0801 [n, k])
      | none => (s.cells.plan.bind s.planFails).map (fun _ => s)

/-- Step 4 fails: no task and no loop is admitted (R133, R167). -/
def State.notAdmitted (s : State) : State :=
  { s with prog := { s.prog with admitted := false }, loops := { s.loops with loops := [] } }.startFails stAdmission 7

/-- Step 4 passes: tasks and loops are admitted, with event 0x0800 where a loop set was ever stored (R167, R256). -/
def State.admitted (s : State) : State :=
  let s1 := { s with prog := { s.prog with admitted := true } }
  if s.loops.admitted then s1.event 0x0800 [s.loops.stored.recs.length] else s1

/-- Step 5: the restart instant of a start into RUN, by the kind that ran; a pair's lead sends it to its follower. -/
def State.planRestart (s : State) (warm fall : Bool) (at_ : Nat) : State :=
  let s1 := { s with modes := { s.modes with rstPlanned := some at_, planWarm := warm, planFallback := fall } }
  if s.leadsPair then s1.emit (.mirror (.instant 0x0102 at_)) else s1

/-- The restart instant: at least 50 us ahead; in a follower the one that its lead sent (R133 step 5). -/
def State.restartInstant (s : State) (asked : Nat) : Option Nat :=
  if s.modes.role == .follow && s.modes.partner && !s.modes.detached && !s.twin.lost then s.modes.leadRestart
  else if asked < s.mt + 50000 then none else some asked

/-- The start or restart sequence under way, if there is one: whether it goes into RUN, and its kind. -/
def State.starting (s : State) : Option (Bool × Bool) :=
  let m := s.modes
  if m.mode != .startup || m.rstPlanned.isSome || !s.tilesUp then none
  else
    match m.trans with
    | some (.restart warm _ _) => some (true, warm)
    | some _ => none
    | none => if m.settle == .settled && m.role != .syncing && !m.detached then some (m.startRun, m.startWarm) else none

/-- START_SEQUENCE_COMPLETE: the tiles are up, and steps 2 to 5 of R133 are done: image check, state by Table 4-7 (cold
where a task has no valid unit, R129), admission, restart instant; or the sequence ends in HOLD with cause 8, 7 or 0. -/
def execStartSequenceComplete (t : Nat) (imageOk : Bool) (restartAt : Nat) (s : State) :
    Host.Outcome State Fault Refusal :=
  let s0 := s.tick t
  .next (match s0.starting with
    | none => s0
    | some (run, warm) =>
      match s0.prog.stored with
      | none => s0.startFails stNotPresent 8
      | some i =>
        if !imageOk then s0.startFails stNotPresent 8
        else
          let ok := s0.warmOk i
          let fall := run && warm && !ok
          let kind := (warm || !run) && ok
          let s1 := (if fall then s0.event 0x0004 else s0).loadProgram i kind
          match s1.admission i with
          | some s2 => s2.notAdmitted
          | none =>
            if !run then s1.admitted.enterHold 0 0
            else
              match s0.restartInstant restartAt with
              | none => s0
              | some p => s1.admitted.planRestart kind fall p)

/-- Timer and edge records at a restart instant (R221). -/
def Task.restartRecords (t : Task) (i : Image) (n at_ : Nat) : Task :=
  (i.insts.filter (fun x => x.kind ≤ 5 && handleTask x.handle == n)).foldl (fun (t : Task) x =>
    let o := handleOff x.handle
    let r := TRec.read (mread t.sp.inst o 32)
    let r1 : TRec := { r with kind := x.kind, start := if x.kind ≤ 3 then at_ else r.start, arm := r.arm || decide (4 ≤ x.kind) }
    { t with sp := { t.sp with inst := mwrite t.sp.inst (o + 8) r1.bytes } }) t

/-- Outputs and sent values start anew: each stays at its safe state until it is first written (R133 step 6). -/
def State.freshOutputs (s : State) : State :=
  { s with
    fio := { s.fio with
      dout := tmap (fun _ (d : Do) => { d with committed := false, cmd := false, cont := none }) s.fio.dout
      cl := tmap (fun _ (c : Cl) => { c with committed := false, cmd := 0 }) s.fio.cl
      fao := tmap (fun _ (a : Fao) => { a with committed := false, cmd := 0 }) s.fio.fao }
    ring := { s.ring with outVals := [], taskVals := [], blocks := [], blockDue := [], dropOut := [], images := [], imagesOld := [] }
    can := tmap (fun _ (c : Can) => { c with vals := [] }) s.can }

/-- RESTART_INSTANT: the mode reads RUN, and every task's first cycle starts (R131, R133, R148, R346). -/
def execRestartInstant (t : Nat) (s : State) : Host.Outcome State Fault Refusal :=
  let s0 := s.tick t
  let m := s0.modes
  .next (match m.rstPlanned, s0.prog.loaded with
    | some p, some i =>
      if s0.mt < p || m.mode != .startup then s0
      else
        let rid : Option Nat := match m.trans with | some (.restart _ r _) => r | _ => none
        let kind := b2n m.planWarm
        let s1 := s0.freshOutputs.setMode .run 13
        let s2 := { s1 with
          modes := { s1.modes with
            trans := none, rstPlanned := none, rstCount := (m.rstCount + 1) % 65536, rstFallback := m.planFallback
            rstKind := kind, rstMt := p, rstNow := s0.now }
          prog := { s1.prog with anchor := p, startMt := p, startKind := kind, tasks := tmap (fun n (tk : Task) => tk.restartRecords i n p) s1.prog.tasks }
          trip := { s1.trip with watchdog := false }
          ports := tmap (fun _ (x : Port) => { x with balActive := false }) s1.ports }
        let s3 := (s2.contRestart.tripSettle).event 0x0003 [kind, p]
        match rid.bind s3.findReq with
        | some r => s3.complete r stOk
        | none => s3
    | _, _ => s0)

/-! ### Mode commands (R121 to R125, R139, R584) -/

/-- Cause of a MODE_SET (Table 4-5): 1 the host, 2 the side-band port. -/
def modeSetCause (r : Req) : Nat := 1 + r.actor

/-- Entry to DORMANT: units, forces and cell records committed, the RTC written, every tile on its Autumn ramp, whatever its
policy (R139, R46, R525). -/
def State.enterDormant (s : State) (cause : Nat) : State :=
  let s1 := s.commitUnits
  let s2 := ({ s1 with cells := { s1.cells with mram := s1.cells.work } }).stageRtc
  (List.range 8).foldl (fun (st : State) n => if n = 0 then st else st.startAutumn n) (s2.setMode .dormant cause)

/-- The transition that a MODE_SET asks for, by Table 4-4. -/
def State.modeTo (s : State) (r : Req) : State :=
  let c := modeSetCause r
  match s.modes.mode, r.aux.toNat with
  | .run, 4 => (s.running r.rid).beginHold c 0 (some r.rid) 100000
  | .hold, 3 => (s.startRestart true (some r.rid) c).running r.rid
  | .dormant, 3 => (s.startRestart true (some r.rid) c).running r.rid
  | .hold, 1 => (s.enterDormant c).complete r stOk
  | .dormant, 4 => (s.enterHold c 0).complete r stOk
  | .maintenance, 4 => (s.enterHold c 0).complete r stOk
  | .hold, 5 =>
    if s.modes.role == .simplex || (s.modes.role == .follow && s.modes.detached) then
      ((s.toRole .simplex).setMode .maintenance c).complete r stOk
    else s.complete r stModeDenied
  | .hold, 6 | .maintenance, 6 =>
    if s.modes.role == .simplex then
      let s1 := s.event 0x0001 [modeCode s.modes.mode, 6, c]
      ({ s1 with modes := { s1.modes with trans := some (.toRecovery s1.now c s1.recd.seqAssigned) } }).complete r stOk
    else s.complete r stModeDenied
  | _, _ => s.complete r stModeDenied

/-- A row by which the module finds a fault of its own, carried out. -/
def faultRow (c : Instr) (s : State) : Option State :=
  let of (o : Host.Outcome State Fault Refusal) : Option State := match o with | .next x => some x | _ => none
  match c with
  | .watchdogTrip t k n => of (execWatchdogTrip t k n s)
  | .harvestPoint t k => of (execHarvestPoint t k s)
  | .eccError t d l => of (execEccError t d l s)
  | .lockstepMismatch t => of (execLockstepMismatch t s)
  | .leadAliveWatchdog t => of (execLeadAliveWatchdog t s)
  | .clockMonitorWindow t a b i => of (execClockMonitorWindow t a b i s)
  | .feedLost t b mv d => of (execFeedLost t b mv d s)
  | .railFault t k d => of (execRailFault t k d s)
  | .prsntNDeassert t => of (execPrsntNDeassert t s)
  | .heartbeatConfirm t a => of (execHeartbeatConfirm t a s)
  | .mirrorTimeout t => of (execMirrorTimeout t s)
  | .selfTestDone t a b => of (execSelfTestDone t a b s)
  | _ => none

/-- A fault trigger comes in this Winter tick: one was acted on, or one still waits (R125). -/
def State.faultInTick (s : State) : Bool :=
  s.modes.faultTick == some s.winter ||
  s.tickMates.any (fun c => match faultRow c s with | some x => x.modes.faultTick == some s.winter | none => false)

/-- The role that the module has at step 9 takes a command of the station: SIMPLEX or LEAD, a follower from its lead. -/
def State.commands (s : State) (r : Req) : Bool :=
  s.modes.role == .simplex || s.modes.role == .lead || (s.modes.role == .follow && r.fromLead)

/-- MODE_SET: the refusals of R123 to R125 and of a role that has changed since the check, then Table 4-4. -/
def execModeSet (rid : Nat) (s : State) : Host.Outcome State Fault Refusal :=
  .next (s.onReq rid 0x0101 (fun r =>
    let a := r.aux.toNat
    let m := s.modes
    if m.detached && (a == 1 || a == 3 || a == 4) then s.complete r stRoleDenied
    else if (a == 5 || a == 6) && (m.role == .lead || (m.role == .follow && !m.detached)) then s.complete r stRoleDenied
    else if !(s.commands r) && !(m.role == .follow && m.detached && a == 5) then s.complete r stRoleDenied
    else if m.trans.isSome || s.faultInTick then s.complete r stBusy
    else if a == modeCode m.mode then s.complete r stOk
    else s.modeTo r))

/-- RESTART: cold or warm, from HOLD or MAINTENANCE (R124, R133, R134). -/
def execRestart (rid : Nat) (s : State) : Host.Outcome State Fault Refusal :=
  .next (s.onReq rid 0x0102 (fun r =>
    if s.modes.detached || !(s.commands r) then s.complete r stRoleDenied
    else if s.modes.trans.isSome || s.faultInTick then s.complete r stBusy
    else (s.startRestart (r.aux.getLsbD 0) (some rid) 3).running rid))

/-- MODE_STATUS (Table 2-14). -/
def execModeStatus (rid : Nat) (s : State) : Host.Outcome State Fault Refusal :=
  .next (s.onReq rid 0x0100 (fun r =>
    s.complete r stOk (modeCode s.modes.mode + fld 8 3 (roleCode s.modes.role) + fld 16 1 (b2n (s.mgmt.holder == .host)) +
      fld 24 8 s.host.linkEpoch)))

end Sys2Proof.Machine
end

