-- ==== Sys2Proof/Machine/Swap.lean ====
section
/-! DEFINITION. Machine/Swap.lean: Equinox, drill, Equinox exchange, detaching, SYNCING and joining, and what the partner
reports (10_station_pair.md). -/

namespace Sys2Proof.Machine

/-! ### Harvest boundaries (R372, R386) -/

/-- First harvest point of a task at or after an instant. -/
def State.harvestFrom (s : State) (d : TaskDef) (x : Nat) : Nat :=
  let h := s.prog.anchor + d.harvestNs
  h + ceilDiv (x - h) (d.period * 10000) * (d.period * 10000)

/-- First harvest point of the lowest-numbered admitted task at or after an instant; in HOLD, or with no task, the first
whole millisecond. -/
def State.boundary (s : State) (x : Nat) : Nat :=
  match s.modes.mode, s.prog.loaded.bind (fun i => i.tasks.head?) with
  | .run, some d => s.harvestFrom d x
  | _, _ => ceilDiv x 1000000 * 1000000

/-! ### Equinox (R372 to R374) -/

/-- An Equinox is planned: E is the first boundary at least 1 ms after its trigger. -/
def State.planEquinox (s : State) (trigger cause : Nat) (rid : Option Nat) : State :=
  { s with twin := { s.twin with
      equinox := some { e := s.boundary (trigger + 1000000), cause := cause, rid := rid, reverse := cause == 6 }
      drilling := s.twin.drilling || cause == 5 } }

/-- The partner is SYNCING, or an Equinox, exchange or drill runs. -/
def State.swapRuns (s : State) : Bool :=
  let t := s.twin
  t.equinox.isSome || t.exActive || t.drilling || t.checking || t.syncActive || t.partnerRole == 3

/-- EQUINOX and DRILL_NOW are refused: within 1 s of a takeover too (R374). -/
def State.swapBusy (s : State) : Bool :=
  s.swapRuns || s.twin.lastTakeover.any (fun a => s.now < a + 1000000000)

/-- A swap that no command asked for begins at the lead, which tells its follower the trigger and the cause. -/
def State.selfEquinox (s : State) (cause : Nat) : State :=
  (s.planEquinox s.mt cause none).emit (.mirror (.request 0x0103 s.mt 0 (BitVec.ofNat 32 cause) []))

/-- EQUINOX. At the follower AUX carries the cause of a swap that no command asked for. -/
def execEquinox (rid : Nat) (s : State) : Host.Outcome State Fault Refusal :=
  .next (s.onReq rid 0x0103 (fun r =>
    if s.swapBusy && !r.fromLead then s.complete r stBusy
    else (s.planEquinox (s.accMt r) (if r.aux = 0 then 4 else r.aux.toNat) (some rid)).running rid))

/-- A drill's result reaches the module that is now the follower: its own last drill, or the mark of the failed module. -/
def State.drillOutcome (s : State) (res : Nat) : State :=
  let s1 := { s with modes := { s.modes with drillResult := res }
                     twin := { s.twin with drilling := false, lastDrill := if res = 1 then s.now else s.twin.lastDrill } }
  if res = 1 then s1 else s1.setMark 1

/-- DRILL_NOW. At the follower AUX 1 or 2 carries the result of the drill's checks. -/
def execDrillNow (rid : Nat) (s : State) : Host.Outcome State Fault Refusal :=
  .next (s.onReq rid 0x0104 (fun r =>
    if r.fromLead && r.aux != 0 then (s.drillOutcome r.aux.toNat).complete r stOk
    else if s.swapBusy && !r.fromLead then s.complete r stBusy
    else (s.planEquinox (s.accMt r) 5 (some rid)).running rid))

/-- The new program of an exchange starts in the follower at S (R379 step 3). -/
def State.startNewProgram (s : State) (x : Exchange) : State :=
  let i := x.image
  let s1 := { s with prog := { s.prog with
    loaded := some i, admitted := true, anchor := x.x + 5000000, tasks := x.built, forces := x.forces
    effForces := x.forces, released := [], running := [], waiting := [] } }
  s1.showOuts

/-- EQUINOX_INSTANT: the window opens: the outputs hold, and for an exchange the follower starts the new program. -/
def execEquinoxInstant (t : Nat) (s : State) : Host.Outcome State Fault Refusal :=
  let s0 := s.tick t
  .next (match s0.twin.equinox with
    | some q =>
      if q.windowOpen || s0.mt < q.e then s0
      else
        let s1 := s0.holdOuts
        let s2 := { s1 with twin := { s1.twin with equinox := some { q with windowOpen := true } } }
        match s2.twin.exchange with
        | some x =>
          if q.cause != 7 then s2
          else
            let s3 := if s2.modes.role == .follow then s2.startNewProgram x else s2
            ({ s3 with twin := { s3.twin with exPhase := 3 } }).event 0x060B [3, q.e]
        | none => s2
    | none => s0)

/-- The follower loads its stages from readback and takes CLAIM and LEAD_ALIVE (R373 step 3). -/
def State.windowClaim (s : State) : State :=
  let s1 := s.loadStages
  { s1 with twin := { s1.twin with
    claimDrive := true, claimAt := s.now, aliveDrive := !s1.twin.aliveLatched
    equinox := s1.twin.equinox.map (fun q => { q with claimed := true }) } }

/-- EQUINOX_CLAIM: at E + 40 us. -/
def execEquinoxClaim (t : Nat) (s : State) : Host.Outcome State Fault Refusal :=
  let s0 := s.tick t
  .next (match s0.twin.equinox with
    | some q =>
      if !q.windowOpen || q.claimed || s0.modes.role != .follow || s0.mt < q.e + 40000 then s0 else s0.windowClaim
    | none => s0)

/-- What both modules record of a swap: event 0x0608 and the LAST_SWAP registers. -/
def State.swapDone (s : State) (q : Equinox) : State :=
  ({ s with twin := { s.twin with equinox := none, swapDur := 50, swapCause := q.cause, swapMt := q.e + 50000 } }).event
    0x0608 [q.e, q.cause]

/-- The old lead after the window: it follows; in an exchange it enters SYNCING in HOLD and stores the image (R379 step
5). -/
def State.oldLead (s : State) (q : Equinox) : State :=
  let s1 := ((s.endReq q.rid 0x0103 stOk q.e 8).endReq q.rid 0x0104 stOk q.e 8).swapDone q
  let s2 := { s1 with twin := { s1.twin with aliveDrive := false, aliveSeen := true, stagesReleased := false } }
  match s2.twin.exchange with
  | some x =>
    if q.cause != 7 then s2.setRole .follow
    else
      let s3 := (s2.holdNow 0 0).setRole .syncing
      ({ s3 with
        twin := { s3.twin with exPhase := 5, inStep := false, syncActive := false, syncPhase := 1 }
        prog := { s3.prog with storing := some (x.rid, x.image) } }).event 0x060B [5, s3.mt]
  | none => s2.setRole .follow

/-- What the checks after a swap compare with (R376). -/
def State.drillBase (s : State) : Drill :=
  { before := tmap (fun _ (p : Port) => p.lastGot) s.ports
    alone := (List.range 8).filter (fun n => (s.chan n).alone)
    rxE := s.ring.e.rxThere, rxW := s.ring.w.rxThere }

/-- The new lead after the window: every Equinox but a reverse one is checked as a drill (R375). -/
def State.newLead (s : State) (q : Equinox) : State :=
  let s0 := if q.claimed then s else s.windowClaim
  let s1 := ((s0.endReq q.rid 0x0103 stOk q.e 8).endReq q.rid 0x0104 stOk q.e 8).swapDone q
  let s2 := { s1 with twin := { s1.twin with aliveSeen := false, checking := !q.reverse, drill := s1.drillBase } }
  let s3 := (s2.setRole .lead).takeChains
  if q.cause != 7 then s3
  else ({ s3 with twin := { s3.twin with exPhase := 4, inStep := false, exchange := none, partnerRole := 3 } }).event
    0x060B [4, q.e]

/-- EQUINOX_WINDOW_END: at E + 50 us the roles swap, and the command completes with RESULT E. -/
def execEquinoxWindowEnd (t : Nat) (s : State) : Host.Outcome State Fault Refusal :=
  let s0 := s.tick t
  .next (match s0.twin.equinox with
    | some q =>
      if !q.windowOpen || s0.mt < q.e + 50000 then s0
      else if s0.modes.role == .lead then s0.oldLead q
      else if s0.modes.role == .follow then s0.newLead q
      else s0
    | none => s0)

/-! ### The drill (R375 to R377) -/

/-- Why a drill is postponed: 1 not in RUN or HOLD, 2 the follower is not in step, 3 R374 would refuse it. -/
def State.drillBlocked (s : State) : Option Nat :=
  if s.modes.mode != .run && s.modes.mode != .hold then some 1
  else if !s.twin.inStep then some 2
  else if s.swapBusy then some 3
  else none

/-- The interval has passed since the last Equinox whose checks passed. -/
def State.drillIsDue (s : State) : Bool :=
  s.modes.role == .lead && s.modes.drillMinutes != 0 && s.twin.lastDrill + s.modes.drillMinutes * 60000000000 ≤ s.now

/-- DRILL_DUE: the drill begins, or is postponed with event 0x060A the first time. -/
def execDrillDue (t : Nat) (s : State) : Host.Outcome State Fault Refusal :=
  let s0 := s.tick t
  .next (
    if !s0.drillIsDue then s0
    else
      match s0.drillBlocked with
      | none => ({ s0 with twin := { s0.twin with drillDue := false, drillPostponed := none } }).selfEquinox 5
      | some k =>
        if s0.twin.drillPostponed.isSome then s0
        else ({ s0 with twin := { s0.twin with drillDue := true, drillPostponed := some s0.now } }).event 0x060A [k])

/-- DRILL_POSTPONED: every 24 h after the first postponement. -/
def execDrillPostponed (t : Nat) (s : State) : Host.Outcome State Fault Refusal :=
  let s0 := s.tick t
  .next (match s0.twin.drillPostponed, s0.drillBlocked with
    | some a, some k =>
      if s0.now < a + dayNs then s0
      else ({ s0 with twin := { s0.twin with drillPostponed := some s0.now } }).event 0x060A [k]
    | _, _ => s0)

/-- A local output whose readback is not the committed value, of those that State shows: digital outputs and current loops
(R376, R478, R484). -/
def State.outputsWrong (s : State) : Bool :=
  (List.range 16).any (fun n => (s.do_ n).mismatch) ||
  (List.range 8).any (fun n => (s.cl n).isOut && (s.cl n).diffSince.any (fun a => a + 10000000 ≤ s.now))

/-- A ring port whose neighbour has accepted no frame since E, or whose by-pass relay is closed; of a node in the ring (R376). -/
def State.portsWrong (s : State) : Bool :=
  s.ringActive && (s.ring.e.relayClosed || s.ring.w.relayClosed || s.ring.e.rxThere == s.twin.drill.rxE ||
    s.ring.w.rxThere == s.twin.drill.rxW)

/-- A channel whose first exclusive slot after E went unacknowledged, and that does not read ALONE as it did before (R376,
R468). -/
def State.channelsWrong (s : State) : Bool :=
  (List.range 8).any (fun n =>
    tget s.twin.drill.excl n true == false && !((s.chan n).alone && s.twin.drill.alone.contains n))

/-- A port of the plan whose first sweep from its new end missed a satellite that the last one before E reached (R376). -/
def State.sweepsWrong (s : State) : Bool :=
  match s.cells.plan with
  | none => false
  | some c => c.ports.any (fun p =>
      match tfind s.twin.drill.after p.port with
      | some got => (tget s.twin.drill.before p.port []).any (fun i => !(got.contains i))
      | none => false)

/-- The checks have come to an end: 10 ms have passed since E + 50 us, and every port that sweeps has swept (R376). -/
def State.drillOver (s : State) : Bool :=
  s.twin.swapMt + 10000000 ≤ s.mt &&
  (match s.cells.plan with
    | some c => !s.sweepMode || c.ports.all (fun p => !(s.port p.port).ready || (tfind s.twin.drill.after p.port).isSome)
    | none => true)

/-- The first check that has failed, by its place in R376 (log 107); `terminal`: a fast analogue output's readback is not its
committed value. -/
def State.drillFails (s : State) (terminal : Bool) : Option Nat :=
  if terminal || s.outputsWrong then some 1
  else if s.twin.swapMt + s.cycles 10 ≤ s.mt && s.portsWrong then some 2
  else if s.channelsWrong then some 3
  else if s.sweepsWrong then some 4
  else none

/-- The result of the checks, with event 0x0609; the other module learns it (R376). -/
def State.drillEnds (s : State) (res check : Nat) : State :=
  let s1 := { s with
    modes := { s.modes with drillResult := res }
    twin := { s.twin with checking := false, drilling := false, lastDrill := if res = 1 then s.now else s.twin.lastDrill } }
  (s1.event 0x0609 [res, check]).emit (.mirror (.request 0x0104 s.mt 0 (BitVec.ofNat 32 res) []))

/-- DRILL_CHECK: a check of the new lead has failed, and a reverse Equinox follows; or the checks have ended, and each has
passed. The failed module is marked SUSPECT at the module that leads again. -/
def execDrillCheck (t : Nat) (terminal : Bool) (s : State) : Host.Outcome State Fault Refusal :=
  let s0 := s.tick t
  .next (
    if !s0.twin.checking || s0.modes.role != .lead then s0
    else
      match s0.drillFails terminal with
      | some k => (s0.drillEnds 2 k).selfEquinox 6
      | none => if s0.drillOver then s0.drillEnds 1 0 else s0)

/-! ### Detaching and joining (R384 to R387, Table 4-8) -/

/-- DETACH: the lead goes on as SIMPLEX with the partner marked DETACHED; the follower is detached in HOLD. -/
def execDetach (rid : Nat) (s : State) : Host.Outcome State Fault Refusal :=
  .next (s.onReq rid 0x0105 (fun r =>
    let s1 := (s.mirrorReq r).dropSwap
    if s1.modes.role == .lead then
      let s2 := ((s1.setMark 2).setRole .simplex).takeChains
      ({ s2 with twin := { s2.twin with inStep := false } }).complete r stOk 0 8
    else if s1.modes.role == .follow then
      let s2 := { s1 with modes := { s1.modes with detached := true }, twin := { s1.twin with inStep := false } }
      s2.toHoldMode.complete r stOk
    else s1.complete r stOk))

/-- The state image that the lead sends (R385). -/
def State.stateImage (s : State) : StateImage :=
  { prog := { s.prog with storing := none }, loops := s.loops, cells := s.cells, ports := s.ports, slots := s.sec.slots
    verifier := s.sec.verifier, holder := s.mgmt.holder, helmCause := s.mgmt.lastCause
    startRun := s.modes.startRun, startWarm := s.modes.startWarm
    dormantCtrl := fld 2 1 (b2n s.modes.wakeOnTrip) + fld 1 1 (b2n s.modes.wakeToRun) + b2n s.modes.wakeOnAlarm
    drillMinutes := s.modes.drillMinutes }

/-- The lead admits its partner to SYNCING, or refuses it with event 0x060E (R384); in RUN or HOLD, whose pairs Table 4-3
allows. -/
def State.trySync (s : State) : State :=
  if !s.twinUp || s.modes.role != .simplex || s.modes.detached || !s.twin.aliveDrive then s
  else if s.modes.mode != .run && s.modes.mode != .hold then { s with twin := { s.twin with syncPhase := 0 } }
  else
    let k := s.syncRefusal false
    if k ≠ 0 then
      ({ s with twin := { s.twin with syncActive := false, syncPhase := 5, syncRefuse := k } }).event 0x060E [k]
    else
      let s1 := { s with
        twin := { s.twin with syncActive := true, syncPhase := 2, syncRefuse := 0, syncPercent := 0, joinAt := none }
        modes := { s.modes with partner := true } }
      (s1.event 0x060D [s1.twin.partnerSerial.toNat]).emit (.mirror (.state s1.stateImage))

/-- REJOIN: the partner's mark is cleared and it is admitted to SYNCING, subject to the refusals, which TWIN.SYNC shows. -/
def execRejoin (rid : Nat) (s : State) : Host.Outcome State Fault Refusal :=
  .next (s.onReq rid 0x0106 (fun r => ((s.setMark 0).trySync).complete r stOk))

/-- The delta is under way, and J is chosen. -/
def State.joinPlanned (s : State) (j : Nat) : State :=
  { s with twin := { s.twin with joinAt := some j, syncPhase := 3, syncPercent := 100 } }

/-- SYNC_TRANSFER_DONE: the image has been sent, and the lead chooses J, which the joining module hears of; or the transfer
failed (R386). -/
def execSyncTransferDone (t : Nat) (ok : Bool) (j : Nat) (s : State) : Host.Outcome State Fault Refusal :=
  let s0 := s.tick t
  .next (
    if !s0.twin.syncActive || s0.twin.joinAt.isSome then s0
    else if ok then
      if s0.modes.role == .syncing || j < s0.mt || s0.boundary j != j then s0
      else (s0.joinPlanned j).emit (.mirror (.instant 0x0106 j))
    else if s0.modes.role == .syncing then s0.dropSwap.syncRefused 7
    else ({ s0 with twin := { s0.twin with syncActive := false, syncPhase := 5, syncRefuse := 7 } }).event 0x060E [7])

/-- A module joins in RUN or in HOLD: the lead's mode at J (Table 4-4). -/
def State.joinMode (s : State) : Bool :=
  if s.modes.role == .syncing then s.twin.p.mode == 3 || s.twin.p.mode == 4
  else s.modes.mode == .run || s.modes.mode == .hold

/-- The joined module executes every latch at or after J. -/
def State.joinTasks (s : State) (j : Nat) : State :=
  match s.prog.loaded with
  | none => s
  | some i => i.tasks.foldl (fun (st : State) d =>
      let n := ceilDiv (j - st.prog.anchor) (d.period * 10000)
      st.setTask d.task { st.task d.task with nextN := n, cyc := none, mirrored := none }) s

/-- The joining module at J: role FOLLOW in the lead's mode; its sweeps go on with the lead's blocks; an exchange that it
began completes with STATION (R383, R386). -/
def State.joinFollow (s : State) (j : Nat) : State :=
  let running := s.twin.p.mode == 3
  let s1 := if running then s else (if s.modes.mode == .hold then s else s.setMode .hold 13)
  let s2 := s1.setRole .follow
  let s3 := { s2 with
    modes := { s2.modes with detached := false, partner := true }
    twin := { s2.twin with syncActive := false, syncPhase := 4, joinAt := none, inStep := true, aliveSeen := true }
    ports := tmap (fun n (p : Port) => if (s2.portPlan n).isSome then { p with ready := true } else p) s2.ports }
  let s4 := if running && s3.modes.mode != .run then s3.setMode .run 13 else s3
  let s5 := (s4.joinTasks j).event 0x060F [j]
  match s5.twin.exchange with
  | some x =>
    let s6 := s5.endReq (some x.rid) 0x0202 stOk (x.x + 5000000) 8
    { s6 with twin := { s6.twin with exchange := none, exActive := false, exPhase := 0 } }
  | none => s5

/-- The station's host link after a change: it is down only while both modules' links are; a FREE helm passes to a host that
is back with AUTO_TAKE (R91, R92). -/
def State.hostLinkFrom (s : State) (was : Bool) : State :=
  let is_ := s.hostLinkUp
  if was && !is_ then { s with mgmt := { s.mgmt with hostDownAt := some s.now } }
  else if !was && is_ then
    let s1 := { s with mgmt := { s.mgmt with hostDownAt := none } }
    if s1.mgmt.holder == .free && s1.mgmt.autoTake && s1.keepsHelm then s1.setHelm .host 5 else s1
  else s

/-- The lead at J: role LEAD with a follower in step. -/
def State.joinLead (s : State) (j : Nat) : State :=
  let s1 := s.emit (.mirror (.state { s.stateImage with joinAt := some j }))
  let s2 := s1.toRole .lead
  (({ s2 with
    modes := { s2.modes with partner := true }
    twin := { s2.twin with
      syncActive := false, syncPhase := 4, joinAt := none, inStep := true, lost := false, partnerRole := 2, exActive := false
      exPhase := if s2.twin.exActive then 0 else s2.twin.exPhase } }).hostLinkFrom s.hostLinkUp).event 0x060F [j]

/-- JOIN_INSTANT. -/
def execJoinInstant (t : Nat) (s : State) : Host.Outcome State Fault Refusal :=
  let s0 := s.tick t
  .next (match s0.twin.joinAt with
    | some j =>
      if s0.mt < j || !s0.joinMode then s0
      else if s0.modes.role == .syncing then s0.joinFollow j
      else if (s0.modes.role == .simplex || s0.modes.role == .lead) && !s0.modes.detached then s0.joinLead j
      else s0
    | none => s0)

/-! ### What the partner reports (R351, R352, R371, R384, R564) -/

/-- The partner's host link. -/
def State.partnerHost (s : State) (up : Bool) : State :=
  ({ s with mgmt := { s.mgmt with partnerLink := up } }).hostLinkFrom s.hostLinkUp

/-- What a lead does with a partner that it meets: it admits one that asks for SYNCING, and records one that it must refuse,
which stays out (R5, R384). -/
def State.meetPartner (s : State) : State :=
  if s.twin.p.role = 3 || (s.syncRefusal false ≠ 0 && s.twin.p.mode != 6) then s.trySync else s

/-- A module that is not in a pair treats a partner in RECOVERY as lost (R143). -/
def State.partnerGone (s : State) : State :=
  if s.modes.role == .simplex && s.modes.partner then { s with twin := { s.twin with lost := true } } else s

/-- HEARTBEAT_RECEIVE: a good frame of the partner in its window. -/
def execHeartbeatReceive (t : Nat) (p : Partner) (s : State) : Host.Outcome State Fault Refusal :=
  let s0 := s.tick t
  .next (
    if !s0.twinUp then s0
    else
      let s1 := ({ s0 with twin := { s0.twin with
        p := p, partnerRole := p.role, hbRun := 0, hbLastRx := s0.now, hbLossAt := none } }).partnerHost p.hostLink
      if p.role = 4 && s1.modes.role == .lead then s1.markLost 4
      else if p.mode = 6 then s1.partnerGone
      else if !s1.twin.syncActive && (s0.twin.partnerRole != p.role || (p.role = 3 && s1.twin.syncPhase = 0)) then s1.meetPartner
      else s1)

/-- Lanes come up or are dropped, each drop with its event; with fewer than 2 the link is down (R351). -/
def State.lanesTo (s : State) (lanes : BitVec 4) : State :=
  (List.range 4).foldl (fun (st : State) n =>
    if s.twin.lanes.getLsbD n && !lanes.getLsbD n then st.event 0x0610 [n] else st) { s with twin := { s.twin with lanes := lanes } }

/-- TWIN_LINK_UP: 2 or more lanes: event 0x0600, the partner's mark, and SYNCING where a module waits for it beside a running
lead (R351, R384, Table 4-8). -/
def execTwinLinkUp (t : Nat) (lanes : BitVec 4) (p : Partner) (s : State) : Host.Outcome State Fault Refusal :=
  let s0 := s.tick t
  let up := { s0 with twin := { s0.twin with lanes := lanes } }
  .next (
    if !s0.modes.powered then s0
    else if s0.twinUp || !up.twinUp then s0.lanesTo lanes
    else
      let mark := (s0.twin.marks.find? (fun e => e.1 == p.serial)).map (·.2)
      let s1 := ({ up with twin := { up.twin with
        p := p, partnerSerial := p.serial, partnerProto := p.proto, partnerRole := p.role, hbRun := 0
        everUp := true, mark := mark.getD 0 } }).event 0x0600 [p.serial.toNat, p.slotId.toNat]
      let s2 := s1.partnerHost p.hostLink
      match s2.modes.mode, s2.modes.settle with
      | .recovery, _ => { s2 with modes := { s2.modes with partner := true, detached := true } }
      | _, .settled =>
        if s2.modes.role == .syncing then s2.trySyncing
        else if s2.modes.role == .simplex && s2.modes.detached && s2.modes.mode == .hold && (p.role == 0 || p.role == 1) &&
            s2.twin.aliveSeen then s2.trySyncing
        else if s2.modes.role == .simplex && !s2.modes.detached then
          ({ s2 with modes := { s2.modes with partner := true } }).hostLinkFrom s2.hostLinkUp |>.meetPartner
        else s2
      | _, _ => s2)

/-! ### Equinox exchange (R378 to R383) -/

/-- PROG_EXCHANGE: BUSY; the checks of R190 and R166, and conditions 3 and 4 of R254 against the new image's bindings; then
the image goes to the follower. A follower takes it as its lead checked it. -/
def execProgExchange (rid : Nat) (s : State) : Host.Outcome State Fault Refusal :=
  .next (s.onReq rid 0x0202 (fun r =>
    if !r.fromLead && (s.swapRuns || s.twin.mark == 2) then s.complete r stBusy
    else
      match parseImage r.buf with
      | none => s.complete r stBad 5
      | some i =>
        let go : State :=
          let s1 := { s with twin := { s.twin with exActive := true, exPhase := 1, exchange := some { rid := rid, image := i } } }
          let s2 := s1.event 0x060B [1, s1.mt]
          let s3 := if r.fromLead then { s2 with prog := { s2.prog with storing := some (rid, i) } } else s2
          s3.running rid
        if r.fromLead then go
        else
          let st := s.imageStatus r.buf i
          let l := s.loops.stored
          if st != stOk then s.complete r st
          else
            match s.admitTasks i with
            | some (n, k) => (s.event 0x0708 [n, k]).complete r stAdmission
            | none =>
              match l.recs.zipIdx.findSome? (fun (q, n) =>
                if !(s.cond3 l q) then some (n, 3) else if !(s.cond4 (some i) l q n) then some (n, 4) else none) with
              | some (n, k) => (s.event 0x0801 [n, k]).complete r stAdmission
              | none => go))

/-- The mapping instant of the exchange in hand is set, and with it E (R379). -/
def State.exchangeAt (s : State) (x : Nat) : State :=
  match s.twin.exchange with
  | some q =>
    if s.twin.exPhase != 1 || s.twin.equinox.isSome then s
    else
      ({ s with twin := { s.twin with
        exchange := some { q with x := x }, equinox := some { e := x + 5000000, cause := 7 } } }).event 0x060B [2, x]
  | none => s

/-- EXCHANGE_IMAGE_STORED: the follower acknowledged the stored image; the mapping instant X lies at least 1 ms ahead, and E
is X + 5 ms. -/
def execExchangeImageStored (t : Nat) (x : Nat) (s : State) : Host.Outcome State Fault Refusal :=
  let s0 := s.tick t
  .next (match s0.twin.exchange with
    | some q =>
      if q.x != 0 || !s0.leadsPair || x < s0.mt + 1000000 then s0
      else (s0.exchangeAt x).emit (.mirror (.instant 0x0202 x))
    | none => s0)

/-- The instance of the old image that an instance of the new one carries on (Table 10-5). -/
def Image.match_ (old : Image) (x : Inst) : Option Inst :=
  old.insts.find? (fun o => o.id == x.id && o.kind == x.kind && (x.kind != 6 || o.size == x.size))

/-- An instance of the new program, from its old record, or unmatched (Table 10-5). -/
def State.mapInst (s : State) (old : Image) (at_ : Nat) (t : Task) (x : Inst) : Task :=
  let o := handleOff x.handle
  let put (b : List Byte) (off : Nat) : Task := { t with sp := { t.sp with inst := mwrite t.sp.inst off b } }
  let oldBytes (y : Inst) (n : Nat) : List Byte := mread (s.task (handleTask y.handle)).sp.inst (handleOff y.handle) n
  match old.match_ x with
  | some y =>
    if x.kind = 6 then put (oldBytes y x.size) o
    else
      let r := TRec.read (oldBytes y 32)
      let new := TRec.read (mread t.sp.inst o 32)
      let r1 : TRec := if x.kind ≤ 3 then { r with preset := new.preset, kind := x.kind }
                       else { new with mem := r.mem, q := r.q, arm := false, kind := x.kind }
      put r1.bytes (o + 8)
  | none =>
    if x.kind = 6 then t
    else
      let r := TRec.read (mread t.sp.inst o 32)
      let r1 : TRec := { r with kind := x.kind, start := if x.kind ≤ 3 then at_ else r.start, arm := r.arm || decide (4 ≤ x.kind) }
      put r1.bytes (o + 8)

/-- Retained entry of the old image with the same name and length. -/
def Image.retained (old : Image) (x : Retain) : Option Retain :=
  old.retain.find? (fun o => o.hash == x.hash && o.length == x.length)

/-- A task of the new program built from the checkpoints (Table 10-5). -/
def State.mapTask (s : State) (old new : Image) (at_ n : Nat) : Task :=
  let t0 := s.buildTask new false n
  let t1 := (new.insts.filter (fun x => handleTask x.handle == n)).foldl (fun t x => s.mapInst old at_ t x) t0
  (new.retain.filter (fun x => handleTask x.handle == n)).foldl (fun (t : Task) x =>
    match old.retained x with
    | some y =>
      t.put x.handle (mread (s.task (handleTask y.handle)).sp.ret (handleOff y.handle) x.length)
    | none => t) t1

/-- Matched and unmatched counts: kinds 1 to 6, then retained variables (event 0x060C). -/
def Image.matchCounts (old new : Image) : List Nat × List Nat :=
  let ks := [1, 2, 3, 4, 5, 6].map (fun k => new.insts.filter (fun x => x.kind == k))
  let m := ks.map (fun l => (l.filter (fun x => (old.match_ x).isSome)).length)
  let u := ks.map (fun l => (l.filter (fun x => (old.match_ x).isNone)).length)
  (m ++ [(new.retain.filter (fun x => (old.retained x).isSome)).length],
   u ++ [(new.retain.filter (fun x => (old.retained x).isNone)).length])

/-- MAPPING_INSTANT: at X, after the harvest points that have come, the follower builds the new program's state; harvest digests are not compared from here (R379
steps 2 and 3). -/
def execMappingInstant (t : Nat) (s : State) : Host.Outcome State Fault Refusal :=
  let s0 := (s.tick t).harvestDue none
  .next (match s0.twin.exchange, s0.prog.loaded with
    | some x, some old =>
      if s0.twin.exPhase != 1 || s0.twin.equinox.isNone || s0.mt < x.x then s0
      else if s0.modes.role != .follow then { s0 with twin := { s0.twin with exPhase := 2 } }
      else
        let new := x.image
        let built := new.tasks.foldl (fun (m : Tab Task) d => tset m d.task (s0.mapTask old new (x.x + 5000000) d.task)) []
        let asNew : State := { s0 with prog := { s0.prog with loaded := some new } }
        let keep := s0.prog.forces.filter (fun f => asNew.varValid .force f.handle f.width)
        let gone := s0.prog.forces.filter (fun f => !(asNew.varValid .force f.handle f.width))
        let (m, u) := old.matchCounts new
        let s1 := { s0 with twin := { s0.twin with
          exPhase := 2, exUnmatched := min 0xFFFF u.sum
          exchange := some { x with built := built, forces := keep } } }
        gone.foldl (fun (st : State) f => st.event 0x0612 [f.handle.toNat]) (s1.event 0x060C (m ++ u))
    | _, _ => s0)

end Sys2Proof.Machine
end

