-- ==== Sys2Proof/Machine/Security.lean ====
section
/-! DEFINITION. Machine/Security.lean: helm commands, keys, password sessions, firmware slots, the presence window, and
the flash stores that end later (03_sideband_and_authority.md). -/

namespace Sys2Proof.Machine

/-! ### Helm (R90 to R96) -/

/-- HELM_STATUS. -/
def execHelmStatus (rid : Nat) (s : State) : Host.Outcome State Fault Refusal :=
  .next (s.onReq rid 0x0800 (fun r => s.complete r stOk (holderCode s.mgmt.holder)))

/-- The party that sent a request, as a holder. -/
def Req.party (r : Req) : Holder := if r.actor = 0 then .host else .sideband

/-- HELM_RELEASE: the check found the helm with its party (R93), so it is carried out, and where the holder has changed since,
it leaves the helm as it is (R95; DEDUCED, log 94). -/
def execHelmRelease (rid : Nat) (s : State) : Host.Outcome State Fault Refusal :=
  .next (s.onReq rid 0x0801 (fun r =>
    (if s.mgmt.holder == r.party then s.freeHelm 3 (r.party == .host) else s).complete r stOk))

/-- HELM_TAKE: a FREE helm only, or one that this request was given in the tick of a HELM_SEIZE (R94). -/
def execHelmTake (rid : Nat) (s : State) : Host.Outcome State Fault Refusal :=
  .next (s.onReq rid 0x0802 (fun r =>
    if s.mgmt.holder == .free then (s.setHelm .host 4).complete r stOk
    else if s.mgmt.granted == some rid then ({ s with mgmt := { s.mgmt with granted := none } }).complete r stOk
    else s.complete r stHelmHeld))

/-- A command is a claim of the host on a FREE helm: HELM_TAKE at step 9, or AUTO_TAKE as the host link comes up (R94). -/
def State.hostClaim (s : State) (c : Instr) : Bool :=
  match c with
  | .helmTake rid => match s.findReq rid with | some q => q.phase == .ready && q.opcode == 0x0802 | none => false
  | .pcieLinkUp .. => s.mgmt.autoTake && !s.hostLinkUp && s.keepsHelm
  | _ => false

/-- A FREE helm goes to the host where it claims it in the same Winter tick (R28, R94). -/
def State.hostFirst (s : State) : State :=
  if s.mgmt.holder != .free then s
  else match s.tickMates.find? s.hostClaim with
    | some (.helmTake rid) => { s.setHelm .host 4 with mgmt := { (s.setHelm .host 4).mgmt with granted := some rid } }
    | some _ => s.setHelm .host 5
    | none => s

/-- The helm passes to the side-band: in the rest of this Winter tick the checks of the host still find its helm (R95). -/
def State.seizeHelm (s : State) : State :=
  let s1 := s.setHelm .sideband 2
  if s.mgmt.holder == .host then { s1 with mgmt := { s1.mgmt with seizeTick := some s.winter } } else s1

/-- HELM_SEIZE: a FREE helm under HELM or SEIZE, or the host's under SEIZE; a claim of the host in the same tick goes
first. -/
def execHelmSeize (rid : Nat) (s : State) : Host.Outcome State Fault Refusal :=
  .next (s.onReq rid 0x0808 (fun r =>
    let s1 := s.hostFirst
    let m := (s.keySlot r.keySlot).mask.toNat
    let may : Bool := match s1.mgmt.holder with
      | .free => bit m 10 || bit m 11
      | .host => bit m 11
      | .sideband => false
    if may then s1.seizeHelm.complete r stOk else s1.complete r stHelmHeld))

/-- HELM_TIMEOUT: the host link has been down for MGMT.HELM_TIMEOUT without interruption. -/
def execHelmTimeout (t : Nat) (s : State) : Host.Outcome State Fault Refusal :=
  let s0 := s.tick t
  .next (match s0.mgmt.hostDownAt with
    | some d =>
      if s0.mgmt.holder != .host || s0.hostLinkUp || !s0.keepsHelm || s0.now < d + s0.mgmt.helmTimeout * 100000000 then s0
      else s0.freeHelm 1 false
    | none => s0)

/-- SB_IDLE. -/
def execSbIdle (t : Nat) (s : State) : Host.Outcome State Fault Refusal :=
  let s0 := s.tick t
  .next (
    if s0.mgmt.holder != .sideband || !s0.keepsHelm || s0.now < s0.mgmt.lastSbAuth + s0.mgmt.sbIdle * 1000000000 then s0
    else s0.freeHelm 6 false)

/-! ### Keys (R99, R102 to R106, R112) -/

/-- The mask word of slots that hold a key, SEC.SLOT_PRESENT. -/
def State.slotsPresent (s : State) : Nat := s.secWord 0x000

/-- KEY_LOAD: its buffer holds the unwrapped key. ERASE empties the slot, counter and all; a load keeps the counter. -/
def execKeyLoad (rid : Nat) (s : State) : Host.Outcome State Fault Refusal :=
  .next (s.onReq rid 0x0803 (fun r =>
    let n := r.value
    let old := s.keySlot n
    let erase := bit (rd r.buf 0x1A 2) 0
    let new : KeySlot :=
      if erase then {}
      else { present := true, key := BitVec.ofNat 128 (rd r.buf 0 16), mask := BitVec.ofNat 16 (rd r.buf 0x18 2)
             counter := old.counter }
    let s1 := s.setKeySlot n new
    (s1.logChange r old.mask.toNat new.mask.toNat n).complete r stOk))

/-- KEY_ERASE: in a presence window, slots 1 to 15 and the verifier go. -/
def execKeyErase (rid : Nat) (s : State) : Host.Outcome State Fault Refusal :=
  .next (s.onReq rid 0x0809 (fun r =>
    if s.mgmt.presenceEnd.isNone then s.complete r stModeDenied
    else
      let s1 := { s with sec := { s.sec with slots := s.sec.slots.filter (fun e => e.1 == 0), verifier := none } }
      (s1.logChange r s.slotsPresent s1.slotsPresent 0).complete r stOk))

/-- COUNTER_READ. -/
def execCounterRead (rid : Nat) (s : State) : Host.Outcome State Fault Refusal :=
  .next (s.onReq rid 0x0804 (fun r => s.complete r stOk (s.keySlot r.value).counter.toNat))

/-- PRESENCE_WINDOW: MODE and SELECT held for 3 s in RECOVERY: event 0x0330, open for 120 s. -/
def execPresenceWindow (t : Nat) (s : State) : Host.Outcome State Fault Refusal :=
  let s0 := s.tick t
  .next (match s0.dsp.held [.mode, .select] .recovery with
    | some a =>
      if s0.modes.mode != .recovery || s0.mgmt.presenceEnd.isSome || s0.now < a + 3000000000 then s0
      else ({ s0 with mgmt := { s0.mgmt with presenceEnd := some (s0.now + 120000000000) } }).event 0x0330
    | none => s0)

/-- PRESENCE_WINDOW_END. -/
def execPresenceWindowEnd (t : Nat) (s : State) : Host.Outcome State Fault Refusal :=
  let s0 := s.tick t
  .next (match s0.mgmt.presenceEnd with
    | some e => if s0.now < e then s0 else { s0 with mgmt := { s0.mgmt with presenceEnd := none } }
    | none => s0)

/-! ### Password sessions (R108 to R111) -/

/-- PWD_LOGIN: NOT_PRESENT without a verifier, BUSY in a lockout; else the check starts, and an open session ends. While
another check runs the request waits. -/
def execPwdLogin (rid : Nat) (s : State) : Host.Outcome State Fault Refusal :=
  .next (s.onReq rid 0x0805 (fun r =>
    if s.sec.verifier.isNone then s.complete r stNotPresent
    else if s.sec.lockEnd.isSome then s.complete r stBusy
    else if s.sec.pwdCheck.isSome then s
    else
      let s1 := s.endSession
      ({ s1 with sec := { s1.sec with pwdCheck := some rid } }).running rid))

/-- The derived key of a PWD_LOGIN's password is the verifier's. -/
def Verifier.accepts (v : Verifier) (buf : List Byte) : Bool :=
  pbkdf2 (slice buf 8 (rd buf 0 1)) v.salt v.iterations == v.derived

/-- A wrong password: event 0x0304; the fifth in a row starts the lockout of 10 minutes, event 0x0305. -/
def State.pwdFailed (s : State) : State :=
  let k := s.sec.fails + 1
  let s1 := ({ s with sec := { s.sec with fails := k } }).event 0x0304
  if k < 5 then s1
  else ({ s1 with sec := { s1.sec with lockEnd := some (s1.now + 600000000000) } }).event 0x0305

/-- PASSWORD_CHECK_DONE: a session opens, with event 0x0303, or a failure counts. -/
def execPasswordCheckDone (t : Nat) (s : State) : Host.Outcome State Fault Refusal :=
  let s0 := s.tick t
  let s1 := { s0 with sec := { s0.sec with pwdCheck := none } }
  .next (match s0.sec.pwdCheck.bind s1.findReq, s0.sec.verifier with
    | some r, some v =>
      if v.accepts r.buf then
        (({ s1 with sec := { s1.sec with
          fails := 0, session := some { side := r.actor == 1, slot := r.keySlot, last := s1.now } } }).event
          0x0303).complete r stOk
      else s1.pwdFailed.complete r stAuthFail
    | _, _ => s1)

/-- PWD_LOGOUT. -/
def execPwdLogout (rid : Nat) (s : State) : Host.Outcome State Fault Refusal :=
  .next (s.onReq rid 0x0806 (fun r => s.endSession.complete r stOk))

/-- PWD_SET (Table 3-7): the change log says only whether a verifier stood before and stands after. -/
def execPwdSet (rid : Nat) (s : State) : Host.Outcome State Fault Refusal :=
  .next (s.onReq rid 0x0807 (fun r =>
    let v : Verifier := { iterations := rd r.buf 0 4, salt := slice r.buf 8 16, derived := slice r.buf 0x18 32 }
    let s1 := { s with sec := { s.sec with verifier := some v } }
    (s1.logChange r (b2n s.sec.verifier.isSome) 1 0).complete r stOk))

/-- SESSION_TIMEOUT: 30 minutes without a command that needs the session. -/
def execSessionTimeout (t : Nat) (s : State) : Host.Outcome State Fault Refusal :=
  let s0 := s.tick t
  .next (match s0.sec.session with
    | some x => if s0.now < x.last + 1800000000000 then s0 else s0.endSession
    | none => s0)

/-- LOCKOUT_END. -/
def execLockoutEnd (t : Nat) (s : State) : Host.Outcome State Fault Refusal :=
  let s0 := s.tick t
  .next (match s0.sec.lockEnd with
    | some e =>
      if s0.now < e || !s0.modes.powered then s0 else { s0 with sec := { s0.sec with lockEnd := none, fails := 0 } }
    | none => s0)

/-! ### Firmware slots (R113 to R116) -/

/-- The 80 bytes of a slot in the buffer of FW_INFO: SEC_VERSION, 0, BUILD, signature. -/
def fwInfo (v : Nat × BitVec 64) (sig : List Byte) : List Byte :=
  u32 v.1 ++ zeros 4 ++ u64 v.2.toNat ++ sig.take 64 ++ zeros (64 - sig.length)

/-- FW_INFO: slot A, then slot B. -/
def execFwInfo (rid : Nat) (s : State) : Host.Outcome State Fault Refusal :=
  .next (s.onReq rid 0x0900 (fun r =>
    s.complete r stOk 0 0 (some (fwInfo s.sec.fwVersionA s.sec.fwSigA ++ fwInfo s.sec.fwVersionB s.sec.fwSigB))))

/-- A firmware slot is valid, or not. -/
def Sec.setValid (c : Sec) (slotB v : Bool) : Sec := if slotB then { c with fwBValid := v } else { c with fwAValid := v }

/-- The image goes to the inactive slot, which is no longer a checked image. -/
def State.fwBegin (s : State) (rid : Nat) (image : List Byte) : State :=
  let slotB := !s.sec.fwActiveB
  ({ s with sec := { (s.sec.setValid slotB false) with fwStore := some (rid, slotB, image), fwChunks := none } }).running rid

/-- FW_WRITE: BUSY while a write to the slot runs. A side-band chunk joins the chunks before it; the one with LAST starts
the store. -/
def execFwWrite (rid : Nat) (s : State) : Host.Outcome State Fault Refusal :=
  .next (s.onReq rid 0x0901 (fun r =>
    if s.sec.fwStore.isSome then s.complete r stBusy
    else if r.actor = 0 then s.fwBegin rid r.buf
    else
      let all := (if r.aux = 0 then [] else s.sec.fwChunks.getD []) ++ r.buf
      if bit r.flags.toNat 1 then s.fwBegin rid all
      else
        let s1 := { s with sec := { (s.sec.setValid (!s.sec.fwActiveB) false) with fwChunks := some all } }
        s1.complete r stOk))

/-- The checks of R114 on the image as read back: header, signature, PART and SEC_VERSION (Table 3-9). -/
def State.fwOk (s : State) (b : List Byte) : Bool :=
  let n := b.length
  84 < n && rd b 0 4 == 0x46574C58 && rd b 4 4 == n && n ≤ 0x4000000 &&
  bit (rd b 12 4) s.cfg.variant.partBit && s.sec.fwMinVersion ≤ rd b 8 4 &&
  ecdsaOk s.cfg.fwKeyX.toNat s.cfg.fwKeyY.toNat (sha256N (toNats (b.take (n - 64)))) (b.drop (n - 64))

/-- A stored firmware image is checked: the slot becomes valid, or AUTH_FAIL with event 0x0320. -/
def State.fwDone (s : State) (rid : Nat) (slotB : Bool) (b : List Byte) (ok : Bool) : State :=
  let s1 := { s with sec := { s.sec with fwStore := none } }
  let sig := b.drop (b.length - 64)
  let v : Nat × BitVec 64 := (rd b 8 4, BitVec.ofNat 64 (rd b 16 8))
  let good := ok && s.fwOk b
  let s2 :=
    if good then
      let c := s1.sec.setValid slotB true
      { s1 with sec := if slotB then { c with fwVersionB := v, fwSigB := sig } else { c with fwVersionA := v, fwSigA := sig } }
    else if ok then s1.event 0x0320 [b2n slotB]
    else s1
  s2.endReq (some rid) 0x0901 (if good then stOk else if ok then stAuthFail else stMedia) 0 0

/-- FW_ACTIVATE: the slot to boot at the next restart; RECOVERY resets 100 ms later (Table 4-4). -/
def execFwActivate (rid : Nat) (s : State) : Host.Outcome State Fault Refusal :=
  .next (s.onReq rid 0x0902 (fun r =>
    let s1 := { s with sec := { s.sec with
      fwPending := some (r.value == 1), activateAt := if s.modes.mode == Mode.recovery then some s.now else none } }
    s1.complete r stOk))

/-! ### Flash stores (R114, R190, R379, R485) -/

/-- A program image is stored, with event 0x0707, or the previous one stays. An exchange goes on, or is given up where the
follower could not store. -/
def State.progStored (s : State) (rid : Nat) (i : Image) (ok : Bool) : State :=
  let s1 := { s with prog := { s.prog with storing := none } }
  let s2 := if ok then ({ s1 with prog := { s1.prog with stored := some i } }).event 0x0707 [i.crc.toNat] else s1
  if s.twin.exActive && !ok then s2.dropSwap
  else s2.endReq (some rid) 0x0201 (if ok then stOk else stMedia) (if ok then i.crc.toNat else 0) 0

/-- FLASH_STORE_DONE: the store in hand ends: program image, firmware image, then trim. -/
def execFlashStoreDone (t : Nat) (ok : Bool) (s : State) : Host.Outcome State Fault Refusal :=
  let s0 := s.tick t
  .next (match s0.prog.storing, s0.sec.fwStore with
    | some (rid, i), _ => s0.progStored rid i ok
    | none, some (rid, slotB, b) => s0.fwDone rid slotB b ok
    | none, none => s0.trimDone ok)

end Sys2Proof.Machine
end

