-- ==== Sys2Proof/Machine/Recorder.lean ====
section
/-! DEFINITION. Machine/Recorder.lean: writing and reading event records, and the recorder's configuration
(16_recorder_and_panel.md). -/

namespace Sys2Proof.Machine

/-! ### Writing (R537, R538, R541 to R545) -/

/-- First slot of the safety area, and its end (R535). -/
def safetyStart : Nat := 1966080
def slotCount : Nat := 2097152

/-- Slots of an erase block: the first write into a block of the routine area erases it (R542). -/
def Recorder.eraseFor (r : Recorder) (slot : Nat) : Recorder :=
  if slot % 512 ≠ 0 then r
  else { r with
    slots := r.slots.filter (fun e => !(slot ≤ e.1 && e.1 < slot + 512))
    bad := r.bad.filter (fun n => !(slot ≤ n && n < slot + 512))
    erases := satInc r.erases }

/-- The record goes to the safety area: its code belongs there and the area has room. -/
def Recorder.toSafety (r : Recorder) (x : Rec) : Bool := safetyCode x.code && !r.safetyFull

/-- The slot of a record's area moves on; the routine area wraps (R542). -/
def Recorder.advance (r : Recorder) (safety : Bool) : Recorder :=
  if safety then { r with nextSafety := r.nextSafety + 1 }
  else { r with nextRoutine := if r.nextRoutine + 1 = safetyStart then 0 else r.nextRoutine + 1 }

/-- The recorder after an attempt to write a record: it stands in its slot and leaves the queue, or the slot is bad. -/
def Recorder.write (r : Recorder) (x : Rec) (rest : List Rec) (verified : Bool) : Recorder :=
  let safety := r.toSafety x
  let slot := if safety then r.nextSafety else r.nextRoutine
  let r1 := if safety then r else r.eraseFor slot
  if verified then
    { (r1.advance safety) with
      slots := tset r1.slots slot { x with overflow := safetyCode x.code && !safety }, seq := x.seq, queue := rest }
  else { (r1.advance safety) with bad := r1.bad ++ [slot], badSlots := satInc r1.badSlots }

/-- Event 0x0012, once, when the safety area is full; event 0x0010 with the count of dropped triggers when the queue has room
again. -/
def State.afterWrite (s : State) : State :=
  let s1 :=
    if s.recd.safetyFull && !s.recd.fullWritten then
      ({ s with recd := { s.recd with fullWritten := true } }).event 0x0012
    else s
  if 0 < s1.recd.dropped && routineRoom s1.recd.queue then
    ({ s1 with recd := { s1.recd with dropped := 0 } }).event 0x0010 [s1.recd.dropped]
  else s1

/-- Commands that waited for a change-log record complete (R112, R543). -/
def State.logWritten (s : State) (seq : Nat) : State :=
  let ids := (s.recd.logWaits.filter (fun w => w.1 == seq)).map (·.2)
  let s1 := { s with recd := { s.recd with logWaits := s.recd.logWaits.filter (fun w => w.1 != seq) } }
  ids.foldl (fun (st : State) n => st.release n) s1

/-- A written record goes to every subscription at or below its code (R547). -/
def State.deliverRec (s : State) (x : Rec) : State :=
  ((s.subsOf 0x0601).filter (fun u => u.param ≤ x.code)).foldl (fun (st : State) u =>
    st.deliver u.handle x.mt [st.recBytes x]) s

/-- RECORD_WRITE: the record at the queue's head, until 3.5 ms after a power-fail warning. -/
def execRecordWrite (t : Nat) (verified : Bool) (s : State) : Host.Outcome State Fault Refusal :=
  let s0 := s.tick t
  let late : Bool := match s0.pwr.warn with | some w => w + 3500000 < s0.now | none => false
  .next (match s0.recd.queue with
    | x :: rest =>
      if !s0.recd.ready || late then s0
      else
        let s1 := { s0 with recd := s0.recd.write x rest verified }
        if verified then
          let y := { x with overflow := safetyCode x.code && !(s0.recd.toSafety x) }
          ((s1.deliverRec y).logWritten x.seq).afterWrite
        else s1.afterWrite
    | [] => s0)

/-- SUMMARY_RECORD: a full bucket whose code holds a suppressed count; no token is used. It waits for room like any routine
record. -/
def execSummaryRecord (t : Nat) (code : BitVec 12) (s : State) : Host.Outcome State Fault Refusal :=
  let s0 := s.tick t
  let k := code.toNat
  let c := s0.code k
  .next (
    if c.suppressed = 0 || c.burst = 0 || c.refill s0.now < c.burst * tokenUnit || !s0.recd.ready ||
        !(routineRoom s0.recd.queue) then s0
    else
      let x : Rec := { (s0.mkRec k [] c.suppressed) with items := [], partialFlag := false, summary := true }
      { s0 with recd := { s0.recd with
        queue := s0.recd.queue ++ [x], seqAssigned := s0.recd.seqAssigned + 1
        cfg := tset s0.recd.cfg k { c with tokens := c.burst * tokenUnit, tokensAt := s0.now, suppressed := 0 } } })

/-! ### Reading (R546, R547) -/

/-- A slot as stored: its record, what a failed write left, or erased bytes; and whether it holds a record. -/
def State.slotBytes (s : State) (n : Nat) : List Byte × Bool :=
  match tfind s.recd.slots n with
  | some x => (s.recBytes x, true)
  | none =>
    if s.recd.bad.contains n then ((List.range 128).flatMap (fun i => u32 (Config.freeWord (s.free + i)).toNat), false)
    else (List.replicate 512 0xFF, false)

/-- REC_READ: AUX slots from the index on; free values stand where a failed write left a slot. -/
def execRecRead (rid : Nat) (s : State) : Host.Outcome State Fault Refusal :=
  .next (s.onReq rid 0x0600 (fun r =>
    let (b, k, s1) := (List.range r.aux.toNat).foldl (fun (a : List Byte × Nat × State) i =>
      let (b, k, st) := a
      let (x, ok) := st.slotBytes ((r.value + i) % slotCount)
      (b ++ x, k + b2n ok, { st with free := st.free + 128 })) (([] : List Byte), 0, s)
    s1.complete r stOk k 0 (some b)))

/-- REC_SUBSCRIBE. -/
def execRecSubscribe (rid : Nat) (handle : BitVec 32) (s : State) : Host.Outcome State Fault Refusal :=
  .next (s.onReq rid 0x0601 (fun r =>
    s.subscribe r { handle := handle, opcode := 0x0601, ctx := bits r.aux.toNat 0 8, param := bits r.aux.toNat 8 24 }))

/-! ### Configuration (R540) -/

/-- An item of a REC_CONFIG entry: KIND, LEN and REF as R540 bounds them. -/
def recItemOk (b : List Byte) : Bool :=
  let k := rd b 0 1
  let n := rd b 1 1
  let ref := rd b 4 4
  zeroAt b 2 2 &&
  ((k == 1 && 4 ≤ n && n ≤ 32 && ref % 4 == 0 && ref + n ≤ 0x80000) ||
   (k == 2 && (n == 1 || n == 2 || n == 4 || n == 8)))

/-- An entry of Table 16-5. -/
def recEntryOk (b : List Byte) : Bool :=
  let n := rd b 6 1
  rd b 0 2 ≤ 0x0FFF && rd b 2 2 ≤ 60000 && rd b 4 2 ≤ 1024 && (rd b 4 2 != 0 || rd b 2 2 == 0) && n ≤ 8 && zeroAt b 7 1 &&
  (List.range 8).all (fun i => if i < n then recItemOk (slice b (8 + 8 * i) 8) else zeroAt b (8 + 8 * i) 8)

/-- The buffer of REC_CONFIG. -/
def recConfigOk (b : List Byte) : Bool :=
  let n := rd b 0 2
  1 ≤ n && n ≤ 4096 && b.length == 16 + 72 * n && zeroAt b 2 14 && (entriesOf 72 (b.drop 16)).all recEntryOk

/-- A code's configuration from its entry; the bucket holds no more than its new size. -/
def CodeCfg.configure (c : CodeCfg) (now : Nat) (b : List Byte) : CodeCfg :=
  let n := rd b 6 1
  let burst := rd b 4 2
  { c with rate := rd b 2 2, burst := burst, items := (List.range n).map (fun i => slice b (8 + 8 * i) 8)
           tokens := min (c.refill now) (burst * tokenUnit), tokensAt := now }

/-- The entry of a code in the table that REC.CONFIG_CRC covers. -/
def Recorder.entryBytes (r : Recorder) (code : Nat) : List Byte :=
  let c := tget r.cfg code {}
  let items := c.items.flatten
  u16 code ++ u16 c.rate ++ u16 c.burst ++ u8 c.items.length ++ zeros 1 ++ items ++ zeros (64 - items.length)

/-- CRC-32 of the whole table. -/
def Recorder.tableCrc (r : Recorder) : BitVec 32 := crc32 ((List.range 4096).flatMap r.entryBytes)

/-- REC_CONFIG: entries replace the configuration of their codes; event 0x0013. -/
def execRecConfig (rid : Nat) (s : State) : Host.Outcome State Fault Refusal :=
  .next (s.onReq rid 0x0602 (fun r =>
    let cfg := (entriesOf 72 (r.buf.drop 16)).foldl (fun (t : Tab CodeCfg) b =>
      let k := rd b 0 2
      tset t k ((tget t k {}).configure s.now b)) s.recd.cfg
    let r1 := { s.recd with cfg := cfg }
    let crc := r1.tableCrc
    (({ s with recd := { r1 with configCrc := crc } }).event 0x0013 [crc.toNat]).complete r stOk))

end Sys2Proof.Machine
end

