-- ==== Sys2Proof/Machine/Panel.lean ====
section
/-! DEFINITION. Machine/Panel.lean: display updates, frames, keys, menu pages and the eject lever
(16_recorder_and_panel.md, R398, R485). -/

namespace Sys2Proof.Machine

/-! ### Display updates and frames (R548 to R552) -/

/-- A region's fields (Table 16-10). -/
def regX (g : BitVec 64) : Nat := bits g.toNat 0 9
def regW (g : BitVec 64) : Nat := bits g.toNat 14 9
def regY (g : BitVec 64) : Nat := bits g.toNat 40 8
def regH (g : BitVec 64) : Nat := bits g.toNat 56 8

/-- Copy a region's pixels into a buffer: 128 bytes a row, two pixels a byte. -/
def DspJob.draw (j : DspJob) (m : Mem) : Mem :=
  let w := regW j.place / 2
  (List.range (regH j.place)).foldl (fun (m : Mem) y =>
    mwrite m ((regY j.place + y) * 128 + regX j.place / 2) (slice j.pixels (y * w) w)) m

/-- Start an update: its pixels go into the back buffer. -/
def Panel.start (d : Panel) (j : DspJob) : Panel :=
  { d with running := d.running ++ [j], back := j.draw d.back }

/-- DSP_WRITE: NOT_PRESENT for a region that is not defined; one update of a region runs, one waits, and a newer one
supersedes the waiting one. -/
def execDspWrite (rid : Nat) (s : State) : Host.Outcome State Fault Refusal :=
  .next (s.onReq rid 0x0A00 (fun r =>
    let n := r.value
    let g := tget s.dsp.regions n 0
    let j : DspJob := { rid := rid, region := n, place := g, pixels := r.buf }
    if regW g = 0 then s.complete r stNotPresent
    else if s.dsp.running.any (fun x => x.region == n) then
      let old := s.dsp.waiting.find? (fun (x : DspJob) => x.region == n)
      let s1 := match old with
        | some x => s.endReq (some x.rid) 0x0A00 stSuperseded 0 0
        | none => s
      ({ s1 with dsp := { s1.dsp with waiting := s1.dsp.waiting.filter (fun (x : DspJob) => x.region != n) ++ [j] } }).running rid
    else ({ s with dsp := s.dsp.start j }).running rid))

/-- CRC-32 of what is displayed (R552). -/
def Panel.shownCrc (d : Panel) (faultCrc : BitVec 32) : BitVec 32 := if d.fault then faultCrc else d.expectCrc

/-- DSP_STATUS. -/
def execDspStatus (rid : Nat) (s : State) : Host.Outcome State Fault Refusal :=
  .next (s.onReq rid 0x0A01 (fun r => s.complete r stOk (s.dsp.shownCrc s.cfg.faultCrc).toNat))

/-- The band of a panel temperature in 0.125 C: a limit counts as crossed more than 1 K past it (R551, R308). -/
def Panel.bandOf (d : Panel) (temp : BitVec 16) : Nat :=
  let t := temp.toInt
  let up := (d.limits.zipIdx.filter (fun (l, i) => if i < d.band then 8 * l - 8 ≤ t else 8 * l + 8 < t)).length
  min 7 up

/-- The column current code of a grey level in the band in use, in steps of 1.25 uA: GREY x BAND_SCALE / 128, rounded to
nearest even, at most 255; level 0 is always 0 (R551). -/
def Panel.columnCode (d : Panel) (g : Nat) : Nat :=
  let x := (tget d.greyUse g (BitVec.ofNat 8 (17 * g))).toNat * (tget d.scaleUse d.band 128).toNat
  let q := x / 128
  if g = 0 then 0
  else min 255 (if 64 < x % 128 ∨ (x % 128 = 64 ∧ q % 2 = 1) then q + 1 else q)

/-- The grey level of a pixel of a buffer: row-major, two pixels a byte, the left one in the low nibble (R548). -/
def pixelOf (m : Mem) (x y : Nat) : Nat :=
  bits (mget m (128 * y + x / 2)).toNat (4 * (x % 2)) 4

/-- Pixel bytes that the module draws itself, whose look the spec does not state: free values. -/
def freeBytes (k n : Nat) : List Byte := (List.range n).flatMap (fun i => u32 (Config.freeWord (k + i)).toNat)

/-- CRC-32 of the new front buffer: rows 0 to 7 are the status line, and a menu page or eject step stands in place of the
host area; both are free values. -/
def State.frontCrc (s : State) (front : Mem) : BitVec 32 :=
  let host : Bool := s.dsp.menu == 0 && (match s.dsp.eject with | .none => true | _ => false)
  crc32 (freeBytes s.free 256 ++ (if host then mread front 1024 7168 else freeBytes (s.free + 256) 1792))

/-- The swap at a frame start: what was copied is shown, and the commands of the updates complete with the frame's module
time; waiting updates start their copy. -/
def State.swapFrame (s : State) : State :=
  let d := s.dsp
  let front := d.back
  let done := d.running
  let s1 := { s with
    dsp := { d with front := front, expectCrc := s.frontCrc front, swapAt := s.now, running := [], waiting := [] }
    free := s.free + 2048 }
  let s2 := done.foldl (fun (st : State) j => st.endReq (some j.rid) 0x0A00 stOk s.mt 0) s1
  d.waiting.foldl (fun (st : State) j => { st with dsp := st.dsp.start j }) s2

/-- FRAME_START: band and drive values take effect, and the buffers swap. -/
def execFrameStart (t : Nat) (temp : BitVec 16) (s : State) : Host.Outcome State Fault Refusal :=
  let s0 := s.tick t
  .next (
    if !s0.modes.powered || s0.modes.inReset || s0.pwr.warn.isSome || (s0.modes.mode == .startup && s0.modes.puStep ≤ 1) then s0
    else
      let d := s0.dsp
      let b := d.bandOf temp
      let s1 := { s0 with dsp := { d with temp := temp, band := b, greyUse := d.grey, scaleUse := d.scale } }
      let s2 := if b = d.band then s1 else s1.event 0x0D06 [d.band, b]
      s2.swapFrame)

/-- A mismatch: fault pattern, event 0x0D01; the third within 60 s latches it with event 0x0D02. -/
def State.frameFault (s : State) (scan : BitVec 32) : State :=
  let recent := s.now :: s.dsp.mismatches.filter (fun a => s.now < a + 60000000000)
  let s1 := ({ s with dsp := { s.dsp with
    fault := true, faults := satInc s.dsp.faults, faultAt := s.now, mismatches := recent } }).event 0x0D01
    [s.dsp.expectCrc.toNat, scan.toNat]
  if 3 ≤ recent.length then ({ s1 with dsp := { s1.dsp with latched := true } }).event 0x0D02 else s1

/-- FRAME_CHECK: the panel lights with its first checked frame; while the fault pattern is shown a swap made 1 s or more after
the mismatch, whose frame checks, restores normal display, unless the pattern is latched (R552, R553). -/
def execFrameCheck (t : Nat) (scan : BitVec 32) (s : State) : Host.Outcome State Fault Refusal :=
  let s0 := s.tick t
  let s1 := { s0 with dsp := { s0.dsp with scanCrc := scan } }
  let ok := scan == s0.dsp.expectCrc
  .next (
    if !s0.modes.powered || s0.modes.inReset || s0.pwr.warn.isSome then s0
    else if s0.dsp.fault then
      if ok && !s0.dsp.latched && s0.dsp.faultAt + 1000000000 ≤ s0.dsp.swapAt then { s1 with dsp := { s1.dsp with fault := false } }
      else s1
    else if ok then { s1 with dsp := { s1.dsp with on := true } }
    else s1.frameFault scan)

/-! ### Keys and menu pages (R554, R585, R485, R398) -/

/-- Current that an output of the page steps by: 1 uA, in mA, from the stored value. -/
def stepTrim (stored : F) (adj : Int) : F := fadd stored (fdiv (ofInt32 adj) (ofInt32 1000))

/-- UP or DOWN on a menu page. -/
def State.menuStep (s : State) (up : Bool) : State :=
  let p := s.fio.trim
  let c := s.cl p.ch
  match s.dsp.menu with
  | 4 =>
    if p.step = 0 then
      { s with fio := { s.fio with trim := { p with ch := if up then min 7 (p.ch + 1) else p.ch - 1 } } }
    else if !c.isOut || 2 < p.step then s
    else
      let a : Int := if up then p.adj + 1 else p.adj - 1
      let v := stepTrim (if p.step = 1 then c.zero else c.span) a
      if !(trimOk v) then s
      else { s with fio := { s.fio with trim :=
        if p.step = 1 then { p with adj := a, zero := v } else { p with adj := a, span := v } } }
  | 5 => { s with dsp := { s.dsp with sel := if up then min 7 (s.dsp.sel + 1) else s.dsp.sel - 1 } }
  | _ => s

/-- SELECT on the CL TRIM page takes the channel, and at an output goes on from 4 mA to 20 mA. -/
def State.menuSelect (s : State) : State :=
  let p := s.fio.trim
  let c := s.cl p.ch
  if s.dsp.menu != 4 then s
  else if p.step = 0 && (c.isIn || c.isOut) then
    { s with fio := { s.fio with trim := { p with step := 1, zero := c.zero, span := c.span, adj := 0 } }
             dsp := { s.dsp with hold := none } }
  else if p.step = 1 && c.isOut then
    { s with fio := { s.fio with trim := { p with step := 2, adj := 0 } }, dsp := { s.dsp with hold := none } }
  else s

/-- MODE shows the next page; MAINTENANCE adds CL TRIM and TRIP; past the last page the host area returns. -/
def State.menuNext (s : State) : State :=
  let last := if s.modes.mode == .maintenance then 5 else 3
  { s with dsp := { s.dsp with menu := if s.dsp.menu < last then s.dsp.menu + 1 else 0 }, fio := { s.fio with trim := {} } }

/-- What the press of a single key does (Table 16-6). -/
def State.menuKey (s : State) (k : Key) : State :=
  match k with
  | .mode => s.menuNext
  | .select => s.menuSelect
  | .up => s.menuStep true
  | .down => s.menuStep false

/-- KEY_PRESS: a key counts as pressed, which begins a hold of the keys then pressed and ends any other, or is released. -/
def execKeyPress (t : Nat) (key : Key) (pressed : Bool) (s : State) : Host.Outcome State Fault Refusal :=
  let s0 := s.tick t
  let d := s0.dsp
  .next (
    if pressed == d.pressed.contains key then s0
    else if pressed then
      let keys := d.pressed ++ [key]
      let s1 := { s0 with dsp := { d with
        pressed := keys, hold := some (keys, s0.now, s0.modes.mode), lastKey := s0.now } }
      if keys.length = 1 && !d.lever && s0.modes.powered && !s0.modes.inReset && s0.modes.mode != .recovery then
        (s1.menuKey key).keysMoved
      else s1.keysMoved
    else
      ({ s0 with dsp := { d with pressed := d.pressed.filter (fun k => k != key), hold := none } }).keysMoved)

/-- MENU_TIMEOUT: 30 s without a key. -/
def execMenuTimeout (t : Nat) (s : State) : Host.Outcome State Fault Refusal :=
  let s0 := s.tick t
  .next (
    if s0.dsp.menu = 0 || s0.now < s0.dsp.lastKey + 30000000000 then s0
    else { s0 with dsp := { s0.dsp with menu := 0 }, fio := { s0.fio with trim := {} } })

/-- TRIP_PAGE_RESET: SELECT and DOWN for 2 s on the TRIP page in MAINTENANCE, with its change-log record (R398). -/
def execTripPageReset (t : Nat) (high low : Bool) (s : State) : Host.Outcome State Fault Refusal :=
  let s0 := s.tick t
  .next (match s0.dsp.held [.select, .down] .maintenance with
    | some a =>
      if s0.modes.mode != .maintenance || s0.dsp.menu != 5 || s0.now < a + 2000000000 then s0
      else
        let n := s0.dsp.sel
        let crc := s0.trip.cfgCrc.toNat
        let s1 := { s0 with dsp := { s0.dsp with hold := none } }
        (s1.resetOut n 2 high low).1.changeLog 0x0882 2 0xFF crc crc n 0
    | none => s0)

/-- A hold on the CL TRIM page: an input takes its 4 mA reference, then its 20 mA reference, from the mean of its last raw
conversions; then, as at an output after both steps, the trim goes to the flash store. -/
def State.trimHold (s : State) (up : Bool) : State :=
  let p := s.fio.trim
  let c := s.cl p.ch
  let m := meanOf c.raws
  let set (q : TrimPage) : State := { s with fio := { s.fio with trim := q } }
  let store : State :=
    if s.fio.trimJob.isSome then s
    else { s with fio := { s.fio with trimJob := some (none, p.ch, p.zero, p.span), trim := { ch := p.ch } } }
  if c.isIn then
    match p.step, up with
    | 1, false => let z := fsub m f4
                  if trimOk z then set { p with zero := z, step := 2 } else s
    | 2, true => let z := fsub m f20
                 if trimOk z then set { p with span := z, step := 3 } else s
    | 3, false => store
    | _, _ => s
  else if c.isOut && p.step = 2 && !up then store
  else s

/-- CL_TRIM_HOLD: SELECT, or SELECT and UP, for 2 s. -/
def execClTrimHold (t : Nat) (n : Fin 8) (select up : Bool) (s : State) : Host.Outcome State Fault Refusal :=
  let s0 := s.tick t
  .next (match s0.dsp.held (if up then [.select, .up] else [.select]) .maintenance with
    | some a =>
      if !select || s0.modes.mode != .maintenance || s0.dsp.menu != 4 || s0.fio.trim.ch != n.val || s0.fio.trim.step = 0 ||
          s0.now < a + 2000000000 then s0
      else ({ s0 with dsp := { s0.dsp with hold := none } }).trimHold up
    | none => s0)

/-! ### Eject lever (R555, R372, Table 16-7) -/

/-- An Equinox for the lever, or another try in 1 s; 30 s after the pull NOT SAFE is shown. -/
def State.ejectTry (s : State) (since : Nat) : State :=
  if s.leadsPair && s.twin.inStep && !s.swapBusy then ({ s with dsp := { s.dsp with eject := .equinox } }).selfEquinox 8
  else if since + 30000000000 ≤ s.now then { s with dsp := { s.dsp with eject := .notSafe } }
  else { s with dsp := { s.dsp with eject := .wait since (s.now + 1000000000) } }

/-- EJECT_LEVER_PULLED: event 0x0D03, and the sequence of the module's role. -/
def execEjectLeverPulled (t : Nat) (s : State) : Host.Outcome State Fault Refusal :=
  let s0 := s.tick t
  .next (
    if s0.dsp.lever then s0
    else if !s0.modes.powered then { s0 with dsp := { s0.dsp with lever := true, hold := none } }
    else
      let s1 := ({ s0 with dsp := { s0.dsp with lever := true, hold := none } }).event 0x0D03 [roleCode s0.modes.role]
      if s1.modes.role == .lead then s1.ejectTry s1.now
      else if s1.modes.role == .simplex && !s1.modes.detached && s1.modes.mode == .run then
        { s1 with dsp := { s1.dsp with eject := .prompt } }
      else s1.ejectSafe)

/-- EJECT_RETRY: a refused Equinox is tried again. -/
def execEjectRetry (t : Nat) (s : State) : Host.Outcome State Fault Refusal :=
  let s0 := s.tick t
  .next (match s0.dsp.eject with
    | .wait since next => if s0.now < next then s0 else s0.ejectTry since
    | _ => s0)

/-- EJECT_CANCEL: the lever goes back, with event 0x0D05; an OFF module only notes where its lever stands. -/
def execEjectCancel (t : Nat) (s : State) : Host.Outcome State Fault Refusal :=
  let s0 := s.tick t
  .next (
    if !s0.dsp.lever then s0
    else if !s0.modes.powered then { s0 with dsp := { s0.dsp with lever := false, hold := none } }
    else ({ s0 with dsp := { s0.dsp with lever := false, hold := none, eject := .none } }).event 0x0D05)

/-- SELECT has been held alone since an instant, in a hold that began in RUN. The prompt stands while the lever is pulled. -/
def Panel.selectHeld (d : Panel) : Option Nat :=
  match d.hold with
  | some ([.select], at_, .run) => some at_
  | _ => none

/-- EJECT_HOLD: SELECT for 3 s at the prompt: the station goes to HOLD at its next hold instant with cause 14. -/
def execEjectHold (t : Nat) (s : State) : Host.Outcome State Fault Refusal :=
  let s0 := s.tick t
  .next (match s0.dsp.eject, s0.dsp.selectHeld with
    | .prompt, some a =>
      if s0.modes.role != .simplex || s0.modes.mode != .run || s0.modes.trans.isSome || s0.now < a + 3000000000 then s0
      else { s0 with modes := { s0.modes with trans := some (.toHold 14 0 none none) }, dsp := { s0.dsp with hold := none } }
    | _, _ => s0)

end Sys2Proof.Machine
end

