-- ==== Sys2Proof/Machine/Checks.lean ====
section
/-! DEFINITION. Machine/Checks.lean: steps 1 to 8 of the order of checks (R67), for descriptors and side-band requests
(02_host_rings.md, 03_sideband_and_authority.md). -/

namespace Sys2Proof.Machine

/-! ### The opcode tables (Tables 2-14, 3-3, 2-10, 3-5) -/

/-- A row of the opcode tables: host modes, side-band modes, roles, target kind and permission bit. Mode bit m is mode code
m + 1, role bit r is role code r. -/
structure OpRow where
  op : Nat
  modes : Nat
  roles : Nat
  sb : Nat
  kind : Nat
  perm : Nat
  deriving DecidableEq, Repr

/-- Sets of modes: D 1, T 2, R 4, H 8, M 16, V 32. -/
def mAll : Nat := 63
def mNotV : Nat := 31
def mRHM : Nat := 28
def mHM : Nat := 24
def mDRHM : Nat := 29

/-- Sets of roles: S 1, L 2, F 4, Y 8, X 16. -/
def rAll : Nat := 31
def rSL : Nat := 3
def rSLFX : Nat := 23

def rowsMode : List OpRow :=
  [⟨0x0100, mAll, rAll, mAll, 0, 0⟩, ⟨0x0101, mDRHM, rSL, mDRHM, 0, 0⟩, ⟨0x0102, mHM, rSL, mHM, 0, 0⟩,
   ⟨0x0103, 12, 2, 12, 0, 0⟩, ⟨0x0104, 4, 2, 0, 0, 0⟩, ⟨0x0105, 12, 2, 12, 0, 0⟩, ⟨0x0106, 12, 1, 12, 0, 0⟩,
   ⟨0x0107, 30, rAll, 30, 7, 0⟩, ⟨0x0108, 30, rAll, 0, 7, 0⟩]

def rowsProg : List OpRow :=
  [⟨0x0200, mRHM, rAll, 0, 0, 0⟩, ⟨0x0201, mHM, rSL, 0, 0, 1⟩, ⟨0x0202, 4, 2, 0, 0, 1⟩, ⟨0x0203, 12, rSL, 0, 0, 2⟩,
   ⟨0x0204, mRHM, rSL, 0, 0, 3⟩, ⟨0x0205, mRHM, rSL, 0, 1, 3⟩, ⟨0x0206, mRHM, rAll, 0, 0, 0⟩, ⟨0x0207, mRHM, rAll, 0, 0, 0⟩,
   ⟨0x0208, mRHM, rAll, 0, 0, 0⟩, ⟨0x0209, mNotV, rAll, 0, 6, 0⟩, ⟨0x020A, mRHM, rAll, 0, 14, 0⟩]

def rowsLoop : List OpRow :=
  [⟨0x0300, mHM, rSL, 0, 0, 1⟩, ⟨0x0301, 12, rSL, 0, 2, 2⟩, ⟨0x0302, 12, rSL, 0, 2, 2⟩, ⟨0x0303, mRHM, rAll, 0, 2, 0⟩,
   ⟨0x0304, mRHM, rAll, 0, 2, 0⟩]

def rowsCell : List OpRow :=
  [⟨0x0400, mHM, rSL, 0, 0, 5⟩, ⟨0x0401, mHM, rSL, 0, 0, 5⟩, ⟨0x0402, mHM, rSL, 0, 3, 0⟩, ⟨0x0403, mRHM, rSL, 0, 0, 5⟩,
   ⟨0x0404, mRHM, rSL, 0, 0, 5⟩, ⟨0x0405, mRHM, rSL, 0, 3, 5⟩, ⟨0x0406, mRHM, rAll, 0, 3, 0⟩, ⟨0x0407, mRHM, rAll, 0, 4, 0⟩]

def rowsBus : List OpRow :=
  [⟨0x0500, mNotV, rAll, 0, 0, 0⟩, ⟨0x0501, mHM, rAll, mHM, 0, 9⟩, ⟨0x0502, mRHM, rAll, 0, 0, 0⟩, ⟨0x0503, mHM, rSL, 0, 8, 0⟩,
   ⟨0x0504, mRHM, rSL, 0, 8, 0⟩, ⟨0x0505, mRHM, rAll, 0, 8, 0⟩]

def rowsRec : List OpRow :=
  [⟨0x0600, mNotV, rAll, mNotV, 10, 0⟩, ⟨0x0601, mNotV, rAll, 0, 0, 0⟩, ⟨0x0602, mNotV, rAll, 0, 0, 0⟩,
   ⟨0x0700, mNotV, rAll, mNotV, 0, 0⟩, ⟨0x0701, mDRHM, rSL, mDRHM, 0, 8⟩, ⟨0x0702, mDRHM, rAll, 0, 0, 0⟩]

def rowsSec : List OpRow :=
  [⟨0x0800, mNotV, rAll, mAll, 0, 0⟩, ⟨0x0801, mNotV, rAll, mAll, 0, 10⟩, ⟨0x0802, mNotV, rAll, 0, 0, 10⟩,
   ⟨0x0803, mHM, rSL, 56, 11, 7⟩, ⟨0x0804, mNotV, rAll, mAll, 11, 0⟩, ⟨0x0805, mHM, rSL, 0, 0, 4⟩, ⟨0x0806, mHM, rSL, 0, 0, 0⟩,
   ⟨0x0807, 16, 1, 0, 0, 7⟩, ⟨0x0808, 0, rAll, mAll, 0, 10⟩, ⟨0x0809, 0, rAll, 32, 0, 0⟩]

def rowsSafe : List OpRow :=
  [⟨0x0880, 16, 1, 0, 0, 4⟩, ⟨0x0881, 16, 1, 0, 0, 4⟩, ⟨0x0882, mDRHM, rSL, 0, 12, 4⟩, ⟨0x0883, mNotV, rAll, 0, 0, 0⟩,
   ⟨0x0884, mRHM, rAll, 0, 0, 0⟩, ⟨0x0900, mAll, rAll, mAll, 0, 0⟩, ⟨0x0901, 60, rSLFX, 60, 13, 6⟩, ⟨0x0902, 56, rSLFX, 56, 13, 6⟩]

def rowsFio : List OpRow :=
  [⟨0x0A00, mNotV, rAll, 0, 9, 0⟩, ⟨0x0A01, mNotV, rAll, 0, 0, 0⟩, ⟨0x0B00, mRHM, rAll, 0, 15, 0⟩, ⟨0x0B01, mRHM, rAll, 0, 15, 0⟩,
   ⟨0x0B02, 16, 1, 0, 15, 3⟩, ⟨0x0B03, 16, 1, 0, 15, 0⟩]

def opRows : List OpRow :=
  rowsMode ++ rowsProg ++ rowsLoop ++ rowsCell ++ rowsBus ++ rowsRec ++ rowsSec ++ rowsSafe ++ rowsFio

/-- Width of a target kind's value, bits (Table 2-10). -/
def kindWidth (k : Nat) : Nat :=
  [0, 32, 16, 4, 17, 8, 32, 3, 3, 4, 21, 4, 3, 1, 6, 16].getD k 32

/-- The target kind is the one that the opcode names; FORCE_RELEASE takes NONE too. -/
def OpRow.kindOk (r : OpRow) (k : Nat) : Bool := k == r.kind || (r.op == 0x0205 && k == 0)

/-! ### What is checked -/

/-- A descriptor or side-band message under check: its fields, its party, its buffer if it could be read, the bytes that its
CMAC covers, and whether a reserved field that only its message has is non-zero. -/
structure Probe where
  d : Desc := {}
  side : Bool := false
  buf : Option (List Byte) := none
  signed : List Byte := []
  resv : Bool := false
  deriving DecidableEq, Repr

def Probe.op (p : Probe) : Nat := p.d.opcode.toNat
def Probe.value (p : Probe) : Nat := bits p.d.target.toNat 0 32
def Probe.kind (p : Probe) : Nat := bits p.d.target.toNat 56 8
def Probe.crit (p : Probe) : Bool := criticalOp p.op

/-- BUF_LEN, or PAY_LEN. -/
def Probe.len (p : Probe) : Nat := p.d.bufLen.toNat

/-- The row of a known opcode of the party (R71, R88). -/
def Probe.row (p : Probe) : Option OpRow :=
  opRows.find? (fun r => r.op == p.op && (if p.side then r.sb else r.modes) != 0)

/-- Reserved fields: FLAGS, bytes past KEY_SLOT, target bits 55:32 and value bits past the width of the kind, and for an
opcode that is not critical everything from 0x20 on (R7, R63, R64, R85). -/
def Probe.reservedSet (p : Probe) : Bool :=
  let d := p.d
  let flags := if p.side then (if p.op == 0x0901 then 2 else 1) else 3
  p.resv || d.flags.toNat / 2 ^ flags != 0 || d.resv != 0 || bits d.target.toNat 32 24 != 0 ||
  p.value / 2 ^ kindWidth p.kind != 0 || (!p.crit && (d.counter != 0 || d.keySlot != 0 || d.cmac != 0))

/-- Channels of a FIO group (R472). -/
def fioCount (g : Nat) : Nat := [32, 16, 8, 8, 4, 4].getD g 0

/-- The opcode accepts the target (R114, R496, R498, R499). -/
def State.acceptsTarget (s : State) (p : Probe) : Bool :=
  let g := bits p.value 8 8
  let ch := bits p.value 0 8
  match p.op with
  | 0x0901 => (p.value == 1) != s.sec.fwActiveB
  | 0x0B00 | 0x0B01 => ch != 0xFF
  | 0x0B02 => (g == 1 || g == 2 || g == 4) && ch != 0xFF
  | 0x0B03 => g == 2 && ch != 0xFF
  | _ => true

/-- AUX of FIO_TEST lies in the range of its group, or ends the test (R498). -/
def testAuxOk (g : Nat) (aux : BitVec 32) : Bool :=
  aux == testEnd ||
  (match g with
    | 1 => aux.toNat ≤ 1
    | 2 => aux.toNat ≤ 22000
    | _ => decide (-10000 ≤ aux.toInt) && decide (aux.toInt ≤ 10000))

/-- AUX and TARGET lie in the ranges that the opcode allows. -/
def Probe.inRange (p : Probe) : Bool :=
  let a := p.d.aux.toNat
  let v := p.value
  let hi := bits a 8 24
  match p.op with
  | 0x0101 => [1, 3, 4, 5, 6].contains a
  | 0x0102 => a ≤ 1
  | 0x0107 => v != 0 && a ≤ 2
  | 0x0108 => v != 0
  | 0x0208 => hi < 64
  | 0x0301 | 0x0303 => bits v 13 3 != 0
  | 0x0302 => bits v 13 3 != 0 && a ≤ 2
  | 0x0304 => bits v 13 3 != 0 && hi != 0
  | 0x0406 => bits a 8 16 != 0 && bits a 24 8 ≤ 2
  | 0x0501 => a ≤ 3
  | 0x0502 => hi < 64
  | 0x0504 => a < 65536
  | 0x0600 => 1 ≤ a && a ≤ (if p.side then 2 else 2048)
  | 0x0B00 | 0x0B03 => bits v 0 8 < fioCount (bits v 8 8)
  | 0x0B01 => bits v 0 8 < fioCount (bits v 8 8) && hi != 0
  | 0x0B02 => bits v 0 8 < fioCount (bits v 8 8) && testAuxOk (bits v 8 8) p.d.aux
  | _ => true

/-- Subscribe opcodes, whose AUX names a context (R72). -/
def subscribeOp (op : Nat) : Bool := [0x0208, 0x0304, 0x0406, 0x0502, 0x0505, 0x0601, 0x0B01].contains op

/-- Ranges, then the named context, then the named subscription (R67 step 1 e). -/
def State.rangeReason (s : State) (p : Probe) : Option Nat :=
  let c := s.ctx (bits p.d.aux.toNat 0 8)
  if !p.inRange || (p.crit && 15 < p.d.keySlot.toNat) then some 9
  else if subscribeOp p.op && !(c.state == .active && c.stream) then some 7
  else if p.op == 0x0209 && !(s.host.subs.any (fun x => x.handle.toNat == p.value)) then some 8
  else none

/-- BUF_LEN, or PAY_LEN, is what the opcode's rules require, where they fix it without the buffer (R67 step 1 f, R89). -/
def State.lenOk (s : State) (p : Probe) : Bool :=
  let n := p.len
  if p.side then
    match p.op with
    | 0x0701 => n == 16
    | 0x0803 => n == 32
    | 0x0901 => true
    | _ => n == 0
  else
    match p.op with
    | 0x0206 => n == 16400
    | 0x020A => n == 64
    | 0x0301 => n == 80
    | 0x0303 => match s.loops.loops.find? (fun e => e.1 == p.value) with
      | some (_, l) => n == (if l.lrec.type == 5 then 640 else 128)
      | none => n == 128 || n == 640
    | 0x0401 => n == 1296
    | 0x0407 => n == 64
    | 0x0500 => n == 1600
    | 0x0504 => n == 72
    | 0x0600 => n == 512 * p.d.aux.toNat
    | 0x0701 => n == 32
    | 0x0702 => n == 16
    | 0x0803 => n == 48
    | 0x0805 => n == 56
    | 0x0807 => n == 72
    | 0x0880 => n == 160
    | 0x0883 => n == 336
    | 0x0884 => n == 528
    | 0x0900 => n == 160
    | 0x0A00 =>
      let g := tget s.dsp.regions p.value 0
      regW g == 0 || n == regW g * regH g / 2
    | 0x0B00 => n == 32
    | 0x0B03 => n == 16
    | _ => true

/-- Opcodes whose buffer the module reads. -/
def readsBuffer (op : Nat) : Bool :=
  [0x0201, 0x0202, 0x0203, 0x0204, 0x0207, 0x0208, 0x0300, 0x0301, 0x0400, 0x0401, 0x0403, 0x0404, 0x0503, 0x0504, 0x0505,
   0x0602, 0x0701, 0x0702, 0x0803, 0x0805, 0x0807, 0x0880, 0x0881, 0x0901, 0x0A00, 0x0B03].contains op

def keyErase (b : List Byte) : Bool := bit (rd b 0x1A 2) 0
def keyPlain (b : List Byte) : Bool := bit (rd b 0x1A 2) 1

/-- A provisioning KEY_LOAD: on the side-band port, in RECOVERY, KEY_SLOT and TARGET name one empty slot (R105). -/
def State.provisions (s : State) (p : Probe) (b : List Byte) : Bool :=
  p.op == 0x0803 && p.side && s.modes.mode == .recovery && keyPlain b && !(keyErase b) && p.value != 0 &&
  p.d.keySlot.toNat == p.value && !(s.keySlot p.value).present

/-- Content of a KEY_LOAD buffer (Table 3-6). -/
def State.keyLoadOk (s : State) (p : Probe) (b : List Byte) : Bool :=
  rd b 0x18 2 < 0x1000 && rd b 0x1A 2 < 4 && zeroAt b 0x1C 4 && (!(keyErase b) || zeroAt b 0 24) &&
  (!(keyPlain b) || (s.provisions p b && zeroAt b 16 8))

/-- Content of a PWD_LOGIN buffer (Table 3-7, R109): 8 to 32 characters of 0x20 to 0x7E; others complete reason 5 (DESIGN
CHOICE, log 93). -/
def pwdLoginOk (b : List Byte) : Bool :=
  let n := rd b 0 1
  8 ≤ n && n ≤ 32 && zeroAt b 1 7 && zeroAt b (8 + n) (32 - n) &&
  (slice b 8 n).all (fun c => 0x20 ≤ c.toNat && c.toNat ≤ 0x7E)

/-- Content of a PWD_SET buffer. -/
def pwdSetOk (b : List Byte) : Bool := 10000 ≤ rd b 0 4 && rd b 0 4 ≤ 600000 && zeroAt b 4 4

/-- A side-band chunk of FW_WRITE begins at 0 or at the end of the previous chunk (R115). -/
def State.chunkOk (s : State) (p : Probe) : Bool :=
  !p.side || p.d.aux == 0 || s.sec.fwChunks.map (·.length) == some p.d.aux.toNat

/-- The buffer's content holds by the opcode's own rules (R67 step 1 h); FIO_TRIM names its reason. -/
def State.contentReason (s : State) (p : Probe) (b : List Byte) : Option Nat :=
  let five (ok : Bool) : Option Nat := if ok then none else some 5
  match p.op with
  | 0x0201 | 0x0202 => five (parseImage b).isSome
  | 0x0203 => five (varBufOk b 256 true)
  | 0x0204 => five (varBufOk b 1024 true)
  | 0x0207 | 0x0208 => five (varBufOk b 256 false)
  | 0x0300 => five (loopAdmitOk b)
  | 0x0400 => five (cellPlanOk b)
  | 0x0401 => five (chemOk b)
  | 0x0403 => five (balPlanOk b)
  | 0x0404 => five (contactorPlanOk b)
  | 0x0503 => five (canScheduleOk b)
  | 0x0504 => five (canSendOk b)
  | 0x0505 => five (canSubscribeOk b)
  | 0x0601 => five (10 ≤ (s.ctx (bits p.d.aux.toNat 0 8)).recLog)
  | 0x0602 => five (recConfigOk b)
  | 0x0701 => five (zeroAt b 8 8)
  | 0x0702 => five (alarmOk b)
  | 0x0803 => five (s.keyLoadOk p b)
  | 0x0805 => five (pwdLoginOk b)
  | 0x0807 => five (pwdSetOk b)
  | 0x0880 => five (tripConfigOk b)
  | 0x0881 => five (s.safetyConfigOk b)
  | 0x0901 => five (s.chunkOk p)
  | 0x0B03 => s.fioTrimCheck (bits p.value 0 8) b
  | _ => none

/-- Step 1: the reason of the first format check that fails (R67, R65). -/
def State.formatReason (s : State) (p : Probe) : Option Nat :=
  match p.row with
  | none => some 2
  | some row =>
    if p.reservedSet then some 1
    else if p.d.flags.getLsbD 0 != p.crit then some 3
    else if !(row.kindOk p.kind) || !(s.acceptsTarget p) then some 4
    else
      match s.rangeReason p with
      | some k => some k
      | none =>
        if p.d.bufAddr.toNat % 8 != 0 || 0x10000000 < p.len || !(s.lenOk p) then some 5
        else
          match p.buf with
          | none => if readsBuffer p.op && p.len != 0 then some 6 else s.contentReason p []
          | some b => s.contentReason p b

/-- Step 2: the mode is not one of the opcode's, or a command of the presence window comes outside it (R106). -/
def State.modeDenied (s : State) (p : Probe) (row : OpRow) : Bool :=
  !(bit (if p.side then row.sb else row.modes) (modeCode s.modes.mode - 1)) ||
  ((p.op == 0x0809 || s.provisions p (p.buf.getD [])) && s.mgmt.presenceEnd.isNone)

/-- The holder that step 3 judges a party against: the one at the Winter tick of the check, but a HELM_SEIZE of that tick
comes after the checks of the host (R95). -/
def State.judgedHolder (s : State) (side : Bool) : Holder :=
  if !side && s.mgmt.seizeTick == some s.winter then .host else s.mgmt.holder

/-- Step 3: a critical opcode from a party without the helm; HELM_TAKE, HELM_SEIZE and a provisioning KEY_LOAD are exempt
(R93, R105). -/
def State.helmDenied (s : State) (p : Probe) : Bool :=
  p.crit && !([0x0802, 0x0808].contains p.op) && !(s.provisions p (p.buf.getD [])) &&
  s.judgedHolder p.side != (if p.side then Holder.sideband else Holder.host)

/-- A critical host opcode whose buffer ends with a tag (R98). -/
def hasTag (op : Nat) : Bool := criticalOp op && readsBuffer op && !([0x0201, 0x0202, 0x0901].contains op)

/-- The buffer tag is right. -/
def tagOk (key : BitVec 128) (p : Probe) (b : List Byte) : Bool :=
  p.side || !(hasTag p.op) ||
  (16 ≤ b.length && cmac key (u64 p.d.counter.toNat ++ b.take (b.length - 16)) == b.drop (b.length - 16))

/-- The mask of a key slot has the bit of the opcode (R103); HELM_SEIZE needs HELM or SEIZE. -/
def permOk (mask : Nat) (row : OpRow) : Bool := bit mask row.perm || (row.op == 0x0808 && bit mask 11)

/-- The buffer of a KEY_LOAD as step 9 takes it: the key in the clear. None where step 4 fails (R104, R105). -/
def State.keyLoadAuth (s : State) (p : Probe) (b : List Byte) : Option (List Byte) :=
  let auth := (s.keySlot p.d.keySlot.toNat).mask
  let new := BitVec.ofNat 16 (rd b 0x18 2)
  if p.value = 0 || (new &&& ~~~auth) != 0 then none
  else if keyErase b then some (b.take 32)
  else if !(s.keySlot p.value).present then none
  else (keyUnwrap (s.keySlot p.d.keySlot.toNat).key (b.take 24)).map (fun k => k ++ zeros 8 ++ slice b 0x18 8)

/-- Step 4: the key that checks the request, and its buffer as step 9 takes it; none where permission, CMAC, buffer tag or
key unwrap fails (R97 to R105). -/
def State.auth (s : State) (p : Probe) (row : OpRow) : Option (BitVec 128 × List Byte) :=
  let b := p.buf.getD []
  let want : List Byte := leBytes 16 p.d.cmac.toNat
  if s.provisions p b then
    let key := BitVec.ofNat 128 (rd b 0 16)
    if cmac key p.signed == want then some (key, b) else none
  else
    let k := s.keySlot p.d.keySlot.toNat
    if !k.present || !(permOk k.mask.toNat row) || cmac k.key p.signed != want || !(tagOk k.key p b) then none
    else if p.op == 0x0803 then (s.keyLoadAuth p b).map (fun x => (k.key, x))
    else some (k.key, b)

/-- Step 6: the role is not one of the opcode's. A follower takes MODE_SET only when detached and into MAINTENANCE, a lead not
into MAINTENANCE or RECOVERY, and a detached module no RESTART (R123, R134). -/
def State.roleDenied (s : State) (p : Probe) (row : OpRow) : Bool :=
  let m := s.modes
  let byRow := !(bit row.roles (roleCode m.role))
  let a := p.d.aux.toNat
  match p.op with
  | 0x0101 => if m.role == .follow then !(m.detached && a == 5) else byRow || (m.role == .lead && (a == 5 || a == 6))
  | 0x0102 => byRow || m.detached
  | _ => byRow

/-- Step 7: the die or port that TARGET names is absent in the variant (R14, R17). -/
def State.targetAbsent (s : State) (p : Probe) : Bool :=
  match p.kind with
  | 7 => !(s.diePresent p.value)
  | 2 => !(s.diePresent (bits p.value 13 3))
  | 3 => !(s.bonded p.value)
  | 4 => !(s.bonded (p.value / 8192))
  | _ => false

/-- Step 8: safety configuration without an open session of the same party and key slot; PWD_SET needs one only beside a
verifier (R109, R110). -/
def State.passwordMissing (s : State) (p : Probe) : Bool :=
  let open_ : Bool := match s.sec.session with
    | some x => x.side == p.side && x.slot == p.d.keySlot.toNat
    | none => false
  match p.op with
  | 0x0880 | 0x0881 => !open_
  | 0x0807 => s.sec.verifier.isSome && !open_
  | _ => false

/-! ### Carrying the checks out -/

/-- A request that fails before step 5 completes, and its response has a zero trailer (R85). -/
def State.refuse (s : State) (r : Req) (status : Nat) (result : Nat := 0) : State :=
  match r.src with
  | .side peer => s.respond peer r false status 0 (BitVec.ofNat 64 result) []
  | .host _ => s.finish r status 0 (BitVec.ofNat 64 result) none

/-- Both modules of a pair hear of an accepted counter: neither module is lost or detached (R68, R101). -/
def State.mirrorsCounters (s : State) : Bool :=
  s.modes.partner && !s.twin.lost && !s.modes.detached && s.twin.mark != 2 &&
  (s.modes.role == .lead || s.modes.role == .follow)

/-- Steps 6 to 8; a request that passes waits for its target, or in hand of the sentry core is ready (R66, R86). A command that
needs a session keeps it open (R110). -/
def State.checkTarget (s : State) (r : Req) (p : Probe) (row : OpRow) : State :=
  let s1 := { s with host := { s.host with reqs := s.host.reqs ++ [r] } }
  if s.roleDenied p row then s1.complete r stRoleDenied
  else if s.targetAbsent p then s1.complete r stNotPresent
  else if s.passwordMissing p then s1.complete r stPassword
  else
    let s2 := s1.updReq r.rid (fun q => { q with phase := if p.side then .ready else .waiting })
    if [0x0807, 0x0880, 0x0881].contains p.op then
      { s2 with sec := { s2.sec with session := s2.sec.session.map (fun x => { x with last := s2.now }) } }
    else s2

/-- Step 5: the counter is accepted, and mirrored in a pair before the completion; or COUNTER_STALE with event 0x0302. -/
def State.checkCounter (s : State) (r : Req) (p : Probe) (row : OpRow) : State :=
  let n := p.d.keySlot.toNat
  let k := s.keySlot n
  if p.d.counter.toNat ≤ k.counter.toNat then
    (({ s with sec := { s.sec with stale := satInc s.sec.stale } }).event 0x0302).finish r stStale 0 0 none
  else
    let s1 := s.setKeySlot n { k with counter := p.d.counter }
    if s1.mirrorsCounters then
      (s1.emit (.mirror (.counter n p.d.counter p.side))).checkTarget { r with needAck := true, mirrorAt := s1.now } p row
    else s1.checkTarget r p row

/-- Step 4, then the rest; a failure counts in SEC.AUTH_FAILS and writes event 0x0301. A side-band request that passes is the
last authenticated one (Table 3-4). -/
def State.checkAuth (s : State) (r : Req) (p : Probe) (row : OpRow) : State :=
  match s.auth p row with
  | none => (({ s with sec := { s.sec with authFails := satInc s.sec.authFails } }).event 0x0301).refuse r stAuthFail
  | some (key, b) =>
    let s1 := if p.side then { s with mgmt := { s.mgmt with lastSbAuth := s.now } } else s
    s1.checkCounter { r with key := key, buf := b } p row

/-- Steps 1 to 8 of R67: the request completes with the first failing status, or waits for step 9. -/
def State.check (s : State) (r : Req) (p : Probe) : State :=
  match s.formatReason p, p.row with
  | some k, _ => s.refuse r stBad k
  | none, none => s.refuse r stBad 2
  | none, some row =>
    if s.modeDenied p row then s.refuse r stModeDenied
    else if s.helmDenied p then s.refuse r stHelmHeld
    else if p.crit then s.checkAuth r p row
    else s.checkTarget r p row

end Sys2Proof.Machine
end

