-- ==== Sys2Proof/Machine/Queue.lean ====
section
/-! DEFINITION. Machine/Queue.lean: contexts, doorbells, descriptors, the PCIe link and the side-band port
(02_host_rings.md, 03_sideband_and_authority.md). -/

namespace Sys2Proof.Machine

/-! ### Contexts (R55, R56) -/

/-- CTXn.CONFIG's fields as written (Table 2-6). -/
def Ctx.withConfig (c : Ctx) (w : BitVec 32) : Ctx :=
  { c with
    enable := w.getLsbD 31
    stream := w.getLsbD 30
    cls := bits w.toNat 28 2
    depthLog := bits w.toNat 24 4
    recLog := bits w.toNat 20 4
    vector := bits w.toNat 8 6 }

/-- The first check of an entry that fails (R55, Table 2-7 REASON). -/
def Ctx.badEntry (c : Ctx) : Option Nat :=
  if c.sqBase.toNat % 4096 != 0 || c.cqBase.toNat % 4096 != 0 then some 1
  else if c.depthLog < 4 || 12 < c.depthLog then some 2
  else if c.cls < 2 then some 3
  else if (if c.stream then c.recLog < 6 || 12 < c.recLog else c.recLog != 0) then some 4
  else none

/-- A context as R55 makes it ACTIVE. -/
def Ctx.activate (c : Ctx) (epoch : Nat) (memFailAt : Option Nat) : Ctx :=
  { c with
    sqHead := 0, sqTail := 0, cqTail := 0, cqHead := 0, inflight := 0, phase := true, epoch := epoch
    state := .active, reason := 0, loss := false, memFailAt := memFailAt }

/-- CTX_ENABLE: a write of CONFIG with ENABLE = 1; `memFailAt` is the instant from which host memory will refuse writes to the
context's rings, if it ever does (R65). -/
def execCtxEnable (t : Nat) (n : Fin 256) (w : BitVec 32) (memFailAt : Option Nat) (s : State) :
    Host.Outcome State Fault Refusal :=
  let s0 := s.tick t
  let c := s0.ctx n.val
  .next (
    if !s0.live || !(w.getLsbD 31) || c.state != .disabled then s0
    else
      let k := c.withConfig w
      match k.badEntry with
      | some reason => (s0.setCtx n.val k).ctxError n.val reason
      | none => s0.setCtx n.val (k.activate (s0.host.linkEpoch % 256) memFailAt))

/-- The requests of a context lose it: their completions have nowhere to go, but they still come before later ones of the
same context (source 512 + n). -/
def State.orphan (s : State) (n : Nat) : State :=
  { s with host := { s.host with
    reqs := s.host.reqs.map (fun q => if q.src == .host n then { q with src := .host (512 + n) } else q) } }

/-- CTX_DISABLE: a write of CONFIG with ENABLE = 0. -/
def execCtxDisable (t : Nat) (n : Fin 256) (w : BitVec 32) (s : State) : Host.Outcome State Fault Refusal :=
  let s0 := s.tick t
  let c := s0.ctx n.val
  .next (
    if !s0.live || w.getLsbD 31 then s0
    else
      match c.state with
      | .disabled => s0.setCtx n.val (c.withConfig w)
      | .active =>
        s0.setCtx n.val { c with enable := false, state := if c.inflight = 0 then .disabled else .active }
      | _ => (s0.setCtx n.val { c with enable := false, state := .disabled, inflight := 0 }).orphan n.val)

/-! ### Doorbells (R58, R59, R52) -/

/-- The context whose doorbell stands at a BAR2 offset (submission or completion), for an aligned 32-bit write. -/
def doorbellOf (completion : Bool) (off size : Nat) : Option Nat :=
  if size = 4 && off % 64 = 0 && off < 32768 && (off / 64 % 2 == 1) == completion then some (off / 128) else none

/-- Any doorbell write brings the queue engine up in DORMANT (R52). -/
def State.wakeEngine (s : State) : State := { s with host := { s.host with engine := true } }

/-- A doorbell write that is ignored is counted (R58). -/
def State.dropDoorbell (s : State) : State :=
  { s with host := { s.host with doorbellDrop := satInc s.host.doorbellDrop } }

/-- A doorbell write: to an ACTIVE context of the right type it moves the tail or the head, or puts the context in ERROR with
reason 5. -/
def State.doorbell (s : State) (completion : Bool) (off size : Nat) (v : BitVec 32) : State :=
  match doorbellOf completion off size with
  | none => s.dropDoorbell
  | some n =>
    let c := s.ctx n
    if c.state != .active || (c.stream && !completion) then s.dropDoorbell
    else if c.depth ≤ v.toNat then s.ctxError n 5
    else if completion then s.setCtx n { c with cqHead := v.toNat }
    else s.setCtx n { c with sqTail := v.toNat }

/-- SUBMISSION_DOORBELL. -/
def execSubmissionDoorbell (t : Nat) (off size : Nat) (v : BitVec 32) (s : State) : Host.Outcome State Fault Refusal :=
  let s0 := s.tick t
  .next (if s0.live then s0.wakeEngine.doorbell false off size v else s0)

/-- COMPLETION_DOORBELL. -/
def execCompletionDoorbell (t : Nat) (off size : Nat) (v : BitVec 32) (s : State) : Host.Outcome State Fault Refusal :=
  let s0 := s.tick t
  .next (if s0.live then s0.wakeEngine.doorbell true off size v else s0)

/-! ### Descriptors (R60, R66, R67) -/

/-- Descriptor bytes 0x00 to 0x2F, which the CMAC covers (R97). -/
def descSigned (d : Desc) : List Byte :=
  u16 d.opcode.toNat ++ u16 d.flags.toNat ++ u32 d.tag.toNat ++ u64 d.target.toNat ++ u64 d.bufAddr.toNat ++
  u32 d.bufLen.toNat ++ u32 d.aux.toNat ++ u64 d.counter.toNat ++ u8 d.keySlot.toNat ++ leBytes 7 d.resv.toNat

/-- A context may fetch its next descriptor (R56, R60). -/
def Ctx.mayFetch (c : Ctx) : Bool :=
  c.state == .active && c.enable && !c.stream && c.sqHead != c.sqTail && c.inflight + c.unread + 1 < c.depth

/-- The claim of a context on the host queue engine: class, then context number (R29). -/
def Ctx.claim (c : Ctx) (n : Nat) : Claim := { cls := c.cls, num := n }

/-- The context has the queue engine in this tick of 1 ns: no descriptor was fetched in it, and no other context that may
fetch has a better claim; the loser's fetch is retried in the next tick (R27, R29, R100). -/
def State.engineGrants (s : State) (n : Nat) : Bool :=
  s.host.fetchAt != some s.now &&
  ((s.ctx n).claim n).wins ((s.host.ctxs.filter (fun e => e.2.mayFetch)).map (fun e => e.2.claim e.1))

/-- A request of a descriptor or message, before its checks. -/
def descReq (d : Desc) (rid : Nat) (src : Src) (buf raw : List Byte) (bufOk : Bool) : Req :=
  { rid := rid, src := src, opcode := d.opcode.toNat, flags := d.flags, tag := d.tag, target := d.target,
    bufAddr := d.bufAddr, aux := d.aux, counter := d.counter, keySlot := d.keySlot.toNat, buf := buf, raw := raw, bufOk := bufOk }

/-- A request number that none has had. -/
def State.takeRid (s : State) : Nat × State :=
  (s.host.nextRid, { s with host := { s.host with nextRid := s.host.nextRid + 1 } })

/-- The descriptor at SQ_HEAD is fetched and checked. -/
def State.fetchDesc (s : State) (n : Nat) (d : Desc) (buf : Option (List Byte)) (bufWriteOk : Bool) : State :=
  let c := s.ctx n
  let (rid, s1) := (s.setCtx n { c with sqHead := (c.sqHead + 1) % c.depth, inflight := c.inflight + 1 }).takeRid
  let b := buf.bind (fun x => if x.length = d.bufLen.toNat then some x else none)
  s1.check (descReq d rid (.host n) (b.getD []) [] bufWriteOk) { d := d, buf := b, signed := (descSigned d) }

/-- DESCRIPTOR_FETCH: `desc` none where the read failed, `buf` the buffer's bytes in host memory where it is readable, and
`bufWriteOk` whether it takes writes. -/
def execDescriptorFetch (t : Nat) (n : Fin 256) (desc : Option Desc) (buf : Option (List Byte)) (bufWriteOk : Bool)
    (s : State) : Host.Outcome State Fault Refusal :=
  let s0 := s.tick t
  .next (
    if !s0.live || !s0.host.link || !s0.host.engine || !(s0.ctx n.val).mayFetch || !(s0.engineGrants n.val) then s0
    else
      let s1 := { s0 with host := { s0.host with fetchAt := some s0.now } }
      match desc with
      | none => s1.ctxError n.val 6
      | some d => s1.fetchDesc n.val d buf bufWriteOk)

/-- Two requests of one context. -/
def sameContext (a b : Src) : Bool :=
  match a, b with
  | .host m, .host n => m % 512 == n % 512
  | _, _ => false

/-- An earlier request of the context holds a request back: one with the same TARGET, or any under FENCE (R66). -/
def State.heldBack (s : State) (r : Req) : Bool :=
  s.host.reqs.any (fun q =>
    sameContext q.src r.src && decide (q.rid < r.rid) && (q.target == r.target || r.flags.getLsbD 1))

/-- DESCRIPTOR_RELEASE. -/
def execDescriptorRelease (t : Nat) (rid : Nat) (s : State) : Host.Outcome State Fault Refusal :=
  let s0 := s.tick t
  .next (match s0.findReq rid with
    | some r =>
      if r.phase != .waiting || s0.heldBack r then s0 else s0.updReq rid (fun q => { q with phase := .ready })
    | none => s0)

/-- IRQ_HOLDOFF_EXPIRY. -/
def execIrqHoldoffExpiry (t : Nat) (vec : Fin 64) (s : State) : Host.Outcome State Fault Refusal :=
  let s0 := s.tick t
  let v := tget s0.host.vecs vec.val {}
  .next (
    if !v.deferred || s0.now < v.last.getD 0 + s0.host.irqHoldoff * 1000 then s0
    else s0.msix vec.val)

/-! ### The PCIe link (R79, R80, R91, R92) -/

/-- PCIE_LINK_DOWN. -/
def execPcieLinkDown (t : Nat) (s : State) : Host.Outcome State Fault Refusal :=
  let s0 := s.tick t
  .next (
    if !s0.host.link then s0
    else
      let s1 := { s0 with host := { s0.host with
        link := false, speed := 0, width := 0
        ctxs := tmap (fun _ (c : Ctx) => if c.state == .active then { c with state := .stopped } else c) s0.host.ctxs } }
      if s1.hostLinkUp then s1 else { s1 with mgmt := { s1.mgmt with hostDownAt := some s1.now } })

/-- PCIE_LINK_UP: at the trained generation and width. -/
def execPcieLinkUp (t : Nat) (gen width : Nat) (s : State) : Host.Outcome State Fault Refusal :=
  let s0 := s.tick t
  .next (
    if !s0.live || s0.host.link || gen = 0 || 4 < gen || !([1, 2, 4].contains width) then s0
    else
      let was := s0.hostLinkUp
      let s1 := ({ s0 with
        host := { s0.host with link := true, speed := gen, width := width, linkEpoch := (s0.host.linkEpoch + 1) % 2 ^ 32 }
        mgmt := { s0.mgmt with hostDownAt := none } }).cause causeLink
      if !was && s1.mgmt.holder == .free && s1.mgmt.autoTake && s1.keepsHelm then s1.setHelm .host 5 else s1)

/-! ### The side-band port (R81 to R89) -/

/-- The sentry core serves the side-band port: from SUPPLY_GOOD on (R127). -/
def State.sentryUp (s : State) : Bool := s.live && !(s.modes.mode == .startup && s.modes.puStep ≤ 1)

/-- A datagram is a request: its length, MAGIC, VERSION and KIND (R84). -/
def sbAccepts (b : List Byte) : Bool :=
  b.length == 64 + rd b 0x0E 2 && rd b 0 2 == 0x4C58 && rd b 2 1 == 1 && rd b 3 1 == 0

/-- The response kept for a byte-identical critical request from the same source (R87). -/
def State.replayOf (s : State) (peer : Peer) (b : List Byte) : Option (List Byte) :=
  (s.mgmt.replay.find? (fun e => e.1 == peer && e.2.1 == b)).map (·.2.2)

/-- The fields of a side-band message, as of a descriptor (Tables 3-1, 3-2). -/
def sbDesc (b : List Byte) : Desc :=
  let n := 32 + rd b 0x0E 2
  { opcode := BitVec.ofNat 16 (rd b 4 2)
    flags := BitVec.ofNat 16 (rd b 6 2)
    tag := rdW b 8
    target := BitVec.ofNat 64 (rd b 0x10 8)
    bufLen := BitVec.ofNat 32 (rd b 0x0E 2)
    aux := rdW b 0x18
    counter := BitVec.ofNat 64 (rd b n 8)
    keySlot := BitVec.ofNat 8 (rd b (n + 8) 1)
    resv := BitVec.ofNat 56 (rd b (n + 9) 7)
    cmac := BitVec.ofNat 128 (rd b (n + 16) 16) }

/-- The sentry core takes a request in hand: a repeat gets its stored response, an overlong payload reason 5, and any other
request its checks. -/
def State.serve (s : State) (peer : Peer) (b : List Byte) : State :=
  match s.replayOf peer b with
  | some resp => s.emit (.sbResponse peer resp)
  | none =>
    let d := sbDesc b
    let n := rd b 0x0E 2
    let (rid, s1) := s.takeRid
    let pay := slice b 32 n
    let r := descReq d rid (.side peer) pay b true
    if 1024 < n then s1.respond peer r false stBad 0 5 []
    else
      let s2 := { s1 with mgmt := { s1.mgmt with sbInHand := some rid } }
      s2.check r { d := d, side := true, buf := some pay, signed := b.take (48 + n)
                   resv := rd b 0x0C 2 != 0 || rd b 0x1C 4 != 0 }

/-- An IPv6 address as a register holds it: its first octet lowest (MGMT.SB_ADDR). -/
def addrOf (octets : List Nat) : BitVec 128 := BitVec.ofNat 128 (leNat (octets.map (BitVec.ofNat 8)))

/-- The module's link-local address: fe80::/64 and the modified EUI-64 of MGMT.SB_MAC (R82). -/
def State.linkLocal (s : State) : BitVec 128 :=
  let m (i : Nat) : Nat := bits s.cfg.sbMac.toNat (8 * i) 8
  addrOf [0xFE, 0x80, 0, 0, 0, 0, 0, 0, m 0 ^^^ 2, m 1, m 2, 0xFF, 0xFE, m 3, m 4, m 5]

/-- An address is the module's: its link-local one, or the static one of MGMT.SB_ADDR, where 0 stands for none (R82). -/
def State.ownAddr (s : State) (a : BitVec 128) : Bool := a == s.linkLocal || (a == s.mgmt.sbAddr && s.mgmt.sbAddr != 0)

/-- A datagram is dropped and counted (R84, R86). -/
def State.dropDatagram (s : State) : State := { s with mgmt := { s.mgmt with sbDrops := satInc s.mgmt.sbDrops } }

/-- A UDP datagram to port 47100: dropped, answered again, carried out, or queued (R83 to R87). -/
def State.datagram (s : State) (peer : Peer) (bytes : List Byte) : State :=
  if !(sbAccepts bytes) then s.dropDatagram
  else
    match s.replayOf peer bytes with
    | some resp => s.emit (.sbResponse peer resp)
    | none =>
      if s.mgmt.sbInHand.isNone && s.mgmt.sbQueue.isEmpty then s.serve peer bytes
      else if 4 ≤ s.mgmt.sbQueue.length then s.dropDatagram
      else { s with mgmt := { s.mgmt with sbQueue := s.mgmt.sbQueue ++ [(peer, bytes)] } }

/-- SIDEBAND_DATAGRAM: an IPv6 packet reaches the port: a UDP datagram or an echo request to one of its own addresses, or a
solicitation of one; no fragment is accepted (R82; log 111). -/
def execSidebandDatagram (t : Nat) (peer : Peer) (packet : SbPacket) (s : State) : Host.Outcome State Fault Refusal :=
  let s0 := s.tick t
  .next (
    if !s0.sentryUp || packet.fragment then s0
    else match packet.content with
      | .udp port bytes => if s0.ownAddr packet.dst && port.toNat == 47100 then s0.datagram peer bytes else s0
      | .echo data => if s0.ownAddr packet.dst then s0.emit (.echoReply peer.addr packet.dst data) else s0
      | .solicit target =>
        if s0.ownAddr target then s0.emit (.neighbourAdvert peer.addr target s0.cfg.sbMac) else s0)

/-- SIDEBAND_DEQUEUE: nothing is in hand, and the oldest queued request is carried out. -/
def execSidebandDequeue (t : Nat) (s : State) : Host.Outcome State Fault Refusal :=
  let s0 := s.tick t
  .next (
    if !s0.sentryUp || s0.mgmt.sbInHand.isSome then s0
    else
      match s0.mgmt.sbQueue with
      | [] => s0
      | (peer, b) :: rest => ({ s0 with mgmt := { s0.mgmt with sbQueue := rest } }).serve peer b)

/-- SB_LINK_CHANGE: link status of the PHY, and the level in use: LOW_AMPL without negotiation, 1.0 Vpp where that alone is
advertised, else the level that negotiation settled (R81). -/
def execSbLinkChange (t : Nat) (ok lowAmpl : Bool) (s : State) : Host.Outcome State Fault Refusal :=
  let s0 := s.tick t
  let m := s0.mgmt
  .next (
    if !s0.live then s0
    else { s0 with mgmt := { m with sbLink := ok, sbAmpl := if m.anOff || m.lowAmpl then m.lowAmpl else lowAmpl } })

/-- SB_CONFIG_WRITE: the link restarts with the new settings; in RUN the write is ignored (R8, R81). -/
def execSbConfigWrite (t : Nat) (w : BitVec 32) (s : State) : Host.Outcome State Fault Refusal :=
  let s0 := s.tick t
  let m := s0.mgmt
  .next (
    if !s0.live then s0
    else if s0.modes.mode == .run then s0.ignoreWrite
    else { s0 with mgmt := { m with lowAmpl := w.getLsbD 0, anOff := w.getLsbD 1, sbLink := false
                                    sbAmpl := if w.getLsbD 0 then true else if w.getLsbD 1 then false else m.sbAmpl } })

end Sys2Proof.Machine
end

