-- ==== Sys2Proof/Machine/Regs.lean ====
section
/-! DEFINITION. Machine/Regs.lean: writes to BAR0 registers by their access codes (R8, R43, R47): counters, sticky flags,
stored configuration, backup memory and display regions. -/

namespace Sys2Proof.Machine

/-! ### W1C counters (R47, R53, R117, R314, R447, R469, R534, R556) -/

/-- Clear the counter of a TILEn block. -/
def Tile.clear (x : Tile) (o : Nat) : Tile :=
  match o with
  | 0x00C => { x with retracted := 0 }
  | 0x010 => { x with stale := 0 }
  | 0x014 => { x with linkErr := 0 }
  | _ => x

/-- Clear the counter of an STRn block. -/
def Port.clear (x : Port) (o : Nat) : Port :=
  match o with
  | 0x028 => { x with crcErr := 0 }
  | 0x02C => { x with timeouts := 0 }
  | 0x030 => { x with satResets := 0 }
  | 0x034 => { x with breaks := 0 }
  | _ => x

/-- Clear the counter of a CANn block. -/
def Can.clear (x : Can) (o : Nat) : Can :=
  match o with
  | 0x020 => { x with txOk := 0 }
  | 0x024 => { x with rxOk := 0 }
  | 0x028 => { x with exclMiss := 0 }
  | 0x02C => { x with arbDrop := 0 }
  | 0x030 => { x with errFrames := 0 }
  | 0x034 => { x with busOffs := 0 }
  | _ => x

/-- Clear the counter of the TWIN block. -/
def Twin.clear (x : Twin) (o : Nat) : Twin :=
  match o with
  | 0x00C => { x with hbMissed := 0 }
  | 0x010 => { x with mirrorMax := 0 }
  | 0x014 => { x with digestMismatch := 0 }
  | 0x018 => { x with takeovers := 0 }
  | _ => x

/-- Clear the counter of the RING block. -/
def Ring.clear (x : Ring) (o : Nat) : Ring :=
  match o with
  | 0x030 => { x with wraps := 0 }
  | 0x034 => { x with crcErr := 0 }
  | 0x038 => { x with c1Late := 0 }
  | 0x03C => { x with dupId := 0 }
  | 0x040 => { x with dropErr := 0 }
  | _ => x

/-- Clear the counter of the REC block. -/
def Recorder.clear (x : Recorder) (o : Nat) : Recorder :=
  match o with
  | 0x01C => { x with queueDrops := 0 }
  | 0x020 => { x with suppressed := 0 }
  | 0x024 => { x with badSlots := 0 }
  | 0x028 => { x with erases := 0 }
  | _ => x

/-- Clear the counter of the SEC block. -/
def Sec.clear (x : Sec) (o : Nat) : Sec :=
  match o with
  | 0x008 => { x with authFails := 0 }
  | 0x00C => { x with stale := 0 }
  | _ => x

/-- Clear the counter of the CLK block. -/
def Clk.clear (x : Clk) (o : Nat) : Clk :=
  match o with
  | 0x018 => { x with switches := 0 }
  | 0x01C => { x with gateAborts := 0 }
  | _ => x

/-- Clear the counter at a BAR0 offset, where one stands there. -/
def State.clearCounter (s : State) (off : Nat) : State :=
  let b := off / 0x1000
  let o := off % 0x1000
  if s.blockAbsent off then s
  else if b = 0x1 then (if o = 0x018 then { s with host := { s.host with doorbellDrop := 0 } } else s)
  else if b = 0x3 then { s with clk := s.clk.clear o }
  else if b = 0x4 then (if o = 0x01C then { s with pwr := { s.pwr with feedLosses := 0 } } else s)
  else if b = 0x6 then { s with sec := s.sec.clear o }
  else if b = 0x7 then (if o = 0x020 then { s with trip := { s.trip with switchFaults := 0 } } else s)
  else if b = 0x8 then { s with ring := s.ring.clear o }
  else if b = 0x9 then { s with twin := s.twin.clear o }
  else if b = 0xA then { s with recd := s.recd.clear o }
  else if b = 0xB then (if o = 0x014 then { s with dsp := { s.dsp with faults := 0 } } else s)
  else if b = 0xC then (if o = 0x01C then { s with fio := { s.fio with faiShared := 0 } } else s)
  else if b = 0xD then (if o = 0x018 then { s with mgmt := { s.mgmt with sbDrops := 0 } } else s)
  else if 0x10 ≤ b ∧ b < 0x18 then s.setChan (b - 0x10) ((s.chan (b - 0x10)).clear o)
  else if 0x20 ≤ b ∧ b < 0x30 then s.setPort (b - 0x20) ((s.port (b - 0x20)).clear o)
  else if 0x40 ≤ b ∧ b < 0x47 then s.setTile (b - 0x3F) ((s.tile (b - 0x3F)).clear o)
  else if 0x80 ≤ b ∧ b < 0x84 ∧ off % 0x40 = 0x2C then
    s.setCtx ((off - 0x80000) / 0x40) { s.ctx ((off - 0x80000) / 0x40) with drops := 0 }
  else s

/-- COUNTER_CLEAR: a write of 1 to any bit of a counter. -/
def execCounterClear (t : Nat) (off : Nat) (v : BitVec 32) (s : State) : Host.Outcome State Fault Refusal :=
  let s0 := s.tick t
  .next (if s0.live && v != 0 then s0.clearCounter off else s0)

/-! ### Backup memory (R531) -/

/-- BKUP_WRITE: the word is stored and sets BKUP_VALID, on XKP-02 and XKP-04, outside RECOVERY. -/
def execBkupWrite (t : Nat) (n : Fin 32) (v : BitVec 32) (s : State) : Host.Outcome State Fault Refusal :=
  let s0 := s.tick t
  .next (
    if !s0.live || !s0.cfg.variant.hasBkup || s0.modes.mode == .recovery then s0
    else { s0 with rtc := { s0.rtc with bkup := tset s0.rtc.bkup n.val v, bkupValid := true } })

/-! ### Display regions (R549) -/

/-- The writable bits of a region (Table 16-10). -/
def regionMask : BitVec 64 := 0xFF00FF00007FC1FF

/-- Two regions share a pixel. -/
def regionsMeet (a b : BitVec 64) : Bool :=
  0 < regW a && 0 < regH a && 0 < regW b && 0 < regH b &&
  decide (regX a < regX b + regW b) && decide (regX b < regX a + regW a) &&
  decide (regY a < regY b + regH b) && decide (regY b < regY a + regH a)

/-- A region by itself: X and WIDTH even, and, where it has pixels, within rows 8 to 63 and columns 0 to 255. -/
def regionOk (g : BitVec 64) : Bool :=
  regX g % 2 == 0 && regW g % 2 == 0 &&
  (regW g == 0 || regH g == 0 || (8 ≤ regY g && regY g + regH g ≤ 64 && regX g + regW g ≤ 256))

/-- REGION_WRITE. -/
def execRegionWrite (t : Nat) (n : Fin 16) (v : BitVec 64) (s : State) : Host.Outcome State Fault Refusal :=
  let s0 := s.tick t
  let g := v &&& regionMask
  .next (
    if !s0.live then s0
    else if regionOk g && (List.range 16).all (fun m => m == n.val || !(regionsMeet g (tget s0.dsp.regions m 0))) then
      { s0 with dsp := { s0.dsp with regions := tset s0.dsp.regions n.val g } }
    else s0.ignoreWrite)

/-! ### Stored registers, block by block. `w` is the word as the write leaves it, `c` the bits written as 1. -/

/-- A change, or an ignored write, by a range check. -/
def State.ranged (s : State) (ok : Bool) (x : State) : State := if ok then x else s.ignoreWrite

/-- HOST.EVENT_VECTOR, EVENT_CAUSE, IRQ_HOLDOFF (Table 2-2). -/
def HostIf.write (h : HostIf) (o : Nat) (w c : BitVec 32) : HostIf :=
  match o with
  | 0x008 => { h with eventVector := bits w.toNat 0 6 }
  | 0x00C => { h with eventCause := h.eventCause &&& ~~~(c.setWidth 6) }
  | 0x010 => { h with irqHoldoff := bits w.toNat 0 10 }
  | _ => h

/-- CTXn.SQ_BASE and CQ_BASE of a DISABLED context (R56). -/
def Ctx.write (x : Ctx) (o : Nat) (w : BitVec 32) : Ctx :=
  let lo (b : BitVec 64) : BitVec 64 := (b &&& 0xFFFFFFFF00000000) ||| w.setWidth 64
  let hi (b : BitVec 64) : BitVec 64 := (b &&& 0xFFFFFFFF) ||| (w.setWidth 64 <<< 32)
  if x.state != .disabled then x
  else
    match o with
    | 0x00 => { x with sqBase := lo x.sqBase }
    | 0x04 => { x with sqBase := hi x.sqBase }
    | 0x08 => { x with cqBase := lo x.cqBase }
    | 0x0C => { x with cqBase := hi x.cqBase }
    | _ => x

/-- The RWL registers of the MODE block, station-scoped (R145). -/
def State.writeMode (s : State) (o : Nat) (w : BitVec 32) : State :=
  match o with
  | 0x004 =>
    { s with modes := { s.modes with startWarm := w.getLsbD 0, startRun := w.getLsbD 1 } }.mirrorWrite 0x2004 w
  | 0x018 =>
    { s with modes := { s.modes with wakeOnAlarm := w.getLsbD 0, wakeToRun := w.getLsbD 1,
                                     wakeOnTrip := w.getLsbD 2 } }.mirrorWrite 0x2018 w
  | 0x01C =>
    let m := bits w.toNat 0 14
    s.ranged (m = 0 || (60 ≤ m && m ≤ 10080))
      ({ s with modes := { s.modes with drillMinutes := m } }.mirrorWrite 0x201C w)
  | _ => s

/-- CLK.REF_CTRL, RAMP_DWELL, FLAGS (R534). -/
def State.writeClk (s : State) (o : Nat) (w c : BitVec 32) : State :=
  match o with
  | 0x004 => { s with clk := { s.clk with refCtrl := w.setWidth 2 } }.mirrorWrite 0x3004 w
  | 0x008 =>
    let d := bits w.toNat 0 6
    s.ranged (1 ≤ d && d ≤ 32) ({ s with clk := { s.clk with dwell := d } }.mirrorWrite 0x3008 w)
  | 0x010 => { s with clk := { s.clk with forced := s.clk.forced && !(c.getLsbD 1), failed := s.clk.failed && !(c.getLsbD 0) } }
  | _ => s

/-- RTC.STATUS flags (Table 15-10). -/
def Rtc.writeFlags (r : Rtc) (c : BitVec 32) : Rtc :=
  { r with
    wakeTimeout := r.wakeTimeout && !(c.getLsbD 5)
    alarm := r.alarm && !(c.getLsbD 3)
    backupLost := r.backupLost && !(c.getLsbD 1) }

/-- The registers of the ring configuration as written: kept whatever their value (R424, R447). -/
def State.writeRing (s : State) (o : Nat) (w : BitVec 32) : State :=
  let r := s.ring
  let c := r.written
  let put (x : RingCfg) : State := { s with ring := { r with written := x } }.mirrorWrite (0x8000 + o) w
  match o with
  | 0x004 => { s with ring := { r with node := w &&& 0x00FF1FFF } }
  | 0x008 => put { c with cycle := w &&& 0x03FF03FF }
  | 0x00C => put { c with config := w &&& 0xFFFF0F7F }
  | 0x010 => s.ringApply w
  | _ =>
    if 0x400 ≤ o ∧ o < 0x600 then
      (if o % 8 = 0 then put { c with drops := tset c.drops ((o - 0x400) / 8) (w &&& 0x00FFFF03) } else s)
    else if 0x800 ≤ o ∧ o < 0x1000 then
      let i := o % 32 / 4
      let v : BitVec 32 := if i = 1 then w &&& 0xFF else if i = 7 then 0 else w
      let n := (o - 0x800) / 32
      let old := tget c.slots n []
      let ws := (List.range 8).map (fun k => if k = i then v else old.getD k 0)
      put { c with slots := tset c.slots n ws }
    else s

/-- DSP.GREYg and BAND_SCALE words (R556). -/
def Panel.write (d : Panel) (o : Nat) (w : BitVec 32) : Panel :=
  let b (i : Nat) : BitVec 8 := BitVec.ofNat 8 (bits w.toNat (8 * i) 8)
  if 0x020 ≤ o ∧ o < 0x030 then
    { d with grey := (List.range 4).foldl (fun (t : Tab (BitVec 8)) i => tset t (o - 0x020 + i) (b i)) d.grey }
  else if 0x030 ≤ o ∧ o < 0x038 then
    { d with scale := (List.range 4).foldl (fun (t : Tab (BitVec 8)) i => tset t (o - 0x030 + i) (b i)) d.scale }
  else d

/-- The limits that 7 bytes spell, where they rise (R556). -/
def limitsOf (b : List Byte) : Option (List Int) :=
  let l := (b.take 7).map BitVec.toInt
  if (List.range 6).all (fun i => decide (l.getD i 0 < l.getD (i + 1) 0)) then some l else none

/-- MGMT's RWL registers (R117). -/
def State.writeMgmt (s : State) (o : Nat) (w : BitVec 32) : State :=
  let m := s.mgmt
  match o with
  | 0x004 =>
    let v := bits w.toNat 0 10
    s.ranged (1 ≤ v && v ≤ 600) { s with mgmt := { m with helmTimeout := v } }
  | 0x008 => { s with mgmt := { m with autoTake := w.getLsbD 0 } }
  | 0x00C =>
    let v := bits w.toNat 0 12
    s.ranged (10 ≤ v && v ≤ 3600) { s with mgmt := { m with sbIdle := v } }
  | 0x040 => { s with mgmt := { m with sbPrefix := bits w.toNat 0 8 } }
  | _ =>
    if 0x030 ≤ o ∧ o < 0x040 then
      let p := 8 * (o - 0x030)
      { s with mgmt := { m with
        sbAddr := (m.sbAddr &&& ~~~((0xFFFFFFFF : BitVec 128) <<< p)) ||| (w.setWidth 128 <<< p) } }
    else s

/-- STRn.HB_PERIOD: 10 to 500 ms, and at most a quarter of the port's COMM_TIMEOUT (R314). -/
def State.writeStr (s : State) (n o : Nat) (w : BitVec 32) : State :=
  let v := bits w.toNat 0 10
  let quarter : Bool := match s.portPlan n with | some p => 4 * v ≤ rd p.cfg 0 2 | none => true
  if o = 0x024 then s.ranged (10 ≤ v && v ≤ 500 && quarter) (s.setPort n { s.port n with hbPeriod := v }) else s

/-- TILEn.POWER: 3 is ignored; OFF on a tile with work is ignored and recorded (Table 1-13, R46). -/
def State.writeTile (s : State) (n o : Nat) (w : BitVec 32) : State :=
  let p := bits w.toNat 0 2
  if o ≠ 0x004 || p = 3 then s
  else s.ranged (!(p == 2 && s.tileLoaded n)) (s.setTile n { s.tile n with policy := p })

/-- CANn timing: ignored with event 0x0B0B while the channel is enabled (R452). -/
def State.writeCan (s : State) (n o : Nat) (w : BitVec 32) : State :=
  let c := s.chan n
  let put (x : Can) : State :=
    if c.enabled then s.event 0x0B0B [n] else (s.setChan n x).mirrorWrite (canOff n o) w
  match o with
  | 0x004 => s.canCtrl n w
  | 0x008 => put { c with nbt := w &&& 0x3FFFFFFF }
  | 0x00C => put { c with dbt := w &&& 0x007FFFFF }
  | 0x010 => put { c with tdc := w &&& 0xFF00 }
  | _ => s

/-! ### FIO configuration (R473, Table 14-8) -/

/-- A current loop takes another ROLE or RATE: it starts its conversions again, without data; another ROLE ends what the
old one found (R480). -/
def Cl.setCtrl (c : Cl) (w : BitVec 32) (mt : Nat) (hz : Bool) : Cl :=
  let role := bits w.toNat 0 2
  let sameRole := role == bits c.ctrl.toNat 0 2
  let sameRate := bits w.toNat 4 2 == bits c.ctrl.toNat 4 2
  let c1 := { c with ctrl := w }
  let c2 : Cl := if sameRole && sameRate then c1
    else { c1 with startMt := mt, noData := role == 1 || (role != 0 && !sameRate), ma := 0, value := 0, band := 0, raws := [], burdenHz := some hz }
  if sameRole then c2
  else { c2 with compl := false, open_ := false, diffSince := none, agreeSince := none, openSince := none, committed := false }

/-- WD_TIME and SAFE of a digital or fast analogue output. -/
def outCfgOk (w : BitVec 32) : Bool :=
  let t := bits w.toNat 16 10
  1 ≤ t && t ≤ 1000 && bits w.toNat 0 2 != 3

/-- CL_CTRLn: CHAR 3 is reserved; WD_TIME counts for output roles. -/
def clCtrlOk (w : BitVec 32) : Bool :=
  let t := bits w.toNat 16 10
  t ≤ 1000 && (1 ≤ t || bits w.toNat 0 2 < 2) && bits w.toNat 2 2 != 3

def clCompOk (w : BitVec 32) : Bool :=
  let tol := bits w.toNat 16 16
  let ms := bits w.toNat 0 16
  1 ≤ tol && tol ≤ 1000 && 1 ≤ ms && ms ≤ 60000

def piCfgOk (w : BitVec 32) : Bool :=
  let stall := bits w.toNat 16 16
  1 ≤ stall && stall ≤ 60000 && bits w.toNat 2 3 ≤ 4 && bits w.toNat 0 2 ≤ 1

/-- A change within its range, or none. -/
def inRange (ok : Bool) (x : State) : Option State := if ok then some x else none

/-- A current loop's CTRL, LO, HI and COMP. -/
def State.clReg (s : State) (n o : Nat) (w : BitVec 32) : Option State :=
  let c := s.cl n
  match o with
  | 0x0 =>
    let v := w &&& 0x03FF00FF
    inRange (clCtrlOk v) (s.holdOuts.setCl n ((s.holdOuts.cl n).setCtrl v s.mt (s.highZ || (s.cl n).miswire)))
  | 0x4 => some (s.setCl n { c with lo := w })
  | 0x8 => some (s.setCl n { c with hi := w })
  | _ => inRange (clCompOk w) (s.setCl n { c with comp := w })

/-- A register of the FIO configuration takes its value; none where it is out of range. -/
def State.fioReg (s : State) (o : Nat) (w : BitVec 32) : Option State :=
  if 0x100 ≤ o ∧ o < 0x180 then
    let n := (o - 0x100) / 4
    let v := bits w.toNat 0 16
    inRange (1 ≤ v) (s.setDi n { s.di n with debounce := v })
  else if 0x180 ≤ o ∧ o < 0x1C0 then
    let n := (o - 0x180) / 4
    let v := w &&& 0x03FF0003
    inRange (outCfgOk v) (s.holdOuts.setDo n { s.holdOuts.do_ n with cfg := v })
  else if 0x1C0 ≤ o ∧ o < 0x240 then s.clReg ((o - 0x1C0) / 16) (o % 16) w
  else if 0x2A0 ≤ o ∧ o < 0x2C0 then
    let n := (o - 0x2A0) / 8
    let v := w &&& 0x03FF0003
    let h := s.holdOuts
    if o % 8 = 0 then inRange (outCfgOk v) (h.setFao n { h.fao n with cfg := v })
    else some (h.setFao n { h.fao n with safeV := w })
  else if 0x2C0 ≤ o ∧ o < 0x2E0 then
    let n := (o - 0x2C0) / 8
    let p := s.pulse n
    let v := w &&& 0xFFFF003F
    if o % 8 = 0 then
      inRange (piCfgOk v) (s.setPulse n { p with cfg := v, lineFault := if bits v.toNat 0 2 = 0 then p.lineFault else 0 })
    else inRange (10 ≤ w.toNat && w.toNat ≤ 100000) (s.setPulse n { p with window := w.toNat })
  else if 0x800 ≤ o ∧ o < 0xC00 then
    let n := (o - 0x800) / 0x80
    let c := s.cl n
    some (s.setCl n { c with table := tset c.table (o % 0x80 / 4) w })
  else
    some { s with fio := { s.fio with
      wbEn := w, di := tmap (fun n (d : Di) => { d with wb := d.wb && w.getLsbD n }) s.fio.di } }

/-- Offsets of the FIO configuration: trim values are no part of it. -/
def fioConfig (o : Nat) : Bool :=
  o == 0x00C || (0x100 ≤ o && o < 0x240) || (0x2A0 ≤ o && o < 0x2E0) || (0x800 ≤ o && o < 0xC00)

/-- A write of the FIO configuration, which the lead copies where it takes effect (R473). -/
def State.writeFio (s : State) (o : Nat) (w : BitVec 32) : State :=
  if !(fioConfig o) then s
  else
    match s.fioReg o w with
    | some s1 => s1.mirrorWrite (0xC000 + o) w
    | none => s.ignoreWrite

/-! ### A write of BAR0 (R8, R43) -/

/-- A register that is written only outside RUN, where it stands (R8). CANn.CTRL has a bit that RUN allows. -/
def State.rwl (s : State) (off : Nat) : Bool :=
  let b := off / 0x1000
  let o := off % 0x1000
  !(s.blockAbsent off) && (
    (b == 0x2 && [0x004, 0x018, 0x01C].contains o) ||
    (b == 0x3 && [0x004, 0x008].contains o) ||
    (b == 0x8 && ([0x004, 0x008, 0x00C].contains o || (0x400 ≤ o && o < 0x600 && o % 8 == 0) || 0x800 ≤ o)) ||
    (b == 0xB && 0x020 ≤ o && o < 0x040) ||
    (b == 0xC && fioConfig o) ||
    (b == 0xD && ([0x004, 0x008, 0x00C, 0x014, 0x040].contains o || (0x030 ≤ o && o < 0x040))) ||
    (0x10 ≤ b && b < 0x18 && [0x008, 0x00C, 0x010].contains o) ||
    (0x20 ≤ b && b < 0x30 && o == 0x024) ||
    (0x40 ≤ b && b < 0x47 && o == 0x004))

/-- One aligned word of a write reaches its register. -/
def State.writeWord (s : State) (off : Nat) (w c : BitVec 32) : State :=
  let b := off / 0x1000
  let o := off % 0x1000
  if s.blockAbsent off then s
  else if b = 0x1 then { s with host := s.host.write o w c }
  else if b = 0x2 then s.writeMode o w
  else if b = 0x3 then s.writeClk o w c
  else if b = 0x4 then (if o = 0x018 then { s with pwr := { s.pwr with flags := s.pwr.flags &&& ~~~(c.setWidth 4) } } else s)
  else if b = 0x5 then (if o = 0x01C then { s with rtc := s.rtc.writeFlags c } else s)
  else if b = 0x7 then (if o = 0x010 then { s with trip := { s.trip with srcSeen := s.trip.srcSeen &&& ~~~c } } else s)
  else if b = 0x8 then s.writeRing o w
  else if b = 0xB then { s with dsp := s.dsp.write o w }
  else if b = 0xC then s.writeFio o w
  else if b = 0xD then s.writeMgmt o w
  else if 0x10 ≤ b ∧ b < 0x18 then s.writeCan (b - 0x10) o w
  else if 0x20 ≤ b ∧ b < 0x30 then s.writeStr (b - 0x20) o w
  else if 0x40 ≤ b ∧ b < 0x47 then s.writeTile (b - 0x3F) o w
  else if 0x80 ≤ b ∧ b < 0x84 then
    s.setCtx ((off - 0x80000) / 0x40) ((s.ctx ((off - 0x80000) / 0x40)).write (off % 0x40) w)
  else s

/-- The aligned words that a write of `size` bytes at an offset touches: offset, bits written as 1, and which bits it
writes. -/
def wordsOf (off size : Nat) (v : BitVec 64) : List (Nat × BitVec 32 × BitVec 32) :=
  let p := 8 * (off % 4)
  let val := v.toNat % 2 ^ (8 * size) * 2 ^ p
  let en := (2 ^ (8 * size) - 1) * 2 ^ p
  (List.range (ceilDiv (off % 4 + size) 4)).map (fun k =>
    (off / 4 * 4 + 4 * k, BitVec.ofNat 32 (bits val (32 * k) 32), BitVec.ofNat 32 (bits en (32 * k) 32)))

/-- Bytes that a write does not carry keep their value. -/
def State.merged (s : State) (off : Nat) (c en : BitVec 32) : BitVec 32 :=
  (BitVec.ofNat 32 (s.regWord off) &&& ~~~en) ||| c

/-- A write that touches BAND_LIMITS is judged whole: its bytes over those that stand there (R556). -/
def State.writeLimits (s : State) (ws : List (Nat × BitVec 32 × BitVec 32)) : State :=
  let word (a : Nat) : BitVec 32 := match ws.find? (fun e => e.1 == a) with
    | some (_, c, en) => s.merged a c en
    | none => BitVec.ofNat 32 (s.regWord a)
  match limitsOf (u32 (word 0xB038).toNat ++ u32 (word 0xB03C).toNat) with
  | some l => { s with dsp := { s.dsp with limits := l } }
  | none => s.ignoreWrite

/-- A write of BAR0: RWL registers are left alone in RUN, which is recorded once; every other word reaches its register. -/
def State.writeBar (s : State) (off size : Nat) (v : BitVec 64) : State :=
  let ws := wordsOf off size v
  let run := s.modes.mode == .run
  let s1 := if run && ws.any (fun e => s.rwl e.1) then s.ignoreWrite else s
  let s2 := ws.foldl (fun (st : State) e =>
    if run && s.rwl e.1 then st
    else
      let x := st.writeWord e.1 (st.merged e.1 e.2.1 e.2.2) e.2.1
      if e.2.1 != 0 then x.clearCounter e.1 else x) s1
  if !run && ws.any (fun e => e.1 == 0xB038 || e.1 == 0xB03C) then s2.writeLimits ws else s2

/-- An offset whose writes are commands of their own: CTXn.CONFIG, MGMT.SB_CONFIG, RING.CTRL, CANn.CTRL, backup
memory and regions. -/
def ownRow (off : Nat) : Bool :=
  let b := off / 0x1000
  let o := off % 0x1000
  (0x80 ≤ b && b < 0x84 && off % 0x40 == 0x10) || off == 0xD014 || off == 0x8010 ||
  (0x10 ≤ b && b < 0x18 && o == 0x004) || (b == 0x5 && 0x080 ≤ o && o < 0x100) || (b == 0xB && 0x100 ≤ o && o < 0x180)

/-- REGISTER_WRITE: a write of 1 to 8 bytes to any register whose write is no command of its own. -/
def execRegisterWrite (t : Nat) (off size : Nat) (v : BitVec 64) (s : State) : Host.Outcome State Fault Refusal :=
  let s0 := s.tick t
  .next (
    if !s0.live || size = 0 || 8 < size || (wordsOf off size v).any (fun e => ownRow e.1) then s0
    else s0.writeBar off size v)

end Sys2Proof.Machine
end

