-- ==== Sys2Proof/Machine/Mirror.lean ====
section
/-! DEFINITION. Machine/Mirror.lean: what a module of a pair does with an item that its partner mirrored to it
(10_station_pair.md). -/

namespace Sys2Proof.Machine

/-! ### Acquired values (R356) -/

/-- A loop sample that the lead latched; clamps and the tracked set-point are this module's own, which are equal. -/
def State.mirrorSample (s : State) (h mt : Nat) (y s2 sp : F) (lost spLost sat : Bool) : State :=
  match s.loop h with
  | none => s
  | some l =>
    let (dyn, bad) := s.clampOf mt l
    let track : Option F := if srcKind l.lrec.dest = 6 then
        (match s.loop (srcRef l.lrec.dest) with | some q => if q.mode = 2 then none else some q.sp | none => none)
      else none
    s.takeSample h { mt := mt, y := y, s2 := s2, lost := lost, sp := sp, spLost := spLost, destSat := sat, dyn := dyn
                     dynBad := bad, track := track }

/-- A ring frame that the lead accepted. -/
def State.mirrorFrame (s : State) (f : RingFrame) : State :=
  match f.kind with
  | 1 => s.useData f
  | 2 => s.useBlock f
  | 3 => s.useDrop f
  | 5 => s.useTrip f
  | 6 => if s.followsSync f then s.hearMaster f else s
  | _ => s

/-- The frame at the head of a channel's CAN_SEND queue has been sent by the lead (R466). -/
def State.mirrorSent (s : State) (ch : Nat) : State :=
  let c := s.chan ch
  match c.queue with
  | [] => s
  | j :: rest =>
    let s1 := s.setChan ch { c with queue := rest }
    match s1.findReq j.rid with
    | some r => s1.complete r stOk
    | none => s1

/-! ### Station-scoped commands (R359) -/

/-- The state that a command leaves. -/
def stateOf (o : Host.Outcome State Fault Refusal) (s : State) : State :=
  match o with | .next x => x | _ => s

/-- Step 9 of a station-scoped opcode that the lead accepted. -/
def State.carryOut (s : State) (op rid : Nat) : State :=
  let o : Host.Outcome State Fault Refusal := match op with
    | 0x0101 => execModeSet rid s
    | 0x0102 => execRestart rid s
    | 0x0103 => execEquinox rid s
    | 0x0104 => execDrillNow rid s
    | 0x0105 => execDetach rid s
    | 0x0201 => execProgLoad rid s
    | 0x0202 => execProgExchange rid s
    | 0x0203 => execOnlineChange rid s
    | 0x0204 => execForceSet rid s
    | 0x0205 => execForceRelease rid s
    | 0x0300 => execLoopAdmit rid s
    | 0x0301 => execLoopParam rid s
    | 0x0302 => execLoopMode rid s
    | 0x0400 => execCellPlan rid s
    | 0x0401 => execChemLoad rid s
    | 0x0402 => execStrEnum rid s
    | 0x0403 => execBalPlan rid s
    | 0x0404 => execContactorPlan rid s
    | 0x0405 => execProbeSweep rid s
    | 0x0503 => execCanSchedule rid s
    | 0x0504 => execCanSend rid s
    | 0x0701 => execTimeSet rid s
    | 0x0702 => execRtcAlarm rid s
    | 0x0803 => execKeyLoad rid s
    | _ => .next s
  stateOf o s

/-- The request that stands for a mirrored command: no context waits for it, and it has passed its checks at the lead. Two
commands carry what the change log names: MODE_SET the party in TARGET, KEY_LOAD the key slot and party in AUX and the
counter after the buffer. -/
def mirrorReqOf (rid op mt : Nat) (target : BitVec 64) (aux : BitVec 32) (buf : List Byte) : Req :=
  let side : Nat := if op = 0x0101 then target.toNat else if op = 0x0803 then bits aux.toNat 8 8 else 0
  { rid := rid, src := .host (if side = 1 then 257 else 256), opcode := op, target := if op = 0x0101 then 0 else target
    aux := if op = 0x0803 then 0 else aux
    keySlot := if op = 0x0803 then bits aux.toNat 0 8 else 0
    counter := if op = 0x0803 then BitVec.ofNat 64 (rd buf 32 8) else 0
    buf := if op = 0x0803 then buf.take 32 else buf, phase := .ready, acc := mt }

/-- A mirrored command takes effect in the follower. -/
def State.mirrorCommand (s : State) (op mt : Nat) (target : BitVec 64) (aux : BitVec 32) (buf : List Byte) : State :=
  let (rid, s1) := s.takeRid
  let r := mirrorReqOf rid op mt target aux buf
  ({ s1 with host := { s1.host with reqs := s1.host.reqs ++ [r] } }).carryOut op rid

/-- The partner asks for HOLD, or for a wake, which the lead carries out for both modules (R140, R164). -/
def State.mirrorMode (s : State) (mode cause task : Nat) : State :=
  if s.modes.mode == .dormant then
    if s.leadsPair then s.wake cause
    else if s.modes.trans.isSome then s
    else if mode = 3 then s.startRestart true none cause
    else s.enterHold cause 0
  else if mode = 4 then s.faultHold cause task
  else s

def holderOf : Nat → Holder
  | 0 => .host | 1 => .sideband | _ => .free

/-! ### The state image (R385) -/

/-- The number of a request of another module: no request here has it. -/
def foreignRid : Nat := 2 ^ 64

/-- Work in progress in a state image names requests of the lead, which are none of this module's. -/
def StateImage.foreign (x : StateImage) : StateImage :=
  let oc (o : OcSet) : OcSet := { o with rid := foreignRid }
  { x with
    prog := { x.prog with running := x.prog.running.map oc, waiting := x.prog.waiting.map oc }
    loops := { x.loops with loops := tmap (fun _ (l : Loop) => { l with
      modeReqs := l.modeReqs.map (fun e => (foreignRid, e.2))
      parRun := l.parRun.map (fun e => (foreignRid, e.2))
      parWait := l.parWait.map (fun e => (foreignRid, e.2)) }) x.loops.loops }
    cells := { x.cells with contWait := x.cells.contWait.map (fun e => (foreignRid, e.2)) } }

/-- The joining module takes the lead's state; slot 0 keeps its own key. -/
def State.install (s : State) (image : StateImage) : State :=
  let x := image.foreign
  let s1 := { s with
    ports := tmap (fun n (p : Port) => (s.port n).joined p foreignRid) x.ports
    prog := { x.prog with storing := s.prog.storing }
    loops := x.loops
    cells := x.cells
    sec := { s.sec with slots := (0, s.keySlot 0) :: x.slots.filter (fun e => e.1 != 0), verifier := x.verifier }
    mgmt := { s.mgmt with holder := x.holder, lastCause := x.helmCause }
    modes := { s.modes with
      startRun := x.startRun, startWarm := x.startWarm, wakeOnAlarm := bit x.dormantCtrl 0, wakeToRun := bit x.dormantCtrl 1
      wakeOnTrip := bit x.dormantCtrl 2, drillMinutes := x.drillMinutes } }
  s1.judgeAll

/-- A state image reaches a module that joins: it is SYNCING, or REJOIN admitted it while it was detached, which ends its
MAINTENANCE (R384, R385, Table 4-4). -/
def State.mirrorState (s : State) (x : StateImage) : State :=
  if s.modes.role == .syncing then s.install x
  else if s.follows && x.joinAt.isSome then (s.install x).joinTasks (x.joinAt.getD 0)
  else if s.modes.detached && s.modes.role != .yielded && s.modes.trans.isNone then
    let s1 := { s with
      modes := { s.modes with detached := false, partner := true }
      twin := { s.twin with syncActive := true, syncPhase := 1, syncRefuse := 0, syncPercent := 0, lost := false } }
    ((s1.toHoldMode).toRole .syncing).install x
  else s

/-- The follower's module time is its lead's; a step of more than 1 us ends its sweeps as the lead's (R429, R519, R521). -/
def State.mirrorTime (s : State) (mt : Nat) : State :=
  let far : Bool := mt + 1000 < s.mt || s.mt + 1000 < mt
  let s := if far then s.stepSweeps else s
  ({ s with mtOff := (mt : Int) - s.now, slew := none, clk := { s.clk with slewing := false } }).timeValid

/-! ### MIRROR_RECEIVE -/

/-- The instant that the lead chose for a change of mode under way: the hold instant of MODE_SET HOLD (0x0101), the restart
instant (0x0102) (R120, R133). -/
def State.mirrorInstant (s : State) (op mt : Nat) : State :=
  match op, s.modes.trans with
  | 0x0101, some (.toHold c k r _) => { s with modes := { s.modes with trans := some (.toHold c k r (some mt)) } }
  | 0x0102, _ => { s with modes := { s.modes with leadRestart := some mt } }
  | 0x0106, _ => if s.modes.role == .syncing && s.twin.syncActive then s.joinPlanned mt else s
  | 0x0202, _ => s.exchangeAt mt
  | 0x8010, _ => { s with ring := { s.ring with pendingApply := s.ring.pendingApply.map (fun x => (mt + 1000000, x.2)) } }
  | _, _ => s

/-- An item is used: a self-test's start by the lead, counters, the helm and requests for HOLD by either module of a pair, the far end's blocks and replies by the lead,
a state image by a module that joins, every other item by a follower. -/
def State.mirrorUse (s : State) (m : Mirror) : State :=
  match m with
  | .state x => s.mirrorState x
  | .counter n v side =>
    if s.mirrorsCounters then
      let s1 := s.setKeySlot n { s.keySlot n with counter := v }
      if side then { s1 with mgmt := { s1.mgmt with lastSbAuth := s1.now } } else s1
    else s
  | .helm h c => if s.leadsPair || s.follows then s.helmHere (holderOf h) c else s
  | .modeChange mode cause task => if s.leadsPair || s.follows then s.mirrorMode mode cause task else s
  | .block n endB b =>
    if s.leadsPair then (s.emit (.mirror (.block n endB b))).useChainBlock n endB b
    else if s.follows then s.useChainBlock n endB b
    else s
  | .taskImage n k mt b =>
    if s.follows then s.setTask n { s.task n with mirrored := some (k, mwrite [] 0 b), mirrorLat := s.mt - mt } else s
  | .loopSample h mt y s2 sp lost spLost sat => if s.follows then s.mirrorSample h mt y s2 sp lost spLost sat else s
  | .regWrite off v => if s.follows then s.writeWord off v 0 else s
  | .request op mt target aux buf => if s.follows then s.mirrorCommand op mt target aux buf else s
  | .current n mt a lost => if s.follows then s.latchCurrent n mt a lost else s
  | .canFrame ch mt f own => if s.follows then s.canDeliver ch mt f own else s
  | .ringFrame f => if s.follows then s.mirrorFrame f else s
  | .canSent ch => if s.follows then s.mirrorSent ch else s
  | .time mt => if s.follows then s.mirrorTime mt else s
  | .instant op mt => if s.follows || s.modes.role == .syncing then s.mirrorInstant op mt else s
  | .chainSend n endB b => if s.follows then s.sendTold n endB b else s
  | .chainIn n endB rtt b => if s.leadsPair then s.chainIn n endB rtt b else s
  | .port n p => if s.follows then s.followPort n p else s
  | .contTick mt ins => if s.follows then s.contTold mt ins else s
  | .contStates ks => if s.follows then s.toldConts ks else s
  | .selfTest => if s.leadsPair then { s with twin := { s.twin with selfTest := some s.now } } else s

/-- MIRROR_RECEIVE: the item is used and acknowledged; TWIN.MIRROR_MAX keeps the largest latency, `latency` in ns. -/
def execMirrorReceive (t : Nat) (m : Mirror) (latency : Nat) (s : State) : Host.Outcome State Fault Refusal :=
  let s0 := s.tick t
  .next (
    if !s0.live || !s0.twinUp then s0
    else
      let g := s0.goodFrame
      let s1 := { g with twin := { g.twin with mirrorMax := max g.twin.mirrorMax (min (ceilDiv latency 10) 0xFFFFFFFF) } }
      (s1.mirrorUse m).emit .ack)

end Sys2Proof.Machine
end

