-- ==== Sys2Proof/Machine/Dispatch.lean ====
section
/-! DEFINITION. Machine/Dispatch.lean: one arm per command, each one call of its meaning. -/

namespace Sys2Proof.Machine

def exec (i : Instr) (s : State) : Host.Outcome State Fault Refusal :=
  match i with
  | .ctxEnable t n w memFailAt => Sys2Proof.Machine.execCtxEnable t n w memFailAt s
  | .ctxDisable t n w => Sys2Proof.Machine.execCtxDisable t n w s
  | .submissionDoorbell t off size v => Sys2Proof.Machine.execSubmissionDoorbell t off size v s
  | .completionDoorbell t off size v => Sys2Proof.Machine.execCompletionDoorbell t off size v s
  | .descriptorFetch t n desc buf bufWriteOk => Sys2Proof.Machine.execDescriptorFetch t n desc buf bufWriteOk s
  | .descriptorRelease t rid => Sys2Proof.Machine.execDescriptorRelease t rid s
  | .irqHoldoffExpiry t vec => Sys2Proof.Machine.execIrqHoldoffExpiry t vec s
  | .pcieLinkDown t => Sys2Proof.Machine.execPcieLinkDown t s
  | .pcieLinkUp t gen width => Sys2Proof.Machine.execPcieLinkUp t gen width s
  | .modeStatus rid => Sys2Proof.Machine.execModeStatus rid s
  | .modeSet rid => Sys2Proof.Machine.execModeSet rid s
  | .restart rid => Sys2Proof.Machine.execRestart rid s
  | .equinox rid => Sys2Proof.Machine.execEquinox rid s
  | .drillNow rid => Sys2Proof.Machine.execDrillNow rid s
  | .detach rid => Sys2Proof.Machine.execDetach rid s
  | .rejoin rid => Sys2Proof.Machine.execRejoin rid s
  | .tilePower rid => Sys2Proof.Machine.execTilePower rid s
  | .tileReset rid => Sys2Proof.Machine.execTileReset rid s
  | .drainEnd t die outstanding => Sys2Proof.Machine.execDrainEnd t die outstanding s
  | .staleReply t die epoch => Sys2Proof.Machine.execStaleReply t die epoch s
  | .progInfo rid => Sys2Proof.Machine.execProgInfo rid s
  | .progLoad rid => Sys2Proof.Machine.execProgLoad rid s
  | .progExchange rid => Sys2Proof.Machine.execProgExchange rid s
  | .onlineChange rid => Sys2Proof.Machine.execOnlineChange rid s
  | .forceSet rid => Sys2Proof.Machine.execForceSet rid s
  | .forceRelease rid => Sys2Proof.Machine.execForceRelease rid s
  | .forceList rid => Sys2Proof.Machine.execForceList rid s
  | .varRead rid => Sys2Proof.Machine.execVarRead rid s
  | .varSubscribe rid handle => Sys2Proof.Machine.execVarSubscribe rid handle s
  | .subCancel rid => Sys2Proof.Machine.execSubCancel rid s
  | .taskStatus rid => Sys2Proof.Machine.execTaskStatus rid s
  | .loopAdmit rid => Sys2Proof.Machine.execLoopAdmit rid s
  | .loopParam rid => Sys2Proof.Machine.execLoopParam rid s
  | .loopMode rid => Sys2Proof.Machine.execLoopMode rid s
  | .loopRead rid => Sys2Proof.Machine.execLoopRead rid s
  | .loopSubscribe rid handle => Sys2Proof.Machine.execLoopSubscribe rid handle s
  | .cellPlan rid => Sys2Proof.Machine.execCellPlan rid s
  | .chemLoad rid => Sys2Proof.Machine.execChemLoad rid s
  | .strEnum rid => Sys2Proof.Machine.execStrEnum rid s
  | .balPlan rid => Sys2Proof.Machine.execBalPlan rid s
  | .contactorPlan rid => Sys2Proof.Machine.execContactorPlan rid s
  | .probeSweep rid => Sys2Proof.Machine.execProbeSweep rid s
  | .cellSubscribe rid handle => Sys2Proof.Machine.execCellSubscribe rid handle s
  | .cellRead rid => Sys2Proof.Machine.execCellRead rid s
  | .ringStatus rid => Sys2Proof.Machine.execRingStatus rid s
  | .bypassForce rid => Sys2Proof.Machine.execBypassForce rid s
  | .dropSubscribe rid handle => Sys2Proof.Machine.execDropSubscribe rid handle s
  | .canSchedule rid => Sys2Proof.Machine.execCanSchedule rid s
  | .canSend rid => Sys2Proof.Machine.execCanSend rid s
  | .canSubscribe rid handle => Sys2Proof.Machine.execCanSubscribe rid handle s
  | .recRead rid => Sys2Proof.Machine.execRecRead rid s
  | .recSubscribe rid handle => Sys2Proof.Machine.execRecSubscribe rid handle s
  | .recConfig rid => Sys2Proof.Machine.execRecConfig rid s
  | .timeRead rid => Sys2Proof.Machine.execTimeRead rid s
  | .timeSet rid => Sys2Proof.Machine.execTimeSet rid s
  | .rtcAlarm rid => Sys2Proof.Machine.execRtcAlarm rid s
  | .helmStatus rid => Sys2Proof.Machine.execHelmStatus rid s
  | .helmRelease rid => Sys2Proof.Machine.execHelmRelease rid s
  | .helmTake rid => Sys2Proof.Machine.execHelmTake rid s
  | .helmSeize rid => Sys2Proof.Machine.execHelmSeize rid s
  | .keyLoad rid => Sys2Proof.Machine.execKeyLoad rid s
  | .keyErase rid => Sys2Proof.Machine.execKeyErase rid s
  | .counterRead rid => Sys2Proof.Machine.execCounterRead rid s
  | .pwdLogin rid => Sys2Proof.Machine.execPwdLogin rid s
  | .pwdLogout rid => Sys2Proof.Machine.execPwdLogout rid s
  | .pwdSet rid => Sys2Proof.Machine.execPwdSet rid s
  | .tripConfig rid => Sys2Proof.Machine.execTripConfig rid s
  | .safetyConfig rid => Sys2Proof.Machine.execSafetyConfig rid s
  | .tripReset rid high low => Sys2Proof.Machine.execTripReset rid high low s
  | .tripStatus rid => Sys2Proof.Machine.execTripStatus rid s
  | .safetyStatus rid => Sys2Proof.Machine.execSafetyStatus rid s
  | .fwInfo rid => Sys2Proof.Machine.execFwInfo rid s
  | .fwWrite rid => Sys2Proof.Machine.execFwWrite rid s
  | .fwActivate rid => Sys2Proof.Machine.execFwActivate rid s
  | .dspWrite rid => Sys2Proof.Machine.execDspWrite rid s
  | .dspStatus rid => Sys2Proof.Machine.execDspStatus rid s
  | .fioRead rid => Sys2Proof.Machine.execFioRead rid s
  | .fioSubscribe rid handle => Sys2Proof.Machine.execFioSubscribe rid handle s
  | .fioTest rid => Sys2Proof.Machine.execFioTest rid s
  | .fioTrim rid => Sys2Proof.Machine.execFioTrim rid s
  | .sidebandDatagram t peer packet => Sys2Proof.Machine.execSidebandDatagram t peer packet s
  | .sidebandDequeue t => Sys2Proof.Machine.execSidebandDequeue t s
  | .sbLinkChange t ok lowAmpl => Sys2Proof.Machine.execSbLinkChange t ok lowAmpl s
  | .sbConfigWrite t w => Sys2Proof.Machine.execSbConfigWrite t w s
  | .helmTimeout t => Sys2Proof.Machine.execHelmTimeout t s
  | .sbIdle t => Sys2Proof.Machine.execSbIdle t s
  | .mirrorTimeout t => Sys2Proof.Machine.execMirrorTimeout t s
  | .presenceWindow t => Sys2Proof.Machine.execPresenceWindow t s
  | .presenceWindowEnd t => Sys2Proof.Machine.execPresenceWindowEnd t s
  | .sessionTimeout t => Sys2Proof.Machine.execSessionTimeout t s
  | .lockoutEnd t => Sys2Proof.Machine.execLockoutEnd t s
  | .supplyGood t b => Sys2Proof.Machine.execSupplyGood t b s
  | .recoveryKeySequence t => Sys2Proof.Machine.execRecoveryKeySequence t s
  | .roleWaitEnd t => Sys2Proof.Machine.execRoleWaitEnd t s
  | .claimDrive t => Sys2Proof.Machine.execClaimDrive t s
  | .claimSeen t => Sys2Proof.Machine.execClaimSeen t s
  | .claimRelease t => Sys2Proof.Machine.execClaimRelease t s
  | .restartInstant t => Sys2Proof.Machine.execRestartInstant t s
  | .holdInstant t => Sys2Proof.Machine.execHoldInstant t s
  | .recoveryReset t => Sys2Proof.Machine.execRecoveryReset t s
  | .activateReset t => Sys2Proof.Machine.execActivateReset t s
  | .leaveRecovery t => Sys2Proof.Machine.execLeaveRecovery t s
  | .moduleReset t => Sys2Proof.Machine.execModuleReset t s
  | .cycleStart t task => Sys2Proof.Machine.execCycleStart t task s
  | .harvestPoint t task => Sys2Proof.Machine.execHarvestPoint t task s
  | .speculationStart t task => Sys2Proof.Machine.execSpeculationStart t task s
  | .budgetWarning t task charged => Sys2Proof.Machine.execBudgetWarning t task charged s
  | .watchdogTrip t task charged => Sys2Proof.Machine.execWatchdogTrip t task charged s
  | .add task f => Sys2Proof.Machine.execAdd task f s
  | .sub task f => Sys2Proof.Machine.execSub task f s
  | .mul task f => Sys2Proof.Machine.execMul task f s
  | .mulh task f => Sys2Proof.Machine.execMulh task f s
  | .mulhu task f => Sys2Proof.Machine.execMulhu task f s
  | .div task f => Sys2Proof.Machine.execDiv task f s
  | .divu task f => Sys2Proof.Machine.execDivu task f s
  | .rem task f => Sys2Proof.Machine.execRem task f s
  | .remu task f => Sys2Proof.Machine.execRemu task f s
  | .min task f => Sys2Proof.Machine.execMin task f s
  | .max task f => Sys2Proof.Machine.execMax task f s
  | .and task f => Sys2Proof.Machine.execAnd task f s
  | .or task f => Sys2Proof.Machine.execOr task f s
  | .xor task f => Sys2Proof.Machine.execXor task f s
  | .andn task f => Sys2Proof.Machine.execAndn task f s
  | .shl task f => Sys2Proof.Machine.execShl task f s
  | .shr task f => Sys2Proof.Machine.execShr task f s
  | .sar task f => Sys2Proof.Machine.execSar task f s
  | .bfx task f => Sys2Proof.Machine.execBfx task f s
  | .bfxs task f => Sys2Proof.Machine.execBfxs task f s
  | .bfi task f => Sys2Proof.Machine.execBfi task f s
  | .ceq task f => Sys2Proof.Machine.execCeq task f s
  | .cne task f => Sys2Proof.Machine.execCne task f s
  | .clt task f => Sys2Proof.Machine.execClt task f s
  | .cle task f => Sys2Proof.Machine.execCle task f s
  | .cltu task f => Sys2Proof.Machine.execCltu task f s
  | .cleu task f => Sys2Proof.Machine.execCleu task f s
  | .btst task f => Sys2Proof.Machine.execBtst task f s
  | .pand task f => Sys2Proof.Machine.execPand task f s
  | .por task f => Sys2Proof.Machine.execPor task f s
  | .pxor task f => Sys2Proof.Machine.execPxor task f s
  | .pandn task f => Sys2Proof.Machine.execPandn task f s
  | .pget task f => Sys2Proof.Machine.execPget task f s
  | .pset task f => Sys2Proof.Machine.execPset task f s
  | .fadd task d f => Sys2Proof.Machine.execFadd task d f s
  | .fsub task d f => Sys2Proof.Machine.execFsub task d f s
  | .fmul task d f => Sys2Proof.Machine.execFmul task d f s
  | .fdiv task d f => Sys2Proof.Machine.execFdiv task d f s
  | .fsqrt task d f => Sys2Proof.Machine.execFsqrt task d f s
  | .fma task d f => Sys2Proof.Machine.execFma task d f s
  | .fmin task d f => Sys2Proof.Machine.execFmin task d f s
  | .fmax task d f => Sys2Proof.Machine.execFmax task d f s
  | .fneg task d f => Sys2Proof.Machine.execFneg task d f s
  | .fabs task d f => Sys2Proof.Machine.execFabs task d f s
  | .fceq task d f => Sys2Proof.Machine.execFceq task d f s
  | .fclt task d f => Sys2Proof.Machine.execFclt task d f s
  | .fcle task d f => Sys2Proof.Machine.execFcle task d f s
  | .fcun task d f => Sys2Proof.Machine.execFcun task d f s
  | .ftoi task d f => Sys2Proof.Machine.execFtoi task d f s
  | .ftrunc task d f => Sys2Proof.Machine.execFtrunc task d f s
  | .itof task d f => Sys2Proof.Machine.execItof task d f s
  | .fcvt task d f => Sys2Proof.Machine.execFcvt task d f s
  | .li task f => Sys2Proof.Machine.execLi task f s
  | .lih1 task f => Sys2Proof.Machine.execLih1 task f s
  | .lih2 task f => Sys2Proof.Machine.execLih2 task f s
  | .lih3 task f => Sys2Proof.Machine.execLih3 task f s
  | .addi task f => Sys2Proof.Machine.execAddi task f s
  | .andi task f => Sys2Proof.Machine.execAndi task f s
  | .ori task f => Sys2Proof.Machine.execOri task f s
  | .xori task f => Sys2Proof.Machine.execXori task f s
  | .shli task f => Sys2Proof.Machine.execShli task f s
  | .shri task f => Sys2Proof.Machine.execShri task f s
  | .sari task f => Sys2Proof.Machine.execSari task f s
  | .br task f => Sys2Proof.Machine.execBr task f s
  | .call task f => Sys2Proof.Machine.execCall task f s
  | .ret task f => Sys2Proof.Machine.execRet task f s
  | .endCycle task f => Sys2Proof.Machine.execEndCycle task f s
  | .fence task f => Sys2Proof.Machine.execFence task f s
  | .tsr task f => Sys2Proof.Machine.execTsr task f s
  | .ton task f => Sys2Proof.Machine.execTon task f s
  | .tof task f => Sys2Proof.Machine.execTof task f s
  | .tp task f => Sys2Proof.Machine.execTp task f s
  | .rtrig task f => Sys2Proof.Machine.execRtrig task f s
  | .ftrig task f => Sys2Proof.Machine.execFtrig task f s
  | .tet task f => Sys2Proof.Machine.execTet task f s
  | .ldu task f => Sys2Proof.Machine.execLdu task f s
  | .lds task f => Sys2Proof.Machine.execLds task f s
  | .st task f => Sys2Proof.Machine.execSt task f s
  | .loopSample t handle => Sys2Proof.Machine.execLoopSample t handle s
  | .loopCommit t handle => Sys2Proof.Machine.execLoopCommit t handle s
  | .loopOutput t handle => Sys2Proof.Machine.execLoopOutput t handle s
  | .sampleSend t port => Sys2Proof.Machine.execSampleSend t port s
  | .readSend t port => Sys2Proof.Machine.execReadSend t port s
  | .blockReceive t port endB bytes => Sys2Proof.Machine.execBlockReceive t port endB bytes s
  | .blockMissing t port lastA firstB => Sys2Proof.Machine.execBlockMissing t port lastA firstB s
  | .chainFrameSend t port endB f => Sys2Proof.Machine.execChainFrameSend t port endB f s
  | .chainReply t port endB rtt bytes => Sys2Proof.Machine.execChainReply t port endB rtt bytes s
  | .replyTimeout t port => Sys2Proof.Machine.execReplyTimeout t port s
  | .enumTimeout t port endB => Sys2Proof.Machine.execEnumTimeout t port endB s
  | .balEnd t port => Sys2Proof.Machine.execBalEnd t port s
  | .toneStateChange t port endB tone => Sys2Proof.Machine.execToneStateChange t port endB tone s
  | .toneReport t port endB tone => Sys2Proof.Machine.execToneReport t port endB tone s
  | .toneReportStale t port => Sys2Proof.Machine.execToneReportStale t port s
  | .loopOpen t port => Sys2Proof.Machine.execLoopOpen t port s
  | .currentLatch t port => Sys2Proof.Machine.execCurrentLatch t port s
  | .estimation t port => Sys2Proof.Machine.execEstimation t port s
  | .publication t => Sys2Proof.Machine.execPublication t s
  | .cellCommit t => Sys2Proof.Machine.execCellCommit t s
  | .contactorTick t => Sys2Proof.Machine.execContactorTick t s
  | .tripInputEdge t n level stableNs => Sys2Proof.Machine.execTripInputEdge t n level stableNs s
  | .dieTemperature t die deg => Sys2Proof.Machine.execDieTemperature t die deg s
  | .pulseTest t n opened closed => Sys2Proof.Machine.execPulseTest t n opened closed s
  | .switchFault t n high durNs => Sys2Proof.Machine.execSwitchFault t n high durNs s
  | .safetyPeriod t => Sys2Proof.Machine.execSafetyPeriod t s
  | .lockstepMismatch t => Sys2Proof.Machine.execLockstepMismatch t s
  | .proofDue t src => Sys2Proof.Machine.execProofDue t src s
  | .ringCycleOpen t => Sys2Proof.Machine.execRingCycleOpen t s
  | .c1Slot t slot leftAt => Sys2Proof.Machine.execC1Slot t slot leftAt s
  | .linkFrameSend t => Sys2Proof.Machine.execLinkFrameSend t s
  | .dataFrameReceive t east f => Sys2Proof.Machine.execDataFrameReceive t east f s
  | .blockFrameReceive t east f => Sys2Proof.Machine.execBlockFrameReceive t east f s
  | .dropImageReceive t east f => Sys2Proof.Machine.execDropImageReceive t east f s
  | .tripFrameReceive t east f => Sys2Proof.Machine.execTripFrameReceive t east f s
  | .syncReceive t east f => Sys2Proof.Machine.execSyncReceive t east f s
  | .linkFrameReceive t east f => Sys2Proof.Machine.execLinkFrameReceive t east f s
  | .serviceFrameReceive t east f => Sys2Proof.Machine.execServiceFrameReceive t east f s
  | .tripFrameSend t => Sys2Proof.Machine.execTripFrameSend t s
  | .syncTimeout t => Sys2Proof.Machine.execSyncTimeout t s
  | .linkLost t port => Sys2Proof.Machine.execLinkLost t port s
  | .unwrap t => Sys2Proof.Machine.execUnwrap t s
  | .valueLost t id => Sys2Proof.Machine.execValueLost t id s
  | .dropLost t node => Sys2Proof.Machine.execDropLost t node s
  | .apply t w => Sys2Proof.Machine.execApply t w s
  | .relaySense t eastClosed westClosed => Sys2Proof.Machine.execRelaySense t eastClosed westClosed s
  | .canEnable t ch w => Sys2Proof.Machine.execCanEnable t ch w s
  | .canDisable t ch w => Sys2Proof.Machine.execCanDisable t ch w s
  | .canIntegrated t ch => Sys2Proof.Machine.execCanIntegrated t ch s
  | .recover t ch => Sys2Proof.Machine.execRecover t ch s
  | .canSlotOpen t ch slot busIdle => Sys2Proof.Machine.execCanSlotOpen t ch slot busIdle s
  | .canSlotClose t ch => Sys2Proof.Machine.execCanSlotClose t ch s
  | .canFrameSent t ch stamp res tec tdcv => Sys2Proof.Machine.execCanFrameSent t ch stamp res tec tdcv s
  | .canFrameReceive t ch stamp f err q => Sys2Proof.Machine.execCanFrameReceive t ch stamp f err q s
  | .canSendExpiry t ch => Sys2Proof.Machine.execCanSendExpiry t ch s
  | .canRxTimeout t ch filter => Sys2Proof.Machine.execCanRxTimeout t ch filter s
  | .streamRecordTimeout t sub => Sys2Proof.Machine.execStreamRecordTimeout t sub s
  | .diDebounce t n level stableNs => Sys2Proof.Machine.execDiDebounce t n level stableNs s
  | .wireBreak t n current durNs => Sys2Proof.Machine.execWireBreak t n current durNs s
  | .doShort t n milliamp durNs => Sys2Proof.Machine.execDoShort t n milliamp durNs s
  | .doRetry t n holds => Sys2Proof.Machine.execDoRetry t n holds s
  | .mismatch t n readback durNs => Sys2Proof.Machine.execMismatch t n readback durNs s
  | .clConversion t n raw => Sys2Proof.Machine.execClConversion t n raw s
  | .miswire t n milliamp reverse durNs => Sys2Proof.Machine.execMiswire t n milliamp reverse durNs s
  | .miswireRetry t n holds => Sys2Proof.Machine.execMiswireRetry t n holds s
  | .faiAperture t volts => Sys2Proof.Machine.execFaiAperture t volts s
  | .pulseEdge t n e => Sys2Proof.Machine.execPulseEdge t n e s
  | .lineFault t n line low durNs => Sys2Proof.Machine.execLineFault t n line low durNs s
  | .stalled t n => Sys2Proof.Machine.execStalled t n s
  | .wdExpired t group ch => Sys2Proof.Machine.execWdExpired t group ch s
  | .wdRefresh t group ch => Sys2Proof.Machine.execWdRefresh t group ch s
  | .fioSubscribeSample t sub => Sys2Proof.Machine.execFioSubscribeSample t sub s
  | .springRamp t die due => Sys2Proof.Machine.execSpringRamp t die due s
  | .autumnRamp t die due => Sys2Proof.Machine.execAutumnRamp t die due s
  | .rampStep t die busy => Sys2Proof.Machine.execRampStep t die busy s
  | .asyncWake t die => Sys2Proof.Machine.execAsyncWake t die s
  | .winterLoss t gapNs => Sys2Proof.Machine.execWinterLoss t gapNs s
  | .clockMonitorWindow t int25 refclk internal => Sys2Proof.Machine.execClockMonitorWindow t int25 refclk internal s
  | .stoppedClock t die => Sys2Proof.Machine.execStoppedClock t die s
  | .refclkDelayExpiry t => Sys2Proof.Machine.execRefclkDelayExpiry t s
  | .feedGood t b millivolt durNs tenMilliamp => Sys2Proof.Machine.execFeedGood t b millivolt durNs tenMilliamp s
  | .feedLost t b millivolt durNs => Sys2Proof.Machine.execFeedLost t b millivolt durNs s
  | .railFault t rail durNs => Sys2Proof.Machine.execRailFault t rail durNs s
  | .prsntNDeassert t => Sys2Proof.Machine.execPrsntNDeassert t s
  | .powerDownReset t => Sys2Proof.Machine.execPowerDownReset t s
  | .backupLost t millivolt durNs => Sys2Proof.Machine.execBackupLost t millivolt durNs s
  | .osf t gapNs => Sys2Proof.Machine.execOsf t gapNs s
  | .rtcCheck t drift => Sys2Proof.Machine.execRtcCheck t drift s
  | .rtcCommit t => Sys2Proof.Machine.execRtcCommit t s
  | .alarmFire t => Sys2Proof.Machine.execAlarmFire t s
  | .wakeTimeout t => Sys2Proof.Machine.execWakeTimeout t s
  | .slewEnd t => Sys2Proof.Machine.execSlewEnd t s
  | .heartbeatSend t => Sys2Proof.Machine.execHeartbeatSend t s
  | .heartbeatMissed t => Sys2Proof.Machine.execHeartbeatMissed t s
  | .heartbeatConfirm t alive => Sys2Proof.Machine.execHeartbeatConfirm t alive s
  | .twinLinkUp t lanes p => Sys2Proof.Machine.execTwinLinkUp t lanes p s
  | .laneDown t lane => Sys2Proof.Machine.execLaneDown t lane s
  | .mirrorReceive t m latency => Sys2Proof.Machine.execMirrorReceive t m latency s
  | .readbackDiff t group ch durNs => Sys2Proof.Machine.execReadbackDiff t group ch durNs s
  | .digestCompare t kind id lead => Sys2Proof.Machine.execDigestCompare t kind id lead s
  | .selfTestDone t own partner => Sys2Proof.Machine.execSelfTestDone t own partner s
  | .eccError t die link => Sys2Proof.Machine.execEccError t die link s
  | .leadAliveWatchdog t => Sys2Proof.Machine.execLeadAliveWatchdog t s
  | .yieldSafeTimeout t => Sys2Proof.Machine.execYieldSafeTimeout t s
  | .yieldNAssert t check => Sys2Proof.Machine.execYieldNAssert t check s
  | .leadAliveDeassert t => Sys2Proof.Machine.execLeadAliveDeassert t s
  | .thaw t => Sys2Proof.Machine.execThaw t s
  | .equinoxInstant t => Sys2Proof.Machine.execEquinoxInstant t s
  | .equinoxClaim t => Sys2Proof.Machine.execEquinoxClaim t s
  | .equinoxWindowEnd t => Sys2Proof.Machine.execEquinoxWindowEnd t s
  | .drillDue t => Sys2Proof.Machine.execDrillDue t s
  | .drillPostponed t => Sys2Proof.Machine.execDrillPostponed t s
  | .drillCheck t terminal => Sys2Proof.Machine.execDrillCheck t terminal s
  | .exchangeImageStored t x => Sys2Proof.Machine.execExchangeImageStored t x s
  | .mappingInstant t => Sys2Proof.Machine.execMappingInstant t s
  | .syncTransferDone t ok j => Sys2Proof.Machine.execSyncTransferDone t ok j s
  | .joinInstant t => Sys2Proof.Machine.execJoinInstant t s
  | .recordWrite t verified => Sys2Proof.Machine.execRecordWrite t verified s
  | .summaryRecord t code => Sys2Proof.Machine.execSummaryRecord t code s
  | .frameStart t temp => Sys2Proof.Machine.execFrameStart t temp s
  | .frameCheck t scan => Sys2Proof.Machine.execFrameCheck t scan s
  | .keyPress t key pressed => Sys2Proof.Machine.execKeyPress t key pressed s
  | .tripPageReset t high low => Sys2Proof.Machine.execTripPageReset t high low s
  | .ejectHold t => Sys2Proof.Machine.execEjectHold t s
  | .menuTimeout t => Sys2Proof.Machine.execMenuTimeout t s
  | .ejectLeverPulled t => Sys2Proof.Machine.execEjectLeverPulled t s
  | .ejectRetry t => Sys2Proof.Machine.execEjectRetry t s
  | .ejectCancel t => Sys2Proof.Machine.execEjectCancel t s
  | .counterClear t off v => Sys2Proof.Machine.execCounterClear t off v s
  | .rtcSecRead t => Sys2Proof.Machine.execRtcSecRead t s
  | .clkMtRead t => Sys2Proof.Machine.execClkMtRead t s
  | .piStatusRead t n => Sys2Proof.Machine.execPiStatusRead t n s
  | .bkupWrite t n v => Sys2Proof.Machine.execBkupWrite t n v s
  | .regionWrite t n v => Sys2Proof.Machine.execRegionWrite t n v s
  | .registerWrite t off size v => Sys2Proof.Machine.execRegisterWrite t off size v s
  | .keelBroughtUp t => Sys2Proof.Machine.execKeelBroughtUp t s
  | .leadAliveReadEnd t asserted => Sys2Proof.Machine.execLeadAliveReadEnd t asserted s
  | .startSequenceComplete t imageOk restartAt => Sys2Proof.Machine.execStartSequenceComplete t imageOk restartAt s
  | .flashStoreDone t ok => Sys2Proof.Machine.execFlashStoreDone t ok s
  | .passwordCheckDone t => Sys2Proof.Machine.execPasswordCheckDone t s
  | .mirrorAck t rid => Sys2Proof.Machine.execMirrorAck t rid s
  | .heartbeatReceive t p => Sys2Proof.Machine.execHeartbeatReceive t p s
  | .winterRecovered t goodCycles => Sys2Proof.Machine.execWinterRecovered t goodCycles s
  | .pllLocked t die => Sys2Proof.Machine.execPllLocked t die s
  | .correctedLinkError t die => Sys2Proof.Machine.execCorrectedLinkError t die s
  | .ringLinkUp t east => Sys2Proof.Machine.execRingLinkUp t east s
  | .busOffRecovered t ch => Sys2Proof.Machine.execBusOffRecovered t ch s
  | .basicCycleOpen t ch => Sys2Proof.Machine.execBasicCycleOpen t ch s
  | .fioTestSettled t readback => Sys2Proof.Machine.execFioTestSettled t readback s
  | .clTrimHold t n select up => Sys2Proof.Machine.execClTrimHold t n select up s
  | .forceRefresh t => Sys2Proof.Machine.execForceRefresh t s

end Sys2Proof.Machine
end

