-- ==== Sys2Proof/Machine/CoreTable.lean ====
section
/-! DEFINITION. Machine/CoreTable.lean: the words of the cycle-core instructions as one table, and the instruction that
a word spells (06_cycle_instruction_set.md, Tables 6-1 to 6-10). -/

namespace Sys2Proof.Machine

/-! ### The fields of a word (Table 6-1) -/

def fieldsA (w : BitVec 32) : FmtA :=
  ⟨w.extractLsb' 28 4, w.extractLsb' 20 5, w.extractLsb' 15 5, w.extractLsb' 10 5⟩
def fieldsI (w : BitVec 32) : FmtI := ⟨w.extractLsb' 28 4, w.extractLsb' 20 5, w.extractLsb' 0 16⟩
def fieldsB (w : BitVec 32) : FmtB := ⟨w.extractLsb' 28 4, w.extractLsb' 0 20⟩
def fieldsT (w : BitVec 32) : FmtT :=
  ⟨w.extractLsb' 28 4, w.extractLsb' 17 5, w.extractLsb' 13 4, w.extractLsb' 10 3, w.extractLsb' 0 10⟩
def fieldsM (w : BitVec 32) : FmtM :=
  ⟨w.extractLsb' 28 4, w.extractLsb' 20 5, w.extractLsb' 18 2, w.extractLsb' 15 3, w.extractLsb' 12 3, w.extractLsb' 0 12⟩

/-- The word that a core command stands for (Tables 6-3 to 6-10). -/
def coreWord : Instr → Option (BitVec 32)
  | .add _ f => some (encA f 0x000#10)
  | .sub _ f => some (encA f 0x001#10)
  | .mul _ f => some (encA f 0x002#10)
  | .mulh _ f => some (encA f 0x003#10)
  | .mulhu _ f => some (encA f 0x004#10)
  | .div _ f => some (encA f 0x005#10)
  | .divu _ f => some (encA f 0x006#10)
  | .rem _ f => some (encA f 0x007#10)
  | .remu _ f => some (encA f 0x008#10)
  | .min _ f => some (encA f 0x009#10)
  | .max _ f => some (encA f 0x00A#10)
  | .and _ f => some (encA f 0x010#10)
  | .or _ f => some (encA f 0x011#10)
  | .xor _ f => some (encA f 0x012#10)
  | .andn _ f => some (encA f 0x013#10)
  | .shl _ f => some (encA f 0x014#10)
  | .shr _ f => some (encA f 0x015#10)
  | .sar _ f => some (encA f 0x016#10)
  | .bfx _ f => some (encA f 0x018#10)
  | .bfxs _ f => some (encA f 0x019#10)
  | .bfi _ f => some (encA f 0x01A#10)
  | .ceq _ f => some (encA f 0x040#10)
  | .cne _ f => some (encA f 0x041#10)
  | .clt _ f => some (encA f 0x042#10)
  | .cle _ f => some (encA f 0x043#10)
  | .cltu _ f => some (encA f 0x044#10)
  | .cleu _ f => some (encA f 0x045#10)
  | .btst _ f => some (encA f 0x046#10)
  | .pand _ f => some (encA f 0x060#10)
  | .por _ f => some (encA f 0x061#10)
  | .pxor _ f => some (encA f 0x062#10)
  | .pandn _ f => some (encA f 0x063#10)
  | .pget _ f => some (encA f 0x064#10)
  | .pset _ f => some (encA f 0x065#10)
  | .fadd _ d f => some (encA f (fpFunc 0x080#10 d))
  | .fsub _ d f => some (encA f (fpFunc 0x081#10 d))
  | .fmul _ d f => some (encA f (fpFunc 0x082#10 d))
  | .fdiv _ d f => some (encA f (fpFunc 0x083#10 d))
  | .fsqrt _ d f => some (encA f (fpFunc 0x084#10 d))
  | .fma _ d f => some (encA f (fpFunc 0x085#10 d))
  | .fmin _ d f => some (encA f (fpFunc 0x086#10 d))
  | .fmax _ d f => some (encA f (fpFunc 0x087#10 d))
  | .fneg _ d f => some (encA f (fpFunc 0x088#10 d))
  | .fabs _ d f => some (encA f (fpFunc 0x089#10 d))
  | .fceq _ d f => some (encA f (fpFunc 0x08A#10 d))
  | .fclt _ d f => some (encA f (fpFunc 0x08B#10 d))
  | .fcle _ d f => some (encA f (fpFunc 0x08C#10 d))
  | .fcun _ d f => some (encA f (fpFunc 0x08D#10 d))
  | .ftoi _ d f => some (encA f (fpFunc 0x08E#10 d))
  | .ftrunc _ d f => some (encA f (fpFunc 0x08F#10 d))
  | .itof _ d f => some (encA f (fpFunc 0x090#10 d))
  | .fcvt _ d f => some (encA f (fpFunc 0x091#10 d))
  | .li _ f => some (encI f 0#4)
  | .lih1 _ f => some (encI f 1#4)
  | .lih2 _ f => some (encI f 2#4)
  | .lih3 _ f => some (encI f 3#4)
  | .addi _ f => some (encI f 4#4)
  | .andi _ f => some (encI f 5#4)
  | .ori _ f => some (encI f 6#4)
  | .xori _ f => some (encI f 7#4)
  | .shli _ f => some (encI f 8#4)
  | .shri _ f => some (encI f 9#4)
  | .sari _ f => some (encI f 10#4)
  | .br _ f => some (encB f 0#5)
  | .call _ f => some (encB f 1#5)
  | .ret _ f => some (encA f 0x100#10)
  | .endCycle _ f => some (encA f 0x101#10)
  | .fence _ f => some (encA f 0x102#10)
  | .tsr _ f => some (encA f 0x103#10)
  | .ton _ f => some (encT f 1#3)
  | .tof _ f => some (encT f 2#3)
  | .tp _ f => some (encT f 3#3)
  | .rtrig _ f => some (encT f 4#3)
  | .ftrig _ f => some (encT f 5#3)
  | .tet _ f => some (encT f 6#3)
  | .ldu _ f => some (encM f 4#3)
  | .lds _ f => some (encM f 5#3)
  | .st _ f => some (encM f 6#3)
  | _ => none

/-- Format A: the instruction of a FUNC (Tables 6-3, 6-4, 6-5, 6-8). -/
def coreInstrA (task : Fin 64) (f : FmtA) (func : Nat) : Option Instr :=
  match func with
  | 0x000 => some (.add task f)
  | 0x001 => some (.sub task f)
  | 0x002 => some (.mul task f)
  | 0x003 => some (.mulh task f)
  | 0x004 => some (.mulhu task f)
  | 0x005 => some (.div task f)
  | 0x006 => some (.divu task f)
  | 0x007 => some (.rem task f)
  | 0x008 => some (.remu task f)
  | 0x009 => some (.min task f)
  | 0x00A => some (.max task f)
  | 0x010 => some (.and task f)
  | 0x011 => some (.or task f)
  | 0x012 => some (.xor task f)
  | 0x013 => some (.andn task f)
  | 0x014 => some (.shl task f)
  | 0x015 => some (.shr task f)
  | 0x016 => some (.sar task f)
  | 0x018 => some (.bfx task f)
  | 0x019 => some (.bfxs task f)
  | 0x01A => some (.bfi task f)
  | 0x040 => some (.ceq task f)
  | 0x041 => some (.cne task f)
  | 0x042 => some (.clt task f)
  | 0x043 => some (.cle task f)
  | 0x044 => some (.cltu task f)
  | 0x045 => some (.cleu task f)
  | 0x046 => some (.btst task f)
  | 0x060 => some (.pand task f)
  | 0x061 => some (.por task f)
  | 0x062 => some (.pxor task f)
  | 0x063 => some (.pandn task f)
  | 0x064 => some (.pget task f)
  | 0x065 => some (.pset task f)
  | 0x080 => some (.fadd task false f)
  | 0x0C0 => some (.fadd task true f)
  | 0x081 => some (.fsub task false f)
  | 0x0C1 => some (.fsub task true f)
  | 0x082 => some (.fmul task false f)
  | 0x0C2 => some (.fmul task true f)
  | 0x083 => some (.fdiv task false f)
  | 0x0C3 => some (.fdiv task true f)
  | 0x084 => some (.fsqrt task false f)
  | 0x0C4 => some (.fsqrt task true f)
  | 0x085 => some (.fma task false f)
  | 0x0C5 => some (.fma task true f)
  | 0x086 => some (.fmin task false f)
  | 0x0C6 => some (.fmin task true f)
  | 0x087 => some (.fmax task false f)
  | 0x0C7 => some (.fmax task true f)
  | 0x088 => some (.fneg task false f)
  | 0x0C8 => some (.fneg task true f)
  | 0x089 => some (.fabs task false f)
  | 0x0C9 => some (.fabs task true f)
  | 0x08A => some (.fceq task false f)
  | 0x0CA => some (.fceq task true f)
  | 0x08B => some (.fclt task false f)
  | 0x0CB => some (.fclt task true f)
  | 0x08C => some (.fcle task false f)
  | 0x0CC => some (.fcle task true f)
  | 0x08D => some (.fcun task false f)
  | 0x0CD => some (.fcun task true f)
  | 0x08E => some (.ftoi task false f)
  | 0x0CE => some (.ftoi task true f)
  | 0x08F => some (.ftrunc task false f)
  | 0x0CF => some (.ftrunc task true f)
  | 0x090 => some (.itof task false f)
  | 0x0D0 => some (.itof task true f)
  | 0x091 => some (.fcvt task false f)
  | 0x0D1 => some (.fcvt task true f)
  | 0x100 => some (.ret task f)
  | 0x101 => some (.endCycle task f)
  | 0x102 => some (.fence task f)
  | 0x103 => some (.tsr task f)
  | _ => none

/-- Format I: the instruction of a SUB (Table 6-6). -/
def coreInstrI (task : Fin 64) (f : FmtI) (sub : Nat) : Option Instr :=
  match sub with
  | 0 => some (.li task f)
  | 1 => some (.lih1 task f)
  | 2 => some (.lih2 task f)
  | 3 => some (.lih3 task f)
  | 4 => some (.addi task f)
  | 5 => some (.andi task f)
  | 6 => some (.ori task f)
  | 7 => some (.xori task f)
  | 8 => some (.shli task f)
  | 9 => some (.shri task f)
  | 10 => some (.sari task f)
  | _ => none

/-- Format T: the instruction of a KIND (Table 6-10). -/
def coreInstrT (task : Fin 64) (f : FmtT) (kind : Nat) : Option Instr :=
  match kind with
  | 1 => some (.ton task f)
  | 2 => some (.tof task f)
  | 3 => some (.tp task f)
  | 4 => some (.rtrig task f)
  | 5 => some (.ftrig task f)
  | 6 => some (.tet task f)
  | _ => none

/-- The core command that a legal word spells for a task; none for an illegal word (R197, R198). -/
def coreInstr (task : Fin 64) (w : BitVec 32) : Option Instr :=
  if legalWord w then
    match bits w.toNat 25 3 with
    | 0 => coreInstrA task (fieldsA w) (bits w.toNat 0 10)
    | 1 => coreInstrI task (fieldsI w) (bits w.toNat 16 4)
    | 2 => if bits w.toNat 20 5 = 0 then some (.br task (fieldsB w)) else some (.call task (fieldsB w))
    | 3 => coreInstrT task (fieldsT w) (bits w.toNat 22 3)
    | 4 => some (.ldu task (fieldsM w))
    | 5 => some (.lds task (fieldsM w))
    | 6 => some (.st task (fieldsM w))
    | _ => none
  else none

/-- The task of a core command. -/
def coreTask : Instr → Option (Fin 64)
  | .add task _ => some task
  | .sub task _ => some task
  | .mul task _ => some task
  | .mulh task _ => some task
  | .mulhu task _ => some task
  | .div task _ => some task
  | .divu task _ => some task
  | .rem task _ => some task
  | .remu task _ => some task
  | .min task _ => some task
  | .max task _ => some task
  | .and task _ => some task
  | .or task _ => some task
  | .xor task _ => some task
  | .andn task _ => some task
  | .shl task _ => some task
  | .shr task _ => some task
  | .sar task _ => some task
  | .bfx task _ => some task
  | .bfxs task _ => some task
  | .bfi task _ => some task
  | .ceq task _ => some task
  | .cne task _ => some task
  | .clt task _ => some task
  | .cle task _ => some task
  | .cltu task _ => some task
  | .cleu task _ => some task
  | .btst task _ => some task
  | .pand task _ => some task
  | .por task _ => some task
  | .pxor task _ => some task
  | .pandn task _ => some task
  | .pget task _ => some task
  | .pset task _ => some task
  | .fadd task _ _ => some task
  | .fsub task _ _ => some task
  | .fmul task _ _ => some task
  | .fdiv task _ _ => some task
  | .fsqrt task _ _ => some task
  | .fma task _ _ => some task
  | .fmin task _ _ => some task
  | .fmax task _ _ => some task
  | .fneg task _ _ => some task
  | .fabs task _ _ => some task
  | .fceq task _ _ => some task
  | .fclt task _ _ => some task
  | .fcle task _ _ => some task
  | .fcun task _ _ => some task
  | .ftoi task _ _ => some task
  | .ftrunc task _ _ => some task
  | .itof task _ _ => some task
  | .fcvt task _ _ => some task
  | .li task _ => some task
  | .lih1 task _ => some task
  | .lih2 task _ => some task
  | .lih3 task _ => some task
  | .addi task _ => some task
  | .andi task _ => some task
  | .ori task _ => some task
  | .xori task _ => some task
  | .shli task _ => some task
  | .shri task _ => some task
  | .sari task _ => some task
  | .br task _ => some task
  | .call task _ => some task
  | .ret task _ => some task
  | .endCycle task _ => some task
  | .fence task _ => some task
  | .tsr task _ => some task
  | .ton task _ => some task
  | .tof task _ => some task
  | .tp task _ => some task
  | .rtrig task _ => some task
  | .ftrig task _ => some task
  | .tet task _ => some task
  | .ldu task _ => some task
  | .lds task _ => some task
  | .st task _ => some task
  | _ => none

end Sys2Proof.Machine
end

