-- ==== Sys2Proof/Safety.lean ====
section
/-! DEFINITION. Safety.lean: the terms that claims use: the allowed pairs of mode and role, what it means that a core
executes a word, that a request is ready, and what each shape of effect writes. -/

namespace Sys2Proof.Machine

/-- Table 4-3: the pairs of mode and role that a module may hold. -/
def legalPair (m : Mode) (r : Role) (detached : Bool) : Bool :=
  match m, r with
  | .dormant, .simplex => true | .dormant, .lead => true | .dormant, .follow => true
  | .dormant, .syncing => false | .dormant, .yielded => false
  | .startup, .yielded => false | .startup, _ => true
  | .run, .simplex => true | .run, .lead => true | .run, .follow => !detached
  | .run, .syncing => false | .run, .yielded => false
  | .hold, _ => true
  | .maintenance, .simplex => true | .maintenance, _ => false
  | .recovery, .simplex => true | .recovery, _ => false

/-- A module in a legal pair of mode and role. -/
def State.pairOk (s : State) : Bool := legalPair s.modes.mode s.modes.role s.modes.detached

/-! ### The cycle core -/

/-- A task's core stands at the word `w`: RUN, a cycle `c` that has neither ended, trapped nor been held, whose core does no
other task's work (R149), and `w` under its program counter (R196). -/
def State.runs (s : State) (task : Fin 64) (w : BitVec 32) (d : TaskDef) (c : Cyc) : Prop :=
  s.modes.mode = .run ∧ (∃ i, s.prog.loaded = some i ∧ fetchWord i c.pc = some w ∧ s.coreWaits i d c = false) ∧
  s.taskDef task.val = some d ∧
  (s.task task.val).cyc = some c ∧ c.done = false ∧ c.held = false ∧ c.trap = none

/-- The state with another cycle of a task, and nothing else changed. -/
def State.putCyc (s : State) (task : Fin 64) (c : Cyc) : State :=
  s.setTask task.val { s.task task.val with cyc := some c }

/-- A format A command with a FUNC, at a cycle whose PRED reads 1, writes `op rs1 rs2` to RD and steps on: nothing else
changes. -/
def Writes (i : Fin 64 → FmtA → Instr) (func : BitVec 10) (op : BitVec 64 → BitVec 64 → BitVec 64) : Prop :=
  ∀ (s : State) (task : Fin 64) (f : FmtA) (d : TaskDef) (c : Cyc),
    s.runs task (encA f func) d c → c.pred f.pred.toNat = true →
    exec (i task f) s = .next (s.putCyc task (c.setReg f.rd (op (c.reg f.rs1) (c.reg f.rs2))).next)

/-- The same where RS2 is an unused field, which is 0. -/
def Writes1 (i : Fin 64 → FmtA → Instr) (func : BitVec 10) (op : BitVec 64 → BitVec 64) : Prop :=
  ∀ (s : State) (task : Fin 64) (f : FmtA) (d : TaskDef) (c : Cyc),
    s.runs task (encA f func) d c → c.pred f.pred.toNat = true → f.rs2 = 0 →
    exec (i task f) s = .next (s.putCyc task (c.setReg f.rd (op (c.reg f.rs1))).next)

/-- A format A command that writes a predicate, named by RD with bit 4 clear. -/
def Tests (i : Fin 64 → FmtA → Instr) (func : BitVec 10) (op : BitVec 64 → BitVec 64 → Bool) : Prop :=
  ∀ (s : State) (task : Fin 64) (f : FmtA) (d : TaskDef) (c : Cyc),
    s.runs task (encA f func) d c → c.pred f.pred.toNat = true → f.rd.toNat < 16 →
    exec (i task f) s = .next (s.putCyc task (c.setPred f.rd.toNat (op (c.reg f.rs1) (c.reg f.rs2))).next)

/-- A format A command on three predicates. -/
def Joins (i : Fin 64 → FmtA → Instr) (func : BitVec 10) (op : Bool → Bool → Bool) : Prop :=
  ∀ (s : State) (task : Fin 64) (f : FmtA) (d : TaskDef) (c : Cyc),
    s.runs task (encA f func) d c → c.pred f.pred.toNat = true → f.rd.toNat < 16 → f.rs1.toNat < 16 → f.rs2.toNat < 16 →
    exec (i task f) s =
      .next (s.putCyc task (c.setPred f.rd.toNat (op (c.pred f.rs1.toNat) (c.pred f.rs2.toNat))).next)

/-- A division: its quotient or remainder for a divisor other than 0; for 0 the result 0, the sticky bit, and event 0x070B
where the bit is new since the restart and the cycle is not speculative (R204, R165). -/
def Divides (i : Fin 64 → FmtA → Instr) (func : BitVec 10) (op : BitVec 64 → BitVec 64 → BitVec 64) : Prop :=
  ∀ (s : State) (task : Fin 64) (f : FmtA) (d : TaskDef) (c : Cyc),
    s.runs task (encA f func) d c → c.pred f.pred.toNat = true →
    (c.reg f.rs2 ≠ 0 →
      exec (i task f) s = .next (s.putCyc task (c.setReg f.rd (op (c.reg f.rs1) (c.reg f.rs2))).next)) ∧
    (c.reg f.rs2 = 0 →
      let u := s.putCyc task
        { (c.setReg f.rd 0).next with divZero := true, divZeroPc := if c.divZero then c.divZeroPc else c.pc }
      exec (i task f) s = .next (
        if c.divZero = false ∧ c.spec = false ∧ (s.task task.val).fault.getLsbD 0 = false
        then u.event 0x070B [task.val, c.pc] else u))

/-- A format I command writes `op rd IMM` to RD; a shift keeps bits 15:6 of IMM at 0 (R211). -/
def Sets (i : Fin 64 → FmtI → Instr) (sub : BitVec 4) (op : BitVec 64 → BitVec 16 → BitVec 64) : Prop :=
  ∀ (s : State) (task : Fin 64) (f : FmtI) (d : TaskDef) (c : Cyc),
    s.runs task (encI f sub) d c → c.pred f.pred.toNat = true → (8 ≤ sub.toNat → f.imm.toNat < 64) →
    exec (i task f) s = .next (s.putCyc task (c.setReg f.rd (op (c.reg f.rd) f.imm)).next)

/-! ### Commands -/

/-- A request that is ready for step 9 of R67, with an opcode, none of whose dies is fenced. -/
def State.ready (s : State) (rid op : Nat) (r : Req) : Prop :=
  s.findReq rid = some r ∧ r.phase = .ready ∧ r.opcode = op ∧ (s.reqDies r).any s.fenced = false

/-- An opcode's command carries out its ready request: under a condition on the state and the request, the state after it. -/
def Answers (i : Nat → Instr) (op : Nat) (cond : State → Req → Prop) (res : State → Req → State) : Prop :=
  ∀ (s : State) (rid : Nat) (r : Req), s.ready rid op r → cond s r → exec (i rid) s = .next (res s r)

/-- An event's command at an instant: under a condition on the state at that instant, the state after it. -/
def After (i : Nat → Instr) (cond : State → Prop) (res : State → State) : Prop :=
  ∀ (s : State) (t : Nat), cond (s.tick t) → exec (i t) s = .next (res (s.tick t))

/-- BAR0 registers whose Reset column states a value, with that value: the first block of a kind stands for all of them. -/
def resetWords : List (Nat × Nat) :=
  [(0x40004, 0), (0x40008, 0), (0x4000C, 0), (0x40010, 0), (0x40014, 0)] ++
  [(0x1000, 0), (0x1004, 0), (0x1008, 0), (0x100C, 0), (0x1010, 0), (0x1014, 0x100), (0x1018, 0)] ++
  [(0x80000, 0), (0x80008, 0), (0x80010, 0), (0x80014, 0), (0x80018, 0), (0x8001C, 0), (0x80020, 0), (0x80024, 0)] ++
  [(0x80028, 0), (0x8002C, 0)] ++
  [(0xD000, 0), (0xD004, 0x14), (0xD008, 0x1), (0xD00C, 0x3C), (0xD010, 0), (0xD014, 0), (0xD018, 0), (0xD030, 0)] ++
  [(0xD040, 0x40), (0xD044, 0)] ++
  [(0x6008, 0), (0x600C, 0)] ++
  [(0x2000, 0x2), (0x2008, 0), (0x200C, 0x3), (0x2010, 0), (0x2020, 0)] ++
  [(0x20000, 0x3), (0x20004, 0), (0x20008, 0), (0x2000C, 0x3FF03FF), (0x20010, 0x80008000), (0x20014, 0), (0x20018, 0), (0x20020, 0)] ++
  [(0x20024, 0x32), (0x20028, 0), (0x2002C, 0), (0x20030, 0), (0x20034, 0), (0x20038, 0), (0x2003C, 0)] ++
  [(0x9000, 0xF000), (0x9004, 0), (0x900C, 0), (0x9010, 0), (0x9014, 0), (0x9018, 0), (0x901C, 0), (0x9020, 0)] ++
  [(0x9028, 0), (0x9030, 0), (0x9034, 0)] ++
  [(0x7000, 0), (0x700C, 0), (0x7010, 0), (0x7014, 0), (0x7018, 0xF), (0x701C, 0), (0x7020, 0)] ++
  [(0x8000, 0x30), (0x8010, 0), (0x8014, 0), (0x8018, 0), (0x8020, 0xFFFF00), (0x8024, 0), (0x8028, 0xFF000000), (0x802C, 0xFF000000)] ++
  [(0x8030, 0), (0x8034, 0), (0x8038, 0), (0x803C, 0), (0x8040, 0)] ++
  [(0x10000, 0xC), (0x10004, 0x4), (0x10008, 0), (0x1000C, 0), (0x10010, 0), (0x10014, 0), (0x1001C, 0), (0x10020, 0)] ++
  [(0x10024, 0), (0x10028, 0), (0x1002C, 0), (0x10030, 0), (0x10034, 0), (0x10038, 0), (0x10040, 0), (0x10048, 0)] ++
  [(0xC000, 0), (0xC004, 0), (0xC008, 0), (0xC010, 0), (0xC014, 0), (0xC018, 0), (0xC01C, 0), (0xC020, 0)] ++
  [(0x3000, 0x20), (0x300C, 0x1F40), (0x3010, 0), (0x3018, 0), (0x301C, 0), (0x3028, 0)] ++
  [(0x4000, 0), (0x4004, 0), (0x4008, 0), (0x400C, 0), (0x4010, 0), (0x4014, 0), (0x4018, 0), (0x401C, 0)] ++
  [(0xA000, 0), (0xA01C, 0), (0xA020, 0), (0xA024, 0), (0xA028, 0)] ++
  [(0xB000, 0), (0xB004, 0), (0xB008, 0), (0xB00C, 0), (0xB014, 0), (0xB018, 0)]

end Sys2Proof.Machine
end

