-- ==== Sys2Proof/WellFormed.lean ====
section
/-! DEFINITION. WellFormed.lean: which operands a command of the outside world can carry. -/

namespace Sys2Proof

/-- A bus access of 1, 2, 4 or 8 bytes. -/
def sizeOk (n : Nat) : Bool := n == 1 || n == 2 || n == 4 || n == 8

/-- A fetched buffer has the length its descriptor names; one longer than R65 allows is not read. -/
def bufOk (d : Option Desc) (b : Option (List Byte)) : Bool :=
  match d, b with
  | some d, some b => b.length == d.bufLen.toNat
  | _, none => true
  | none, some _ => false

/-- A trained PCIe link: generation 1 to 4, width 1, 2 or 4 (Table 2-3). -/
def linkOk (gen width : Nat) : Bool := 1 ≤ gen && gen ≤ 4 && (width == 1 || width == 2 || width == 4)

/-- A CAN frame: identifier of 29 bits, DLC 0 to 15, at most 64 bytes (Table 13-6). -/
def canOk (f : CanFrame) : Bool := f.dlc ≤ 15 && f.data.length ≤ 64

/-- A ring frame: header fields within their widths (Table 12-1). -/
def frameOk (f : RingFrame) : Bool :=
  f.version < 16 && f.kind < 16 && f.cls < 4 && f.src < 256 && f.station < 256 && f.hops < 256 && f.payload.length ≤ 1500

/-- A command is well-formed. A transmit error counter is at most 255 before a frame, and the frame adds at most 8 (ISO 11898-1,
which R467 follows; PRESUMED, log 109). -/
def Instr.wf (i : Instr) : Bool :=
  match i with
  | .ctxEnable _ _ _ _ => true
  | .ctxDisable _ _ _ => true
  | .submissionDoorbell _ off size _ => sizeOk size && off < 0x8000
  | .completionDoorbell _ off size _ => sizeOk size && off < 0x8000
  | .descriptorFetch _ _ desc buf _ => bufOk desc buf
  | .descriptorRelease _ _ => true
  | .irqHoldoffExpiry _ _ => true
  | .pcieLinkDown _ => true
  | .pcieLinkUp _ gen width => linkOk gen width
  | .modeStatus _ => true
  | .modeSet _ => true
  | .restart _ => true
  | .equinox _ => true
  | .drillNow _ => true
  | .detach _ => true
  | .rejoin _ => true
  | .tilePower _ => true
  | .tileReset _ => true
  | .drainEnd _ _ _ => true
  | .staleReply _ _ _ => true
  | .progInfo _ => true
  | .progLoad _ => true
  | .progExchange _ => true
  | .onlineChange _ => true
  | .forceSet _ => true
  | .forceRelease _ => true
  | .forceList _ => true
  | .varRead _ => true
  | .varSubscribe _ _ => true
  | .subCancel _ => true
  | .taskStatus _ => true
  | .loopAdmit _ => true
  | .loopParam _ => true
  | .loopMode _ => true
  | .loopRead _ => true
  | .loopSubscribe _ _ => true
  | .cellPlan _ => true
  | .chemLoad _ => true
  | .strEnum _ => true
  | .balPlan _ => true
  | .contactorPlan _ => true
  | .probeSweep _ => true
  | .cellSubscribe _ _ => true
  | .cellRead _ => true
  | .ringStatus _ => true
  | .bypassForce _ => true
  | .dropSubscribe _ _ => true
  | .canSchedule _ => true
  | .canSend _ => true
  | .canSubscribe _ _ => true
  | .recRead _ => true
  | .recSubscribe _ _ => true
  | .recConfig _ => true
  | .timeRead _ => true
  | .timeSet _ => true
  | .rtcAlarm _ => true
  | .helmStatus _ => true
  | .helmRelease _ => true
  | .helmTake _ => true
  | .helmSeize _ => true
  | .keyLoad _ => true
  | .keyErase _ => true
  | .counterRead _ => true
  | .pwdLogin _ => true
  | .pwdLogout _ => true
  | .pwdSet _ => true
  | .tripConfig _ => true
  | .safetyConfig _ => true
  | .tripReset _ _ _ => true
  | .tripStatus _ => true
  | .safetyStatus _ => true
  | .fwInfo _ => true
  | .fwWrite _ => true
  | .fwActivate _ => true
  | .dspWrite _ => true
  | .dspStatus _ => true
  | .fioRead _ => true
  | .fioSubscribe _ _ => true
  | .fioTest _ => true
  | .fioTrim _ => true
  | .sidebandDatagram _ _ packet => match packet.content with
    | .udp _ bytes => bytes.length ≤ 65527
    | .echo data => data.length ≤ 65527
    | _ => true
  | .sidebandDequeue _ => true
  | .sbLinkChange _ _ _ => true
  | .sbConfigWrite _ _ => true
  | .helmTimeout _ => true
  | .sbIdle _ => true
  | .mirrorTimeout _ => true
  | .presenceWindow _ => true
  | .presenceWindowEnd _ => true
  | .sessionTimeout _ => true
  | .lockoutEnd _ => true
  | .supplyGood _ _ => true
  | .recoveryKeySequence _ => true
  | .roleWaitEnd _ => true
  | .claimDrive _ => true
  | .claimSeen _ => true
  | .claimRelease _ => true
  | .restartInstant _ => true
  | .holdInstant _ => true
  | .recoveryReset _ => true
  | .activateReset _ => true
  | .leaveRecovery _ => true
  | .moduleReset _ => true
  | .cycleStart _ _ => true
  | .harvestPoint _ _ => true
  | .speculationStart _ _ => true
  | .budgetWarning _ _ _ => true
  | .watchdogTrip _ _ _ => true
  | .add _ _ => true
  | .sub _ _ => true
  | .mul _ _ => true
  | .mulh _ _ => true
  | .mulhu _ _ => true
  | .div _ _ => true
  | .divu _ _ => true
  | .rem _ _ => true
  | .remu _ _ => true
  | .min _ _ => true
  | .max _ _ => true
  | .and _ _ => true
  | .or _ _ => true
  | .xor _ _ => true
  | .andn _ _ => true
  | .shl _ _ => true
  | .shr _ _ => true
  | .sar _ _ => true
  | .bfx _ _ => true
  | .bfxs _ _ => true
  | .bfi _ _ => true
  | .ceq _ _ => true
  | .cne _ _ => true
  | .clt _ _ => true
  | .cle _ _ => true
  | .cltu _ _ => true
  | .cleu _ _ => true
  | .btst _ _ => true
  | .pand _ _ => true
  | .por _ _ => true
  | .pxor _ _ => true
  | .pandn _ _ => true
  | .pget _ _ => true
  | .pset _ _ => true
  | .fadd _ _ _ => true
  | .fsub _ _ _ => true
  | .fmul _ _ _ => true
  | .fdiv _ _ _ => true
  | .fsqrt _ _ _ => true
  | .fma _ _ _ => true
  | .fmin _ _ _ => true
  | .fmax _ _ _ => true
  | .fneg _ _ _ => true
  | .fabs _ _ _ => true
  | .fceq _ _ _ => true
  | .fclt _ _ _ => true
  | .fcle _ _ _ => true
  | .fcun _ _ _ => true
  | .ftoi _ _ _ => true
  | .ftrunc _ _ _ => true
  | .itof _ _ _ => true
  | .fcvt _ _ _ => true
  | .li _ _ => true
  | .lih1 _ _ => true
  | .lih2 _ _ => true
  | .lih3 _ _ => true
  | .addi _ _ => true
  | .andi _ _ => true
  | .ori _ _ => true
  | .xori _ _ => true
  | .shli _ _ => true
  | .shri _ _ => true
  | .sari _ _ => true
  | .br _ _ => true
  | .call _ _ => true
  | .ret _ _ => true
  | .endCycle _ _ => true
  | .fence _ _ => true
  | .tsr _ _ => true
  | .ton _ _ => true
  | .tof _ _ => true
  | .tp _ _ => true
  | .rtrig _ _ => true
  | .ftrig _ _ => true
  | .tet _ _ => true
  | .ldu _ _ => true
  | .lds _ _ => true
  | .st _ _ => true
  | .loopSample _ _ => true
  | .loopCommit _ _ => true
  | .loopOutput _ _ => true
  | .sampleSend _ _ => true
  | .readSend _ _ => true
  | .blockReceive _ _ _ _ => true
  | .blockMissing _ _ _ _ => true
  | .chainFrameSend _ _ _ _ => true
  | .chainReply _ _ _ _ _ => true
  | .replyTimeout _ _ => true
  | .enumTimeout _ _ _ => true
  | .balEnd _ _ => true
  | .toneStateChange _ _ _ _ => true
  | .toneReport _ _ _ _ => true
  | .toneReportStale _ _ => true
  | .loopOpen _ _ => true
  | .currentLatch _ _ => true
  | .estimation _ _ => true
  | .publication _ => true
  | .cellCommit _ => true
  | .contactorTick _ => true
  | .tripInputEdge _ _ _ _ => true
  | .dieTemperature _ _ _ => true
  | .pulseTest _ _ _ _ => true
  | .switchFault _ _ _ _ => true
  | .safetyPeriod _ => true
  | .lockstepMismatch _ => true
  | .proofDue _ _ => true
  | .ringCycleOpen _ => true
  | .c1Slot _ _ _ => true
  | .linkFrameSend _ => true
  | .dataFrameReceive _ _ f => frameOk f
  | .blockFrameReceive _ _ f => frameOk f
  | .dropImageReceive _ _ f => frameOk f
  | .tripFrameReceive _ _ f => frameOk f
  | .syncReceive _ _ f => frameOk f
  | .linkFrameReceive _ _ f => frameOk f
  | .serviceFrameReceive _ _ f => frameOk f
  | .tripFrameSend _ => true
  | .syncTimeout _ => true
  | .linkLost _ _ => true
  | .unwrap _ => true
  | .valueLost _ _ => true
  | .dropLost _ _ => true
  | .apply _ _ => true
  | .relaySense _ _ _ => true
  | .canEnable _ _ _ => true
  | .canDisable _ _ _ => true
  | .canIntegrated _ _ => true
  | .recover _ _ => true
  | .canSlotOpen _ _ _ _ => true
  | .canSlotClose _ _ => true
  | .canFrameSent _ _ _ _ tec _ => tec ≤ 263
  | .canFrameReceive _ _ _ f err q => canOk f && q ≤ 255 && err ≤ 6
  | .canSendExpiry _ _ => true
  | .canRxTimeout _ _ _ => true
  | .streamRecordTimeout _ _ => true
  | .diDebounce _ _ _ _ => true
  | .wireBreak _ _ _ _ => true
  | .doShort _ _ _ _ => true
  | .doRetry _ _ _ => true
  | .mismatch _ _ _ _ => true
  | .clConversion _ _ _ => true
  | .miswire _ _ _ _ _ => true
  | .miswireRetry _ _ _ => true
  | .faiAperture _ volts => volts.length == 8
  | .pulseEdge _ _ _ => true
  | .lineFault _ _ _ _ _ => true
  | .stalled _ _ => true
  | .wdExpired _ _ _ => true
  | .wdRefresh _ _ _ => true
  | .fioSubscribeSample _ _ => true
  | .springRamp _ _ _ => true
  | .autumnRamp _ _ _ => true
  | .rampStep _ _ _ => true
  | .asyncWake _ _ => true
  | .winterLoss _ _ => true
  | .clockMonitorWindow _ int25 refclk internal => int25 < 65536 && refclk < 65536 && internal < 65536
  | .stoppedClock _ _ => true
  | .refclkDelayExpiry _ => true
  | .feedGood _ _ _ _ _ => true
  | .feedLost _ _ _ _ => true
  | .railFault _ rail _ => rail < 16
  | .prsntNDeassert _ => true
  | .powerDownReset _ => true
  | .backupLost _ _ _ => true
  | .osf _ _ => true
  | .rtcCheck _ _ => true
  | .rtcCommit _ => true
  | .alarmFire _ => true
  | .wakeTimeout _ => true
  | .slewEnd _ => true
  | .heartbeatSend _ => true
  | .heartbeatMissed _ => true
  | .heartbeatConfirm _ _ => true
  | .twinLinkUp _ _ _ => true
  | .laneDown _ _ => true
  | .mirrorReceive _ _ _ => true
  | .readbackDiff _ _ _ _ => true
  | .digestCompare _ _ _ _ => true
  | .selfTestDone _ _ _ => true
  | .eccError _ _ _ => true
  | .leadAliveWatchdog _ => true
  | .yieldSafeTimeout _ => true
  | .yieldNAssert _ _ => true
  | .leadAliveDeassert _ => true
  | .thaw _ => true
  | .equinoxInstant _ => true
  | .equinoxClaim _ => true
  | .equinoxWindowEnd _ => true
  | .drillDue _ => true
  | .drillPostponed _ => true
  | .drillCheck _ _ => true
  | .exchangeImageStored _ _ => true
  | .mappingInstant _ => true
  | .syncTransferDone _ _ _ => true
  | .joinInstant _ => true
  | .recordWrite _ _ => true
  | .summaryRecord _ _ => true
  | .frameStart _ _ => true
  | .frameCheck _ _ => true
  | .keyPress _ _ _ => true
  | .tripPageReset _ _ _ => true
  | .ejectHold _ => true
  | .menuTimeout _ => true
  | .ejectLeverPulled _ => true
  | .ejectRetry _ => true
  | .ejectCancel _ => true
  | .counterClear _ off _ => off < 0x100000 && off % 4 == 0
  | .rtcSecRead _ => true
  | .clkMtRead _ => true
  | .piStatusRead _ _ => true
  | .bkupWrite _ _ _ => true
  | .regionWrite _ _ _ => true
  | .registerWrite _ off size _ => sizeOk size && off < 0x100000
  | .keelBroughtUp _ => true
  | .leadAliveReadEnd _ _ => true
  | .startSequenceComplete _ _ _ => true
  | .flashStoreDone _ _ => true
  | .passwordCheckDone _ => true
  | .mirrorAck _ _ => true
  | .heartbeatReceive _ _ => true
  | .winterRecovered _ _ => true
  | .pllLocked _ _ => true
  | .correctedLinkError _ _ => true
  | .ringLinkUp _ _ => true
  | .busOffRecovered _ _ => true
  | .basicCycleOpen _ _ => true
  | .fioTestSettled _ _ => true
  | .clTrimHold _ _ _ _ => true
  | .forceRefresh _ => true

end Sys2Proof
end

