-- ==== Sys2Proof/Certificates/Slice0/Obligations.lean ====
section
/-! DEFINITION. Certificates/Slice0/Obligations.lean: the statements for the provers. -/

open Sys2Proof Sys2Proof.Machine

/-- A step carries out the command at the front of the queue on the state with the queue's rest. -/
def Obligations.StepRunsFrontCommand : Prop :=
  ∀ (c : Instr) (s : State) (rest : List Instr),
    step { s with pending := c :: rest } = exec c { s with pending := rest }

/-- On an empty queue the block idles: the model's choice, log 1. -/
def Obligations.EmptyQueueIdles : Prop := ∀ s : State, s.pending = [] → step s = .next s

/-! ### The cycle core (06_cycle_instruction_set.md) -/

/-- Table 6-14's words are the words of the commands that its assembly column names (R197). -/
def Obligations.FragmentWords : Prop :=
  coreWord (.ldu 2 ⟨0, 1, 3, 0, 0, 2⟩) = some 0x081C0002#32 ∧ coreWord (.ldu 2 ⟨0, 2, 0, 0, 3, 0⟩) = some 0x08203000#32 ∧
  coreWord (.li 2 ⟨0, 4, 3⟩) = some 0x02400003#32 ∧ coreWord (.btst 2 ⟨0, 1, 1, 4⟩) = some 0x00109046#32 ∧
  coreWord (.pset 2 ⟨0, 3, 2, 0⟩) = some 0x00310065#32 ∧ coreWord (.por 2 ⟨0, 3, 1, 3⟩) = some 0x00308C61#32 ∧
  coreWord (.pandn 2 ⟨0, 3, 3, 2⟩) = some 0x00318863#32 ∧ coreWord (.pget 2 ⟨0, 2, 3, 0⟩) = some 0x00218064#32 ∧
  coreWord (.st 2 ⟨0, 2, 0, 0, 3, 0⟩) = some 0x0C203000#32 ∧ coreWord (.ton 2 ⟨0, 4, 3, 0, 2⟩) = some 0x06486002#32 ∧
  coreWord (.fmul 2 false ⟨0, 9, 7, 8⟩) = some 0x0093A082#32 ∧ coreWord (.endCycle 2 ⟨0, 0, 0, 0⟩) = some 0x00000101#32

/-- A word decodes to a core command exactly when it is legal and is that command's word for that task; every legal word
decodes (R197, R198, R203, R211, R212, R217). -/
def Obligations.CoreWordsDecodeAndEncodeAgree : Prop :=
  (∀ (task : Fin 64) (w : BitVec 32) (i : Instr),
    coreInstr task w = some i ↔ legalWord w = true ∧ coreWord i = some w ∧ coreTask i = some task) ∧
  ∀ (task : Fin 64) (w : BitVec 32), legalWord w = true → ∃ i, coreInstr task w = some i

/-- The words that R198 lists are the illegal ones: read from the fields of Table 6-1. -/
def Obligations.IllegalWordsOfR198 : Prop :=
  (∀ w : BitVec 32, bits w.toNat 25 3 = 7 → legalWord w = false) ∧
  (∀ f func, legalWord (encA f func) = legalA f.rd.toNat f.rs1.toNat f.rs2.toNat func.toNat) ∧
  (∀ f sub, legalWord (encI f sub) = true ↔ sub.toNat ≤ 10 ∧ (8 ≤ sub.toNat → f.imm.toNat < 64)) ∧
  (∀ f op, legalWord (encB f op) = true ↔ op.toNat ≤ 1) ∧
  (∀ f kind, legalWord (encT f kind) = true ↔
    (1 ≤ kind.toNat ∧ kind.toNat ≤ 5 ∧ f.dst.toNat < 16) ∨ (kind = 6 ∧ f.ps = 0)) ∧
  (∀ f (major : BitVec 3), 4 ≤ major.toNat → major.toNat ≤ 6 → (legalWord (encM f major) = true ↔ f.space ≠ 7))

/-- g0 reads as 0 and p0 as 1; writing either changes nothing; any other register or predicate reads back what was
written, and no other one changes (R193). -/
def Obligations.RegistersAndPredicates : Prop :=
  (∀ (c : Cyc) v, c.reg 0 = 0 ∧ c.setReg 0 v = c) ∧ (∀ (c : Cyc) b, c.pred 0 = true ∧ c.setPred 0 b = c) ∧
  (∀ (c : Cyc) (r q : BitVec 5) v, r ≠ 0 → (c.setReg r v).reg q = if q = r then v else c.reg q) ∧
  (∀ (c : Cyc) (p q : Nat) b, p ≠ 0 → p < 16 → q < 16 → (c.setPred p b).pred q = if q = p then b else c.pred q)

/-- Integer instructions write the results of Table 6-3, modulo 2^64, with the whole frame (R203). -/
def Obligations.IntegerResults : Prop :=
  Writes .add 0x000#10 (fun a b => a + b) ∧ Writes .sub 0x001#10 (fun a b => a - b) ∧
  Writes .mul 0x002#10 (fun a b => a * b) ∧
  Writes .mulh 0x003#10 (fun a b => ((a.signExtend 128 * b.signExtend 128) >>> 64).setWidth 64) ∧
  Writes .mulhu 0x004#10 (fun a b => ((a.setWidth 128 * b.setWidth 128) >>> 64).setWidth 64) ∧
  Writes .min 0x009#10 (fun a b => if a.sle b then a else b) ∧ Writes .max 0x00A#10 (fun a b => if a.sle b then b else a) ∧
  Writes .and 0x010#10 (fun a b => a &&& b) ∧ Writes .or 0x011#10 (fun a b => a ||| b) ∧
  Writes .xor 0x012#10 (fun a b => a ^^^ b) ∧ Writes .andn 0x013#10 (fun a b => a &&& ~~~b) ∧
  Writes .shl 0x014#10 (fun a b => a <<< (b &&& 63#64)) ∧ Writes .shr 0x015#10 (fun a b => a >>> (b &&& 63#64)) ∧
  Writes .sar 0x016#10 (fun a b => a.sshiftRight' (b &&& 63#64))

/-- DIV, DIVU, REM and REMU: the quotient toward zero and its remainder; a divisor of 0 writes 0, sets the sticky bit and
raises no trap; −2^63 by −1 gives −2^63 and remainder 0 (R204). -/
def Obligations.Divisions : Prop :=
  Divides .div 0x005#10 (fun a b => a.sdiv b) ∧ Divides .divu 0x006#10 (fun a b => a / b) ∧
  Divides .rem 0x007#10 (fun a b => a.srem b) ∧ Divides .remu 0x008#10 (fun a b => a % b) ∧
  BitVec.sdiv 0x8000000000000000#64 (-1#64) = 0x8000000000000000#64 ∧ BitVec.srem 0x8000000000000000#64 (-1#64) = 0

/-- BFX, BFXS and BFI: position and length as R205 takes them from rs2, each bit of the result as Table 6-3 says. -/
def Obligations.BitFields : Prop :=
  Writes .bfx 0x018#10 bfExtract ∧ Writes .bfxs 0x019#10 bfExtractS ∧
  (∀ (s : State) (task : Fin 64) (f : FmtA) (d : TaskDef) (c : Cyc),
    s.runs task (encA f 0x01A#10) d c → c.pred f.pred.toNat = true →
    exec (.bfi task f) s =
      .next (s.putCyc task (c.setReg f.rd (bfInsert (c.reg f.rd) (c.reg f.rs1) (c.reg f.rs2))).next)) ∧
  (∀ v : BitVec 64, bfPos v = (v &&& 63#64).toNat ∧
    bfLen v = Nat.min ((v >>> 8) &&& 127#64).toNat (64 - bfPos v)) ∧
  (∀ (a v : BitVec 64) (i : Nat), i < 64 →
    (bfExtract a v).getLsbD i = (decide (i < bfLen v) && a.getLsbD (bfPos v + i)) ∧
    (bfExtractS a v).getLsbD i =
      if bfLen v = 0 then false else a.getLsbD (bfPos v + Nat.min i (bfLen v - 1))) ∧
  (∀ (r a v : BitVec 64) (i : Nat), i < 64 →
    (bfInsert r a v).getLsbD i =
      if bfPos v ≤ i ∧ i < bfPos v + bfLen v then a.getLsbD (i - bfPos v) else r.getLsbD i)

/-- Compare and predicate instructions write the predicate of Table 6-4, with the whole frame; PGET writes a register. -/
def Obligations.CompareAndPredicateResults : Prop :=
  Tests .ceq 0x040#10 (fun a b => a == b) ∧ Tests .cne 0x041#10 (fun a b => a != b) ∧
  Tests .clt 0x042#10 (fun a b => decide (a.toInt < b.toInt)) ∧ Tests .cle 0x043#10 (fun a b => decide (a.toInt ≤ b.toInt)) ∧
  Tests .cltu 0x044#10 (fun a b => decide (a.toNat < b.toNat)) ∧
  Tests .cleu 0x045#10 (fun a b => decide (a.toNat ≤ b.toNat)) ∧
  Tests .btst 0x046#10 (fun a b => a.getLsbD (b &&& 63#64).toNat) ∧
  Joins .pand 0x060#10 (fun a b => a && b) ∧ Joins .por 0x061#10 (fun a b => a || b) ∧
  Joins .pxor 0x062#10 (fun a b => a ^^ b) ∧ Joins .pandn 0x063#10 (fun a b => a && !b) ∧
  (∀ (s : State) (task : Fin 64) (f : FmtA) (d : TaskDef) (c : Cyc),
    s.runs task (encA f 0x064#10) d c → c.pred f.pred.toNat = true → f.rs1.toNat < 16 → f.rs2 = 0 →
    exec (.pget task f) s =
      .next (s.putCyc task (c.setReg f.rd (if c.pred f.rs1.toNat then 1#64 else 0#64)).next)) ∧
  (∀ (s : State) (task : Fin 64) (f : FmtA) (d : TaskDef) (c : Cyc),
    s.runs task (encA f 0x065#10) d c → c.pred f.pred.toNat = true → f.rd.toNat < 16 → f.rs2 = 0 →
    exec (.pset task f) s = .next (s.putCyc task (c.setPred f.rd.toNat (c.reg f.rs1 != 0)).next))

/-- Floating-point instructions write the results of Table 6-5 in both formats: a binary32 operand is bits 31:0, and a
binary32 result has its upper half 0 (R206). -/
def Obligations.FloatingPointResults : Prop :=
  ∀ d : Bool,
    let t := Fmt.ofD d
    let x := fpArg d
    Writes (.fadd · d) (fpFunc 0x080#10 d) (fun a b => fpRes (t.add (x a) (x b))) ∧
    Writes (.fsub · d) (fpFunc 0x081#10 d) (fun a b => fpRes (t.sub (x a) (x b))) ∧
    Writes (.fmul · d) (fpFunc 0x082#10 d) (fun a b => fpRes (t.mul (x a) (x b))) ∧
    Writes (.fdiv · d) (fpFunc 0x083#10 d) (fun a b => fpRes (t.div (x a) (x b))) ∧
    Writes1 (.fsqrt · d) (fpFunc 0x084#10 d) (fun a => fpRes (t.sqrt (x a))) ∧
    (∀ (s : State) (task : Fin 64) (f : FmtA) (k : TaskDef) (c : Cyc),
      s.runs task (encA f (fpFunc 0x085#10 d)) k c → c.pred f.pred.toNat = true →
      exec (.fma task d f) s = .next (s.putCyc task
        (c.setReg f.rd (fpRes (t.fma (x (c.reg f.rs1)) (x (c.reg f.rs2)) (x (c.reg f.rd))))).next)) ∧
    Writes (.fmin · d) (fpFunc 0x086#10 d) (fun a b => fpRes (t.fmin (x a) (x b))) ∧
    Writes (.fmax · d) (fpFunc 0x087#10 d) (fun a b => fpRes (t.fmax (x a) (x b))) ∧
    Writes1 (.fneg · d) (fpFunc 0x088#10 d) (fun a => fpRes (t.neg (x a))) ∧
    Writes1 (.fabs · d) (fpFunc 0x089#10 d) (fun a => fpRes (t.abs (x a))) ∧
    Tests (.fceq · d) (fpFunc 0x08A#10 d) (fun a b => t.eq (x a) (x b)) ∧
    Tests (.fclt · d) (fpFunc 0x08B#10 d) (fun a b => t.lt (x a) (x b)) ∧
    Tests (.fcle · d) (fpFunc 0x08C#10 d) (fun a b => t.le (x a) (x b)) ∧
    Tests (.fcun · d) (fpFunc 0x08D#10 d) (fun a b => t.nan (x a) || t.nan (x b)) ∧
    Writes1 (.ftoi · d) (fpFunc 0x08E#10 d) (fun a => BitVec.ofInt 64 (t.toI64 true (x a))) ∧
    Writes1 (.ftrunc · d) (fpFunc 0x08F#10 d) (fun a => BitVec.ofInt 64 (t.toI64 false (x a))) ∧
    Writes1 (.itof · d) (fpFunc 0x090#10 d) (fun a => fpRes (t.ofInt a.toInt)) ∧
    Writes1 (.fcvt · d) (fpFunc 0x091#10 d) (fun a => fpRes (t.cvt (Fmt.ofD (!d)) (x a)))

/-- The special operands of R210, in both formats and for every operand pattern: division by zero, which sets no DIV_ZERO
bit (FDIV writes its register and steps, whatever its operands), square roots of minus zero and of values below zero,
minimum and maximum, compares, and conversion to integers out of range. The first nine clauses tie the operations to the
instructions; the others are about the operations. -/
def Obligations.SpecialOperandsOfR210 : Prop :=
  ∀ d : Bool,
    let t := Fmt.ofD d
    Writes (.fdiv · d) (fpFunc 0x083#10 d) (fun a b => fpRes (t.div (fpArg d a) (fpArg d b))) ∧
    Writes1 (.fsqrt · d) (fpFunc 0x084#10 d) (fun a => fpRes (t.sqrt (fpArg d a))) ∧
    Writes (.fmin · d) (fpFunc 0x086#10 d) (fun a b => fpRes (t.fmin (fpArg d a) (fpArg d b))) ∧
    Writes (.fmax · d) (fpFunc 0x087#10 d) (fun a b => fpRes (t.fmax (fpArg d a) (fpArg d b))) ∧
    Tests (.fceq · d) (fpFunc 0x08A#10 d) (fun a b => t.eq (fpArg d a) (fpArg d b)) ∧
    Tests (.fclt · d) (fpFunc 0x08B#10 d) (fun a b => t.lt (fpArg d a) (fpArg d b)) ∧
    Tests (.fcle · d) (fpFunc 0x08C#10 d) (fun a b => t.le (fpArg d a) (fpArg d b)) ∧
    Writes1 (.ftoi · d) (fpFunc 0x08E#10 d) (fun a => BitVec.ofInt 64 (t.toI64 true (fpArg d a))) ∧
    Writes1 (.ftrunc · d) (fpFunc 0x08F#10 d) (fun a => BitVec.ofInt 64 (t.toI64 false (fpArg d a))) ∧
    (∀ a b s₁ m₁ e₁ s₂ e₂, t.decode a = .fin s₁ m₁ e₁ → t.decode b = .fin s₂ 0 e₂ →
      t.div a b = if m₁ = 0 then t.nanBits else t.signBit (s₁ != s₂) + t.infBits) ∧
    t.sqrt (t.signBit true) = t.signBit true ∧
    (∀ a, t.lt a 0 = true → t.sqrt a = t.nanBits) ∧
    (∀ a b, t.nan a = true ∨ t.nan b = true →
      t.fmin a b = t.nanBits ∧ t.fmax a b = t.nanBits ∧ t.eq a b = false ∧ t.lt a b = false ∧ t.le a b = false) ∧
    (let n := t.signBit true
     t.fmin n 0 = n ∧ t.fmin 0 n = n ∧ t.fmax n 0 = 0 ∧ t.fmax 0 n = 0 ∧
     t.eq n 0 = true ∧ t.eq 0 n = true ∧ t.lt n 0 = false ∧ t.lt 0 n = false ∧ t.le n 0 = true ∧ t.le 0 n = true) ∧
    (∀ near a,
      (t.nan a = true → t.toI64 near a = 0) ∧
      (t.le (t.ofInt (2 ^ 63)) a = true → t.toI64 near a = 2 ^ 63 - 1) ∧
      (t.le a (t.ofInt (-(2 ^ 63))) = true → t.toI64 near a = -(2 ^ 63)))

/-- Every NaN that a floating-point instruction writes is the canonical one, FNEG, FABS and FCVT of a NaN included
(R209). -/
def Obligations.NansAreCanonical : Prop :=
  f32.nanBits = 0x7FC00000 ∧ f64.nanBits = 0x7FF8000000000000 ∧
  ∀ d : Bool,
    let t := Fmt.ofD d
    let u := Fmt.ofD (!d)
    ∀ a b c : Nat, ∀ i : Int,
      (∀ r ∈ [t.add a b, t.sub a b, t.mul a b, t.div a b, t.sqrt a, t.fma a b c, t.fmin a b, t.fmax a b, t.neg a, t.abs a,
        t.ofInt i], t.nan r = true → r = t.nanBits) ∧
      (u.nan (t.cvt u a) = true → t.cvt u a = u.nanBits) ∧
      (t.nan a = true → t.neg a = t.nanBits ∧ t.abs a = t.nanBits ∧ t.cvt u a = u.nanBits)

/-- Immediate instructions write the results of Table 6-6 (R211). -/
def Obligations.ImmediateResults : Prop :=
  Sets .li 0#4 (fun _ i => i.signExtend 64) ∧
  Sets .lih1 1#4 (fun r i => (r &&& 0xFFFFFFFF0000FFFF#64) ||| (i.setWidth 64 <<< 16)) ∧
  Sets .lih2 2#4 (fun r i => (r &&& 0xFFFF0000FFFFFFFF#64) ||| (i.setWidth 64 <<< 32)) ∧
  Sets .lih3 3#4 (fun r i => (r &&& 0x0000FFFFFFFFFFFF#64) ||| (i.setWidth 64 <<< 48)) ∧
  Sets .addi 4#4 (fun r i => r + i.signExtend 64) ∧ Sets .andi 5#4 (fun r i => r &&& i.setWidth 64) ∧
  Sets .ori 6#4 (fun r i => r ||| i.setWidth 64) ∧ Sets .xori 7#4 (fun r i => r ^^^ i.setWidth 64) ∧
  Sets .shli 8#4 (fun r i => r <<< i.toNat) ∧ Sets .shri 9#4 (fun r i => r >>> i.toNat) ∧
  Sets .sari 10#4 (fun r i => r.sshiftRight i.toNat)

/-- Branches, calls and control: BR goes to its own offset plus four times OFFSET; CALL stores the return offset at a new top
of the stack and RET takes it from there; END ends the cycle; FENCE holds a speculative cycle only; TSR writes the word of
its selector (R212 to R216, Table 6-9). -/
def Obligations.BranchAndControlResults : Prop :=
  ∀ (s : State) (task : Fin 64) (d : TaskDef) (c : Cyc),
    (∀ f : FmtB, s.runs task (encB f 0#5) d c → c.pred f.pred.toNat = true →
      exec (.br task f) s =
        .next (s.putCyc task { c with pc := (((c.pc : Int) + 4 * f.off.toInt) % 2 ^ 64).toNat })) ∧
    (∀ f : FmtB, s.runs task (encB f 1#5) d c → c.pred f.pred.toNat = true →
      let sp := (c.reg 30).toNat
      8 ≤ sp → sp % 8 = 0 → sp ≤ d.stkSize →
      exec (.call task f) s =
        .next (s.putCyc task
          { (c.setReg 30 (c.reg 30 - 8#64)) with
              sp := { c.sp with stk := mwrite c.sp.stk (sp - 8) (leBytes 8 (c.pc + 4)) }
              pc := (((c.pc : Int) + 4 * f.off.toInt) % 2 ^ 64).toNat })) ∧
    (∀ f : FmtA, s.runs task (encA f 0x100#10) d c → c.pred f.pred.toNat = true → f.rd = 0 → f.rs1 = 0 → f.rs2 = 0 →
      let sp := (c.reg 30).toNat
      sp % 8 = 0 → sp + 8 ≤ d.stkSize →
      exec (.ret task f) s =
        .next (s.putCyc task { (c.setReg 30 (BitVec.ofNat 64 (sp + 8))) with pc := leNat (mread c.sp.stk sp 8) })) ∧
    (∀ f : FmtA, s.runs task (encA f 0x101#10) d c → c.pred f.pred.toNat = true → f.rd = 0 → f.rs1 = 0 → f.rs2 = 0 →
      exec (.endCycle task f) s = .next (s.putCyc task { c with done := true })) ∧
    (∀ f : FmtA, s.runs task (encA f 0x102#10) d c → c.pred f.pred.toNat = true → f.rd = 0 → f.rs1 = 0 → f.rs2 = 0 →
      exec (.fence task f) s = .next (s.putCyc task (if c.spec then { c with held := true } else c.next))) ∧
    (∀ f : FmtA, s.runs task (encA f 0x103#10) d c → c.pred f.pred.toNat = true → f.rs1 = 0 → f.rs2.toNat < 8 →
      exec (.tsr task f) s = .next (s.putCyc task (c.setReg f.rd (BitVec.ofNat 64
        (match f.rs2.toNat with
         | 0 => c.start | 1 => d.period * 10000 | 2 => c.n
         | 3 => if c.divZero || (s.task task.val).fault.getLsbD 0 then 1 else 0
         | 4 => task.val | 5 => c.start + d.harvest * 10000 | 6 => s.modes.rstMt | _ => s.modes.rstKind))).next))

/-- Loads and stores that pass R200 reach the byte address modulo 2^64: LDU zero-extends, LDS sign-extends, ST writes the low
bytes; a performed load from IN records its 8-byte word in the read set, and nothing else does (R200 to R202). The store
clause gives the written space whole; `written` notes the words that the harvest compares. -/
def Obligations.LoadAndStoreResults : Prop :=
  ∀ (s : State) (task : Fin 64) (f : FmtM) (d : TaskDef) (c : Cyc),
    let a := ((c.reg (f.base.setWidth 5)).toNat + f.off.toNat * 2 ^ f.w.toNat) % 2 ^ 64
    let n := 2 ^ f.w.toNat
    a % n = 0 → a + n ≤ d.size f.space.toNat → f.space ≠ 7 → c.pred f.pred.toNat = true →
    (∀ m : Mem,
      m = (match f.space.toNat with
        | 0 => c.img | 1 => c.sp.out | 2 => c.sp.var | 3 => c.sp.ret | 4 => (s.task task.val).con | 5 => c.sp.inst
        | _ => c.sp.stk) →
      let v := BitVec.ofNat (8 * n) (leNat (mread m a n))
      (f.space ≠ 0 →
        (s.runs task (encM f 4#3) d c →
          exec (.ldu task f) s = .next (s.putCyc task (c.setReg f.rd (v.setWidth 64)).next)) ∧
        (s.runs task (encM f 5#3) d c →
          exec (.lds task f) s = .next (s.putCyc task (c.setReg f.rd (v.signExtend 64)).next))) ∧
      (f.space = 0 → c.readSet.length < 4096 →
        let k := { c with readSet := if c.readSet.contains (a / 8) then c.readSet else a / 8 :: c.readSet }
        (s.runs task (encM f 4#3) d c →
          exec (.ldu task f) s = .next (s.putCyc task (k.setReg f.rd (v.setWidth 64)).next)) ∧
        (s.runs task (encM f 5#3) d c →
          exec (.lds task f) s = .next (s.putCyc task (k.setReg f.rd (v.signExtend 64)).next)))) ∧
    (s.runs task (encM f 6#3) d c → f.space ≠ 0 → f.space ≠ 4 →
      ∃ wr : List (Nat × Nat),
        let b := leBytes n (c.reg f.rd).toNat
        exec (.st task f) s = .next (s.putCyc task
          { c.next with
              written := wr
              sp := match f.space.toNat with
                | 1 => { c.sp with out := mwrite c.sp.out a b } | 2 => { c.sp with var := mwrite c.sp.var a b }
                | 3 => { c.sp with ret := mwrite c.sp.ret a b } | 5 => { c.sp with inst := mwrite c.sp.inst a b }
                | _ => { c.sp with stk := mwrite c.sp.stk a b } }))

/-- TON, TOF, TP, RTRIG and FTRIG on a record of their kind: the record's words from START to STATE and the output predicate
become those of the step of R219, and nothing else changes; TET writes the elapsed time of R220 and leaves the record. -/
def Obligations.TimerAndEdgeResults : Prop :=
  ∀ (s : State) (task : Fin 64) (f : FmtT) (d : TaskDef) (c : Cyc),
    let a := ((c.reg (f.ibase.setWidth 5)).toNat + 32 * f.index.toNat) % 2 ^ 64
    let r := TRec.read (mread c.sp.inst a 32)
    a % 32 = 0 → a + 32 ≤ d.instSize → c.pred f.pred.toNat = true →
    (∀ (i : Fin 64 → FmtT → Instr) (k : BitVec 3) (g : Nat → Bool → TRec → TRec),
      (i, k, g) ∈ [(Instr.ton, 1#3, tonStep), (.tof, 2#3, tofStep), (.tp, 3#3, tpStep), (.rtrig, 4#3, rtrigStep),
        (.ftrig, 5#3, ftrigStep)] →
      s.runs task (encT f k) d c → r.kind = k.toNat → f.dst.toNat < 16 →
      ∃ wr : List (Nat × Nat),
        let q := g c.start (c.pred f.ps.toNat) r
        exec (i task f) s = .next (s.putCyc task
          { (c.setPred f.dst.toNat q.q).next with
              written := wr, sp := { c.sp with inst := mwrite c.sp.inst (a + 8) q.bytes } })) ∧
    (s.runs task (encT f 6#3) d c → 1 ≤ r.kind → r.kind ≤ 3 → f.ps = 0 →
      exec (.tet task f) s = .next (s.putCyc task (c.setReg f.dst (BitVec.ofNat 64
        (if r.run then Nat.min ((c.start + 2 ^ 64 - r.start) % 2 ^ 64) r.preset else if r.exp then r.preset else 0))).next))

/-- The steps of R219, case by case: the input, the memory and the record decide Q, RUN, EXP and START. -/
def Obligations.TimerStepsOfR219 : Prop :=
  ∀ (now : Nat) (r : TRec) (i : Bool),
    let e (st : Nat) := (now + 2 ^ 64 - st) % 2 ^ 64
    (∀ q ∈ [tonStep now i r, tofStep now i r, tpStep now i r, rtrigStep now i r, ftrigStep now i r],
      q.mem = i ∧ q.preset = r.preset ∧ q.kind = r.kind) ∧
    (let q := tonStep now i r
     (i = false → q.q = false ∧ q.run = false ∧ q.exp = false) ∧
     (i = true → r.mem = false → q.start = now ∧ q.q = decide (r.preset ≤ e now)) ∧
     (i = true → r.mem = true → r.run = true → q.q = (r.q || decide (r.preset ≤ e r.start)) ∧ q.start = r.start) ∧
     (i = true → r.mem = true → r.run = false → q.q = r.q ∧ q.exp = r.exp)) ∧
    (let q := tofStep now i r
     (i = true → q.q = true ∧ q.run = false ∧ q.exp = false) ∧
     (i = false → r.mem = true → q.start = now ∧ q.q = (r.q && !decide (r.preset ≤ e now))) ∧
     (i = false → r.mem = false → r.run = true → q.q = (r.q && !decide (r.preset ≤ e r.start)))) ∧
    (let q := tpStep now i r
     (i = true → r.mem = false → r.run = false → q.start = now ∧ q.q = !decide (r.preset ≤ e now)) ∧
     (r.run = true → q.start = r.start ∧ q.q = (r.q && !decide (r.preset ≤ e r.start)))) ∧
    (rtrigStep now i r).q = (!r.arm && i && !r.mem) ∧ (ftrigStep now i r).q = (!r.arm && r.mem && !i) ∧
    (rtrigStep now i r).arm = false ∧ (ftrigStep now i r).arm = false

/-- A core command whose predicate reads 0 only steps past its word; predicate 0 always reads 1 (R199). -/
def Obligations.FalsePredicateOnlySteps : Prop :=
  (∀ c : Cyc, c.pred 0 = true) ∧
  ∀ (i : Instr) (w : BitVec 32) (s : State) (task : Fin 64) (d : TaskDef) (c : Cyc),
    coreWord i = some w → coreTask i = some task → s.runs task w d c → c.pred (bits w.toNat 28 4) = false →
    exec i s = .next (s.putCyc task c.next)

/-- A core command that does not stand under the task's program counter, where a legal word of another command does, has
no effect: the words at the counters decide what runs (R196). -/
def Obligations.OtherWordsDoNothing : Prop :=
  ∀ (i : Instr) (w v : BitVec 32) (s : State) (task : Fin 64) (d : TaskDef) (c : Cyc),
    coreWord i = some w → coreTask i = some task → s.runs task v d c → v ≠ w → legalWord v = true →
    exec i s = .next s

/-- Traps (R196, R198, R201, R213, R217, R218, R222, R223): a fetch outside CODE, an illegal word whose predicate reads 1,
an access that fails its tests, a bad stack pointer or a record of another kind trap at every command of the task: a
cycle that is not speculative becomes a task fault, with the fault bit, the event and HOLD; a speculative one keeps the trap. -/
def Obligations.TrapsOfTheCore : Prop :=
  ∀ (s : State) (task : Fin 64) (d : TaskDef) (c : Cyc),
    let trapped (b : Nat) : Host.Outcome State Fault Refusal := .next (
      if c.spec then s.putCyc task { c with trap := some (b, c.pc) } else s.taskFault task.val b c.pc)
    (∀ i, coreTask i = some task → s.modes.mode = .run → s.taskDef task.val = some d → (s.task task.val).cyc = some c →
      c.done = false → c.held = false → c.trap = none →
      (∃ g, s.prog.loaded = some g ∧ fetchWord g c.pc = none ∧ s.coreWaits g d c = false) → exec i s = trapped 2) ∧
    (∀ i w, coreTask i = some task → s.runs task w d c → legalWord w = false → c.pred (bits w.toNat 28 4) = true →
      exec i s = trapped 2) ∧
    (∀ f : FmtM, c.pred f.pred.toNat = true → f.space ≠ 7 →
      (mOk ⟨s, {}, d, s.task task.val, task.val⟩ c f = false → s.runs task (encM f 4#3) d c → exec (.ldu task f) s = trapped 1) ∧
      (mOk ⟨s, {}, d, s.task task.val, task.val⟩ c f = false → s.runs task (encM f 5#3) d c → exec (.lds task f) s = trapped 1) ∧
      (f.space = 0 ∨ f.space = 4 ∨ mOk ⟨s, {}, d, s.task task.val, task.val⟩ c f = false →
        s.runs task (encM f 6#3) d c → exec (.st task f) s = trapped 1)) ∧
    (∀ f : FmtB, c.pred f.pred.toNat = true → s.runs task (encB f 1#5) d c →
      ((c.reg 30).toNat % 8 ≠ 0 ∨ (c.reg 30).toNat < 8 ∨ d.stkSize < (c.reg 30).toNat) → exec (.call task f) s = trapped 3) ∧
    (∀ f : FmtT, c.pred f.pred.toNat = true → s.runs task (encT f 6#3) d c → f.ps = 0 →
      (tAddr c f % 32 ≠ 0 ∨ d.instSize < tAddr c f + 32) → exec (.tet task f) s = trapped 1)

/-! ### Contexts, doorbells and requests (02_host_rings.md) -/

/-- Contexts and the PCIe link: what enabling, disabling, a hold-off's end and a change of the link leave (R55, R56, R62, R79,
R80). -/
def Obligations.ContextsAndLink : Prop :=
  (∀ (n : Fin 256) w memOk, After (.ctxEnable · n w memOk)
    (fun u => u.live ∧ w.getLsbD 31 ∧ (u.ctx n.val).state = .disabled ∧ ((u.ctx n.val).withConfig w).badEntry = none)
    (fun u => u.setCtx n.val (((u.ctx n.val).withConfig w).activate (u.host.linkEpoch % 256) memOk))) ∧
  (∀ (n : Fin 256) w memOk k, After (.ctxEnable · n w memOk)
    (fun u => u.live ∧ w.getLsbD 31 ∧ (u.ctx n.val).state = .disabled ∧ ((u.ctx n.val).withConfig w).badEntry = some k)
    (fun u => (u.setCtx n.val ((u.ctx n.val).withConfig w)).ctxError n.val k)) ∧
  (∀ (c : Ctx) e m, let k := c.activate e m
    k.state = .active ∧ k.reason = 0 ∧ k.sqHead = 0 ∧ k.sqTail = 0 ∧ k.cqHead = 0 ∧ k.cqTail = 0 ∧ k.inflight = 0 ∧ k.phase = true) ∧
  (∀ (n : Fin 256) w, w.getLsbD 31 = false →
    After (.ctxDisable · n w) (fun u => u.live ∧ (u.ctx n.val).state = .active)
      (fun u => u.setCtx n.val { u.ctx n.val with
        enable := false, state := if (u.ctx n.val).inflight = 0 then .disabled else .active }) ∧
    After (.ctxDisable · n w) (fun u => u.live ∧ ((u.ctx n.val).state = .stopped ∨ (u.ctx n.val).state = .error))
      (fun u => (u.setCtx n.val { u.ctx n.val with enable := false, state := .disabled, inflight := 0 }).orphan n.val)) ∧
  (∀ v : Fin 64, After (.irqHoldoffExpiry · v)
    (fun u => (tget u.host.vecs v.val {}).deferred ∧ (tget u.host.vecs v.val {}).last.getD 0 + u.host.irqHoldoff * 1000 ≤ u.now)
    (fun u => u.msix v.val)) ∧
  (∀ (s : State) (t : Nat), s.host.link = true → ∃ u, exec (.pcieLinkDown t) s = .next u ∧
    u.host.link = false ∧ u.host.speed = 0 ∧ u.host.width = 0 ∧ u.out = s.out ∧
    ∀ n, (u.ctx n).state = if (s.ctx n).state = .active then .stopped else (s.ctx n).state) ∧
  (∀ (s : State) (t gen width : Nat), s.live = true → s.host.link = false → 1 ≤ gen → gen ≤ 4 → width ∈ [1, 2, 4] →
    ∃ u, exec (.pcieLinkUp t gen width) s = .next u ∧ u.host.link = true ∧ u.host.speed = gen ∧ u.host.width = width ∧
      u.host.linkEpoch = (s.host.linkEpoch + 1) % 2 ^ 32 ∧ u.mgmt.hostDownAt = none)

/-- Doorbells: an aligned 32-bit write to an ACTIVE context's own offset moves its tail or head; a value outside the ring puts
the context in ERROR with reason 5; any other write is counted (R58). -/
def Obligations.Doorbells : Prop :=
  (∀ (n : Fin 256) v,
    After (.submissionDoorbell · (128 * n.val) 4 v)
      (fun u => u.live ∧ (u.ctx n.val).state = .active ∧ (u.ctx n.val).stream = false ∧ v.toNat < (u.ctx n.val).depth)
      (fun u => u.wakeEngine.setCtx n.val { u.ctx n.val with sqTail := v.toNat }) ∧
    After (.completionDoorbell · (128 * n.val + 64) 4 v)
      (fun u => u.live ∧ (u.ctx n.val).state = .active ∧ v.toNat < (u.ctx n.val).depth)
      (fun u => u.wakeEngine.setCtx n.val { u.ctx n.val with cqHead := v.toNat }) ∧
    After (.submissionDoorbell · (128 * n.val) 4 v)
      (fun u => u.live ∧ (u.ctx n.val).state = .active ∧ (u.ctx n.val).stream = false ∧ (u.ctx n.val).depth ≤ v.toNat)
      (fun u => u.wakeEngine.ctxError n.val 5)) ∧
  (∀ off size v, (size ≠ 4 ∨ off % 64 ≠ 0 ∨ 32768 ≤ off) →
    After (.submissionDoorbell · off size v) (fun u => u.live) (fun u => u.wakeEngine.dropDoorbell) ∧
    After (.completionDoorbell · off size v) (fun u => u.live) (fun u => u.wakeEngine.dropDoorbell)) ∧
  (∀ s : State, s.dropDoorbell.host.doorbellDrop = (if s.host.doorbellDrop < 0xFFFFFFFF then s.host.doorbellDrop + 1 else s.host.doorbellDrop))

/-- Requests enter: DESCRIPTOR_FETCH takes the descriptor of the context that the engine grants and checks it, and a failed read puts
the context in ERROR with reason 6; DESCRIPTOR_RELEASE makes a waiting request ready once nothing of its context holds it back;
SIDEBAND_DATAGRAM serves, queues, answers again from the replay store, or drops and counts a datagram to port 47100 and answers
an echo request, and SIDEBAND_DEQUEUE serves the oldest one queued; SB_LINK_CHANGE and SB_CONFIG_WRITE set the port's link. -/
def Obligations.RequestsEnter : Prop :=
  (∀ (n : Fin 256) d buf ok,
    After (.descriptorFetch · n (some d) buf ok)
      (fun u => u.live ∧ u.host.link ∧ u.host.engine ∧ (u.ctx n.val).mayFetch ∧ u.engineGrants n.val)
      (fun u => ({ u with host := { u.host with fetchAt := some u.now } }).fetchDesc n.val d buf ok) ∧
    After (.descriptorFetch · n none buf ok)
      (fun u => u.live ∧ u.host.link ∧ u.host.engine ∧ (u.ctx n.val).mayFetch ∧ u.engineGrants n.val)
      (fun u => ({ u with host := { u.host with fetchAt := some u.now } }).ctxError n.val 6)) ∧
  (∀ (s : State) n, (s.ctx n).mayFetch = true ↔
    (s.ctx n).state = .active ∧ (s.ctx n).enable = true ∧ (s.ctx n).stream = false ∧ (s.ctx n).sqHead ≠ (s.ctx n).sqTail ∧
    (s.ctx n).inflight + (s.ctx n).unread + 1 < (s.ctx n).depth) ∧
  (∀ (s : State) n, s.engineGrants n = true ↔ s.host.fetchAt ≠ some s.now ∧
    ∀ e ∈ s.host.ctxs, e.2.mayFetch = true →
      ¬(e.2.cls < (s.ctx n).cls ∨ (e.2.cls = (s.ctx n).cls ∧ e.1 < n))) ∧
  (∀ rid r, After (.descriptorRelease · rid) (fun u => u.findReq rid = some r ∧ r.phase = .waiting ∧ u.heldBack r = false)
    (fun u => u.updReq rid (fun q => { q with phase := .ready }))) ∧
  (∀ (s : State) r, s.heldBack r = true ↔ ∃ q ∈ s.host.reqs,
    sameContext q.src r.src = true ∧ q.rid < r.rid ∧ (q.target = r.target ∨ r.flags.getLsbD 1 = true)) ∧
  (∀ peer dst b, let arrives (t : Nat) := Instr.sidebandDatagram t peer { dst := dst, content := .udp 47100 b }
    After arrives
      (fun u => u.sentryUp ∧ u.ownAddr dst ∧ sbAccepts b ∧ u.replayOf peer b = none ∧ u.mgmt.sbInHand = none ∧
        u.mgmt.sbQueue = []) (fun u => u.serve peer b) ∧
    (∀ resp, After arrives (fun u => u.sentryUp ∧ u.ownAddr dst ∧ sbAccepts b ∧ u.replayOf peer b = some resp)
      (fun u => u.emit (.sbResponse peer resp))) ∧
    After arrives (fun u => u.sentryUp ∧ u.ownAddr dst ∧ sbAccepts b = false)
      (fun u => { u with mgmt := { u.mgmt with sbDrops := satInc u.mgmt.sbDrops } }) ∧
    After arrives
      (fun u => u.sentryUp ∧ u.ownAddr dst ∧ sbAccepts b ∧ u.replayOf peer b = none ∧ u.mgmt.sbInHand.isSome ∧
        4 ≤ u.mgmt.sbQueue.length)
      (fun u => { u with mgmt := { u.mgmt with sbDrops := satInc u.mgmt.sbDrops } }) ∧
    After arrives
      (fun u => u.sentryUp ∧ u.ownAddr dst ∧ sbAccepts b ∧ u.replayOf peer b = none ∧ u.mgmt.sbInHand.isSome ∧
        u.mgmt.sbQueue.length < 4)
      (fun u => { u with mgmt := { u.mgmt with sbQueue := u.mgmt.sbQueue ++ [(peer, b)] } })) ∧
  (∀ peer dst data, After (.sidebandDatagram · peer { dst := dst, content := .echo data }) (fun u => u.sentryUp ∧ u.ownAddr dst)
    (fun u => u.emit (.echoReply peer.addr dst data))) ∧
  (∀ peer dst p, After (.sidebandDatagram · peer { dst := dst, fragment := true, content := p }) (fun _ => True) (fun u => u)) ∧
  (∀ peer b rest, After .sidebandDequeue
    (fun u => u.sentryUp ∧ u.mgmt.sbInHand = none ∧ u.mgmt.sbQueue = (peer, b) :: rest)
    (fun u => ({ u with mgmt := { u.mgmt with sbQueue := rest } }).serve peer b)) ∧
  (∀ ok low, After (.sbLinkChange · ok low) (fun u => u.live)
    (fun u => { u with mgmt := { u.mgmt with
      sbLink := ok, sbAmpl := if u.mgmt.anOff || u.mgmt.lowAmpl then u.mgmt.lowAmpl else low } })) ∧
  (∀ (s : State) t w, s.live = true → s.modes.mode ≠ .run → ∃ u, exec (.sbConfigWrite t w) s = .next u ∧
    u.mgmt.lowAmpl = w.getLsbD 0 ∧ u.mgmt.anOff = w.getLsbD 1 ∧ u.mgmt.sbLink = false) ∧
  (∀ w, After (.sbConfigWrite · w) (fun u => u.live ∧ u.modes.mode = .run) (fun u => u.event 0x0005))

/-- An opcode's command acts on a ready request of its own opcode alone, and completes BUSY where a die that it needs is
fenced (R38, R66). -/
def Obligations.OpcodesNeedReadyRequests : Prop :=
  ∀ p ∈ [(Instr.modeStatus, 0x0100), (.modeSet, 0x0101), (.restart, 0x0102), (.equinox, 0x0103), (.drillNow, 0x0104),
      (.tilePower, 0x0107), (.tileReset, 0x0108), (.onlineChange, 0x0203), (.forceSet, 0x0204), (.varRead, 0x0207),
      (.taskStatus, 0x020A), (.loopParam, 0x0301), (.loopRead, 0x0303), (.strEnum, 0x0402), (.cellRead, 0x0407),
      (.ringStatus, 0x0500), (.canSend, 0x0504), (.recRead, 0x0600), (.timeSet, 0x0701), (.helmStatus, 0x0800),
      (.keyLoad, 0x0803), (.pwdLogin, 0x0805), (.tripConfig, 0x0880), (.fwInfo, 0x0900), (.dspWrite, 0x0A00),
      (.fioRead, 0x0B00), (.fioTrim, 0x0B03)],
    ∀ (s : State) (rid : Nat),
      (s.findReq rid = none → exec (p.1 rid) s = .next s) ∧
      (∀ r, s.findReq rid = some r → r.phase ≠ .ready ∨ r.opcode ≠ p.2 → exec (p.1 rid) s = .next s) ∧
      (∀ r, s.findReq rid = some r → r.phase = .ready → r.opcode = p.2 → (s.reqDies r).any s.fenced = true →
        exec (p.1 rid) s = .next (s.complete r stBusy))

/-! ### Helm, keys, sessions and firmware (03_sideband_and_authority.md) -/

/-- The helm's commands and events: who may take, release or seize it, and when it falls free (R90 to R96). -/
def Obligations.Helm : Prop :=
  Answers .helmStatus 0x0800 (fun _ _ => True)
    (fun s r => s.complete r 0 (match s.mgmt.holder with | .host => 0 | .sideband => 1 | .free => 2)) ∧
  Answers .helmRelease 0x0801 (fun s r => s.mgmt.holder = r.party) (fun s r => (s.freeHelm 3 (r.party == .host)).complete r 0) ∧
  Answers .helmRelease 0x0801 (fun s r => s.mgmt.holder ≠ r.party) (fun s r => s.complete r 0) ∧
  Answers .helmTake 0x0802 (fun s _ => s.mgmt.holder = .free) (fun s r => (s.setHelm .host 4).complete r 0) ∧
  Answers .helmTake 0x0802 (fun s r => s.mgmt.holder ≠ .free ∧ s.mgmt.granted ≠ some r.rid) (fun s r => s.complete r stHelmHeld) ∧
  Answers .helmSeize 0x0808
    (fun s r => s.mgmt.holder = .host ∧ bit (s.keySlot r.keySlot).mask.toNat 11 ∨
      s.mgmt.holder = .free ∧ (∀ c ∈ s.tickMates, s.hostClaim c = false) ∧
        (bit (s.keySlot r.keySlot).mask.toNat 10 ∨ bit (s.keySlot r.keySlot).mask.toNat 11))
    (fun s r => s.seizeHelm.complete r 0) ∧
  Answers .helmSeize 0x0808
    (fun s r => s.mgmt.holder = .free ∧ (∃ c ∈ s.tickMates, s.hostClaim c = true) ∧
      bit (s.hostFirst.keySlot r.keySlot).mask.toNat 11 = false)
    (fun s r => s.hostFirst.complete r stHelmHeld) ∧
  (∀ s : State, s.mgmt.holder = .free → (∃ c ∈ s.tickMates, s.hostClaim c = true) → s.hostFirst.mgmt.holder = .host) ∧
  (∀ s : State, s.seizeHelm.mgmt.holder = .sideband ∧ s.seizeHelm.mgmt.lastCause = 2) ∧
  Answers .helmSeize 0x0808 (fun s r => s.mgmt.holder = .sideband ∨ bit (s.keySlot r.keySlot).mask.toNat 11 = false ∧
      s.mgmt.holder = .host) (fun s r => s.complete r stHelmHeld) ∧
  (∀ d, After .helmTimeout
    (fun u => u.mgmt.hostDownAt = some d ∧ u.mgmt.holder = .host ∧ u.hostLinkUp = false ∧ u.keepsHelm ∧
      d + u.mgmt.helmTimeout * 100000000 ≤ u.now)
    (fun u => u.freeHelm 1 false)) ∧
  After .sbIdle
    (fun u => u.mgmt.holder = .sideband ∧ u.keepsHelm ∧ u.mgmt.lastSbAuth + u.mgmt.sbIdle * 1000000000 ≤ u.now)
    (fun u => u.freeHelm 6 false) ∧
  (∀ (s : State) h c, (s.setHelm h c).mgmt.holder = h ∧ (s.setHelm h c).mgmt.lastCause = c)

/-- Keys and the presence window: a load keeps the slot's counter, ERASE empties the slot, KEY_ERASE leaves slot 0 alone and
only in a window; the window opens after 3 s of MODE and SELECT and ends 120 s later (R99, R102 to R106). -/
def Obligations.KeysAndPresence : Prop :=
  Answers .keyLoad 0x0803 (fun _ r => bit (rd r.buf 0x1A 2) 0 = false)
    (fun s r =>
      let new : KeySlot := { present := true, key := BitVec.ofNat 128 (rd r.buf 0 16), mask := BitVec.ofNat 16 (rd r.buf 0x18 2),
                             counter := (s.keySlot r.value).counter }
      ((s.setKeySlot r.value new).logChange r (s.keySlot r.value).mask.toNat new.mask.toNat r.value).complete r 0) ∧
  Answers .keyLoad 0x0803 (fun _ r => bit (rd r.buf 0x1A 2) 0)
    (fun s r => ((s.setKeySlot r.value {}).logChange r (s.keySlot r.value).mask.toNat 0 r.value).complete r 0) ∧
  Answers .keyErase 0x0809 (fun s _ => s.mgmt.presenceEnd = none) (fun s r => s.complete r stModeDenied) ∧
  Answers .keyErase 0x0809 (fun s _ => s.mgmt.presenceEnd.isSome)
    (fun s r =>
      let u := { s with sec := { s.sec with slots := s.sec.slots.filter (fun e => e.1 == 0), verifier := none } }
      (u.logChange r s.slotsPresent u.slotsPresent 0).complete r 0) ∧
  Answers .counterRead 0x0804 (fun _ _ => True) (fun s r => s.complete r 0 (s.keySlot r.value).counter.toNat) ∧
  (∀ a, After .presenceWindow
    (fun u => u.dsp.held [.mode, .select] .recovery = some a ∧ u.modes.mode = .recovery ∧ u.mgmt.presenceEnd = none ∧
      a + 3000000000 ≤ u.now)
    (fun u => ({ u with mgmt := { u.mgmt with presenceEnd := some (u.now + 120000000000) } }).event 0x0330)) ∧
  (∀ e, After .presenceWindowEnd (fun u => u.mgmt.presenceEnd = some e ∧ e ≤ u.now)
    (fun u => { u with mgmt := { u.mgmt with presenceEnd := none } }))

/-- Password sessions: a login ends an open session and starts a check; a right password opens a session and clears the count of
failures, a wrong one counts, and the fifth starts the lockout; logout, 30 idle minutes and the lockout's end (R108 to
R111). -/
def Obligations.PasswordSessions : Prop :=
  Answers .pwdLogin 0x0805 (fun s _ => s.sec.verifier.isSome ∧ s.sec.lockEnd = none ∧ s.sec.pwdCheck = none)
    (fun s r => ({ s.endSession with sec := { s.endSession.sec with pwdCheck := some r.rid } }).running r.rid) ∧
  Answers .pwdLogin 0x0805 (fun s _ => s.sec.verifier = none) (fun s r => s.complete r stNotPresent) ∧
  Answers .pwdLogin 0x0805 (fun s _ => s.sec.verifier.isSome ∧ s.sec.lockEnd.isSome) (fun s r => s.complete r stBusy) ∧
  (∀ rid r v, After .passwordCheckDone
    (fun u => u.sec.pwdCheck = some rid ∧ u.findReq rid = some r ∧ u.sec.verifier = some v ∧ v.accepts r.buf)
    (fun u => (({ u with sec := { u.sec with
      pwdCheck := none, fails := 0, session := some { side := r.actor == 1, slot := r.keySlot, last := u.now } } }).event
      0x0303).complete r 0)) ∧
  (∀ rid r v, After .passwordCheckDone
    (fun u => u.sec.pwdCheck = some rid ∧ u.findReq rid = some r ∧ u.sec.verifier = some v ∧ v.accepts r.buf = false)
    (fun u => ({ u with sec := { u.sec with pwdCheck := none } }).pwdFailed.complete r stAuthFail)) ∧
  (∀ s : State, s.pwdFailed.sec.fails = s.sec.fails + 1 ∧
    (5 ≤ s.sec.fails + 1 → s.pwdFailed.sec.lockEnd = some (s.now + 600000000000))) ∧
  Answers .pwdLogout 0x0806 (fun _ _ => True) (fun s r => s.endSession.complete r 0) ∧
  Answers .pwdSet 0x0807 (fun _ _ => True)
    (fun s r =>
      let v : Verifier := { iterations := rd r.buf 0 4, salt := slice r.buf 8 16, derived := slice r.buf 0x18 32 }
      (({ s with sec := { s.sec with verifier := some v } }).logChange r (b2n s.sec.verifier.isSome) 1 0).complete r 0) ∧
  (∀ x, After .sessionTimeout (fun u => u.sec.session = some x ∧ x.last + 1800000000000 ≤ u.now) (fun u => u.endSession)) ∧
  (∀ e, After .lockoutEnd (fun u => u.sec.lockEnd = some e ∧ e ≤ u.now ∧ u.modes.powered)
    (fun u => { u with sec := { u.sec with lockEnd := none, fails := 0 } })) ∧
  (∀ s : State, s.endSession.sec.session = none)

/-- Firmware slots and flash stores: a write goes to the slot that does not run and makes it invalid; its end checks the image;
an activation names the slot of the next start (R113 to R116, R190). -/
def Obligations.FirmwareAndStores : Prop :=
  Answers .fwInfo 0x0900 (fun _ _ => True)
    (fun s r => s.complete r 0 0 0 (some (fwInfo s.sec.fwVersionA s.sec.fwSigA ++ fwInfo s.sec.fwVersionB s.sec.fwSigB))) ∧
  Answers .fwWrite 0x0901 (fun s r => s.sec.fwStore = none ∧ r.actor = 0)
    (fun s r =>
      let c := s.sec.setValid (!s.sec.fwActiveB) false
      ({ s with sec := { c with fwStore := some (r.rid, !s.sec.fwActiveB, r.buf), fwChunks := none } }).running r.rid) ∧
  Answers .fwWrite 0x0901 (fun s _ => s.sec.fwStore.isSome) (fun s r => s.complete r stBusy) ∧
  Answers .fwActivate 0x0902 (fun _ _ => True)
    (fun s r =>
      let at_ := if s.modes.mode == .recovery then some s.now else none
      ({ s with sec := { s.sec with fwPending := some (r.value == 1), activateAt := at_ } }).complete r 0) ∧
  (∀ ok rid i, After (.flashStoreDone · ok) (fun u => u.prog.storing = some (rid, i)) (fun u => u.progStored rid i ok)) ∧
  (∀ ok rid slotB b, After (.flashStoreDone · ok) (fun u => u.prog.storing = none ∧ u.sec.fwStore = some (rid, slotB, b))
    (fun u => u.fwDone rid slotB b ok)) ∧
  (∀ (s : State) rid i, s.twin.exActive = false → (s.progStored rid i true).prog.stored = some i ∧
    (s.progStored rid i false).prog.stored = s.prog.stored)

/-! ### Modes and start (04_modes_and_start.md) -/

/-- MODE_STATUS, MODE_SET and RESTART: what each answers, the refusals of R123 to R125, and the transitions of Table 4-4. -/
def Obligations.ModeCommands : Prop :=
  Answers .modeStatus 0x0100 (fun _ _ => True)
    (fun s r => s.complete r 0 (modeCode s.modes.mode + fld 8 3 (roleCode s.modes.role) +
      fld 16 1 (b2n (s.mgmt.holder == .host)) + fld 24 8 s.host.linkEpoch)) ∧
  Answers .modeSet 0x0101
    (fun s r => s.modes.mode = .run ∧ r.aux = 4 ∧ s.modes.trans = none ∧ s.modes.detached = false ∧ s.commands r ∧
      s.faultInTick = false)
    (fun s r => (s.running r.rid).beginHold (modeSetCause r) 0 (some r.rid) 100000) ∧
  (∀ (s : State) c n rid b,
    (s.leadsPair = false → s.beginHold c n rid b = { s with modes := { s.modes with trans := some (.toHold c n rid none) } }) ∧
    (s.leadsPair = true → 0 < b → ∃ a, s.mt ≤ a ∧ a < s.mt + b ∧
      (s.beginHold c n rid b).modes = { s.modes with trans := some (.toHold c n rid (some a)) })) ∧
  Answers .modeSet 0x0101
    (fun s r => (s.modes.mode = .hold ∨ s.modes.mode = .dormant) ∧ r.aux = 3 ∧ s.modes.trans = none ∧
      s.modes.detached = false ∧ s.commands r ∧ s.faultInTick = false)
    (fun s r => (s.startRestart true (some r.rid) (modeSetCause r)).running r.rid) ∧
  Answers .modeSet 0x0101
    (fun s r => s.modes.mode = .hold ∧ r.aux = 1 ∧ s.modes.trans = none ∧ s.modes.detached = false ∧ s.commands r ∧
      s.faultInTick = false)
    (fun s r => (s.enterDormant (modeSetCause r)).complete r 0) ∧
  Answers .modeSet 0x0101
    (fun s r => s.modes.mode = .hold ∧ r.aux = 5 ∧ s.modes.trans = none ∧ s.modes.role = .simplex ∧ s.faultInTick = false)
    (fun s r => ((s.toRole .simplex).setMode .maintenance (modeSetCause r)).complete r 0) ∧
  Answers .modeSet 0x0101 (fun s r => s.modes.detached ∧ (r.aux = 1 ∨ r.aux = 3 ∨ r.aux = 4))
    (fun s r => s.complete r stRoleDenied) ∧
  Answers .modeSet 0x0101
    (fun s r => s.modes.detached = false ∧ s.commands r ∧ (s.modes.trans.isSome ∨ s.faultInTick) ∧ r.aux = 4)
    (fun s r => s.complete r stBusy) ∧
  Answers .restart 0x0102
    (fun s r => s.modes.detached = false ∧ s.modes.trans = none ∧ s.commands r ∧ s.faultInTick = false)
    (fun s r => (s.startRestart (r.aux.getLsbD 0) (some r.rid) 3).running r.rid) ∧
  (∀ (s : State) r, s.modes.role = .simplex ∨ s.modes.role = .lead → s.commands r = true) ∧
  (∀ (s : State) warm rid c, (s.startRestart warm rid c).modes.mode = .startup ∧
    (s.startRestart warm rid c).modes.trans = some (.restart warm rid c)) ∧
  (∀ (s : State) m c, (s.setMode m c).modes.mode = m ∧ (s.setMode m c).modes.cause = c ∧
    (s.setMode m c).modes.role = s.modes.role)

/-- Resets: MODULE_RESET, a lost Winter clock, the end of a power failure and the resets out of RECOVERY leave the stored values and
nothing else; what a module reset leaves is STARTUP before step 1 with every request, cycle and queue gone (R18, R127, R143,
R502, R523). -/
def Obligations.ModuleResets : Prop :=
  After .moduleReset (fun u => u.modes.powered) (fun u => u.moduleReset 0) ∧
  (∀ gap, 1000 ≤ gap → ∀ (s : State) (t : Nat), s.modes.powered = true → ∃ u, exec (.winterLoss t gap) s = .next u ∧
    u = { (s.tick t).moduleReset 0 with modes := u.modes } ∧ u.modes.inReset = true) ∧
  (∀ good, 256 ≤ good → After (.winterRecovered · good) (fun u => u.modes.inReset)
    (fun u => { u with modes := { u.modes with inReset := false, supplyAt := u.now } })) ∧
  (∀ w (s : State) (t : Nat), s.pwr.warn = some w → w + 4500000 ≤ (s.tick t).now →
    ∃ u, exec (.powerDownReset t) s = .next u ∧ u.modes.powered = false ∧ u.pwr.lostRecords = s.recd.queue.length ∧
      u.host.reqs = [] ∧ u.recd.queue = [] ∧ u.prog.stored = s.prog.stored) ∧
  (∀ a, After .activateReset (fun u => u.sec.activateAt = some a ∧ u.modes.mode = .recovery ∧ a + 100000000 ≤ u.now)
    (fun u => u.moduleReset 0)) ∧
  (∀ a, After .leaveRecovery
    (fun u => u.dsp.held [.mode, .down] .recovery = some a ∧ u.modes.mode = .recovery ∧ a + 5000000000 ≤ u.now)
    (fun u => u.moduleReset 14)) ∧
  (∀ at_ cause seq (s : State) (t : Nat), s.modes.trans = some (.toRecovery at_ cause seq) → at_ + 10000000 ≤ (s.tick t).now →
    seq ≤ s.recd.seq → ∃ u, exec (.recoveryReset t) s = .next u ∧ u.modes.mode = .recovery ∧ u.modes.role = .simplex ∧ u.modes.trans = none ∧
      u.prog.stored = s.prog.stored ∧ u.prog.loaded = none) ∧
  (∀ (s : State) c, let u := s.moduleReset c
    u.modes.mode = .startup ∧ u.modes.role = .simplex ∧ u.modes.puStep = 1 ∧ u.modes.cause = c ∧ u.host.reqs = [] ∧
    u.host.link = false ∧ u.prog.loaded = none ∧ u.prog.tasks = [] ∧ u.mgmt.holder = .host ∧ u.prog.stored = s.prog.stored ∧
    u.sec.slots = s.sec.slots ∧ u.sec.verifier = s.sec.verifier ∧ u.loops.stored = s.loops.stored ∧ u.cells.plan = s.cells.plan ∧
    u.trip.cfgCrc = s.trip.cfgCrc ∧ u.recd.slots = s.recd.slots ∧ u.rtc = s.rtc ∧ u.now = s.now ∧ u.out = s.out)

/-- The power-up sequence and the settling of the role: SUPPLY_GOOD runs steps 1 and 2, keys held for 2 s lead to RECOVERY and else
step 4 follows, KEEL_BROUGHT_UP is step 5, and the reading of LEAD_ALIVE, the wait for the link, CLAIM and the claim delay of slot B decide who leads (R127,
R355, R585). -/
def Obligations.PowerUpAndRole : Prop :=
  (∀ b, After (.supplyGood · b)
    (fun u => u.modes.powered = false ∧ u.modes.inReset = false ∧ (u.pwr.feedA ∨ u.pwr.feedB) ∧ u.pwr.warn = none)
    (fun u => u.powerUp b)) ∧
  After .recoveryKeySequence
    (fun u => u.modes.mode = .startup ∧ u.modes.puStep = 2 ∧ u.dsp.supplyHeld ∧ u.modes.supplyAt + 2000000000 ≤ u.now)
    (fun u => u.enterRecovery 10) ∧
  (∀ (s : State) (t : Nat), s.modes.powered = true → s.modes.mode = .startup → s.modes.puStep = 3 →
    ∃ u, exec (.keelBroughtUp t) s = .next u ∧ u.modes.puStep = 6 ∧ u.modes.settle = .readAlive (s.tick t).now) ∧
  (∀ x, After (.leadAliveReadEnd · false) (fun u => u.modes.settle = .readAlive x ∧ x + 100000 ≤ u.now)
    (fun u => { u with modes := { u.modes with settle := .waitLink u.now } })) ∧
  (∀ x, After (.leadAliveReadEnd · true) (fun u => u.modes.settle = .readAlive x ∧ x + 100000 ≤ u.now)
    (fun u => ({ u with twin := { u.twin with aliveSeen := true } }).trySyncing.settleDone)) ∧
  (∀ x, After .roleWaitEnd (fun u => u.modes.settle = .waitLink x ∧ u.twinUp = false ∧ x + 50000000 ≤ u.now ∧
      u.twin.claimSeen = none ∧ u.slotB = false) (fun u => u.settleLead)) ∧
  (∀ x, After .roleWaitEnd (fun u => u.modes.settle = .waitLink x ∧ u.twinUp = false ∧ x + 50000000 ≤ u.now ∧
      u.twin.claimSeen = none ∧ u.slotB) (fun u => { u with modes := { u.modes with settle := .claimDelay u.now } })) ∧
  (∀ x, After .claimDrive (fun u => u.modes.settle = .claimDelay x ∧ x + 200000 ≤ u.now ∧ u.twin.claimSeen = none)
    (fun u => u.settleLead)) ∧
  (∀ x, After .claimSeen (fun u => u.modes.settle = .claimDelay x)
    (fun u => ({ u with twin := { u.twin with claimSeen := some u.now } }).settleFollow)) ∧
  After .claimRelease (fun u => u.twin.claimDrive ∧ u.twin.claimAt + 1000000 ≤ u.now)
    (fun u => { u with twin := { u.twin with claimDrive := false } }) ∧
  (∀ s : State, s.settleDone.modes.settle = .settled)

/-- Restart and hold instants: a start without a program ends in HOLD with cause 8 and one that is not admitted with cause 7; a start
into RUN loads the program, admits it and plans its restart instant, at least 50 us ahead; at it the mode reads RUN; at a
hold instant the mode reads HOLD with its cause, event 0x0006 is written, and the work in progress of RUN is abandoned
(R127, R133, R135). -/
def Obligations.RestartAndHoldInstants : Prop :=
  (∀ (s : State) w rid c, s.modes.mode = .startup → s.modes.rstPlanned = none → s.tilesUp = true →
    s.modes.trans = some (.restart w rid c) → s.starting = some (true, w)) ∧
  (∀ ok x, After (.startSequenceComplete · ok x) (fun u => u.starting.isSome ∧ u.prog.stored = none)
    (fun u => u.startFails stNotPresent 8)) ∧
  (∀ x w i, After (.startSequenceComplete · true x)
    (fun u => u.starting = some (true, w) ∧ u.prog.stored = some i ∧ u.warmOk i ∧ ((u.loadProgram i w).admission i) = none ∧
      u.modes.role ≠ .follow ∧ u.mt + 50000 ≤ x)
    (fun u => (u.loadProgram i w).admitted.planRestart w false x)) ∧
  (∀ x w i, After (.startSequenceComplete · true x)
    (fun u => u.starting = some (true, w) ∧ u.prog.stored = some i ∧ u.warmOk i ∧ ((u.loadProgram i w).admission i).isSome)
    (fun u => (((u.loadProgram i w).admission i).getD u).notAdmitted)) ∧
  (∀ (s : State) w f x, (s.planRestart w f x).modes =
    { s.modes with rstPlanned := some x, planWarm := w, planFallback := f }) ∧
  (∀ (s : State), s.notAdmitted.modes.mode = .hold ∧ s.notAdmitted.modes.cause = 7 ∧ s.notAdmitted.prog.admitted = false ∧
    s.notAdmitted.loops.loops = []) ∧
  (∀ p i (s : State) (t : Nat), s.modes.rstPlanned = some p → s.prog.loaded = some i → s.modes.mode = .startup →
    s.modes.trans = none → p ≤ (s.tick t).mt →
    ∃ u, exec (.restartInstant t) s = .next u ∧ u.modes.mode = .run ∧ u.prog.loaded = some i ∧ u.prog.anchor = p ∧
      u.modes.rstMt = p ∧ u.modes.rstPlanned = none ∧ u.modes.rstCount = (s.modes.rstCount + 1) % 65536 ∧
      u.modes.rstKind = (if s.modes.planWarm then 1 else 0)) ∧
  (∀ cause task a, After .holdInstant
    (fun u => u.modes.trans = some (.toHold cause task none a) ∧ u.holdReady a ∧ u.modes.mode = .run)
    (fun u => (u.enterHold cause task).holdWork)) ∧
  (∀ cause task rid r a, After .holdInstant
    (fun u => u.modes.trans = some (.toHold cause task (some rid) a) ∧ u.holdReady a ∧ u.modes.mode ≠ .run ∧
      (u.enterHold cause task).findReq rid = some r)
    (fun u => (u.enterHold cause task).complete r 0)) ∧
  (∀ (s : State) a, (s.holdReady (some a) = true ↔ a ≤ s.mt) ∧ (s.modes.role ≠ .follow → s.holdReady none = true)) ∧
  (∀ (s : State) c n, (s.enterHold c n).modes.mode = .hold ∧ (s.enterHold c n).modes.cause = c ∧
    (s.enterHold c n).modes.holdCause = c ∧ (s.enterHold c n).modes.holdTask = n ∧
    (s.enterHold c n).modes.trans = s.modes.trans.filter Trans.recovery) ∧
  (∀ s : State, ∀ n, (s.holdWork.task n).cyc = none)

/-! ### The station pair (10_station_pair.md) -/

/-- Self-diagnosis and yielding: a check that fires in a pair makes the module YIELDED in HOLD, with YIELD_N driven; in SIMPLEX it has
the action of Table 10-4; the outputs of a yielded lead go to their safe states 5 ms later (R354, R364, R365). -/
def Obligations.DiagnosisAndYield : Prop :=
  (∀ (die : Fin 8) link, After (.eccError · die link)
    (fun u => u.modes.mode ≠ .recovery ∧ u.diePresent die.val)
    (fun u =>
      (if die.val = 0 then u else u.setTile die.val { u.tile die.val with state := .fault, fencedAt := some u.now }).diagnose
        (if link then .dieLink else .ecc))) ∧
  After .lockstepMismatch (fun u => u.trip.lockstep = false ∧ u.trip.safetyRun)
    (fun u => (({ u with trip := { u.trip with lockstep := true } }).event 0x0407).wardEval.diagnose .lockstep) ∧
  (∀ (s : State) (t : Nat), s.modes.mode ≠ .recovery → s.twin.aliveLatched = false →
    ∃ u, exec (.leadAliveWatchdog t) s = .next u ∧ u.twin.aliveDrive = false) ∧
  (∀ y, After .yieldSafeTimeout (fun u => u.twin.yieldedAt = some y ∧ y + 5000000 ≤ u.now ∧ u.modes.role = .yielded)
    (fun u => { u with twin := { u.twin with yieldedAt := none } })) ∧
  (∀ (s : State) c, s.modes.mode ≠ .recovery →
    (s.modes.role = .lead ∨ s.modes.role = .follow ∨ s.modes.role = .syncing) → s.diagnose c = s.yield (checkCode c)) ∧
  (∀ (s : State) c, s.modes.mode ≠ .recovery → s.modes.role = .simplex → c = .ecc ∨ c = .lockstep ∨ c = .dieLink →
    s.diagnose c = s.faultHold 6 0)

/-- Loss of the partner and takeover: an acknowledgement that stays out, YIELD_N, LEAD_ALIVE and heartbeats tell a lead that its follower
is lost and a follower that its lead is dead; Thaw ends the takeover (R352, R359, R367 to R371). -/
def Obligations.LossAndTakeover : Prop :=
  After .mirrorTimeout
    (fun u => u.host.reqs.any (fun r => r.needAck && r.mirrorAt + 100000 ≤ u.now) ∧ u.modes.role = .lead)
    (fun u => u.markLost 3) ∧
  (∀ rid, After (.mirrorAck · rid) (fun _ => True)
    (fun u => (u.goodFrame.updReq rid (fun q => { q with needAck := false })).release rid)) ∧
  (∀ cause at_ (s : State) (t : Nat), s.twin.dead = some (cause, at_) → s.twin.frost = true →
    ∃ u, exec (.thaw t) s = .next u ∧ u.modes.role = .simplex ∧ u.twin.frost = false ∧ u.twin.claimDrive = true ∧
      u.twin.lost = true ∧ u.twin.swapCause = cause ∧ u.twin.lastTakeover = some (s.tick t).now) ∧
  (∀ k, After (.yieldNAssert · k)
    (fun u => u.twin.yieldSeen = false ∧ u.modes.settle = .settled ∧ u.modes.role = .follow)
    (fun u => (({ u with twin := { u.twin with yieldSeen := true } }).event 0x0603 [k]).takeover 1)) ∧
  (∀ k, After (.yieldNAssert · k) (fun u => u.twin.yieldSeen = false ∧ u.modes.settle = .settled ∧ u.modes.role = .lead)
    (fun u => (({ u with twin := { u.twin with yieldSeen := true } }).event 0x0603 [k]).markLost 1)) ∧
  After .leadAliveDeassert
    (fun u => u.modes.settle = .settled ∧ u.modes.role = .follow ∧ u.claimed = false ∧ u.twin.hbLossAt = none)
    (fun u => ({ u with twin := { u.twin with aliveSeen := false } }).takeover 2) ∧
  After .heartbeatSend (fun u => u.twinUp ∧ u.mt % 10000 = 0) (fun u => (u.emit (.heartbeat u.mt)).sendTones) ∧
  After .heartbeatMissed
    (fun u => u.modes.partner ∧ u.mt % 10000 = 0 ∧ u.twin.hbLastRx + 10000 ≤ u.now ∧ u.twin.hbRun + 1 ≠ 3)
    (fun u => { u with twin := { u.twin with hbMissed := satInc u.twin.hbMissed, hbRun := u.twin.hbRun + 1 } }) ∧
  After .heartbeatMissed
    (fun u => u.modes.partner ∧ u.mt % 10000 = 0 ∧ u.twin.hbLastRx + 10000 ≤ u.now ∧ u.twin.lost = false ∧ u.twin.hbRun = 2 ∧
      u.modes.role = .lead)
    (fun u => ({ u with twin := { u.twin with hbMissed := satInc u.twin.hbMissed, hbRun := 3 } }).markLost 2) ∧
  (∀ a alive, After (.heartbeatConfirm · alive) (fun u => u.twin.hbLossAt = some a ∧ u.modes.role = .follow ∧ a + 20000 ≤ u.now)
    (fun u =>
      let v := { u with twin := { u.twin with hbLossAt := none } }
      if alive then v.yield 8 else v.takeover 3)) ∧
  (∀ (s : State) k, s.modes.role = .follow → s.modes.detached = false → s.twin.frost = false →
    s.twin.exActive = false → (s.takeover k).modes.role = .lead ∧ (s.takeover k).twin.frost = true)

/-- The pair in step: digests, self-tests, readbacks, lanes, heartbeats, the twin link and mirrored items (R351, R352, R359 to R363). -/
def Obligations.PairInStep : Prop :=
  (∀ kind id lead (s : State) (t : Nat) e,
    s.twin.digests.find? (fun d => kindCode d.1 == kindCode kind && d.2.1 == id) = some e → s.modes.role = .follow →
    s.twin.inStep = true → e.2.2 ≠ lead → s.twin.exActive = false →
    ∃ u, exec (.digestCompare t kind id lead) s = .next u ∧ u.twin.selfTest = some (s.tick t).now ∧
      u.twin.digestMismatch = satInc s.twin.digestMismatch ∧ u.out = .mirror .selfTest :: s.out) ∧
  (∀ own partner, After (.selfTestDone · own partner)
    (fun u => (∃ a, u.twin.selfTest = some a ∧ a + 50000 ≤ u.now) ∧ u.modes.role = .follow)
    (fun u =>
      let v := ({ u with twin := { u.twin with selfTest := none } }).event 0x0606 [b2n own, b2n partner]
      if own then (if partner then v.yield 10 else v) else v.yield 5)) ∧
  (∀ g (ch : Fin 16) d, 10000000 ≤ d →
    After (.readbackDiff · g ch d) (fun u => u.modes.role = .follow ∧ u.modes.detached = false)
      (fun u => u.event 0x0611 [g * 256 + ch.val])) ∧
  (∀ lane : Fin 4, After (.laneDown · lane) (fun u => u.twin.lanes.getLsbD lane.val)
    (fun u => ({ u with twin := { u.twin with lanes := u.twin.lanes &&& ~~~(BitVec.ofNat 4 (2 ^ lane.val)) } }).event 0x0610
      [lane.val])) ∧
  (∀ p, p.role ≠ 3 → p.role ≠ 4 → p.mode ≠ 6 → After (.heartbeatReceive · p) (fun u => u.twinUp ∧ u.twin.partnerRole = p.role)
    (fun u =>
      let w := { u.twin with p := p, partnerRole := p.role, hbRun := 0, hbLastRx := u.now, hbLossAt := none }
      ({ u with twin := w }).partnerHost p.hostLink)) ∧
  (∀ lanes p (s : State) (t : Nat), s.twinUp = false → ({ s with twin := { s.twin with lanes := lanes } } : State).twinUp = true →
    s.modes.powered = true → s.modes.mode = .recovery →
    ∃ u, exec (.twinLinkUp t lanes p) s = .next u ∧ u.twin.lanes = lanes ∧ u.twin.partnerSerial = p.serial ∧
      u.twin.everUp = true ∧ u.modes.partner = true ∧ u.modes.detached = true) ∧
  (∀ m l, After (.mirrorReceive · m l) (fun u => u.live ∧ u.twinUp)
    (fun u =>
      let k := max u.twin.mirrorMax (min (ceilDiv l 10) 0xFFFFFFFF)
      (({ u with twin := { u.twin with mirrorMax := k, hbRun := 0, hbLastRx := u.now } }).mirrorUse m).emit .ack))

/-- Equinox: EQUINOX and DRILL_NOW plan the swap for the first boundary at least 1 ms after their acceptance, or answer BUSY; at E,
EQUINOX_INSTANT, the outputs hold; at E + 40 us, EQUINOX_CLAIM, the follower claims; at E + 50 us, EQUINOX_WINDOW_END, the roles
swap. DRILL_DUE begins a drill or postpones it, DRILL_POSTPONED records that again a day later, and DRILL_CHECK ends the checks
of the new lead: all passed, or the first that failed, with a reverse Equinox. -/
def Obligations.EquinoxAndDrill : Prop :=
  Answers .equinox 0x0103 (fun s r => s.swapBusy = false ∧ r.aux = 0)
    (fun s r => (s.planEquinox (s.accMt r) 4 (some r.rid)).running r.rid) ∧
  Answers .equinox 0x0103 (fun s r => s.swapBusy ∧ r.fromLead = false) (fun s r => s.complete r stBusy) ∧
  Answers .drillNow 0x0104 (fun s r => s.swapBusy = false ∧ r.fromLead = false)
    (fun s r => (s.planEquinox (s.accMt r) 5 (some r.rid)).running r.rid) ∧
  Answers .drillNow 0x0104 (fun s r => s.swapBusy ∧ r.fromLead = false) (fun s r => s.complete r stBusy) ∧
  (∀ (s : State) a c rid, ((s.planEquinox a c rid).twin.equinox =
      some { e := s.boundary (a + 1000000), cause := c, rid := rid, reverse := c == 6 }) ∧
    s.planEquinox a c rid = { s with twin := (s.planEquinox a c rid).twin }) ∧
  (∀ (s : State) x, s.modes.mode ≠ .run → let b := s.boundary x
    b % 1000000 = 0 ∧ x ≤ b ∧ b < x + 1000000) ∧
  (∀ (s : State) x i d, s.modes.mode = .run → s.prog.loaded = some i → i.tasks.head? = some d → 0 < d.period →
    let h := s.prog.anchor + d.harvestNs
    let b := s.boundary x
    (∃ k, b = h + k * (d.period * 10000)) ∧ x ≤ b ∧ ∀ k, x ≤ h + k * (d.period * 10000) → b ≤ h + k * (d.period * 10000)) ∧
  (∀ (s : State), s.swapBusy = false → s.twin.syncActive = false ∧ s.twin.exActive = false ∧ s.twin.drilling = false ∧
    s.twin.partnerRole ≠ 3 ∧ ∀ a, s.twin.lastTakeover = some a → a + 1000000000 ≤ s.now) ∧
  (∀ q, After .equinoxInstant
    (fun u => u.twin.equinox = some q ∧ q.windowOpen = false ∧ q.e ≤ u.mt ∧ u.twin.exchange = none)
    (fun u => { u.holdOuts with twin := { u.twin with equinox := some { q with windowOpen := true } } })) ∧
  (∀ q, After .equinoxClaim
    (fun u => u.twin.equinox = some q ∧ q.windowOpen ∧ q.claimed = false ∧ u.modes.role = .follow ∧ q.e + 40000 ≤ u.mt)
    (fun u => u.windowClaim)) ∧
  (∀ (s : State), s.windowClaim.twin.claimDrive = true ∧ s.windowClaim.twin.claimAt = s.now ∧
    s.windowClaim.twin.aliveDrive = !s.twin.aliveLatched) ∧
  (∀ q, After .equinoxWindowEnd
    (fun u => u.twin.equinox = some q ∧ q.windowOpen ∧ q.e + 50000 ≤ u.mt ∧ u.modes.role = .lead) (fun u => u.oldLead q)) ∧
  (∀ q, After .equinoxWindowEnd
    (fun u => u.twin.equinox = some q ∧ q.windowOpen ∧ q.e + 50000 ≤ u.mt ∧ u.modes.role = .follow) (fun u => u.newLead q)) ∧
  (∀ (s : State) q, s.twin.exchange = none → q.rid = none → let u := s.oldLead q
    u.modes.role = .follow ∧ u.twin.aliveDrive = false ∧ u.twin.equinox = none ∧ u.twin.swapCause = q.cause ∧
    u.twin.swapMt = q.e + 50000) ∧
  (∀ (s : State) q, q.cause ≠ 7 → q.rid = none → let u := s.newLead q
    u.modes.role = .lead ∧ u.twin.checking = !q.reverse ∧ u.twin.equinox = none ∧ u.twin.swapCause = q.cause ∧
    u.twin.swapMt = q.e + 50000) ∧
  After .drillDue (fun u => u.drillIsDue ∧ u.drillBlocked = none)
    (fun u => ({ u with twin := { u.twin with drillDue := false, drillPostponed := none } }).selfEquinox 5) ∧
  (∀ k, After .drillDue (fun u => u.drillIsDue ∧ u.drillBlocked = some k ∧ u.twin.drillPostponed = none)
    (fun u => ({ u with twin := { u.twin with drillDue := true, drillPostponed := some u.now } }).event 0x060A [k])) ∧
  (∀ a k, After .drillPostponed (fun u => u.twin.drillPostponed = some a ∧ u.drillBlocked = some k ∧ a + dayNs ≤ u.now)
    (fun u => ({ u with twin := { u.twin with drillPostponed := some u.now } }).event 0x060A [k])) ∧
  (∀ terminal, After (.drillCheck · terminal)
    (fun u => u.twin.checking ∧ u.modes.role = .lead ∧ u.drillFails terminal = none ∧ u.drillOver)
    (fun u => u.drillEnds 1 0)) ∧
  (∀ terminal k, After (.drillCheck · terminal)
    (fun u => u.twin.checking ∧ u.modes.role = .lead ∧ u.drillFails terminal = some k)
    (fun u => (u.drillEnds 2 k).selfEquinox 6)) ∧
  (∀ (s : State) res k, let u := s.drillEnds res k
    u.modes.drillResult = res ∧ u.twin.checking = false ∧ u.twin.drilling = false ∧
    u.twin.lastDrill = (if res = 1 then s.now else s.twin.lastDrill)) ∧
  (∀ (s : State) c, ∃ q, (s.selfEquinox c).twin.equinox = some q ∧ q.cause = c ∧ q.e = s.boundary (s.mt + 1000000) ∧
    q.reverse = (c == 6))

/-- Detaching, joining and the Equinox exchange: DETACH leaves the lead SIMPLEX with its partner marked DETACHED, and REJOIN clears the
mark and admits the partner; SYNC_TRANSFER_DONE chooses the join instant and JOIN_INSTANT ends the joining; PROG_EXCHANGE,
EXCHANGE_IMAGE_STORED and MAPPING_INSTANT are the steps of an exchange before its Equinox. -/
def Obligations.JoinAndExchange : Prop :=
  (∀ (s : State) rid r, s.ready rid 0x0105 r → s.modes.role = .lead → s.twin.exchange = none → s.twin.equinox = none →
    ∃ v, exec (.detach rid) s = .next v ∧ v.modes.role = .simplex ∧ v.twin.inStep = false ∧ v.twin.mark = 2 ∧
      v.modes.mode = s.modes.mode) ∧
  Answers .rejoin 0x0106 (fun _ _ => True) (fun s r => ((s.setMark 0).trySync).complete r 0) ∧
  (∀ s : State, s.twinUp = true → s.modes.role = .simplex → s.modes.detached = false → s.twin.aliveDrive = true →
    s.modes.mode = .run ∨ s.modes.mode = .hold →
    (s.syncRefusal false = 0 → s.trySync.twin.syncActive = true ∧ s.trySync.twin.syncPhase = 2 ∧
      s.trySync.twin.joinAt = none) ∧
    (s.syncRefusal false ≠ 0 → s.trySync.twin.syncActive = false ∧ s.trySync.twin.syncRefuse = s.syncRefusal false)) ∧
  (∀ (s : State) j,
    (s.twin.p.variant ≠ s.cfg.variant → s.syncRefusal j = 1) ∧
    (s.twin.p.variant = s.cfg.variant → s.twin.p.step ≠ 2 → s.syncRefusal j = 2) ∧
    (s.twin.p.variant = s.cfg.variant → s.twin.p.step = 2 → s.twin.p.proto ≠ s.cfg.proto.toNat → s.syncRefusal j = 3) ∧
    (s.syncRefusal j = 0 → s.twin.p.tripCrc = s.trip.cfgCrc ∧ s.twin.p.safetyCrc = s.trip.safetyCrc)) ∧
  (∀ j, After (.syncTransferDone · true j)
    (fun u => u.twin.syncActive ∧ u.twin.joinAt = none ∧ u.mt ≤ j ∧ u.modes.role ≠ .syncing ∧ u.boundary j = j)
    (fun u => ({ u with twin := { u.twin with joinAt := some j, syncPhase := 3, syncPercent := 100 } }).emit
      (.mirror (.instant 0x0106 j)))) ∧
  (∀ j, After (.syncTransferDone · false j)
    (fun u => u.twin.syncActive ∧ u.twin.joinAt = none ∧ u.modes.role ≠ .syncing)
    (fun u => ({ u with twin := { u.twin with syncActive := false, syncPhase := 5, syncRefuse := 7 } }).event 0x060E [7])) ∧
  (∀ j, After .joinInstant
    (fun u => u.twin.joinAt = some j ∧ j ≤ u.mt ∧ u.modes.role = .syncing ∧ (u.twin.p.mode = 3 ∨ u.twin.p.mode = 4))
    (fun u => u.joinFollow j)) ∧
  (∀ j, After .joinInstant
    (fun u => u.twin.joinAt = some j ∧ j ≤ u.mt ∧ u.modes.role = .simplex ∧ u.modes.detached = false ∧
      (u.modes.mode = .run ∨ u.modes.mode = .hold)) (fun u => u.joinLead j)) ∧
  (∀ (s : State) j, s.modes.mode = .hold → s.twin.exchange = none → s.twin.p.mode = 4 →
    (s.joinFollow j).modes.role = .follow ∧ (s.joinFollow j).modes.mode = .hold ∧ (s.joinFollow j).twin.inStep = true ∧
    (s.joinFollow j).modes.detached = false) ∧
  (∀ (s : State) j, (s.joinLead j).modes.role = .lead ∧ (s.joinLead j).twin.inStep = true ∧
    (s.joinLead j).twin.syncActive = false) ∧
  Answers .progExchange 0x0202 (fun s r => r.fromLead = false ∧ (s.swapRuns ∨ s.twin.mark = 2)) (fun s r => s.complete r stBusy) ∧
  (∀ i, Answers .progExchange 0x0202 (fun _ r => r.fromLead ∧ parseImage r.buf = some i)
    (fun s r =>
      let x : Exchange := { rid := r.rid, image := i }
      let u := ({ s with twin := { s.twin with exActive := true, exPhase := 1, exchange := some x } }).event 0x060B [1, s.mt]
      ({ u with prog := { u.prog with storing := some (r.rid, i) } }).running r.rid)) ∧
  (∀ i, Answers .progExchange 0x0202
    (fun s r => r.fromLead = false ∧ s.swapRuns = false ∧ s.twin.mark ≠ 2 ∧ parseImage r.buf = some i ∧
      s.imageStatus r.buf i = stOk ∧ s.admitTasks i = none ∧ s.loops.stored.recs = [])
    (fun s r =>
      let x : Exchange := { rid := r.rid, image := i }
      (({ s with twin := { s.twin with exActive := true, exPhase := 1, exchange := some x } }).event 0x060B [1, s.mt]).running
        r.rid)) ∧
  (∀ x q, After (.exchangeImageStored · x)
    (fun u => u.twin.exchange = some q ∧ q.x = 0 ∧ u.leadsPair ∧ u.twin.exPhase = 1 ∧ u.twin.equinox = none ∧
      u.mt + 1000000 ≤ x)
    (fun u =>
      let e : Equinox := { e := x + 5000000, cause := 7 }
      (({ u with twin := { u.twin with exchange := some { q with x := x }, equinox := some e } }).event 0x060B [2, x]).emit
        (.mirror (.instant 0x0202 x)))) ∧
  (∀ x i (s : State) (t : Nat), let u := (s.tick t).harvestDue none
    u.twin.exchange = some x → u.prog.loaded = some i → u.twin.exPhase = 1 → u.twin.equinox.isSome = true → x.x ≤ u.mt →
    u.modes.role ≠ .follow →
    exec (.mappingInstant t) s = .next { u with twin := { u.twin with exPhase := 2 } }) ∧
  (∀ x i (s : State) (t : Nat), let u := (s.tick t).harvestDue none
    u.twin.exchange = some x → u.prog.loaded = some i → u.twin.exPhase = 1 → u.twin.equinox.isSome = true → x.x ≤ u.mt →
    u.modes.role = .follow →
    ∃ v y, exec (.mappingInstant t) s = .next v ∧ v.twin.exPhase = 2 ∧ v.twin.exchange = some y ∧ y.x = x.x ∧
      y.forces = u.prog.forces.filter (fun f => ({ u with prog := { u.prog with loaded := some x.image } } : State).varValid
        .force f.handle f.width) ∧ v.prog = u.prog)

/-! ### Tiles, clocks, supply and time (01_levels_and_guarantees.md, 15_clocks_power_time.md) -/

/-- Tiles: TILE_POWER sets POLICY, TILE_RESET fences the die, the end of its drain resets it under the next epoch, replies of an old
epoch and corrected link errors are counted (R36 to R39, R47). -/
def Obligations.TilePowerAndReset : Prop :=
  Answers .tilePower 0x0107 (fun s r => s.diePresent r.value ∧ (bits r.aux.toNat 0 2 = 2 → s.tileLoaded r.value = false))
    (fun s r => (s.setTile r.value { s.tile r.value with policy := bits r.aux.toNat 0 2 }).complete r 0) ∧
  Answers .tilePower 0x0107
    (fun s r => s.diePresent r.value ∧ bits r.aux.toNat 0 2 = 2 ∧ s.tileLoaded r.value ∧ s.modes.mode = .run)
    (fun s r => s.complete r stModeDenied) ∧
  Answers .tilePower 0x0107 (fun s r => s.diePresent r.value = false) (fun s r => s.complete r stNotPresent) ∧
  Answers .tileReset 0x0108 (fun s r => s.diePresent r.value ∧ (s.modes.mode ≠ .run ∨ s.tileLoaded r.value = false))
    (fun s r => (s.setTile r.value { s.tile r.value with state := .fenced, fencedAt := some s.now }).complete r 0) ∧
  Answers .tileReset 0x0108 (fun s r => s.diePresent r.value ∧ s.modes.mode = .run ∧ s.tileLoaded r.value)
    (fun s r => s.complete r stModeDenied) ∧
  (∀ (die : Fin 8) n f (s : State) (t : Nat), die ≠ 0 → s.diePresent die.val = true → (s.tile die.val).fencedAt = some f →
    ((n = 0 ∧ s.atDie die.val = []) ∨ f + 10000 ≤ (s.tick t).now) →
    ∃ u, exec (.drainEnd t die n) s = .next u ∧ (u.tile die.val).state = .reset ∧ (u.tile die.val).fencedAt = none ∧
      (u.tile die.val).epoch = ((s.tile die.val).epoch + 1) % 256 ∧
      (u.tile die.val).retracted =
        min 0xFFFFFFFF ((s.tile die.val).retracted + (s.fabric.filter (fun x => x.die == die.val)).length + n)) ∧
  (∀ (die : Fin 8) (e : Byte), die ≠ 0 → After (.staleReply · die e)
    (fun u => u.diePresent die.val ∧ e.toNat ≠ (u.tile die.val).epoch)
    (fun u => { u.setTile die.val { u.tile die.val with stale := satInc (u.tile die.val).stale } with
      late := dropLate die.val e.toNat u.late })) ∧
  (∀ (die : Fin 8), die ≠ 0 → After (.correctedLinkError · die) (fun u => u.diePresent die.val)
    (fun u => u.setTile die.val { u.tile die.val with linkErr := satInc (u.tile die.val).linkErr }))

/-- Ramps: a gated tile that is due starts its Spring ramp with the PLL, an idle one its Autumn ramp at divider 2; the PLL's lock starts
the domain at divider 16; each step halves or doubles the divider after its dwell; Spring ends ON at divider 1 (R504 to
R510). -/
def Obligations.Ramps : Prop :=
  (∀ (die : Fin 8) due, die ≠ 0 → After (.springRamp · die (some due))
    (fun u => u.diePresent die.val ∧ u.tilesRun ∧ (u.tile die.val).policy = 0 ∧ u.nextDue die.val = some due ∧
      due ≤ u.mt + u.wakeLead ∧ (u.tile die.val).state = .gated)
    (fun u => u.setTile die.val { u.tile die.val with
      state := .spring, div := 0, pll := false, stepAt := u.now, dwell := u.clk.dwell })) ∧
  (∀ (die : Fin 8), die ≠ 0 → After (.asyncWake · die)
    (fun u => u.diePresent die.val ∧ u.tilesRun ∧ (u.tile die.val).policy ≠ 2 ∧ (u.tile die.val).state = .gated)
    (fun u => u.setTile die.val { u.tile die.val with
      state := .spring, div := 0, pll := false, stepAt := u.now, dwell := u.clk.dwell })) ∧
  (∀ (die : Fin 8) next, die ≠ 0 → After (.autumnRamp · die next)
    (fun u => u.diePresent die.val ∧ (u.tile die.val).state = .on ∧ u.modes.mode ≠ .startup ∧ u.dieBusy die.val = false ∧
      (u.tile die.val).policy = 0 ∧ u.nextDue die.val = next ∧ (∀ due, next = some due → u.mt + 2 * u.wakeLead ≤ due))
    (fun u => u.setTile die.val { u.tile die.val with state := .autumn, div := 2, stepAt := u.now, dwell := u.clk.dwell })) ∧
  (∀ (die : Fin 8), After (.pllLocked · die)
    (fun u => (u.tile die.val).state = .spring ∧ (u.tile die.val).pll = false)
    (fun u => u.setTile die.val { u.tile die.val with pll := true, div := 16, stepAt := u.now })) ∧
  (∀ (die : Fin 8) busy,
    After (.rampStep · die busy)
      (fun u => (u.tile die.val).stepAt + 250 * (u.tile die.val).dwell ≤ u.now ∧ (u.tile die.val).state = .spring ∧
        u.tilesRun ∧ (u.tile die.val).pll ∧ (u.tile die.val).div ≤ 2)
      (fun u => u.setTile die.val { (u.tile die.val).resumed u.now with state := .on, div := 1, stepAt := u.now }) ∧
    After (.rampStep · die busy)
      (fun u => (u.tile die.val).stepAt + 250 * (u.tile die.val).dwell ≤ u.now ∧ (u.tile die.val).state = .spring ∧
        u.tilesRun ∧ (u.tile die.val).pll ∧ 2 < (u.tile die.val).div)
      (fun u => u.setTile die.val { u.tile die.val with div := (u.tile die.val).div / 2, stepAt := u.now }) ∧
    After (.rampStep · die busy)
      (fun u => (u.tile die.val).stepAt + 250 * (u.tile die.val).dwell ≤ u.now ∧ (u.tile die.val).state = .autumn ∧
        (u.tile die.val).div < 16)
      (fun u => u.setTile die.val { u.tile die.val with div := 2 * (u.tile die.val).div, stepAt := u.now }))

/-- The clock monitor: CLOCK_MONITOR_WINDOW judges the counts of a window; one of a reference in use outside its limits is a failure
with event 0x0100, trip source 30, a non-maskable event and the switch to INTERNAL, and in a pair the module yields; else a
planned switch is made where one is wanted. STOPPED_CLOCK forces the switch of the keel or of a tile, at divider 16.
REFCLK_DELAY_EXPIRY puts REFCLK on trial (R512 to R516). -/
def Obligations.ClockMonitor : Prop :=
  (∀ a b c, After (.clockMonitorWindow · a b c)
    (fun u => u.modes.powered ∧ u.modes.inReset = false ∧
      ∀ x ∈ [(0, a), (1, b), (2, c)], u.refInUse x.1 = true → u.windowOk x.1 x.2 = true)
    (fun u => match (u.judgeWindows a b).wantedSource with
      | some w => (u.judgeWindows a b).plannedSwitch w
      | none => u.judgeWindows a b)) ∧
  (∀ a b c r n, (r, n) ∈ [(0, a), (1, b), (2, c)] → After (.clockMonitorWindow · a b c)
    (fun u => u.modes.powered ∧ u.modes.inReset = false ∧ u.refInUse r ∧ u.windowOk r n = false ∧
      ∀ x ∈ [(0, a), (1, b), (2, c)], x.1 ≠ r → u.refInUse x.1 = true → u.windowOk x.1 x.2 = true)
    (fun u => ((u.judgeWindows a b).clockFailed r n).diagnose .clock)) ∧
  (∀ (s : State) n, (s.windowOk 0 n = true ↔ 774 ≤ n ∧ n ≤ 789) ∧ (s.windowOk 2 n = true ↔ 3032 ≤ n ∧ n ≤ 3218) ∧
    (s.cfg.ee.refFreq = false → (s.windowOk 1 n = true ↔ 310 ≤ n ∧ n ≤ 315)) ∧
    (s.cfg.ee.refFreq = true → (s.windowOk 1 n = true ↔ 774 ≤ n ∧ n ≤ 789))) ∧
  (∀ (s : State) r, s.refInUse r = true ↔
    s.clk.source = r ∨ ∃ n, 1 ≤ n ∧ n < 8 ∧ s.diePresent n = true ∧ (s.tile n).src = r) ∧
  (∀ (s : State) a b, (s.windowOk 0 a = false →
      (s.judgeWindows a b).clk.int25Ok = false ∧ (s.judgeWindows a b).clk.int25Run = 0) ∧
    (s.windowOk 0 a = true → ((s.judgeWindows a b).clk.int25Ok = true ↔ s.clk.int25Ok = true ∨ 15 ≤ s.clk.int25Run))) ∧
  (∀ (s : State) r n, (s.clockFailed r n).clk.failed = true ∧ (.nonMaskable :: s.out) <:+ (s.clockFailed r n).out) ∧
  (∀ (s : State) r n, r < 2 → s.clk.source = r → let u := s.clockFailed r n
    u.clk.source = 2 ∧ u.clk.fallback = true ∧ u.trip.clockFail = true) ∧
  (∀ (s : State), s.onInternal = true → s.clk.refCtrl.getLsbD 1 = false → s.wantedSource = none) ∧
  (∀ (s : State), s.onInternal = false → s.clk.source = 0 →
    s.wantedSource = if s.clk.refCtrl.getLsbD 0 && s.cfg.ee.refPresent && s.clk.refJudged && s.clk.refOk then some 1 else none) ∧
  After (.stoppedClock · 0) (fun u => u.modes.powered ∧ u.modes.inReset = false ∧ u.diePresent 0 ∧ u.clk.source = 2)
    (fun u => ({ u with clk := { u.clk with forced := true } }).event 0x0103 [0]) ∧
  (∀ (s : State) (t : Nat), s.modes.powered = true → s.modes.inReset = false → s.diePresent 0 = true → s.clk.source ≠ 2 →
    ∃ u, exec (.stoppedClock t 0) s = .next u ∧ u.clk.source = 2 ∧ u.clk.forced = true) ∧
  (∀ (die : Fin 8) (s : State) (t : Nat), die ≠ 0 → s.tilesRun = true → s.diePresent die.val = true →
    (s.tile die.val).div ≠ 0 → (s.tile die.val).src ≠ (s.tile die.val).switchTo.getD 2 →
    ∃ u, exec (.stoppedClock t die) s = .next u ∧ (u.tile die.val).state = .spring ∧ (u.tile die.val).div = 16 ∧
      (u.tile die.val).src = (s.tile die.val).switchTo.getD 2 ∧ (u.tile die.val).switchTo = none ∧ u.clk.forced = true) ∧
  After .refclkDelayExpiry
    (fun u => u.modes.powered ∧ u.clk.refDelayDone = false ∧ u.clk.refJudged = false ∧ u.clk.refFailed = false ∧
      u.cfg.ee.refPresent ∧ u.clk.refCtrl.getLsbD 0 ∧ u.modes.supplyAt + 250000 * u.cfg.ee.refDelay ≤ u.now)
    (fun u => { u with clk := { u.clk with refDelayDone := true, refRun := 0 } })

/-- Supply: a feed is good after 10 ms at 17.0 V and lost after 10 us below 16.0 V; the loss of both, a rail fault or PRSNT_N is a
power-fail warning, with event 0x0112 and its cause (R522, R523). -/
def Obligations.Supply : Prop :=
  (∀ mv dur ma (s : State) (t : Nat), s.pwr.feedA = false → 17000 ≤ mv → 10000000 ≤ dur →
    ∃ u, exec (.feedGood t false mv dur ma) s = .next u ∧ u.pwr.feedA = true ∧ u.pwr.voltA = mv ∧ u.pwr.curA = ma ∧
      u.pwr.feedB = s.pwr.feedB) ∧
  (∀ mv dur (s : State) (t : Nat), s.pwr.feedA = true → s.pwr.feedB = true → s.modes.powered = true → mv < 16000 → 10000 ≤ dur →
    ∃ u, exec (.feedLost t false mv dur) s = .next u ∧ u.pwr.feedA = false ∧ u.pwr.feedB = true ∧ u.pwr.warn = s.pwr.warn ∧
      u.pwr.feedLosses = satInc s.pwr.feedLosses ∧ u.modes = s.modes) ∧
  (∀ rail dur, 10000 ≤ dur → After (.railFault · rail dur) (fun u => u.modes.powered)
    (fun u => (({ u with pwr := { u.pwr with railOk := false, flags := u.pwr.flags ||| 4 } }).event 0x0113 [rail]).powerFail 1
      .supply)) ∧
  After .prsntNDeassert (fun u => u.pwr.prsnt ∧ u.modes.powered)
    (fun u => ({ u with pwr := { u.pwr with prsnt := false } }).powerFail 2 .prsnt) ∧
  (∀ (s : State) k c, s.pwr.warn = none → s.modes.powered = true → s.modes.mode = .recovery →
    ∃ u, s.powerFail k c = u ∧ u.pwr.warn = some s.now ∧ u.pwr.warnCause = k ∧ u.dsp.on = false ∧ u.cells.mram = s.cells.work)

/-- Module time: TIME_READ and the latched read of CLK.MT; TIME_SET steps, slews or is refused by Table 15-3; the end of a slew (R518
to R521). -/
def Obligations.ModuleTime : Prop :=
  Answers .timeRead 0x0700 (fun _ _ => True) (fun s r => s.complete r 0 s.mt) ∧
  After .clkMtRead (fun _ => True)
    (fun u => ({ u with clk := { u.clk with mtLatch := u.mt / 2 ^ 32 % 2 ^ 32 } }).emit
      (.readValue 0x3020 (BitVec.ofNat 64 (u.mt % 2 ^ 32)))) ∧
  Answers .timeSet 0x0701 (fun s _ => s.timeRow = 2) (fun s r => s.complete r 0 2) ∧
  Answers .timeSet 0x0701 (fun s _ => s.timeRow = 0 ∧ s.leadsPair = false)
    (fun s r => ((((s.stepTime (rd r.buf 0 8)).timeValid.stageRtc).event 0x0200 [s.mt, rd r.buf 0 8, r.actor, 0])).complete r 0 0) ∧
  (∀ w, After .slewEnd (fun u => u.slew = some w ∧ u.offset = w.target)
    (fun u => { u with mtOff := w.target, slew := none, clk := { u.clk with slewing := false } })) ∧
  (∀ (s : State) v, (s.stepTime v).mt = v) ∧
  (∀ (s : State) v, (s.slewTime v).mt = s.mt)

/-- RTC and backup domain: the snapshot that a read of the seconds takes, the daily correction, the commit at a whole second, the loss
of the backup rail and of the crystal, the alarm and WAKE_OUT (R524 to R533). -/
def Obligations.RtcAndAlarm : Prop :=
  After .rtcSecRead (fun _ => True)
    (fun u => ({ u with rtc := { u.rtc with snap := u.rtcCivil, snapSub := u.rtcSub } }).emit
      (.readValue 0x5000 (BitVec.ofNat 64 u.rtcCivil.sec))) ∧
  (∀ d : Int, d.natAbs < 500000000 → After (.rtcCheck · d)
    (fun u => u.clk.valid ∧ u.rtc.lastCheck + 60000000000 ≤ u.now)
    (fun u => { u with rtc := { u.rtc with
      lastCheck := u.now, base := ((u.mt : Int) - mt2000 + d).toNat, baseAt := u.now } })) ∧
  (∀ c, c.valid → After .rtcCommit (fun u => u.rtc.staged = some c ∧ u.mt % 1000000000 < 123)
    (fun u => { u with rtc := { u.rtc with staged := none, base := secsOf c * 1000000000, baseAt := u.now, osf := false } })) ∧
  (∀ c, c.valid = false → After .rtcCommit (fun u => u.rtc.staged = some c ∧ u.mt % 1000000000 < 123)
    (fun u => ({ u with rtc := { u.rtc with staged := none } }).event 0x0205)) ∧
  (∀ mv dur (s : State) (t : Nat), mv < 1600 → 1000 ≤ dur → ∃ u, exec (.backupLost t mv dur) s = .next u ∧
    u = { s.tick t with rtc := u.rtc } ∧ u.rtc.backupLost = true ∧ u.rtc.osf = true ∧ u.rtc.bkup = [] ∧ u.rtcNs = 0 ∧
    u.rtc.alarmBuf = zeros 16) ∧
  (∀ gap, 1000000 ≤ gap → After (.osf · gap) (fun _ => True)
    (fun u => { u with rtc := { u.rtc with osf := true, base := u.rtcNs - gap, baseAt := u.now } })) ∧
  Answers .rtcAlarm 0x0702 (fun _ r => bit (rd r.buf 7 1) 1 = false)
    (fun s r => ({ s with rtc := { s.rtc with alarmBuf := r.buf.take 16, alarmFired := none } }).complete r 0) ∧
  Answers .rtcAlarm 0x0702 (fun s r => bit (rd r.buf 7 1) 1 ∧ s.cfg.variant ≠ .xkp08) (fun s r => s.complete r stNotPresent) ∧
  (∀ (s : State) (t : Nat), let u := s.tick t
    bit (rd s.rtc.alarmBuf 7 1) 0 = true → u.rtcSub = 0 → alarmHit s.rtc.alarmBuf u.rtcCivil = true →
    s.rtc.alarmFired ≠ some (u.rtcNs / 1000000000) → s.modes.powered = false →
    ∃ v, exec (.alarmFire t) s = .next v ∧ v.rtc.alarm = true ∧ v.rtc.alarmFired = some (u.rtcNs / 1000000000) ∧
      v = { u with rtc := v.rtc }) ∧
  (∀ a, After .wakeTimeout (fun u => u.rtc.wakeOut = some a ∧ a + 10000000000 ≤ u.now)
    (fun u => { u with rtc := { u.rtc with wakeOut := none, wakeTimeout := true } }))

/-! ### Task cycles and variables (05_cycle_execution.md) -/

/-- Cycles: a latch starts cycle n from the checkpoint or confirms a speculation on equal words, a speculation runs ahead within the
horizon, a harvest commits a complete cycle, and warnings and the watchdog follow the charged time (R150 to R165). -/
def Obligations.CycleEvents : Prop :=
  (∀ (task : Fin 64) d img (s : State) (t : Nat), let u := (s.tick t).harvestDue none
    u.taskDef task.val = some d → u.runsTasks = true → u.modes.role = .follow →
    u.cycleAt d (u.task task.val).nextN ≤ u.mt → (u.task task.val).cyc = none → u.tileWaits d.die = false →
    (u.task task.val).mirrored = some ((u.task task.val).nextN, img) →
    exec (.cycleStart t task) s = .next ((u.syncForces task.val 0).latch d (u.task task.val)
      (u.cycleAt d (u.task task.val).nextN) img (u.task task.val).mirrorLat)) ∧
  (∀ (task : Fin 64) d (s : State) (t : Nat), let u := (s.tick t).harvestDue none
    u.taskDef task.val = some d → u.runsTasks = true → u.modes.role = .simplex → u.leadsPair = false →
    u.cycleAt d (u.task task.val).nextN ≤ u.mt → (u.task task.val).cyc = none → u.tileWaits d.die = false →
    exec (.cycleStart t task) s = .next ((u.syncForces task.val 0).latch d (u.task task.val)
      (u.cycleAt d (u.task task.val).nextN)
      ((u.syncForces task.val 0).acquire (u.cycleAt d (u.task task.val).nextN) d (u.task task.val)) 0)) ∧
  (∀ (s : State) (d : TaskDef) (tk : Task) st raw lat, tk.cyc = none → let u := s.latch d tk st raw lat
    (u.task d.task).cyc = some { freshCycle d tk tk.nextN st (s.forceOver d.task 0 raw) false with lat := lat } ∧
    (u.task d.task).nextN = tk.nextN + 1 ∧ (u.task d.task).img = s.forceOver d.task 0 raw) ∧
  (∀ (task : Fin 64) d i, After (.speculationStart · task)
    (fun u => u.prog.loaded = some i ∧ u.taskDef task.val = some d ∧ u.runsTasks ∧ d.horizon ≠ 0 ∧
      (u.task task.val).nextN ≠ 0 ∧ (u.task task.val).cyc = none ∧ u.mt < u.cycleAt d (u.task task.val).nextN ∧
      u.cycleAt d (u.task task.val).nextN ≤ u.mt + d.horizon * d.period * 100 ∧
      u.coreWaits i d (freshCycle d (u.task task.val) (u.task task.val).nextN
        (u.cycleAt d (u.task task.val).nextN) (u.task task.val).img true) = false)
    (fun u => u.setTask task.val { u.task task.val with cyc := some (freshCycle d (u.task task.val) (u.task task.val).nextN
      (u.cycleAt d (u.task task.val).nextN) (u.task task.val).img true) })) ∧
  (∀ (task : Fin 64) q d c, After (.budgetWarning · task q)
    (fun u => u.taskDef task.val = some d ∧ (u.task task.val).cyc = some c ∧ u.runsTasks ∧ c.spec = false ∧ c.warned = false ∧
      c.done = false ∧ d.budget * 80 ≤ q * 100)
    (fun u => (u.setTask task.val { u.task task.val with
      cyc := some { c with warned := true, charged := q }, warnings := satInc (u.task task.val).warnings }).event 0x0701
      [task.val, q])) ∧
  (∀ (task : Fin 64) q d c, After (.watchdogTrip · task q)
    (fun u => u.taskDef task.val = some d ∧ (u.task task.val).cyc = some c ∧ u.runsTasks ∧ c.spec = false ∧ c.done = false ∧
      d.charge ≤ q * 100)
    (fun u => u.watchdogTrip task.val q)) ∧
  (∀ (task : Fin 64) d hp, After (.harvestPoint · task)
    (fun u => u.taskDef task.val = some d ∧ u.harvestAt d = some hp) (fun u => u.harvestDue (some task.val))) ∧
  (∀ (s : State) d c, (s.task d.task).cyc = some c → c.spec = false → c.start + d.harvestNs ≤ s.mt →
    s.harvestAt d = some (c.start + d.harvestNs)) ∧
  (∀ (s : State) up i d c, s.prog.loaded = some i → i.tasks = [d] → (up = none ∨ up = some d.task) → s.runsTasks = true →
    (s.task d.task).cyc = some c → c.spec = false → c.start + d.harvestNs ≤ s.mt →
    (c.done = true → s.tileWaits d.die = false → s.harvestDue up = s.harvest i d c (c.start + d.harvestNs)) ∧
    (c.done = false → c.start + d.harvestNs + c.lat ≤ s.mt →
      s.harvestDue up = (s.drawCharge d c).2.watchdogTrip d.task (s.drawCharge d c).1)) ∧
  (∀ (d : TaskDef) (tk : Task) n st img sp, let c := freshCycle d tk n st img sp
    c.n = n ∧ c.start = st ∧ c.spec = sp ∧ c.pc = d.entry ∧ c.img = img ∧ c.sp.stk = [] ∧ c.sp.var = tk.sp.var ∧
    c.reg 30 = BitVec.ofNat 64 d.stkSize ∧ (∀ r, r ≠ 30 → c.reg r = 0) ∧ (∀ p, p ≠ 0 → c.pred p = false)) ∧
  (∀ (s : State) n q, ((s.watchdogTrip n q).task n).cyc = none)

/-- Program and variables: PROG_INFO answers the CRC of the stored image and PROG_LOAD stores one that passes its checks;
ONLINE_CHANGE runs in RUN and is applied whole elsewhere; FORCE_SET, FORCE_RELEASE and FORCE_LIST work on the force table, and
FORCE_REFRESH lays it in MAINTENANCE; VAR_READ, VAR_SUBSCRIBE, SUB_CANCEL and TASK_STATUS answer what R170 to R174 say
(R141, R170 to R191). -/
def Obligations.ProgramAndVariables : Prop :=
  Answers .progInfo 0x0200 (fun _ _ => True)
    (fun s r => s.complete r 0 (match s.prog.stored with | some i => i.crc.toNat | none => 0)) ∧
  (∀ i, Answers .progLoad 0x0201
    (fun s r => s.prog.storing = none ∧ parseImage r.buf = some i ∧ s.imageAuth r.buf ∧ s.imagePresent i)
    (fun s r => ({ s with prog := { s.prog with storing := some (r.rid, i) } }).running r.rid)) ∧
  Answers .progLoad 0x0201 (fun s r => s.prog.storing = none ∧ parseImage r.buf = none) (fun s r => s.complete r stBad 5) ∧
  (∀ i, Answers .progLoad 0x0201
    (fun s r => s.prog.storing = none ∧ parseImage r.buf = some i ∧ s.imageAuth r.buf = false)
    (fun s r => s.complete r stAuthFail)) ∧
  (∀ i, Answers .progLoad 0x0201
    (fun s r => s.prog.storing = none ∧ parseImage r.buf = some i ∧ s.imageAuth r.buf ∧ s.imagePresent i = false)
    (fun s r => s.complete r stNotPresent)) ∧
  (∀ k, Answers .onlineChange 0x0203 (fun s r => s.badEntry .change (varEntries r.buf) = some k)
    (fun s r => s.complete r stNotPresent k)) ∧
  Answers .onlineChange 0x0203 (fun s r => s.badEntry .change (varEntries r.buf) = none ∧ s.modes.mode ≠ .run)
    (fun s r =>
      let es := varEntries r.buf
      let o : OcSet := { rid := r.rid, entries := es, acc := s.accMt r
                         left := (es.map (fun e => handleTask e.handle)).eraseDups }
      (s.running r.rid).applyWhole o) ∧
  Answers .onlineChange 0x0203
    (fun s r => s.badEntry .change (varEntries r.buf) = none ∧ s.modes.mode = .run ∧ s.prog.running = [] ∧ s.prog.waiting = [])
    (fun s r =>
      let es := varEntries r.buf
      let o : OcSet := { rid := r.rid, entries := es, acc := s.accMt r
                         left := (es.map (fun e => handleTask e.handle)).eraseDups }
      let u := s.running r.rid
      { u with prog := { u.prog with running := [o] } }) ∧
  (∀ k, Answers .forceSet 0x0204 (fun s r => s.badEntry .force (varEntries r.buf) = some k)
    (fun s r => s.complete r stNotPresent k)) ∧
  Answers .forceSet 0x0204
    (fun s r => s.badEntry .force (varEntries r.buf) = none ∧ addForces (s.accMt r) s.prog.forces (varEntries r.buf) = none)
    (fun s r => s.complete r stAdmission) ∧
  (∀ fs, Answers .forceSet 0x0204
    (fun s r => s.badEntry .force (varEntries r.buf) = none ∧ addForces (s.accMt r) s.prog.forces (varEntries r.buf) = some fs)
    (fun s r => (((varEntries r.buf).foldl (fun (st : State) e => st.event 0x0705 [e.handle.toNat, e.value.toNat])
      { s with prog := { s.prog with forces := fs } }).forcesChanged ((varEntries r.buf).map (·.handle))).complete r 0)) ∧
  (∀ acc fs es gs, addForces acc fs es = some gs → gs.length ≤ 1024 ∧
    ∀ e ∈ es, ∃ f ∈ gs, f.handle = e.handle ∧ f.width = e.width) ∧
  (∀ (s : State) rid r, s.ready rid 0x0205 r → r.kind = 0 ∨ (∃ f ∈ s.prog.forces, f.handle.toNat = r.value) →
    ∃ v, exec (.forceRelease rid) s = .next v ∧
      v.prog.forces = s.prog.forces.filter (fun f => !(r.kind == 0 || f.handle.toNat == r.value))) ∧
  Answers .forceRelease 0x0205 (fun s r => r.kind ≠ 0 ∧ ∀ f ∈ s.prog.forces, f.handle.toNat ≠ r.value)
    (fun s r => s.complete r stNotPresent) ∧
  Answers .forceList 0x0206 (fun _ _ => True)
    (fun s r =>
      let fs := sortForces s.prog.forces
      let b := u16 fs.length ++ zeros 14 ++
        fs.flatMap (fun (f : Force) => u32 f.handle.toNat ++ u8 f.width ++ u8 1 ++ zeros 2 ++ u64 f.value.toNat)
      s.complete r 0 fs.length 0 (some (b ++ zeros (16400 - b.length)))) ∧
  (∀ (s : State) (t : Nat), s.modes.mode = .maintenance → s.prog.refreshed + 1000000 ≤ (s.tick t).now →
    ∃ v, exec (.forceRefresh t) s = .next v ∧ v.prog.refreshed = (s.tick t).now ∧ v.prog.effForces = s.prog.forces ∧
      v.prog.forces = s.prog.forces ∧ v.modes = s.modes ∧ v.out = s.out) ∧
  Answers .varRead 0x0207 (fun s r => s.badEntry .read (varEntries r.buf) = none)
    (fun s r => s.complete r 0 0 0 (some (r.buf.take 16 ++ (varEntries r.buf).flatMap s.entryOut))) ∧
  (∀ k, Answers .varRead 0x0207 (fun s r => s.badEntry .read (varEntries r.buf) = some k)
    (fun s r => s.complete r stNotPresent k)) ∧
  (∀ h, Answers (.varSubscribe · h) 0x0208
    (fun s r => ∀ e ∈ varEntries r.buf,
      s.varValid .read e.handle e.width = true ∧ handleTask e.handle = bits r.aux.toNat 8 24)
    (fun s r =>
      let x : Sub := { handle := h, opcode := 0x0208, ctx := bits r.aux.toNat 0 8, target := bits r.aux.toNat 8 24
                       entries := varEntries r.buf }
      s.subscribe r x)) ∧
  (∀ (s : State) u es k, s.badEntry u es = some k → ∃ e, es[k]? = some e ∧ s.varValid u e.handle e.width = false ∧
    ∀ j f, j < k → es[j]? = some f → s.varValid u f.handle f.width = true) ∧
  Answers .subCancel 0x0209 (fun _ _ => True)
    (fun s r => ({ s with host := { s.host with subs := s.host.subs.filter (fun x => x.handle.toNat != r.value) } }).complete r 0) ∧
  Answers .taskStatus 0x020A (fun _ _ => True) (fun s r => s.complete r 0 0 0 (some (s.taskStatus r.value)))

/-! ### Loop engine (07_loop_engine.md) -/

/-- Loops: admission, a parameter set under the region rule, modes, reading and subscriptions; a sample is latched at its instant and
mirrored by a lead; a commit follows 160 ns later with the laws of Table 7-1; the output is driven at its instant (R226 to
R267). -/
def Obligations.Loops : Prop :=
  Answers .loopAdmit 0x0300
    (fun s r => s.loopDieAbsent (LoopSet.read r.buf) = false ∧ s.loopFails s.prog.stored (LoopSet.read r.buf) = none)
    (fun s r => ({ s with loops := { s.loops with stored := LoopSet.read r.buf, admitted := true } }).complete r 0) ∧
  Answers .loopAdmit 0x0300 (fun s r => s.loopDieAbsent (LoopSet.read r.buf)) (fun s r => s.complete r stNotPresent) ∧
  (∀ i k, Answers .loopAdmit 0x0300
    (fun s r => s.loopDieAbsent (LoopSet.read r.buf) = false ∧ s.loopFails s.prog.stored (LoopSet.read r.buf) = some (i, k))
    (fun s r => (s.event 0x0801 [i, k]).complete r stAdmission (i % 65536 + k * 65536))) ∧
  (∀ l, Answers .loopParam 0x0301 (fun s r => s.loop r.value = some l ∧ s.modes.mode = .run ∧ l.parRun = none)
    (fun s r => (s.setLoop { l with parRun := some (r.rid, LoopPar.read r.buf, s.accMt r) }).running r.rid)) ∧
  (∀ l, Answers .loopParam 0x0301 (fun s r => s.loop r.value = some l ∧ s.modes.mode ≠ .run)
    (fun s r => s.applyPar l r.rid (LoopPar.read r.buf) s.mt none)) ∧
  (∀ l, Answers .loopMode 0x0302
    (fun s r => s.loop r.value = some l ∧ (r.aux.toNat = 2 → s.outerOf r.value ≠ none) ∧ s.modes.mode = .run)
    (fun s r => (s.setLoop { l with modeReqs := l.modeReqs ++ [(r.rid, r.aux.toNat, s.accMt r)] }).running r.rid)) ∧
  (∀ l, Answers .loopMode 0x0302
    (fun s r => s.loop r.value = some l ∧ (r.aux.toNat = 2 → s.outerOf r.value ≠ none) ∧ s.modes.mode ≠ .run)
    (fun s r => (s.loopModeTo l r.aux.toNat).complete r 0 s.mt)) ∧
  (∀ l, Answers .loopRead 0x0303 (fun s r => s.loop r.value = some l)
    (fun s r => s.complete r 0 0 0 (some (s.loopBytes l)))) ∧
  (∀ l h, Answers (.loopSubscribe · h) 0x0304 (fun s r => s.loop r.value = some l)
    (fun s r => s.subscribe r { handle := h, opcode := 0x0304, ctx := bits r.aux.toNat 0 8, target := r.value, param := bits r.aux.toNat 8 24 })) ∧
  (∀ (h : BitVec 16) l (s : State) (t : Nat), let u := ((s.tick t).harvestDue none).outerFirst h.toNat
    u.loop h.toNat = some l → u.modes.mode = .run → u.modes.role ≠ .follow → u.leadsPair = false → l.smp = none →
    l.lrec.isSample u.mt = true → u.modes.rstMt ≤ u.mt →
    ∃ m : LoopSmp, exec (.loopSample t h) s = .next (u.takeSample h.toNat m) ∧ m.mt = u.mt ∧
      m.y = (u.loopSource u.mt l.lrec.sampleSrc l.lrec.period).1 ∧ m.sp = (u.loopSource u.mt l.lrec.spSrc l.lrec.period).1 ∧
      m.dyn = (u.clampOf u.mt l).1) ∧
  (∀ (h : BitVec 16) l m, After (.loopCommit · h) (fun u => u.loop h.toNat = some l ∧ u.commitDue l = some m)
    (fun u => u.commitLoop l m)) ∧
  (∀ (s : State) l m, l.smp = some m → s.modes.mode = .run → s.tileWaits (bits l.handle 13 3) = false → s.mt = m.mt + 160 →
    s.commitDue l = some m) ∧
  (∀ (s : State) l m, m.lost = true →
    (l.lrec.lostSafe = true → s.commitSample l m = ({ l with
      smp := none, srcLost := true, pend := some (l.lrec.outputAt m.mt, none), status := l.status ||| 0x200 }, s, false)) ∧
    (l.lrec.lostSafe = false → s.commitSample l m = (l.commitAgain m true, s, true))) ∧
  (∀ (s : State) l m, m.lost = false → l.srcLost = false → (l.commitNormal m).2 = false → m.dyn = none →
    s.commitSample l m = ((l.commitNormal m).1, s, true)) ∧
  (∀ (s : State) l m, l.parRun = none → l.mode ≠ 2 → let x := s.commitSample l m
    (s.commitLoop l m).loop l.handle =
      some ((if x.2.2 then x.1.show_ else x.1).runAhead m (LoopConst.of l.lrec.period l.par).t)) ∧
  (∀ (h : BitVec 16) l a x, After (.loopOutput · h)
    (fun u => u.loop h.toNat = some l ∧ l.pend = some (a, some x) ∧ l.ext = none ∧ u.modes.mode = .run ∧ a ≤ u.mt ∧
      u.tileWaits (bits l.handle 13 3) = false)
    (fun u => (u.setLoop { l with pend := none }).loopDrive a l.lrec.dest (some x.1) l.srcLost)) ∧
  (∀ (s : State) a w v b, srcKind w = 1 → let n := bits (srcRef w) 0 2
    (s.loopDrive a w (some v) b).fao n = (s.fao n).commit v ∧
    (s.loopDrive a w none b).fao n = { s.fao n with committed := false }) ∧
  (∀ (s : State) a w v b, srcKind w = 2 → let n := bits (srcRef w) 0 3
    (s.loopDrive a w (some v) b).cl n = (s.cl n).commit v ∧
    (s.loopDrive a w none b).cl n = { s.cl n with committed := false }) ∧
  (∀ (l : Loop) k r y z, l.lrec.type = 6 → (l.law k r y z).u = ffma l.par.k0 y r) ∧
  (∀ (l : Loop) k r y z, l.lrec.type = 4 →
    (l.law k r y z).u = ffma (fneg l.par.k0) y (ffma (fneg l.par.k2) l.out (ffma l.par.k1 l.prev (fmul l.par.k0 r))) ∧
    (l.law k r y z).prev = fsub r y) ∧
  (∀ (l : Loop) k r y z, l.lrec.type = 1 →
    let dc := ffma k.a l.dstate (fmul k.kdb (fsub r l.prev))
    let iu := ffma k.kit r l.integ
    (l.law k r y z).u = ffma (fneg k.g) y (fadd (ffma l.par.k0 r l.integ) dc) ∧
    (l.law k r y z).dstate = ffma (fneg k.kdb) y dc ∧ (l.law k r y z).integ = ffma (fneg k.kit) y iu ∧
    (l.law k r y z).prev = fsub r y) ∧
  (∀ (l : Loop) m, l.mode = 0 →
    let t := (LoopConst.of l.lrec.period l.par).t
    m.dyn = none → (l.commitNormal m).1.out = (shape l.par.outMin l.par.outMax l.par.outRate t l.out l.par.manOut false).u) ∧
  (∀ (lo hi rate t out target : F) raw, fbad target = true → raw = true → flt f0 rate = false →
    (shape lo hi rate t out target raw).u = fmin (fmax out lo) hi ∧ (shape lo hi rate t out target raw).nonfinite = true)

/-! ### String ports (08_string_ports.md) -/

/-- Chains: STR_ENUM starts the enumeration of a port; CHAIN_FRAME_SEND sends a frame that is due, in free time, and no other;
CHAIN_REPLY, REPLY_TIMEOUT and ENUM_TIMEOUT settle it; BAL_PLAN and BAL_END (R275 to R280, R288 to R292, R306). -/
def Obligations.Chains : Prop :=
  Answers .strEnum 0x0402 (fun s r => (s.port r.value).enumerating = false)
    (fun s r => (s.startEnum r.value (some r.rid)).running r.rid) ∧
  (∀ (s : State) n rid, s.leadsPair = false → (s.port n).sweeps = [] → s.guarded n = none → n < 16 →
    ((s.startEnum n (some rid)).port n).enumerating = true ∧ ((s.startEnum n (some rid)).port n).ready = false ∧
    ((s.startEnum n (some rid)).port n).chain = 4 ∧ ((s.startEnum n (some rid)).port n).enumRid = some rid ∧
    ((s.startEnum n (some rid)).port n).awaiting = none ∧ ((s.startEnum n (some rid)).port n).enumA = 0) ∧
  (∀ e, Answers .balPlan 0x0403
    (fun s r => s.portPlan (rd r.buf 0 1) = some e ∧ balBad e r.buf = none ∧ s.modes.mode = .run)
    (fun s r => (s.setPort (rd r.buf 0 1) { s.port (rd r.buf 0 1) with
      balWait := (s.port (rd r.buf 0 1)).balWait ++
        [{ rid := r.rid, acc := s.accMt r, endMt := rd r.buf 8 8, masks := balMasks r.buf }] }).running r.rid)) ∧
  (∀ e, Answers .balPlan 0x0403
    (fun s r => s.portPlan (rd r.buf 0 1) = some e ∧ balBad e r.buf = none ∧ s.modes.mode ≠ .run)
    (fun s r => (s.setPort (rd r.buf 0 1) { s.port (rd r.buf 0 1) with
      balPlan := some { rid := r.rid, acc := s.accMt r, endMt := rd r.buf 8 8, masks := balMasks r.buf }
      balActive := false }).complete r 0 0)) ∧
  (∀ e i, Answers .balPlan 0x0403 (fun s r => s.portPlan (rd r.buf 0 1) = some e ∧ balBad e r.buf = some i)
    (fun s r => s.complete r stNotPresent i)) ∧
  Answers .balPlan 0x0403 (fun s r => s.portPlan (rd r.buf 0 1) = none) (fun s r => s.complete r stNotPresent) ∧
  (∀ (port : Fin 16) b, After (.balEnd · port)
    (fun u => (u.port port.val).balPlan = some b ∧ (u.port port.val).balActive ∧ b.endMt ≠ 0 ∧ b.endMt ≤ u.mt)
    (fun u => u.balStop port.val false)) ∧
  (∀ (s : State) n, n < 16 → (s.port n).balActive = true → (s.port n).balPlan = none →
    ((s.balStop n false).port n).balActive = false ∧ ((s.balStop n false).port n).balOn = [] ∧
    ((s.balStop n false).port n).stopEnds = s.castEnds n ∧ ((s.balStop n false).port n).balWait = (s.port n).balWait) ∧
  (∀ (port : Fin 16) endB f, (∃ i, f = .enum i ∨ f = .cfg i) → After (.chainFrameSend · port endB f)
    (fun u => u.bonded port.val ∧ u.drivesChain ∧ u.frameMode f ∧ u.canSend endB ∧ u.chainBusy port.val = false ∧
      u.frameSlot port.val endB f ∧ u.frameDue port.val endB f ∧ u.frameWins port.val f ∧ u.leadsPair = false)
    (fun u => u.chainAsk port.val endB f false (u.frameTime port.val endB f) (u.satFrame port.val endB f))) ∧
  (∀ (port : Fin 16) endB, After (.chainFrameSend · port endB .balStop)
    (fun u => u.bonded port.val ∧ u.drivesChain ∧ u.sweepMode ∧ u.canSend endB ∧ u.chainBusy port.val = false ∧
      u.frameSlot port.val endB .balStop ∧ (u.port port.val).stopEnds.contains endB ∧ u.frameWins port.val .balStop ∧
      u.leadsPair = false)
    (fun u => (u.setPort port.val { u.port port.val with
      stopEnds := (u.port port.val).stopEnds.filter (· != endB) }).sendFrame port.val endB (u.castTime port.val 4)
        (chainFrame 0x05 endB false 0x3FF (zeros 4)))) ∧
  (∀ (port : Fin 16) endB f (s : State) (t : Nat), let u := s.tick t
    (∃ i, f = .bal i ∨ (f = .heartbeat i ∧ i ≠ 0x3FF)) → u.bonded port.val = true → u.drivesChain = true →
    u.frameMode f = true → u.canSend endB = true → u.chainBusy port.val = false → u.frameSlot port.val endB f = true →
    u.frameDue port.val endB f = true → u.frameWins port.val f = true → u.leadsPair = false →
    ∃ v, exec (.chainFrameSend t port endB f) s = .next v ∧ v.now = u.now ∧
      (v.port port.val).awaiting = some { f := f, endB := endB, sentAt := u.now, again := false }) ∧
  (∀ (s : State) n dur endB bytes, s.holdsEnd endB = true →
    (s.sendFrame n endB dur bytes).out = .chain n endB bytes :: s.out) ∧
  (∀ (s : State) n endB sat, s.satFrame n endB (.bal sat) = chainFrame 0x05 endB true (posOf (s.sats n) endB sat)
    (u16 (tget (s.port n).balOn sat 0).toNat ++ u8 (b2n ((s.port n).phased sat)) ++ u8 0)) ∧
  (∀ (port : Fin 16) endB f, After (.chainFrameSend · port endB f) (fun u => u.frameDue port.val endB f = false) (fun u => u)) ∧
  (∀ (port : Fin 16) endB rtt bytes, After (.chainReply · port endB rtt bytes)
    (fun u => u.live ∧ u.bonded port.val ∧ u.holdsEnd endB ∧ chainGood bytes = false)
    (fun u => u.setPort port.val { u.port port.val with crcErr := satInc (u.port port.val).crcErr })) ∧
  (∀ (port : Fin 16) endB rtt bytes w sat, After (.chainReply · port endB rtt bytes)
    (fun u => u.live ∧ u.bonded port.val ∧ u.holdsEnd endB ∧ chainGood bytes ∧ u.follows = false ∧ u.drivesChain ∧
      u.leadsPair = false ∧ (u.port port.val).awaiting = some w ∧ w.endB = endB ∧ w.f = .cfg sat ∧ bytes.length ≠ 28 ∧
      rd bytes 0 1 = 0x82 ∧ bit (rd bytes 1 1) 2 = false ∧ bit (rd bytes 1 1) 3 = false ∧
      (u.port port.val).reaches endB sat)
    (fun u => (u.setPort port.val { u.port port.val with
      awaiting := none, cfgTodo := (u.port port.val).cfgTodo.filter (· != sat)
      resetSeen := (u.port port.val).resetSeen.filter (· != sat) }).enumSettle port.val)) ∧
  (∀ (s : State) n, (s.port n).enumerating = true → (s.port n).enumDoneA = true → (s.port n).enumDoneB = true →
    (s.port n).cfgTodo = [] → (s.port n).enumRid = none → n < 16 → ((s.enumSettle n).port n).enumerating = false ∧
    ((s.enumSettle n).port n).ready = (match s.portPlan n with | some e => e.sats == (s.port n).found | none => false)) ∧
  (∀ (port : Fin 16) w sat len, After (.replyTimeout · port)
    (fun u => (u.port port.val).awaiting = some w ∧ ackOf w.f = some (sat, len) ∧ w.again = false ∧ u.drivesChain ∧
      w.sentAt + u.chainDur port.val w.endB sat len 0 + 10000 ≤ u.now ∧ u.frameDue port.val w.endB w.f ∧ u.frameMode w.f ∧
      u.frameSlot port.val w.endB w.f ∧ u.canSend w.endB ∧ u.leadsPair = false)
    (fun u => u.chainAsk port.val w.endB w.f true (u.frameTime port.val w.endB w.f) (u.satFrame port.val w.endB w.f))) ∧
  (∀ (port : Fin 16) w sat len, After (.replyTimeout · port)
    (fun u => (u.port port.val).awaiting = some w ∧ w.f = .cfg sat ∧ ackOf w.f = some (sat, len) ∧ w.again ∧ u.drivesChain ∧
      w.sentAt + u.chainDur port.val w.endB sat len 0 + 10000 ≤ u.now ∧ u.leadsPair = false)
    (fun u => (u.setPort port.val { u.port port.val with
      timeouts := satInc (u.port port.val).timeouts, awaiting := none
      cfgTodo := (u.port port.val).cfgTodo.filter (· != sat) }).enumSettle port.val)) ∧
  (∀ (port : Fin 16) endB pos a ag, After (.enumTimeout · port endB)
    (fun u => (u.port port.val).awaiting = some { f := .enum pos, endB := endB, sentAt := a, again := ag } ∧ a + 200000 ≤ u.now ∧
      (u.port port.val).enumerating ∧ u.leadsPair = false ∧
      (if endB then (u.port port.val).enumDoneB else (u.port port.val).enumDoneA) = false)
    (fun u => (u.setPort port.val { u.port port.val with
      awaiting := none, enumDoneA := (u.port port.val).enumDoneA || !endB
      enumDoneB := (u.port port.val).enumDoneB || endB }).enumCounted port.val)) ∧
  (∀ cmd endB ack addr payload, (chainFrame cmd endB ack addr payload).length = 12 + payload.length) ∧
  (∀ cmd endB ack addr payload, payload.length < 65536 → chainGood (chainFrame cmd endB ack addr payload) = true)

/-- Sweeps and the fault tone: PROBE_SWEEP, SAMPLE_SEND and READ_SEND, BLOCK_RECEIVE and BLOCK_MISSING, TONE_STATE_CHANGE,
TONE_REPORT, TONE_REPORT_STALE and LOOP_OPEN, and the trip source of a port (R282 to R287, R294 to R305). -/
def Obligations.SweepsAndTone : Prop :=
  Answers .probeSweep 0x0405 (fun s r => s.portPlan r.value ≠ none ∧ (s.port r.value).probing = false)
    (fun s r => (s.setPort r.value { s.port r.value with
      probing := true, probeSent := 0, probeRid := some r.rid }).running r.rid) ∧
  Answers .probeSweep 0x0405 (fun s r => s.portPlan r.value ≠ none ∧ (s.port r.value).probing) (fun s r => s.complete r stBusy) ∧
  Answers .probeSweep 0x0405 (fun s r => s.portPlan r.value = none) (fun s r => s.complete r stNotPresent) ∧
  (∀ (port : Fin 16) c e (s : State) (t : Nat), let u := s.tick t
    u.cells.plan = some c → u.portPlan port.val = some e → c.isInstant (u.mt + 400000) = true → u.sweepMode = true →
    (u.port port.val).ready = true → (u.port port.val).sweeps = [] → (u.port port.val).probing = false →
    (u.port port.val).broken = false → u.drivesChain = true → u.leadsPair = false → u.holdsEnd u.cmdEnd = true →
    ∃ v w, exec (.sampleSend t port) s = .next v ∧ v.now = u.now ∧ (v.port port.val).sweeps = [w] ∧
      w.seq = (u.sweepCount (u.mt + 400000)).1 ∧ w.mt = u.mt + 400000 ∧ w.readSent = false ∧ w.closed = false ∧
      w.skip = false ∧ w.cmdB = u.cmdEnd ∧
      Output.chain port.val u.cmdEnd (sampleFrame u.cmdEnd (u.sweepCount (u.mt + 400000)).1 none) ∈ v.out) ∧
  (∀ (s : State) a, s.cells.seqMt ≠ some a → (s.sweepCount a).1 = s.cells.seqNext ∧
    (s.sweepCount a).2.cells.seqNext = s.cells.seqNext + 1 ∧ ((s.sweepCount a).2.sweepCount a).1 = s.cells.seqNext) ∧
  (∀ (port : Fin 16) w (s : State) (t : Nat), let u := s.tick t
    (u.port port.val).sweeps = [w] → w.skip = false → w.dead = false → w.readSent = false → w.closed = false →
    w.probe = none → w.both = false → u.mt = w.mt + 30000 → u.sweepMode = true → u.drivesChain = true →
    u.leadsPair = false → u.holdsEnd u.cmdEnd = true → 0 < u.sats port.val →
    ∃ v x, exec (.readSend t port) s = .next v ∧ v.now = u.now ∧ (v.port port.val).sweeps = [x] ∧ x.readSent = true ∧
      x.reads = w.reads ++ [{ endB := u.cmdEnd, sentAt := u.now, first := 0, count := u.sats port.val }] ∧
      v.out = .chain port.val u.cmdEnd (readFrame u.cmdEnd w.seq 0 (u.sats port.val) false) :: u.out) ∧
  (∀ endB seq first count probe, readFrame endB seq first count probe =
    chainFrame 0x04 endB false 0x3FF (u16 seq ++ u16 first ++ u16 count ++ u8 (b2n probe) ++ u8 0)) ∧
  (∀ (port : Fin 16) endB bytes, After (.blockReceive · port endB bytes)
    (fun u => u.live ∧ u.bonded port.val ∧ u.holdsEnd endB ∧ bytes.length ≠ 74 ∧ bytes.length ≠ 106)
    (fun u => u.setPort port.val { u.port port.val with crcErr := satInc (u.port port.val).crcErr })) ∧
  (∀ (port : Fin 16) endB bytes, After (.blockReceive · port endB bytes)
    (fun u => u.live ∧ u.bonded port.val ∧ u.holdsEnd endB ∧ bytes.length = 74 ∧
      (crc16 (bytes.take 72)).toNat ≠ rd bytes 72 2)
    (fun u => u.setPort port.val { u.port port.val with crcErr := satInc (u.port port.val).crcErr })) ∧
  (∀ (port : Fin 16) endB bytes, After (.blockReceive · port endB bytes)
    (fun u => u.live ∧ u.bonded port.val ∧ u.holdsEnd endB ∧ bytes.length = 74 ∧
      (crc16 (bytes.take 72)).toNat = rd bytes 72 2 ∧ u.follows = false ∧ u.leadsPair = false)
    (fun u => u.useChainBlock port.val endB bytes)) ∧
  (∀ (s : State) n endB b w sat, n < 16 → (s.port n).sweeps = [w] → w.skip = false → w.dead = false →
    w.readSent = true → w.closed = true → tfind w.got sat = none →
    satAt (s.sats n) endB (bits (rd b 0 2) 0 10) = some sat → bit (rd b 0 2) 10 = false → bit (rd b 0x46 2) 14 = false →
    (s.port n).enumerating = true →
    ((s.useChainBlock n endB b).port n).sweeps = [{ w with
      got := tset w.got sat (SatSample.read b (if endB == w.cmdB then 0 else if endB then 2 else 1)) }]) ∧
  (∀ (port : Fin 16) a b, After (.blockMissing · port a b)
    (fun u => u.portPlan port.val ≠ none ∧ (u.port port.val).ready ∧ u.sweepMode ∧ u.drivesChain ∧ u.leadsPair = false ∧
      ((u.port port.val).suspect ∨ u.lateRead port.val false ≠ none ∨ u.lateRead port.val true ≠ none) ∧
      ((u.locate port.val (u.reachNow port.val false a) (u.reachNow port.val true b)).port port.val).current = none)
    (fun u => u.locate port.val (u.reachNow port.val false a) (u.reachNow port.val true b))) ∧
  (∀ (s : State) n a b, n < 16 → s.guarded n = none → s.canSend false = true → s.canSend true = true → b ≠ 0 →
    (s.port n).broken = false →
    ((s.locate n (some a) (some b)).port n).broken = true ∧ ((s.locate n (some a) (some b)).port n).reachA = some a ∧
    ((s.locate n (some a) (some b)).port n).reachB = some b ∧
    ((s.locate n (some a) (some b)).port n).breaks = satInc (s.port n).breaks ∧
    ((s.locate n (some a) (some b)).port n).chain = (if b ≤ a + 1 then 2 else 3)) ∧
  (∀ (port : Fin 16) endB tone, After (.toneStateChange · port endB tone)
    (fun u => u.live ∧ u.bonded port.val ∧ u.holdsEnd endB) (fun u => u.putTone port.val endB tone)) ∧
  (∀ (port : Fin 16) endB tone, After (.toneReport · port endB tone)
    (fun u => u.live ∧ u.bonded port.val ∧ u.holdsEnd endB = false ∧ u.twinUp)
    (fun u => (u.goodFrame.setPort port.val { u.port port.val with toneFarAt := u.now }).putTone port.val endB tone)) ∧
  (∀ (port : Fin 16), After (.toneReportStale · port)
    (fun u => u.cfg.ee.slots ≠ 1 ∧ (u.port port.val).toneFarAt + 30000 < u.now ∧
      (if u.slotB then (u.port port.val).toneA else (u.port port.val).toneB) ≠ .none)
    (fun u => u.putTone port.val (!u.slotB) .none)) ∧
  (∀ (s : State) n endB tone, n < 16 → s.guarded n = none →
    ((s.putTone n endB tone).port n).toneB = (if endB then tone else (s.port n).toneB) ∧
    ((s.putTone n endB tone).port n).toneA = (if endB then (s.port n).toneA else tone)) ∧
  (∀ (port : Fin 16), After (.loopOpen · port) (fun u => u.live ∧ u.bonded port.val) (fun u => u.judgeTone port.val)) ∧
  (∀ (s : State) n, n < 16 → s.guarded n = none → ((s.judgeTone n).port n).tripSrc = 0) ∧
  (∀ (s : State) n g, n < 16 → s.guarded n = some g → s.faultTone n = true → ((s.judgeTone n).port n).tripSrc = 1) ∧
  (∀ (s : State) n k d a, n < 16 → s.guarded n = some (k, d) → s.faultTone n = false → s.gapNow n = true →
    (s.port n).gapSince = some a → a + d * 1000000 ≤ s.now → ((s.judgeTone n).port n).tripSrc = 2) ∧
  (∀ (s : State) n g, n < 16 → s.guarded n = some g → s.faultTone n = false → s.gapNow n = false →
    ((s.judgeTone n).port n).tripSrc = 0) ∧
  (∀ n, coverA n .healthy = n ∧ coverB n .healthy = 0 ∧ coverA n .fault = 0 ∧ coverB n .fault = n) ∧
  (∀ n i, i ≠ 0x3FF → coverA n (.origin i) = min n (i.toNat + 1) ∧ coverB n (.origin i) = i.toNat)

/-! ### Cells, estimation and contactors (09_pack_estimation.md) -/

/-- Cells and contactors: CELL_PLAN, CHEM_LOAD, CONTACTOR_PLAN, CELL_SUBSCRIBE and CELL_READ, CURRENT_LATCH, ESTIMATION, PUBLICATION
and CELL_COMMIT, and CONTACTOR_TICK with the moves of an entry (R310 to R350). -/
def Obligations.CellsAndContactors : Prop :=
  Answers .cellPlan 0x0400 (fun s r => s.planFails (CellPlan.read r.buf) = none)
    (fun s r => (s.applyPlan (CellPlan.read r.buf)).complete r 0) ∧
  (∀ a b, Answers .cellPlan 0x0400 (fun s r => s.planFails (CellPlan.read r.buf) = some (a, b)) (fun s r => s.complete r a b)) ∧
  Answers .chemLoad 0x0401 (fun _ _ => True)
    (fun s r =>
      let c := Chem.read r.buf
      (({ s with cells := { s.cells with chems := tset s.cells.chems c.id c } }).event 0x0A01 [c.id, c.crc.toNat]).complete r 0) ∧
  (∀ (s : State) (c : Chem), tfind (tset s.cells.chems c.id c) c.id = some c) ∧
  Answers .contactorPlan 0x0404
    (fun s r => s.contFails ((contEntries r.buf).map Contactor.read) = none ∧ s.modes.mode ≠ .run)
    (fun s r => (s.contTake ((contEntries r.buf).map Contactor.read) (crc32 r.buf)).complete r 0 s.mt) ∧
  Answers .contactorPlan 0x0404
    (fun s r => s.contFails ((contEntries r.buf).map Contactor.read) = none ∧ s.modes.mode = .run)
    (fun s r => ({ s with cells := { s.cells with contWait :=
      s.cells.contWait ++ [(r.rid, s.accMt r, crc32 r.buf, (contEntries r.buf).map Contactor.read)] } }).running r.rid) ∧
  (∀ st i, Answers .contactorPlan 0x0404 (fun s r => s.contFails ((contEntries r.buf).map Contactor.read) = some (st, i))
    (fun s r => s.complete r st i)) ∧
  (∀ (s : State) cs crc, (s.contTake cs crc).cells.conts = cs.map (s.contStart s.mt)) ∧
  (∀ h, Answers (.cellSubscribe · h) 0x0406 (fun _ _ => True)
    (fun s r => s.subscribe r
      { handle := h, opcode := 0x0406, ctx := bits r.aux.toNat 0 8, target := r.value, param := bits r.aux.toNat 8 16, content := bits r.aux.toNat 24 8 })) ∧
  (∀ p, Answers .cellRead 0x0407
    (fun s r => r.value < 2 ^ 17 ∧ s.portPlan (r.value / 8192) = some p ∧ r.value % 8192 / 16 < p.sats)
    (fun s r => s.complete r 0 0 0
      (some ((p.cell (s.pubs s.mt).cells (r.value % 8192 / 16) (r.value % 16)).bytes r.value)))) ∧
  (∀ p, Answers .cellRead 0x0407
    (fun s r => r.value < 2 ^ 17 ∧ s.portPlan (r.value / 8192) = some p ∧ p.sats ≤ r.value % 8192 / 16)
    (fun s r => s.complete r stNotPresent)) ∧
  (∀ x i, (Cell.bytes x i).length = 64) ∧
  (∀ (port : Fin 16) e c, After (.currentLatch · port)
    (fun u => u.estPlan port.val = some e ∧ u.cells.plan = some c ∧ u.modes.role ≠ .follow ∧ u.leadsPair = false ∧ u.sweepMode ∧
      (u.mt % 100000 = 0 ∨ c.isInstant u.mt))
    (fun u =>
      let v := u.source u.mt e.iSrc
      let a := ffma e.iScale v.1 e.iOffset
      u.latchCurrent port.val u.mt a (v.2 || fbad v.1))) ∧
  (∀ (s : State) n mt v lost, s.cells.plan = none → (s.port n).sweeps = [] → mt % 100000 = 0 →
    ((s.latchCurrent n mt v lost).cur n).cnt = (s.cur n).cnt + 1 ∧
    ((s.latchCurrent n mt v lost).cur n).sum = BitVec.ofNat 64 (f64.add (s.cur n).sum.toNat (f64of v))) ∧
  (∀ (port : Fin 16) plan p e w (s : State) (t : Nat), let u := s.tick t
    u.cells.plan = some plan → u.portPlan port.val = some p → u.estPlan port.val = some e → u.sweepMode = true →
    u.portWaits p = false → (u.port port.val).sweeps = [w] → w.estimated = false → w.mt < u.mt → w.closed = true →
    exec (.estimation t port) s = .next ((u.setPort port.val ((u.port port.val).setSweep { w with estimated := true })).estimateSweep
      port.val plan p e w)) ∧
  (∀ (s : State) n plan p e w, ∃ d, (s.estimateSweep n plan p e w).cells.fin.head? = some d ∧
    d.mt = w.mt ∧ d.seq = w.seq ∧ d.port = n) ∧
  After .publication (fun u => u.cells.plan = none ∨ u.cells.fin = []) (fun u => u) ∧
  (∀ c p d (s : State) (t : Nat), let u := s.tick t
    u.cells.plan = some c → c.ports = [p] → u.cells.fin = [d] → d.port = p.port →
    u.mt = d.mt + c.sweepPeriod * 1000000 + 500000 → c.isInstant d.mt = true → u.cells.lastPub ≠ d.mt → u.sweepMode = true →
    ∃ v : State, exec (.publication t) s = .next v ∧
      v.cells.lastPub = d.mt ∧ v.cells.pubNow = u.now ∧ v.cells.aggPub = [(p.port, d.item)] ∧
      v.cells.pub = d.cells.foldl (fun (m : Tab Cell) e => tset m e.1 e.2) u.cells.pub) ∧
  After .cellCommit (fun u => u.cells.lastCommit + 10000000000 ≤ u.now)
    (fun u => { u with cells := { u.cells with mram := u.cells.work, lastCommit := u.now } }) ∧
  After .cellCommit (fun u => u.now < u.cells.lastCommit + 10000000000) (fun u => u) ∧
  After .contactorTick
    (fun u => (u.harvestDue none).modes.mode = .run ∧ (u.harvestDue none).mt % 1000000 = 0 ∧
      (u.harvestDue none).follows = false ∧ ((u.harvestDue none).contDue (u.harvestDue none).mt).leadsPair = false)
    (fun u =>
      let v := (u.harvestDue none).contDue (u.harvestDue none).mt
      v.contRun v.mt (v.contInputs v.mt)) ∧
  (∀ (s : State) at_, s.cells.contWait = [] → s.contDue at_ = s) ∧
  (∀ (s : State) at_ k bus fb, s.cells.conts = [k] → k.leaving = false → (s.contRun at_ [(bus, fb)]).cells.conts =
    [match s.contNext at_ k bus fb with | some (n, c) => (s.contMove at_ k n c).1 | none => k]) ∧
  (∀ (s : State) at_ (k : ContactorRun) bus fb, 1 ≤ k.state → k.state ≤ 4 → (s.port k.plan.port).tripSrc ≠ 0 →
    s.contNext at_ k bus fb = some (5, 0)) ∧
  (∀ (s : State) at_ (k : ContactorRun) bus fb, k.state = 1 ∨ k.state = 2 → (s.varValue k.plan.req 1).1 = 0 →
    s.contNext at_ k bus fb = some (5, 0)) ∧
  (∀ (s : State) at_ (k : ContactorRun) bus fb, k.state = 3 → (s.port k.plan.port).tripSrc = 0 →
    s.contNext at_ k bus fb = if (s.varValue k.plan.req 1).1 = 0 then some (4, 0) else none) ∧
  (∀ (s : State) at_ (k : ContactorRun) n c, (s.contMove at_ k n c).1 = { k with state := n, since := at_ }) ∧
  contOutputs 0 = (false, false, false) ∧ contOutputs 1 = (true, false, true) ∧ contOutputs 2 = (true, true, true) ∧
  contOutputs 3 = (false, true, true) ∧ contOutputs 4 = (false, true, true) ∧ contOutputs 5 = (false, false, false) ∧
  contOutputs 6 = (false, false, false)

/-! ### Trip network and safety functions (11_trip_and_safety.md) -/

/-- Trip network: configuration, a level on an input, the term and the latch of an output, its coil, resets, switch tests, die
temperatures and proof tests (R389 to R410). -/
def Obligations.TripNetwork : Prop :=
  Answers .tripConfig 0x0880 (fun s r => s.tripMasksAbsent r.buf) (fun s r => s.complete r stNotPresent) ∧
  Answers .tripConfig 0x0880 (fun s r => s.tripMasksAbsent r.buf = false)
    (fun s r => ((s.applyTrip r.buf).logChange r s.trip.cfgCrc.toNat (s.applyTrip r.buf).trip.cfgCrc.toNat 0).complete r 0) ∧
  (∀ p1 p2, Answers (.tripReset · p1 p2) 0x0882 (fun _ _ => True)
    (fun s r => ((s.resetOut r.value r.actor p1 p2).1.logChange r s.trip.cfgCrc.toNat s.trip.cfgCrc.toNat r.value).complete r 0
      (b2n (s.resetOut r.value r.actor p1 p2).2))) ∧
  Answers .tripStatus 0x0883 (fun _ _ => True)
    (fun s r => s.complete r 0 0 0 (some (u32 s.trip.src.toNat ++ u32 (s.tripWord 0x014) ++ u32 s.trip.ward.toNat ++ zeros 4 ++
      (List.range 32).flatMap (fun n => u64 (tget s.trip.lastAssert n 0)) ++
      (List.range 8).flatMap (fun n => u64 (s.tripOut n).lastSafe)))) ∧
  (∀ (n : Fin 8) level d, 100 ≤ d → After (.tripInputEdge · n level d) (fun _ => True)
    (fun u => ({ u with trip := { u.trip with levels :=
      if level then u.trip.levels ||| BitVec.ofNat 8 (2 ^ n.val)
      else u.trip.levels &&& ~~~(BitVec.ofNat 8 (2 ^ n.val)) } }).tripSettle)) ∧
  (∀ (n : Fin 8) level d, d < 100 → After (.tripInputEdge · n level d) (fun _ => True) (fun u => u)) ∧
  (∀ (die : Fin 8) deg, After (.dieTemperature · die deg)
    (fun u => u.diePresent die.val ∧ 920 < deg.toInt ∧ u.trip.overTemp ∧ u.pwr.temps = [])
    (fun u => ({ u with pwr := { u.pwr with temps := tset u.pwr.temps die.val deg }
                        trip := { u.trip with overTemp := true } }).tripSettle)) ∧
  (∀ (n : Fin 8), After (.pulseTest · n true true)
    (fun u => u.coil n.val ∧ (u.tripOut n.val).pulseTest ∧
      (u.tripOut n.val).testAt + (u.tripOut n.val).testInterval * 1000000000 ≤ u.now)
    (fun u => u.setTripOut n.val { u.tripOut n.val with testAt := u.now, testHigh := !(u.tripOut n.val).testHigh })) ∧
  (∀ (n : Fin 8) high d, 10000 ≤ d → After (.switchFault · n high d)
    (fun u => u.trip.armed ∧ (u.tripOut n.val).switchFault = false) (fun u => u.switchFail n.val high)) ∧
  (∀ (src : Fin 32), After (.proofDue · src) (fun u => u.overdue src.val ∧ tfind u.trip.proofAt src.val = none)
    (fun u => ({ u with trip := { u.trip with
      proofDue := true, proofAt := tset u.trip.proofAt src.val u.mt } }).event 0x0414 [src.val])) ∧
  (∀ (o : TripOut) term, (o.settle term).term = term ∧
    ((o.settle term).latched = (o.enabled && ((o.latching && (o.latched || term)) || o.switchFault))) ∧
    ((o.settle term).safeNow = (o.enabled && (term || (o.settle term).latched)))) ∧
  (∀ (o : TripOut) src, o.termOf src = true ↔
    (∃ k, k < 32 ∧ src.getLsbD k ∧ o.orMask.getLsbD k) ∨
    (o.andMask ≠ 0 ∧ ∀ k, o.andMask.getLsbD k = true → src.getLsbD k = true)) ∧
  (∀ (s : State) n, s.trip.loaded = false → s.coil n = false) ∧
  (∀ (s : State) n, s.trip.loaded = true → s.coil n =
    ((s.tripOut n).enabled && ((s.tripOut n).safeNow == (s.tripOut n).safeHigh))) ∧
  (∀ (s : State), s.srcBit 31 = false) ∧
  (∀ (s : State) n, 8 ≤ n → n < 24 → s.srcBit n = (s.bonded (n - 8) && (s.port (n - 8)).tripSrc != 0))

/-- Safety functions: SAFETY_CONFIG with its worst-case reaction time, SAFETY_STATUS, the safety period that takes a stored
configuration or decides every function, and the demand of the ward outputs (R402 to R408, R410). -/
def Obligations.SafetyFunctions : Prop :=
  Answers .safetyConfig 0x0881
    (fun s r =>
      let fs := (entriesOf 64 (slice r.buf 16 (64 * rd r.buf 4 2))).map SafeFn.read
      fs.any (fun f => f.ins.any s.safeInAbsent) = false ∧ fs.find? (fun f => f.pst < s.reactionTime f (rd r.buf 0 4)) = none)
    (fun s r =>
      let fs := (entriesOf 64 (slice r.buf 16 (64 * rd r.buf 4 2))).map SafeFn.read
      let crc := crc32 (r.buf.take (16 + 64 * rd r.buf 4 2))
      let u := { s with trip := { s.trip with newFns := some (rd r.buf 0 4, fs), safetyCrc := crc, safetyBad := false } }
      (u.logChange r s.trip.safetyCrc.toNat crc.toNat 0).complete r 0) ∧
  (∀ f, Answers .safetyConfig 0x0881
    (fun s r =>
      let fs := (entriesOf 64 (slice r.buf 16 (64 * rd r.buf 4 2))).map SafeFn.read
      fs.any (fun f => f.ins.any s.safeInAbsent) = false ∧ fs.find? (fun f => f.pst < s.reactionTime f (rd r.buf 0 4)) = some f)
    (fun s r => s.complete r stAdmission (f.func + s.reactionTime f (rd r.buf 0 4) * 2 ^ 32))) ∧
  Answers .safetyStatus 0x0884 (fun _ _ => True)
    (fun s r => s.complete r 0 0 0 (some (u32 s.trip.period ++ u16 s.trip.fns.length ++ zeros 10 ++
      s.trip.fns.flatMap s.fnStatus ++ zeros (16 * (32 - s.trip.fns.length))))) ∧
  (∀ p fs, After .safetyPeriod
    (fun u => u.trip.evaluating ∧ u.trip.periodAt + u.trip.period * 1000 ≤ u.now ∧ u.trip.newFns = some (p, fs))
    (fun u => (({ u with trip := { u.trip with fns := fs, period := p, newFns := none, periodAt := u.now } }).event 0x0409
      [u.trip.safetyCrc.toNat]).wardEval)) ∧
  (∀ f (s : State) (t : Nat), let u := s.tick t
    u.trip.evaluating = true → u.trip.periodAt + u.trip.period * 1000 ≤ u.now → u.trip.newFns = none → u.trip.fns = [f] →
    ∃ v : State, exec (.safetyPeriod t) s = .next v.wardEval ∧ v.trip.fns = [u.evalFn f] ∧ v.trip.wardPeriodDone = true ∧
      v.trip.periodAt = u.now ∧ v.trip.levels = u.trip.levels ∧ v.fio = u.fio) ∧
  (∀ (s : State) f, let g := s.evalFn f
    g.demand = (g.voted || g.testPending || (f.manual && f.demand && !((s.di f.rstIn).state && !f.rstLast))) ∧
    g.voted = decide (f.vote ≤ (g.inDem.filter id).length)) ∧
  (∀ t : Trip, t.evaluating = false ∨ t.safetyBad = true → t.wardNow = 0xF) ∧
  (∀ (t : Trip) n, t.evaluating = true → t.safetyBad = false → t.wardPeriodDone = true → n < 4 →
    t.wardNow.getLsbD n = t.fns.any (fun f => !f.isDo && f.idx == n && f.demand)) ∧
  (∀ (s : State) i was, i.kind = 0 → i.cond = 0 → s.safeInDemand i was = !(s.trip.levels.getLsbD i.ch)) ∧
  (∀ (s : State) i was, i.kind = 2 → i.cond = 2 → s.safeInDemand i was =
    (flt i.thr (s.cl i.ch).ma || (was && flt (fsub i.thr i.hyst) (s.cl i.ch).ma)))

/-! ### Edxis ring (12_edxis_ring.md) -/

/-- Ring actions: RING_STATUS, BYPASS_FORCE with RELAY_SENSE, DROP_SUBSCRIBE, APPLY, the opening of a cycle (RING_CYCLE_OPEN), C1_SLOT,
LINK_FRAME_SEND and TRIP_FRAME_SEND, SYNC_TIMEOUT, LINK_LOST, RING_LINK_UP and UNWRAP, VALUE_LOST and DROP_LOST (R419 to R449). -/
def Obligations.RingActions : Prop :=
  (∀ (s : State) rid r, s.ready rid 0x0500 r → ∃ b, b.length = 64 + 64 * 16 + ((List.range 64).flatMap
      (fun n => tget s.ring.trips n (zeros 8))).length ∧
    exec (.ringStatus rid) s = .next (s.complete r 0 0 0 (some b))) ∧
  Answers .bypassForce 0x0501
    (fun s r =>
      let u := s.setLink true { s.ring.e with forced := r.aux.getLsbD 0 }
      let v := u.setLink false { u.ring.w with forced := r.aux.getLsbD 1 }
      s.ring.bypassRid = none ∧ v.ring.e.relayClosed ≠ v.relayTarget true)
    (fun s r =>
      let u := s.setLink true { s.ring.e with forced := r.aux.getLsbD 0 }
      let v := (u.setLink false { u.ring.w with forced := r.aux.getLsbD 1 }).running r.rid
      { v with ring := { v.ring with bypassRid := some (r.rid, s.now + 10000000) } }) ∧
  Answers .bypassForce 0x0501
    (fun s r =>
      let u := s.setLink true { s.ring.e with forced := r.aux.getLsbD 0 }
      let v := u.setLink false { u.ring.w with forced := r.aux.getLsbD 1 }
      s.ring.bypassRid = none ∧ v.ring.e.relayClosed = v.relayTarget true ∧ v.ring.w.relayClosed = v.relayTarget false)
    (fun s r =>
      let u := s.setLink true { s.ring.e with forced := r.aux.getLsbD 0 }
      (u.setLink false { u.ring.w with forced := r.aux.getLsbD 1 }).complete r 0) ∧
  (∀ ec wc rid due r (s : State) (t : Nat), s.ring.bypassRid = some (rid, due) → s.findReq rid = some r →
    ec = s.relayTarget true → wc = s.relayTarget false → s.ring.e.relayClosed = ec → s.ring.w.relayClosed = wc →
    exec (.relaySense t ec wc) s = .next (({ s.tick t with ring := { s.ring with bypassRid := none } }).complete r 0)) ∧
  (∀ (s : State) east, s.relayTarget east = true ↔ (s.ringActive = false ∨ s.pwr.warn ≠ none ∨ (s.link east).forced = true)) ∧
  (∀ h, Answers (.dropSubscribe · h) 0x0502 (fun s r => s.ring.applied.dropIn (bits r.aux.toNat 8 6) = false)
    (fun s r => s.complete r stNotPresent)) ∧
  (∀ h, Answers (.dropSubscribe · h) 0x0502 (fun s r => s.ring.applied.dropIn (bits r.aux.toNat 8 6))
    (fun s r => s.subscribe r { handle := h, opcode := 0x0502, ctx := bits r.aux.toNat 0 8, target := bits r.aux.toNat 8 6 })) ∧
  (∀ w : BitVec 32, w.getLsbD 0 = true → After (.apply · w)
    (fun u => u.ring.written.fails u.ownNode = none ∧ u.leadsPair = false)
    (fun u => { u with ring := { u.ring with
      applyResult := 2, pendingApply := some (u.mt + 1000000, u.ring.written) } })) ∧
  (∀ (w : BitVec 32) k i, w.getLsbD 0 = true → After (.apply · w)
    (fun u => u.ring.written.fails u.ownNode = some (k, i) ∧ u.leadsPair = false)
    (fun u => ({ u with ring := { u.ring with
      applyResult := BitVec.ofNat 32 (i * 65536 + k * 256 + 3) } }).event 0x050B [k, i])) ∧
  After .ringCycleOpen
    (fun u =>
      let h := u.harvestDue none
      h.ringActive ∧ h.mt % h.cycles 1 = 0 ∧ h.ring.pendingApply = none ∧ h.ring.taskVals = [])
    (fun u =>
      let h := u.harvestDue none
      let v := ({ h with ring := { h.ring with cycleNum := h.mt / (h.ring.applied.period * 1000) } }).electMaster.unwrapDue
      if v.ringEmits then v.sendSync.sendDrops.sendBlocks else v) ∧
  (∀ a c, After .ringCycleOpen
    (fun u =>
      let h := u.harvestDue none
      h.ringActive ∧ h.mt % h.cycles 1 = 0 ∧ h.ring.pendingApply = some (a, c) ∧ a ≤ h.mt ∧ h.ring.taskVals = [])
    (fun u =>
      let h := u.harvestDue none
      let w := ({ h with ring := { h.ring with applied := c, pendingApply := none, applyResult := 1 } }).event 0x0509
      let v := ({ w with ring := { w.ring with cycleNum := w.mt / (w.ring.applied.period * 1000) } }).electMaster.unwrapDue
      if v.ringEmits then v.sendSync.sendDrops.sendBlocks else v)) ∧
  (∀ (s : State), s.ring.master = s.ownNode → s.ownPrio ≠ 255 → s.electMaster.ring.master = s.ownNode ∧
    s.electMaster.ring.timeState = 1) ∧
  (∀ (slot : Fin 64) left n x, After (.c1Slot · slot left)
    (fun u =>
      let v := u.outputsDue
      v.ring.applied.used.find? (fun e => e.1 == slot.val) = some (n, x) ∧ v.ringEmits ∧
        v.mt = v.ring.applied.opening v.ring.cycleNum + x.offset ∧ left ≤ v.mt + 2000)
    (fun u =>
      let v := u.outputsDue
      v.ringSend 1 1 n v.mt (x.ids.flatMap (fun i =>
        match tfind v.ring.outVals i with
        | some y => beBytes 2 i ++ beBytes 1 (fld 1 1 (b2n y.2)) ++ zeros 1 ++ beBytes 4 y.1.toNat
        | none => beBytes 2 i ++ beBytes 1 2 ++ zeros 5)))) ∧
  After .linkFrameSend (fun u => u.ringActive ∧ u.mt % u.cycles 1 = 1000)
    (fun u =>
      let e := u.ringOwn 8 1 0 u.mt (u.linkPayload u.ring.e)
      let w := e.2.ringOwn 8 1 0 u.mt (u.linkPayload u.ring.w)
      ((w.2.emit (.ring true e.1)).emit (.ring false w.1)).ringDrain) ∧
  After .tripFrameSend (fun u => u.ringEmits ∧ u.ring.tripSentAt = none ∧ u.tripPayload ≠ u.ring.tripSent)
    (fun u =>
      let v := u.ringSend 5 0 0 u.mt u.tripPayload
      { v with ring := { v.ring with tripSent := u.tripPayload, tripSentAt := some u.now } }) ∧
  (∀ c, After .syncTimeout
    (fun u => u.ring.lastSync = some c ∧ u.ringActive ∧ c + u.cycles 4 ≤ u.now ∧ u.ring.timeState = 2)
    (fun u => { u with ring := { u.ring with timeState := 5, lockRun := 0 } })) ∧
  (∀ c, After .syncTimeout
    (fun u => u.ring.lastSync = some c ∧ u.ringActive ∧ c + u.cycles 4 ≤ u.now ∧ u.ring.timeState = 3)
    (fun u => ({ u with ring := { u.ring with timeState := 5, lockRun := 0 } }).event 0x0508 [ev u.ring.timeOffset])) ∧
  (∀ east (s : State) (t : Nat), let u := s.tick t
    u.ringActive = true → (u.link east).up = true →
    ∃ v, exec (.linkLost t { east := east, phyUp := false }) s = .next v ∧ (v.link east).up = false ∧ (v.link east).lost = true ∧
      (v.link east).turned = true ∧ v.ring.wraps = satInc u.ring.wraps ∧ v.link (!east) = u.link (!east)) ∧
  (∀ east (s : State) (t : Nat), let u := s.tick t
    u.ringActive = true → (u.link east).up = true → (u.link east).lastRx + u.cycles 4 ≤ u.mt →
    ∃ v, exec (.linkLost t { east := east, phyUp := true }) s = .next v ∧ (v.link east).up = false ∧ (v.link east).lost = true ∧
      (v.link east).turned = true ∧ v.ring.wraps = satInc u.ring.wraps ∧ v.link (!east) = u.link (!east)) ∧
  (∀ east, After (.ringLinkUp · east) (fun u => u.ringActive)
    (fun u => u.setLink east { u.link east with phy := true, up := true, goodRun := 0, seen := false, lastRx := u.mt })) ∧
  After .unwrap (fun _ => True) (fun u => (u.unwrapPort true).unwrapPort false) ∧
  (∀ (s : State) east c, (s.link east).unwrapAt = some c → s.ring.applied.opening c ≤ s.mt → (s.link east).turned = true →
    (s.link east).whole = true → s.unwrapPort east =
      (s.setLink east { s.link east with turned := false, lost := false, unwrapAt := none }).event 0x0503 [portNum east, c]) ∧
  (∀ (s : State) east, (s.link east).unwrapAt = none → s.unwrapPort east = s) ∧
  (∀ (id : BitVec 16) v, After (.valueLost · id)
    (fun u => tfind u.ring.vals id.toNat = some v ∧ id.toNat < 0x8000 ∧ v.rxAt + u.cycles 4 ≤ u.now ∧
      tfind u.ring.vals (echoKey id.toNat) = none)
    (fun u => u.setVal id.toNat { v with lost := true })) ∧
  (∀ (id : BitVec 16) v, After (.valueLost · id)
    (fun u => tfind u.ring.vals id.toNat = some v ∧ 0x8000 ≤ id.toNat ∧ id.toNat < 0xFF00 ∧
      v.rxAt + u.ring.applied.valTimeout * 1000000 ≤ u.now)
    (fun u => u.setVal id.toNat { v with lost := true })) ∧
  (∀ (node : Fin 64) v, After (.dropLost · node)
    (fun u => tfind u.ring.images node.val = some v ∧ u.ring.applied.dropIn node.val ∧ v.lost = false ∧
      v.rxAt + u.cycles (u.ring.applied.dropTimeout node.val) ≤ u.now)
    (fun u => ({ u with ring := { u.ring with
      images := tset u.ring.images node.val { v with lost := true } } }).event 0x050D [node.val])) ∧
  (∀ c n, (beBytes n c).length = n) ∧
  (∀ c, unwrapCycle c % 16 = 0 ∧ c + 32 ≤ unwrapCycle c ∧ unwrapCycle c < c + 48)

/-- Frames on the ring: an own frame carries the node, the sequence number and the cycle; DATA_FRAME_RECEIVE, BLOCK_FRAME_RECEIVE,
DROP_IMAGE_RECEIVE and TRIP_FRAME_RECEIVE use a good, new frame of another node, SERVICE_FRAME_RECEIVE none; a frame that is not good is
counted; SYNC_RECEIVE disciplines module time; LINK_FRAME_RECEIVE; a wrap sends round the other way (R414 to R417, R425 to R445). -/
def Obligations.RingFrames : Prop :=
  (∀ (s : State) kind cls sub stamp payload, let p := s.ringOwn kind cls sub stamp payload
    p.1.kind = kind ∧ p.1.src = s.ownNode ∧ p.1.station = s.stationNum ∧ p.1.hops = 127 ∧ p.1.payload = payload ∧
    p.1.seq = tget s.ring.txSeq (kind * 64 + sub) 0 + 1 ∧ p.1.hold = (s.modes.mode != .run) ∧
    p.2 = { s with ring := { s.ring with txSeq := tset s.ring.txSeq (kind * 64 + sub) p.1.seq } }) ∧
  (∀ f, (frameHeader f).length = 24) ∧
  (∀ (s : State) east f, (s.link east).turned = true → (s.link (!east)).turned = false → f.kind ≠ 7 →
    s.ringOut east f = s.emit (.ring (!east) { f with wrapped := true })) ∧
  (∀ (s : State) east f, (s.link east).turned = false → f.kind ≠ 7 → s.ringOut east f = s.emit (.ring east f)) ∧
  (∀ (s : State) east f, (s.link east).turned = true → (s.link (!east)).turned = true → s.ringOut east f = s) ∧
  (∀ f, frameGood f = true ↔ f.fcsOk ∧ f.crcOk ∧ f.version = 1 ∧ frameLenOk f) ∧
  (∀ p ∈ [(Instr.dataFrameReceive, 1, State.useData), (.blockFrameReceive, 2, State.useBlock), (.dropImageReceive, 3, State.useDrop),
      (.tripFrameReceive, 5, State.useTrip), (.serviceFrameReceive, 7, fun s _ => s)],
    (∀ east f, After (p.1 · east f)
      (fun u => u.ringActive ∧ f.kind = p.2.1 ∧ frameGood f ∧ f.src ≠ u.ownNode ∧ (u.ringIn east f).seqNew f ∧
        (u.ringIn east f).modes.role = .simplex)
      (fun u => p.2.2 ((u.ringIn east f).seqTake f) f)) ∧
    (∀ east f, After (p.1 · east f) (fun u => u.ringActive ∧ f.kind = p.2.1 ∧ (frameGood f = false ∨ f.src = u.ownNode))
      (fun u => u.ringIn east f)) ∧
    (∀ east f, After (p.1 · east f) (fun u => u.ringActive = false) (fun u => u))) ∧
  (∀ (s : State) east f, frameGood f = false → f.hops ≤ 1 → s.ring.heldC3 = [] →
    (s.ringIn east f).ring.crcErr = satInc s.ring.crcErr ∧ (s.ringIn east f).out = s.out) ∧
  (∀ (s : State) east f, f.src = s.ownNode → s.ring.heldC3 = [] → (s.ringIn east f).out = s.out) ∧
  (∀ (s : State) f, let id := beRd f.payload 0 2
    0x8000 ≤ id → id < 0xFF00 → s.produces id = true → s.useBlock f = s.idConflict id f.src) ∧
  (∀ (s : State) f, let id := beRd f.payload 0 2
    0x8000 ≤ id → id < 0xFF00 → s.produces id = false → ∃ v, tfind (s.useBlock f).ring.vals id = some v ∧
    v.data = f.payload.drop 4 ∧ v.stamp = f.stamp ∧ v.rxAt = s.now ∧ v.lost = f.hold) ∧
  (∀ (s : State) f e, beRd e 0 2 ≤ 0x7FFF → bit (beRd e 2 1) 2 = false → s.produces (beRd e 0 2) = false →
    ∃ v, tfind (State.useEntry f s e).ring.vals (beRd e 0 2) = some v ∧ v.value = BitVec.ofNat 32 (beRd e 4 4) ∧
      v.stamp = f.stamp ∧ v.rxAt = s.now ∧ v.lost = (bit (beRd e 2 1) 1 || f.hold)) ∧
  (∀ (s : State) f, s.ring.applied.dropIn f.src = false → s.useDrop f = s) ∧
  (∀ (s : State) f, tget s.ring.trips f.src (zeros 8) = f.payload →
    (s.useTrip f).recd = s.recd ∧ (s.useTrip f).trip = s.trip) ∧
  (∀ east f, After (.syncReceive · east f)
    (fun u => u.ringActive ∧ f.kind = 6 ∧ frameGood f ∧ f.src ≠ u.ownNode ∧ (u.ringIn east f).seqNew f ∧
      (u.ringIn east f).modes.role = .simplex ∧
      u.ring.seqs.any (fun (x, y, z, q, _) => x == f.src && y == 6 && z == 0 && q == f.seq) = false)
    (fun u => ((u.ringIn east f).seqTake f).useSync east f false)) ∧
  (∀ (s : State) east f, s.ownPrio = 255 → s.followsSync f = true → (s.useSync east f false).ring.lastSync = some s.now ∧
    (s.useSync east f false).ring.syncHops = f.hops) ∧
  (∀ (s : State) off since, s.modes.mode ≠ .run → (1000 < off ∨ off < -1000) →
    (s.discipline off since false).mtOff = s.offset - off) ∧
  (∀ (s : State) off since, s.modes.mode = .run → s.offset - (since / 5000 : Nat) ≤ (s.discipline off since false).mtOff ∧
    (s.discipline off since false).mtOff ≤ s.offset + (since / 5000 : Nat)) ∧
  (∀ (s : State) off since, (s.discipline off since false).ring.timeOffset = off) ∧
  (∀ (s : State) off since, off < -20 ∨ 20 < off →
    (s.discipline off since false).ring.timeState = 2 ∧ (s.discipline off since false).ring.lockRun = 0) ∧
  (∀ (s : State) off since, -20 ≤ off → off ≤ 20 → (s.discipline off since false).ring.lockRun = s.ring.lockRun + 1 ∧
    (s.discipline off since false).ring.timeState = (if s.ring.timeState = 3 ∨ 64 ≤ s.ring.lockRun + 1 then 3 else 2)) ∧
  (∀ east f, After (.linkFrameReceive · east f) (fun u => u.ringActive ∧ f.kind = 8 ∧ frameGood f = false)
    (fun u => (u.ringIn east f).setLink east { (u.ringIn east f).link east with goodRun := 0 })) ∧
  (∀ east f (s : State) (t : Nat), let u := s.tick t
    u.ringActive = true → f.kind = 8 → frameGood f = true → f.src ≠ u.ownNode → (u.ringIn east f).seqNew f = true →
    ∃ v, exec (.linkFrameReceive t east f) s = .next v ∧ (v.link east).neighbour = beRd f.payload 0 1 ∧
      (v.link east).lastStamp = f.stamp ∧ (v.link east).lastRx = u.mt ∧ (v.link east).seen = true)

/-! ### CAN FD channels (13_can_schedule.md) -/

/-- CAN channels: CAN_SCHEDULE and BASIC_CYCLE_OPEN, CAN_SEND and CAN_SEND_EXPIRY, CAN_SUBSCRIBE, CAN_ENABLE and CAN_DISABLE,
CAN_INTEGRATED, RECOVER and BUS_OFF_RECOVERED, CAN_SLOT_OPEN and CAN_SLOT_CLOSE, CAN_FRAME_SENT, CAN_FRAME_RECEIVE and
CAN_RX_TIMEOUT (R450 to R469). -/
def Obligations.CanChannels : Prop :=
  Answers .canSchedule 0x0503 (fun s r => (s.chan r.value).scheduleFails (CanMatrix.read r.buf) = none)
    (fun s r =>
      let m := CanMatrix.read r.buf
      (s.setChan r.value { s.chan r.value with newMatrix := some (m.opening0 (s.accMt r + 1000000), m) }).complete r 0
        (m.opening0 (s.accMt r + 1000000))) ∧
  (∀ i k, Answers .canSchedule 0x0503 (fun s r => (s.chan r.value).scheduleFails (CanMatrix.read r.buf) = some (i, k))
    (fun s r => (s.event 0x0B02 [r.value, i, k]).complete r stAdmission (i % 65536 + k * 65536))) ∧
  (∀ (m : CanMatrix) mt, 0 < m.ncycles → 0 < m.bcLen → mt ≤ m.opening0 mt ∧
    (m.opening0 mt - m.phase * 1000) % (m.ncycles * m.bcLen * 1000) = 0) ∧
  (∀ m, Answers .canSend 0x0504
    (fun s r => (s.chan r.value).enabled ∧ (s.chan r.value).matrix = some m ∧ m.slots.any (fun e => e.source == 0) ∧
      (s.chan r.value).queue.length < 32 ∧ bits r.aux.toNat 0 16 = 0)
    (fun s r =>
      let f : CanFrame := { id := rdW r.buf 0, dlc := rd r.buf 4 1, data := slice r.buf 8 (dlcLen (rd r.buf 4 1)) }
      (s.setChan r.value { s.chan r.value with queue := (s.chan r.value).queue ++
        [{ rid := r.rid, f := f, until_ := s.now + 1000000000 }] }).running r.rid)) ∧
  (∀ m, Answers .canSend 0x0504
    (fun s r => (s.chan r.value).enabled ∧ (s.chan r.value).matrix = some m ∧ m.slots.any (fun e => e.source == 0) ∧
      32 ≤ (s.chan r.value).queue.length)
    (fun s r => s.complete r stBusy 0)) ∧
  Answers .canSend 0x0504 (fun s r => (s.chan r.value).enabled = false) (fun s r => s.complete r stNotPresent) ∧
  (∀ h, Answers (.canSubscribe · h) 0x0505 (fun _ _ => True)
    (fun s r => s.subscribe r { handle := h, opcode := 0x0505, ctx := bits r.aux.toNat 0 8, target := r.value, filters := (entriesOf 16 (r.buf.drop 16)).map CanFilter.read })) ∧
  (∀ (ch : Fin 8) a m, After (.basicCycleOpen · ch)
    (fun u => (u.chan ch.val).newMatrix = some (a, m) ∧ a ≤ u.mt ∧ m.cycleAt u.mt % m.ncycles = 0)
    (fun u => (u.setChan ch.val { u.chan ch.val with
      matrix := some m, newMatrix := none, cycle := 0, vals := [], rx := [], rxOld := [] }).event 0x0B01 [ch.val, m.crc.toNat])) ∧
  (∀ (ch : Fin 8) m, After (.basicCycleOpen · ch)
    (fun u => (u.chan ch.val).newMatrix = none ∧ (u.chan ch.val).matrix = some m)
    (fun u => u.setChan ch.val { u.chan ch.val with cycle := m.cycleAt u.mt % m.ncycles })) ∧
  (∀ (ch : Fin 8) w, w.getLsbD 0 = true → w.getLsbD 1 = false → After (.canEnable · ch w)
    (fun u => u.modes.mode ≠ .run ∧ (u.chan ch.val).enabled = false ∧ u.leadsPair = false ∧
      ({ u.chan ch.val with autoRecover := w.getLsbD 2 }).timingOk)
    (fun u =>
      let v := u.setChan ch.val { u.chan ch.val with autoRecover := w.getLsbD 2 }
      v.setChan ch.val { u.chan ch.val with
        autoRecover := w.getLsbD 2, enabled := true, synced := false, tec := 0, recv := 0 })) ∧
  (∀ (ch : Fin 8) w, w.getLsbD 0 = false → w.getLsbD 1 = false → After (.canDisable · ch w)
    (fun u => u.modes.mode ≠ .run ∧ (u.chan ch.val).enabled ∧ u.leadsPair = false ∧ (u.chan ch.val).open_ = none)
    (fun u =>
      let c := { u.chan ch.val with autoRecover := w.getLsbD 2 }
      (u.setChan ch.val c).setChan ch.val ({ c with enabled := false }).stopped)) ∧
  (∀ (ch : Fin 8), After (.canIntegrated · ch) (fun u => (u.chan ch.val).enabled ∧ (u.chan ch.val).synced = false ∧ u.canMode)
    (fun u => (u.setChan ch.val { u.chan ch.val with
      synced := true, state := 0, tec := 0, recv := 0 }).event 0x0B00 [ch.val])) ∧
  (∀ (ch : Fin 8), After (.recover · ch) (fun _ => True) (fun u => u.setChan ch.val (u.chan ch.val).startRecovery)) ∧
  (∀ c : Can, c.startRecovery.recovering = (c.recovering || c.state == 2)) ∧
  (∀ (ch : Fin 8), After (.busOffRecovered · ch) (fun u => (u.chan ch.val).state = 2 ∧ (u.chan ch.val).recovering)
    (fun u => (u.setChan ch.val { u.chan ch.val with
      state := 0, recovering := false, tec := 0, recv := 0 }).event 0x0B07 [ch.val])) ∧
  (∀ (ch : Fin 8) (slot : Fin 32) m e f job, After (.canSlotOpen · ch slot true)
    (fun u =>
      let v := ((u.harvestDue none).outputsDue).slotClose ch.val
      (v.chan ch.val).matrix = some m ∧ (v.chan ch.val).open_ = none ∧ v.canSends ch.val ∧
      m.slots.find? (fun x => x.cycle == m.cycleAt v.mt % m.ncycles && x.slot == slot.val) = some e ∧
      v.mt = m.phase * 1000 + m.cycleAt v.mt * (m.bcLen * 1000) + e.offset * 1000 ∧ v.slotFrame ch.val e = some (f, job) ∧
      (v.chan ch.val).fits f v.mt (m.phase * 1000 + m.cycleAt v.mt * (m.bcLen * 1000) + (e.offset + e.window) * 1000))
    (fun u =>
      let v := ((u.harvestDue none).outputsDue).slotClose ch.val
      let c := m.phase * 1000 + m.cycleAt v.mt * (m.bcLen * 1000) + (e.offset + e.window) * 1000
      (v.setChan ch.val { v.chan ch.val with
        open_ := some { slot := e, f := f, closeMt := c, started := true, job := job } }).emit (.can ch.val f))) ∧
  (∀ (ch : Fin 8) o, After (.canSlotClose · ch)
    (fun u => (u.chan ch.val).open_ = some o ∧ o.closeMt ≤ u.mt ∧ o.sent = false ∧ o.slot.kind = 1)
    (fun u => u.exclMissed ch.val o.slot)) ∧
  (∀ (ch : Fin 8) o, After (.canSlotClose · ch) (fun u => (u.chan ch.val).open_ = some o ∧ o.closeMt ≤ u.mt ∧ o.sent)
    (fun u => u.setChan ch.val { u.chan ch.val with open_ := none })) ∧
  (∀ (s : State) ch e, s.twin.checking = false → s.exclMissed ch e = (s.setChan ch { s.chan ch with
    exclMiss := satInc (s.chan ch).exclMiss, open_ := none }).event 0x0B08 [ch, e.cycle, e.slot]) ∧
  (∀ (ch : Fin 8) st res tec td, After (.canFrameSent · ch st res tec td) (fun u => (u.chan ch.val).open_ = none) (fun u => u)) ∧
  (∀ (ch : Fin 8) stamp tec td o (s : State) (t : Nat), let u := s.tick t
    (u.chan ch.val).open_ = some o → o.sent = false → o.started = true → u.twin.checking = false →
    ∃ v, exec (.canFrameSent t ch stamp .acked tec td) s = .next v ∧ v.now = u.now ∧
      (v.chan ch.val).txOk = satInc (u.chan ch.val).txOk ∧ (v.chan ch.val).lastTx = stamp / 2 * 2 ∧
      (v.chan ch.val).noAckRun = 0 ∧ (v.chan ch.val).alone = false) ∧
  (∀ (ch : Fin 8) stamp tec td o (s : State) (t : Nat), let u := s.tick t
    (u.chan ch.val).open_ = some o → o.sent = false → o.started = true → o.slot.kind = 2 →
    ∃ v, exec (.canFrameSent t ch stamp .noAck tec td) s = .next v ∧ v.now = u.now ∧
      (v.chan ch.val).txOk = (u.chan ch.val).txOk ∧ (v.chan ch.val).noAckRun = (u.chan ch.val).noAckRun + 1 ∧
      (v.chan ch.val).alone = ((u.chan ch.val).alone || 16 ≤ (u.chan ch.val).noAckRun + 1)) ∧
  (∀ (ch : Fin 8) stamp f rec, After (.canFrameReceive · ch stamp f 0 rec)
    (fun u => (u.chan ch.val).enabled ∧ (u.chan ch.val).synced ∧ (u.chan ch.val).state ≠ 2 ∧ u.canMode ∧ u.modes.role = .simplex ∧
      u.emits)
    (fun u =>
      let c := u.chan ch.val
      let v := (u.setChan ch.val { c with rxOk := satInc c.rxOk, lastRx := stamp / 2 * 2 }).canCounters ch.val c.tec rec
      v.canDeliver ch.val (stamp / 2 * 2) f false)) ∧
  (∀ (s : State) ch m x stamp f own, (s.chan ch).matrix = some m → m.filters = [x] → x.hits f own = true → s.subsOf 0x0505 = [] →
    ∃ v, tfind ((s.canDeliver ch stamp f own).chan ch).rx 0 = some v ∧ v.f = f ∧ v.own = own ∧ v.stamp = stamp ∧
      v.at_ = s.now ∧ v.lost = false) ∧
  (∀ (ch : Fin 8) n y m, After (.canRxTimeout · ch n)
    (fun u => (u.chan ch.val).matrix = some m ∧ m.filters[n]? = some y ∧ y.timeoutMs ≠ 0 ∧
      (tget (u.chan ch.val).rx n {}).at_ + y.timeoutMs * 1000000 ≤ u.now)
    (fun u => u.setChan ch.val { u.chan ch.val with
      rx := tset (u.chan ch.val).rx n { tget (u.chan ch.val).rx n {} with lost := true } })) ∧
  (∀ (ch : Fin 8) j r, After (.canSendExpiry · ch)
    (fun u => (u.chan ch.val).queue = [j] ∧ (u.chan ch.val).open_ = none ∧ j.until_ ≤ u.now ∧ u.findReq j.rid = some r)
    (fun u => ((u.setChan ch.val { u.chan ch.val with queue := [] }).event 0x0B0A [ch.val, idNum j.f.id]).complete r stBusy 1)) ∧
  (∀ (s : State) ch tec rec, (s.chan ch).synced = true → (s.chan ch).state ≠ 2 → 256 ≤ tec →
    ((s.canCounters ch tec rec).chan ch).state = 2 ∧ ((s.canCounters ch tec rec).chan ch).tec = 255) ∧
  (∀ (s : State) ch tec rec, (s.chan ch).synced = true → (s.chan ch).state ≠ 2 → tec < 256 →
    ((s.canCounters ch tec rec).chan ch).state = (if 128 ≤ tec ∨ 128 ≤ rec then 1 else 0)) ∧
  (∀ d, d < 16 → dlcLen d = [0, 1, 2, 3, 4, 5, 6, 7, 8, 12, 16, 20, 24, 32, 48, 64].getD d 0)

/-! ### Field inputs and outputs (14_field_io.md) -/

/-- Field I/O: DI_DEBOUNCE and WIRE_BREAK, DO_SHORT, DO_RETRY and MISMATCH, CL_CONVERSION, MISWIRE and MISWIRE_RETRY, FAI_APERTURE,
PULSE_EDGE, LINE_FAULT, STALLED and PI_STATUS_READ, WD_EXPIRED and WD_REFRESH, FIO_READ, FIO_SUBSCRIBE, FIO_SUBSCRIBE_SAMPLE and
STREAM_RECORD_TIMEOUT, FIO_TEST, FIO_TEST_SETTLED and FIO_TRIM (R474 to R499). -/
def Obligations.FieldIo : Prop :=
  (∀ (n : Fin 32) level d, After (.diDebounce · n level d)
    (fun u => (u.di n.val).wb = false ∧ (u.di n.val).state ≠ level ∧ (u.di n.val).debounce * 1000 ≤ d)
    (fun u => u.setDi n.val { u.di n.val with state := level, changedMt := u.mt })) ∧
  (∀ (n : Fin 32) level d, After (.diDebounce · n level d) (fun u => d < (u.di n.val).debounce * 1000) (fun u => u)) ∧
  (∀ (n : Fin 32) cur d, After (.wireBreak · n cur d)
    (fun u => u.fio.wbEn.getLsbD n.val ∧ 10000000 ≤ d ∧ flt cur fHalf ∧ (u.di n.val).wb = false)
    (fun u => (u.setDi n.val { u.di n.val with
      wb := true, current := cur, state := false
      changedMt := if (u.di n.val).state then u.mt else (u.di n.val).changedMt }).event 0x0C00 [n.val])) ∧
  (∀ (n : Fin 16) ma d, 700 < ma → 100000 ≤ d → After (.doShort · n ma d) (fun u => u.doDriven n.val)
    (fun u => (u.setDo n.val { u.do_ n.val with short := true, shortAt := u.now }).event 0x0C02 [n.val])) ∧
  (∀ (n : Fin 16), After (.doRetry · n true)
    (fun u => (u.do_ n.val).short ∧ u.doTerm n.val = some true ∧ (u.do_ n.val).shortAt + 1000000000 ≤ u.now)
    (fun u => u.setDo n.val { u.do_ n.val with short := false })) ∧
  (∀ (n : Fin 16) rb d, d < 1000000 → After (.mismatch · n rb d) (fun _ => True)
    (fun u => u.setDo n.val { u.do_ n.val with readback := rb })) ∧
  (∀ (n : Fin 16) rb d, 1000000 ≤ d → After (.mismatch · n rb d)
    (fun u => u.doTerm n.val ≠ none ∧ rb ≠ u.doDriven n.val ∧ (u.do_ n.val).mismatch = false)
    (fun u => ((u.setDo n.val { u.do_ n.val with readback := rb }).setDo n.val
      { u.do_ n.val with readback := rb, mismatch := true }).event 0x0C03 [n.val])) ∧
  (∀ (n : Fin 8) raw (s : State) (t : Nat), let u := s.tick t
    let c := u.cl n.val
    let ma := c.trimmed raw
    c.isIn = true → c.startMt + c.interval * 1000 ≤ u.mt → c.burdenHz = some (u.clHighZ n.val) → u.fio.capture = none →
    ∃ v, exec (.clConversion t n raw) s = .next v ∧ v.now = u.now ∧ (v.cl n.val).ma = ma ∧ (v.cl n.val).noData = false ∧
      (v.cl n.val).value = c.charValue ma ∧ (v.cl n.val).band = clBand ma) ∧
  (∀ (n : Fin 8) raw, After (.clConversion · n raw)
    (fun u => u.mt < (u.cl n.val).startMt + (u.cl n.val).interval * 1000) (fun u => u)) ∧
  (∀ (n : Fin 8) ma rev d, 10000 ≤ d → (30 < ma ∨ rev = true) → After (.miswire · n ma rev d)
    (fun u => (u.cl n.val).miswire = false)
    (fun u => (u.setCl n.val { u.cl n.val with
      last := (u.clTerm n.val).getD (u.cl n.val).last, miswire := true, miswireAt := u.now }).event 0x0C09 [n.val])) ∧
  (∀ (n : Fin 8), After (.miswireRetry · n true)
    (fun u => (u.cl n.val).miswire ∧ (u.cl n.val).miswireAt + 1000000000 ≤ u.now)
    (fun u => u.setCl n.val { u.cl n.val with miswire := false })) ∧
  (∀ v, After (.faiAperture · v) (fun u => u.faiDemand u.mt (u.mt + 1) ∧ u.fio.faiMt + 500 ≤ u.mt)
    (fun u => (v.take 8).zipIdx.foldl (fun (st : State) e => st.faiRead e.2 e.1) { u with fio := { u.fio with faiMt := u.mt } })) ∧
  (∀ v, After (.faiAperture · v) (fun u => u.faiDemand u.mt (u.mt + 1) ∧ u.mt < u.fio.faiMt + 500)
    (fun u => { u with fio := { u.fio with faiShared := satInc u.fio.faiShared } })) ∧
  (∀ v, After (.faiAperture · v)
    (fun u => u.faiDemand u.mt (u.mt + 1) = false ∧ u.mt % 1000000 = 500 ∧ u.fio.faiMt + 500 ≤ u.mt ∧
      u.faiDemand u.mt (u.mt + 500) = false)
    (fun u => (v.take 8).zipIdx.foldl (fun (st : State) e => st.faiRead e.2 e.1) { u with fio := { u.fio with faiMt := u.mt } })) ∧
  (∀ (n : Fin 4), After (.pulseEdge · n .up) (fun _ => True) (fun u => u.setPulse n.val ((u.pulse n.val).edge u.mt true))) ∧
  (∀ (n : Fin 4), After (.pulseEdge · n .down) (fun u => (u.pulse n.val).mode ≠ 0)
    (fun u => u.setPulse n.val ((u.pulse n.val).edge u.mt false))) ∧
  (∀ (p : Pi) mt, (p.edge mt true).count = p.count + 1 ∧ (p.edge mt false).count = p.count - 1 ∧
    (p.edge mt true).edges.head? = some (mt / 2 * 2, true)) ∧
  (∀ (n : Fin 4) (line : Fin 3) d, 1000 ≤ d → After (.lineFault · n line true d)
    (fun u => bits (u.pulse n.val).cfg.toNat 0 2 = 0 ∧ (u.pulse n.val).lineFault.getLsbD line.val = false)
    (fun u => (u.setPulse n.val { u.pulse n.val with
      lineFault := (u.pulse n.val).lineFault ||| BitVec.ofNat 3 (2 ^ line.val) }).event 0x0C0D [n.val, line.val])) ∧
  (∀ (n : Fin 4) e r, After (.stalled · n)
    (fun u => (u.pulse n.val).edges = e :: r ∧ e.1 + bits (u.pulse n.val).cfg.toNat 16 16 * 1000000 < u.mt)
    (fun u => u.setPulse n.val { u.pulse n.val with stalled := true })) ∧
  (∀ (n : Fin 4), After (.piStatusRead · n) (fun _ => True)
    (fun u => (u.emit (.readValue (0xC2E0 + 4 * n.val) (BitVec.ofNat 64 (u.pulse n.val).status))).setPulse n.val
      { u.pulse n.val with qerr := false })) ∧
  (∀ g (ch : Fin 16) a b, After (.wdExpired · g ch)
    (fun u => u.wdOf g ch.val = some (a, b, false) ∧ u.highZ = false ∧ b + a ≤ u.now)
    (fun u => (u.setWd g ch.val true).event 0x0C04 [g, ch.val])) ∧
  (∀ g (ch : Fin 16) x, After (.wdRefresh · g ch) (fun u => u.wdOf g ch.val = some x ∧ u.highZ = false)
    (fun u => u.setWd g ch.val false)) ∧
  Answers .fioRead 0x0B00 (fun _ _ => True)
    (fun s r => (s.fioItem r.fioGroup r.fioCh).2.complete r 0 0 0 (some (s.fioItem r.fioGroup r.fioCh).1)) ∧
  (∀ h, Answers (.fioSubscribe · h) 0x0B01 (fun _ _ => True)
    (fun s r => s.subscribe r { handle := h, opcode := 0x0B01, ctx := bits r.aux.toNat 0 8, target := bits r.value 0 16, param := bits r.aux.toNat 8 24 })) ∧
  (∀ h x, After (.fioSubscribeSample · h)
    (fun u => u.host.subs.find? (fun y => y.handle == h && y.opcode == 0x0B01) = some x ∧ x.param ≠ 0 ∧ u.mt % (x.param * 10000) = 0)
    (fun u => (u.fioItem (x.target / 256) (x.target % 256)).2.addItem h u.mt (u.fioItem (x.target / 256) (x.target % 256)).1)) ∧
  (∀ h x, After (.streamRecordTimeout · h)
    (fun u => u.host.subs.find? (fun y => y.handle == h) = some x ∧ x.items ≠ [] ∧ x.firstAt + 1000000 ≤ u.now)
    (fun u => u.flushSub x)) ∧
  Answers .fioTest 0x0B02 (fun _ r => r.fioGroup ≠ 2 ∧ r.aux ≠ testEnd)
    (fun s r =>
      let u := ((s.setTest r.fioGroup r.fioCh r.aux).event 0x0C0B [r.fioGroup, r.fioCh, r.aux.toNat]).running r.rid
      { u with fio := { u.fio with tests := u.fio.tests ++ [(r.rid, r.fioGroup, r.fioCh, s.now + 10000000)] } }) ∧
  Answers .fioTest 0x0B02 (fun s r => r.fioGroup = 2 ∧ (s.cl r.fioCh).isOut = false) (fun s r => s.complete r stNotPresent) ∧
  (∀ rb id g c due r, After (.fioTestSettled · rb)
    (fun u => u.fio.tests = [(id, g, c, due)] ∧ due ≤ u.now ∧ u.findReq id = some r)
    (fun u => ({ u with fio := { u.fio with tests := [] } }).complete r 0 (twos 64 rb.toInt))) ∧
  Answers .fioTrim 0x0B03 (fun s r => s.fio.trimJob = none ∧ s.fio.capture = none ∧ rd r.buf 0 1 = 0)
    (fun s r =>
      let u := s.running r.rid
      { u with fio := { u.fio with trimJob := some (some r.rid, r.fioCh, rdW r.buf 4, rdW r.buf 8) } }) ∧
  (∀ c : Cl, ∀ v, fnan v = true → c.commit v = c) ∧
  (∀ (c : Fao) v, fnan v = false → (c.commit v).cmd = fmin (fmax v (fneg f10v)) f10v ∧ (c.commit v).committed = true)

/-! ### Recorder and registers (16_recorder_and_panel.md, R8, R43, R47) -/

/-- Recorder and registers: a trigger queues a record or is counted, a verified record stands in its slot and is delivered, reading and
configuring, counters, backup memory, regions and register writes with their RUN rule (R536 to R549, R8, R43, R531). -/
def Obligations.RecorderAndRegisters : Prop :=
  Answers .recConfig 0x0602 (fun _ _ => True)
    (fun s r =>
      let cfg := (entriesOf 72 (r.buf.drop 16)).foldl (fun (t : Tab CodeCfg) b =>
        tset t (rd b 0 2) ((tget t (rd b 0 2) {}).configure s.now b)) s.recd.cfg
      let c := ({ s.recd with cfg := cfg }).tableCrc
      (({ s with recd := { s.recd with cfg := cfg, configCrc := c } }).event 0x0013 [c.toNat]).complete r 0) ∧
  (∀ h, Answers (.recSubscribe · h) 0x0601 (fun _ _ => True)
    (fun s r => s.subscribe r { handle := h, opcode := 0x0601, ctx := bits r.aux.toNat 0 8, param := bits r.aux.toNat 8 24 })) ∧
  (∀ (s : State) rid r, s.ready rid 0x0600 r → r.aux.toNat = 1 →
    exec (.recRead rid) s = .next (({ s with free := s.free + 128 }).complete r 0
      (b2n (s.slotBytes (r.value % slotCount)).2) 0 (some (s.slotBytes (r.value % slotCount)).1))) ∧
  (∀ (s : State) n x, tfind s.recd.slots n = some x → s.slotBytes n = (s.recBytes x, true)) ∧
  (∀ (s : State) n, tfind s.recd.slots n = none → n ∉ s.recd.bad → s.slotBytes n = (List.replicate 512 0xFF, false)) ∧
  (∀ x rest, After (.recordWrite · true)
    (fun u => u.recd.queue = x :: rest ∧ u.recd.ready ∧ u.pwr.warn = none ∧ u.recd.toSafety x = safetyCode x.code)
    (fun u => ((({ u with recd := u.recd.write x rest true }).deliverRec { x with overflow := false }).logWritten x.seq).afterWrite)) ∧
  (∀ x rest, After (.recordWrite · false) (fun u => u.recd.queue = x :: rest ∧ u.recd.ready ∧ u.pwr.warn = none)
    (fun u => ({ u with recd := u.recd.write x rest false }).afterWrite)) ∧
  (∀ (r : Recorder) x rest, (r.write x rest true).queue = rest ∧ (r.write x rest false).queue = r.queue ∧
    (r.write x rest false).badSlots = satInc r.badSlots) ∧
  (∀ (r : Recorder) x rest, r.toSafety x = true →
    (r.write x rest true).nextSafety = r.nextSafety + 1 ∧ (r.write x rest true).nextRoutine = r.nextRoutine ∧
    tfind (r.write x rest true).slots r.nextSafety = some { x with overflow := false }) ∧
  (∀ (code : BitVec 12), After (.summaryRecord · code)
    (fun u =>
      let c := u.code code.toNat
      c.suppressed ≠ 0 ∧ c.burst ≠ 0 ∧ c.burst * tokenUnit ≤ c.refill u.now ∧ u.recd.ready ∧ routineRoom u.recd.queue)
    (fun u =>
      let c := u.code code.toNat
      let x : Rec := { u.mkRec code.toNat [] c.suppressed with items := [], partialFlag := false, summary := true }
      { u with recd := { u.recd with
        queue := u.recd.queue ++ [x], seqAssigned := u.recd.seqAssigned + 1
        cfg := tset u.recd.cfg code.toNat { c with tokens := c.burst * tokenUnit, tokensAt := u.now, suppressed := 0 } } })) ∧
  (∀ (s : State) code data, safetyCode code = true →
    (s.event code data).recd.queue = s.recd.queue ++ [s.mkRec code data (s.code code).suppressed]) ∧
  (∀ (s : State) code data, safetyCode code = false → (s.code code).refill s.now < tokenUnit →
    (s.event code data).recd.queue = s.recd.queue ∧ (s.event code data).recd.suppressed = satInc s.recd.suppressed) ∧
  (∀ (s : State) code data, s.event code data = { s with recd := s.trigger code data }) ∧
  (∀ (c : CodeCfg) now, c.refill now ≤ c.burst * tokenUnit) ∧
  (∀ off v, After (.counterClear · off v) (fun u => u.live ∧ v ≠ 0) (fun u => u.clearCounter off)) ∧
  (∀ off v, After (.counterClear · off v) (fun u => u.live = false ∨ v = 0) (fun u => u)) ∧
  (∀ (n : Fin 32) v, After (.bkupWrite · n v) (fun u => u.live ∧ u.cfg.variant.hasBkup ∧ u.modes.mode ≠ .recovery)
    (fun u => { u with rtc := { u.rtc with bkup := tset u.rtc.bkup n.val v, bkupValid := true } })) ∧
  (∀ (n : Fin 32) v, After (.bkupWrite · n v) (fun u => u.cfg.variant.hasBkup = false) (fun u => u)) ∧
  (∀ (n : Fin 16) v, After (.regionWrite · n v) (fun u => u.live ∧ regionOk (v &&& regionMask) = false) (fun u => u.ignoreWrite)) ∧
  (∀ (n : Fin 16) v, After (.regionWrite · n v)
    (fun u => u.live ∧ regionOk (v &&& regionMask) ∧ u.dsp.regions = [])
    (fun u => { u with dsp := { u.dsp with regions := tset u.dsp.regions n.val (v &&& regionMask) } })) ∧
  (∀ off size v, After (.registerWrite · off size v)
    (fun u => u.live ∧ 1 ≤ size ∧ size ≤ 8 ∧ (wordsOf off size v).any (fun e => ownRow e.1) = false)
    (fun u => u.writeBar off size v)) ∧
  (∀ (s : State) off v, s.modes.mode = .run → off % 4 = 0 → s.rwl off = true →
    s.writeBar off 4 v = s.ignoreWrite) ∧
  (∀ (s : State) w, s.blockAbsent 0x3008 = false → s.modes.mode ≠ .run → s.leadsPair = false → w < 33 → 0 < w →
    (s.writeBar 0x3008 4 (BitVec.ofNat 64 w)).clk.dwell = w) ∧
  (∀ (h : HostIf) w c, (h.write 0x00C w c).eventCause = h.eventCause &&& ~~~(c.setWidth 6)) ∧
  (∀ (x : Tile), (x.clear 0x010).stale = 0 ∧ (x.clear 0x00C).retracted = 0 ∧ (x.clear 0x014).linkErr = 0 ∧ x.clear 0x004 = x)

/-! ### Panel (16_recorder_and_panel.md) -/

/-- Panel: display updates and their regions, frame start and check with the fault pattern, keys and menu pages, the holds of the TRIP and
CL TRIM pages, and the eject lever (R548 to R555, R372, R398, R485). -/
def Obligations.PanelCommands : Prop :=
  Answers .dspWrite 0x0A00 (fun s r => regW (tget s.dsp.regions r.value 0) = 0) (fun s r => s.complete r stNotPresent) ∧
  Answers .dspWrite 0x0A00
    (fun s r => regW (tget s.dsp.regions r.value 0) ≠ 0 ∧ s.dsp.running = [])
    (fun s r =>
      let j : DspJob := { rid := r.rid, region := r.value, place := tget s.dsp.regions r.value 0, pixels := r.buf }
      ({ s with dsp := s.dsp.start j }).running r.rid) ∧
  Answers .dspStatus 0x0A01 (fun _ _ => True) (fun s r => s.complete r 0 (s.dsp.shownCrc s.cfg.faultCrc).toNat) ∧
  (∀ temp, After (.frameStart · temp)
    (fun u => u.modes.powered ∧ u.modes.inReset = false ∧ u.pwr.warn = none ∧ u.modes.mode ≠ .startup ∧
      u.dsp.bandOf temp = u.dsp.band)
    (fun u => ({ u with dsp := { u.dsp with
      temp := temp, greyUse := u.dsp.grey, scaleUse := u.dsp.scale } }).swapFrame)) ∧
  (∀ scan, After (.frameCheck · scan)
    (fun u => u.modes.powered ∧ u.modes.inReset = false ∧ u.pwr.warn = none ∧ u.dsp.fault = false ∧ scan = u.dsp.expectCrc)
    (fun u => { u with dsp := { u.dsp with scanCrc := scan, on := true } })) ∧
  (∀ scan, After (.frameCheck · scan)
    (fun u => u.modes.powered ∧ u.modes.inReset = false ∧ u.pwr.warn = none ∧ u.dsp.fault = false ∧ scan ≠ u.dsp.expectCrc)
    (fun u => ({ u with dsp := { u.dsp with scanCrc := scan } }).frameFault scan)) ∧
  (∀ (s : State) scan, (s.frameFault scan).dsp.fault = true ∧ (s.frameFault scan).dsp.faults = satInc s.dsp.faults ∧
    ((s.frameFault scan).dsp.latched = true ↔ s.dsp.latched = true ∨
      2 ≤ (s.dsp.mismatches.filter (fun a => s.now < a + 60000000000)).length)) ∧
  (∀ key, After (.keyPress · key true)
    (fun u => u.dsp.pressed = [] ∧ u.dsp.lever = false ∧ u.modes.powered ∧ u.modes.inReset = false ∧ u.modes.mode ≠ .recovery)
    (fun u => (({ u with dsp := { u.dsp with
      pressed := [key], hold := some ([key], u.now, u.modes.mode), lastKey := u.now } }).menuKey key).keysMoved)) ∧
  (∀ key, After (.keyPress · key false) (fun u => key ∈ u.dsp.pressed)
    (fun u => ({ u with dsp := { u.dsp with
      pressed := u.dsp.pressed.filter (fun k => k != key), hold := none } }).keysMoved)) ∧
  (∀ s : State, s.dsp.supplyHeld = false → s.keysMoved = s) ∧
  (∀ s : State, s.menuNext.dsp.menu = if s.dsp.menu < (if s.modes.mode = .maintenance then 5 else 3) then s.dsp.menu + 1 else 0) ∧
  After .menuTimeout (fun u => u.dsp.menu ≠ 0 ∧ u.dsp.lastKey + 30000000000 ≤ u.now)
    (fun u => { u with dsp := { u.dsp with menu := 0 }, fio := { u.fio with trim := {} } }) ∧
  (∀ p1 p2 a, After (.tripPageReset · p1 p2)
    (fun u => u.dsp.held [.select, .down] .maintenance = some a ∧ u.modes.mode = .maintenance ∧ u.dsp.menu = 5 ∧
      a + 2000000000 ≤ u.now)
    (fun u => (({ u with dsp := { u.dsp with hold := none } }).resetOut u.dsp.sel 2 p1 p2).1.changeLog 0x0882 2 0xFF
      u.trip.cfgCrc.toNat u.trip.cfgCrc.toNat u.dsp.sel 0)) ∧
  (∀ (n : Fin 8) a, After (.clTrimHold · n true false)
    (fun u => u.dsp.held [.select] .maintenance = some a ∧ u.modes.mode = .maintenance ∧ u.dsp.menu = 4 ∧
      u.fio.trim.ch = n.val ∧ u.fio.trim.step ≠ 0 ∧ a + 2000000000 ≤ u.now)
    (fun u => ({ u with dsp := { u.dsp with hold := none } }).trimHold false)) ∧
  After .ejectLeverPulled (fun u => u.dsp.lever = false ∧ u.modes.powered ∧ u.modes.role = .follow)
    (fun u => (({ u with dsp := { u.dsp with lever := true, hold := none } }).event 0x0D03 [roleCode u.modes.role]).ejectSafe) ∧
  (∀ (s : State) (t : Nat), let u := s.tick t
    u.dsp.lever = false → u.modes.powered = true → u.modes.role = .simplex → u.modes.detached = false → u.modes.mode = .run →
    ∃ v, exec (.ejectLeverPulled t) s = .next v ∧ v.dsp.lever = true ∧ v.dsp.eject = .prompt ∧ v.modes = u.modes) ∧
  (∀ a b, After .ejectRetry (fun u => u.dsp.eject = .wait a b ∧ b ≤ u.now) (fun u => u.ejectTry a)) ∧
  After .ejectCancel (fun u => u.dsp.lever ∧ u.modes.powered)
    (fun u => ({ u with dsp := { u.dsp with lever := false, hold := none, eject := .none } }).event 0x0D05) ∧
  (∀ a, After .ejectHold
    (fun u => u.dsp.eject = .prompt ∧ u.dsp.selectHeld = some a ∧ u.modes.role = .simplex ∧ u.modes.mode = .run ∧
      u.modes.trans = none ∧ a + 3000000000 ≤ u.now)
    (fun u => { u with modes := { u.modes with trans := some (.toHold 14 0 none none) }, dsp := { u.dsp with hold := none } }))

/-! ### Reset and every step -/

/-- What a module finds after reset: STARTUP without a role but SIMPLEX, step 1 of its power-up, no request, no
subscription, no program, nothing sent, and each register of `resetWords` at the value that the Reset column of its table
states (Tables 1-11, 1-12, 2-2, 2-6, 3-11, 3-14, 4-8, 8-20, 10-8, 11-7, 12-7, 13-7, 14-8, 15-5, 15-8, 16-8, 16-9; the first
block of a kind stands for all). Registers for which no value is stated are not part of it (log 2, 4, 5). -/
def Obligations.ResetLeaves : Prop :=
  (∀ p ∈ resetWords, State.reset.regWord p.1 = p.2) ∧
  State.reset.regWord 0x9008 % 2 ^ 24 = 0 ∧
  State.reset.pending = [] ∧ State.reset.modes.mode = .startup ∧ State.reset.modes.role = .simplex ∧
  State.reset.modes.puStep = 1 ∧ State.reset.host.reqs = [] ∧ State.reset.host.subs = [] ∧ State.reset.prog.loaded = none ∧
  State.reset.out = [] ∧ State.reset.pairOk = true

/-- Whatever command a module takes: its variant, its serial number and its other fittings stay as they are (the carrier's EEPROM
apart, which is read anew), its clock never goes back, what was sent stays sent, and the queue gives up its front alone. -/
def Obligations.EveryStepKeepsThePast : Prop :=
  ∀ (s t : State), step s = .next t →
    { t.cfg with ee := s.cfg.ee } = s.cfg ∧ s.now ≤ t.now ∧ s.out <:+ t.out ∧ t.pending = s.pending.tail
end

