-- ==== Sys2Proof/Laws/CoreWord.lean ====
section
/-! SUPPORT. Laws/CoreWord.lean: the fields of an encoded core word read back (Table 6-1), and which encoded words are
legal. -/

namespace Sys2Proof.Laws

open Sys2Proof.Machine

theorem bits_extract (w : BitVec 32) (lo n : Nat) : bits w.toNat lo n = (w.extractLsb' lo n).toNat := by
  simp [bits, BitVec.extractLsb'_toNat, Nat.shiftRight_eq_div_pow]

theorem encA_pred (f : FmtA) (func : BitVec 10) : (encA f func).extractLsb' 28 4 = f.pred := by
  ext i hi
  simp only [encA, BitVec.getLsbD_extractLsb', BitVec.getLsbD_append, ← BitVec.getLsbD_eq_getElem]
  interval_cases i <;> simp

theorem encA_bits_pred (f : FmtA) (func : BitVec 10) : bits (encA f func).toNat 28 4 = f.pred.toNat := by
  rw [bits_extract, encA_pred]

theorem encA_rd (f : FmtA) (func : BitVec 10) : (encA f func).extractLsb' 20 5 = f.rd := by
  ext i hi
  simp only [encA, BitVec.getLsbD_extractLsb', BitVec.getLsbD_append, ← BitVec.getLsbD_eq_getElem]
  interval_cases i <;> simp

theorem encA_bits_rd (f : FmtA) (func : BitVec 10) : bits (encA f func).toNat 20 5 = f.rd.toNat := by
  rw [bits_extract, encA_rd]

theorem encA_rs1 (f : FmtA) (func : BitVec 10) : (encA f func).extractLsb' 15 5 = f.rs1 := by
  ext i hi
  simp only [encA, BitVec.getLsbD_extractLsb', BitVec.getLsbD_append, ← BitVec.getLsbD_eq_getElem]
  interval_cases i <;> simp

theorem encA_bits_rs1 (f : FmtA) (func : BitVec 10) : bits (encA f func).toNat 15 5 = f.rs1.toNat := by
  rw [bits_extract, encA_rs1]

theorem encA_rs2 (f : FmtA) (func : BitVec 10) : (encA f func).extractLsb' 10 5 = f.rs2 := by
  ext i hi
  simp only [encA, BitVec.getLsbD_extractLsb', BitVec.getLsbD_append, ← BitVec.getLsbD_eq_getElem]
  interval_cases i <;> simp

theorem encA_bits_rs2 (f : FmtA) (func : BitVec 10) : bits (encA f func).toNat 10 5 = f.rs2.toNat := by
  rw [bits_extract, encA_rs2]

theorem encA_func (f : FmtA) (func : BitVec 10) : (encA f func).extractLsb' 0 10 = func := by
  ext i hi
  simp only [encA, BitVec.getLsbD_extractLsb', BitVec.getLsbD_append, ← BitVec.getLsbD_eq_getElem]
  interval_cases i <;> simp

theorem encA_bits_func (f : FmtA) (func : BitVec 10) : bits (encA f func).toNat 0 10 = func.toNat := by
  rw [bits_extract, encA_func]

theorem encA_major (f : FmtA) (func : BitVec 10) : (encA f func).extractLsb' 25 3 = 0#3 := by
  ext i hi
  simp only [encA, BitVec.getLsbD_extractLsb', BitVec.getLsbD_append, ← BitVec.getLsbD_eq_getElem]
  interval_cases i <;> simp

theorem encA_bits_major (f : FmtA) (func : BitVec 10) : bits (encA f func).toNat 25 3 = 0 := by
  rw [bits_extract, encA_major]; rfl

theorem fieldsA_encA (f : FmtA) (func : BitVec 10) : fieldsA (encA f func) = f := by
  simp [fieldsA, encA_pred, encA_rd, encA_rs1, encA_rs2]

theorem encI_pred (f : FmtI) (sub : BitVec 4) : (encI f sub).extractLsb' 28 4 = f.pred := by
  ext i hi
  simp only [encI, BitVec.getLsbD_extractLsb', BitVec.getLsbD_append, ← BitVec.getLsbD_eq_getElem]
  interval_cases i <;> simp

theorem encI_bits_pred (f : FmtI) (sub : BitVec 4) : bits (encI f sub).toNat 28 4 = f.pred.toNat := by
  rw [bits_extract, encI_pred]

theorem encI_rd (f : FmtI) (sub : BitVec 4) : (encI f sub).extractLsb' 20 5 = f.rd := by
  ext i hi
  simp only [encI, BitVec.getLsbD_extractLsb', BitVec.getLsbD_append, ← BitVec.getLsbD_eq_getElem]
  interval_cases i <;> simp

theorem encI_bits_rd (f : FmtI) (sub : BitVec 4) : bits (encI f sub).toNat 20 5 = f.rd.toNat := by
  rw [bits_extract, encI_rd]

theorem encI_imm (f : FmtI) (sub : BitVec 4) : (encI f sub).extractLsb' 0 16 = f.imm := by
  ext i hi
  simp only [encI, BitVec.getLsbD_extractLsb', BitVec.getLsbD_append, ← BitVec.getLsbD_eq_getElem]
  interval_cases i <;> simp

theorem encI_bits_imm (f : FmtI) (sub : BitVec 4) : bits (encI f sub).toNat 0 16 = f.imm.toNat := by
  rw [bits_extract, encI_imm]

theorem encI_sub (f : FmtI) (sub : BitVec 4) : (encI f sub).extractLsb' 16 4 = sub := by
  ext i hi
  simp only [encI, BitVec.getLsbD_extractLsb', BitVec.getLsbD_append, ← BitVec.getLsbD_eq_getElem]
  interval_cases i <;> simp

theorem encI_bits_sub (f : FmtI) (sub : BitVec 4) : bits (encI f sub).toNat 16 4 = sub.toNat := by
  rw [bits_extract, encI_sub]

theorem encI_major (f : FmtI) (sub : BitVec 4) : (encI f sub).extractLsb' 25 3 = 1#3 := by
  ext i hi
  simp only [encI, BitVec.getLsbD_extractLsb', BitVec.getLsbD_append, ← BitVec.getLsbD_eq_getElem]
  interval_cases i <;> simp

theorem encI_bits_major (f : FmtI) (sub : BitVec 4) : bits (encI f sub).toNat 25 3 = 1 := by
  rw [bits_extract, encI_major]; rfl

theorem fieldsI_encI (f : FmtI) (sub : BitVec 4) : fieldsI (encI f sub) = f := by
  simp [fieldsI, encI_pred, encI_rd, encI_imm]

theorem encB_pred (f : FmtB) (op : BitVec 5) : (encB f op).extractLsb' 28 4 = f.pred := by
  ext i hi
  simp only [encB, BitVec.getLsbD_extractLsb', BitVec.getLsbD_append, ← BitVec.getLsbD_eq_getElem]
  interval_cases i <;> simp

theorem encB_bits_pred (f : FmtB) (op : BitVec 5) : bits (encB f op).toNat 28 4 = f.pred.toNat := by
  rw [bits_extract, encB_pred]

theorem encB_off (f : FmtB) (op : BitVec 5) : (encB f op).extractLsb' 0 20 = f.off := by
  ext i hi
  simp only [encB, BitVec.getLsbD_extractLsb', BitVec.getLsbD_append, ← BitVec.getLsbD_eq_getElem]
  interval_cases i <;> simp

theorem encB_bits_off (f : FmtB) (op : BitVec 5) : bits (encB f op).toNat 0 20 = f.off.toNat := by
  rw [bits_extract, encB_off]

theorem encB_op (f : FmtB) (op : BitVec 5) : (encB f op).extractLsb' 20 5 = op := by
  ext i hi
  simp only [encB, BitVec.getLsbD_extractLsb', BitVec.getLsbD_append, ← BitVec.getLsbD_eq_getElem]
  interval_cases i <;> simp

theorem encB_bits_op (f : FmtB) (op : BitVec 5) : bits (encB f op).toNat 20 5 = op.toNat := by
  rw [bits_extract, encB_op]

theorem encB_major (f : FmtB) (op : BitVec 5) : (encB f op).extractLsb' 25 3 = 2#3 := by
  ext i hi
  simp only [encB, BitVec.getLsbD_extractLsb', BitVec.getLsbD_append, ← BitVec.getLsbD_eq_getElem]
  interval_cases i <;> simp

theorem encB_bits_major (f : FmtB) (op : BitVec 5) : bits (encB f op).toNat 25 3 = 2 := by
  rw [bits_extract, encB_major]; rfl

theorem fieldsB_encB (f : FmtB) (op : BitVec 5) : fieldsB (encB f op) = f := by
  simp [fieldsB, encB_pred, encB_off]

theorem encT_pred (f : FmtT) (kind : BitVec 3) : (encT f kind).extractLsb' 28 4 = f.pred := by
  ext i hi
  simp only [encT, BitVec.getLsbD_extractLsb', BitVec.getLsbD_append, ← BitVec.getLsbD_eq_getElem]
  interval_cases i <;> simp

theorem encT_bits_pred (f : FmtT) (kind : BitVec 3) : bits (encT f kind).toNat 28 4 = f.pred.toNat := by
  rw [bits_extract, encT_pred]

theorem encT_dst (f : FmtT) (kind : BitVec 3) : (encT f kind).extractLsb' 17 5 = f.dst := by
  ext i hi
  simp only [encT, BitVec.getLsbD_extractLsb', BitVec.getLsbD_append, ← BitVec.getLsbD_eq_getElem]
  interval_cases i <;> simp

theorem encT_bits_dst (f : FmtT) (kind : BitVec 3) : bits (encT f kind).toNat 17 5 = f.dst.toNat := by
  rw [bits_extract, encT_dst]

theorem encT_ps (f : FmtT) (kind : BitVec 3) : (encT f kind).extractLsb' 13 4 = f.ps := by
  ext i hi
  simp only [encT, BitVec.getLsbD_extractLsb', BitVec.getLsbD_append, ← BitVec.getLsbD_eq_getElem]
  interval_cases i <;> simp

theorem encT_bits_ps (f : FmtT) (kind : BitVec 3) : bits (encT f kind).toNat 13 4 = f.ps.toNat := by
  rw [bits_extract, encT_ps]

theorem encT_ibase (f : FmtT) (kind : BitVec 3) : (encT f kind).extractLsb' 10 3 = f.ibase := by
  ext i hi
  simp only [encT, BitVec.getLsbD_extractLsb', BitVec.getLsbD_append, ← BitVec.getLsbD_eq_getElem]
  interval_cases i <;> simp

theorem encT_bits_ibase (f : FmtT) (kind : BitVec 3) : bits (encT f kind).toNat 10 3 = f.ibase.toNat := by
  rw [bits_extract, encT_ibase]

theorem encT_index (f : FmtT) (kind : BitVec 3) : (encT f kind).extractLsb' 0 10 = f.index := by
  ext i hi
  simp only [encT, BitVec.getLsbD_extractLsb', BitVec.getLsbD_append, ← BitVec.getLsbD_eq_getElem]
  interval_cases i <;> simp

theorem encT_bits_index (f : FmtT) (kind : BitVec 3) : bits (encT f kind).toNat 0 10 = f.index.toNat := by
  rw [bits_extract, encT_index]

theorem encT_kind (f : FmtT) (kind : BitVec 3) : (encT f kind).extractLsb' 22 3 = kind := by
  ext i hi
  simp only [encT, BitVec.getLsbD_extractLsb', BitVec.getLsbD_append, ← BitVec.getLsbD_eq_getElem]
  interval_cases i <;> simp

theorem encT_bits_kind (f : FmtT) (kind : BitVec 3) : bits (encT f kind).toNat 22 3 = kind.toNat := by
  rw [bits_extract, encT_kind]

theorem encT_major (f : FmtT) (kind : BitVec 3) : (encT f kind).extractLsb' 25 3 = 3#3 := by
  ext i hi
  simp only [encT, BitVec.getLsbD_extractLsb', BitVec.getLsbD_append, ← BitVec.getLsbD_eq_getElem]
  interval_cases i <;> simp

theorem encT_bits_major (f : FmtT) (kind : BitVec 3) : bits (encT f kind).toNat 25 3 = 3 := by
  rw [bits_extract, encT_major]; rfl

theorem fieldsT_encT (f : FmtT) (kind : BitVec 3) : fieldsT (encT f kind) = f := by
  simp [fieldsT, encT_pred, encT_dst, encT_ps, encT_ibase, encT_index]

theorem encM_pred (f : FmtM) (major : BitVec 3) : (encM f major).extractLsb' 28 4 = f.pred := by
  ext i hi
  simp only [encM, BitVec.getLsbD_extractLsb', BitVec.getLsbD_append, ← BitVec.getLsbD_eq_getElem]
  interval_cases i <;> simp

theorem encM_bits_pred (f : FmtM) (major : BitVec 3) : bits (encM f major).toNat 28 4 = f.pred.toNat := by
  rw [bits_extract, encM_pred]

theorem encM_rd (f : FmtM) (major : BitVec 3) : (encM f major).extractLsb' 20 5 = f.rd := by
  ext i hi
  simp only [encM, BitVec.getLsbD_extractLsb', BitVec.getLsbD_append, ← BitVec.getLsbD_eq_getElem]
  interval_cases i <;> simp

theorem encM_bits_rd (f : FmtM) (major : BitVec 3) : bits (encM f major).toNat 20 5 = f.rd.toNat := by
  rw [bits_extract, encM_rd]

theorem encM_w (f : FmtM) (major : BitVec 3) : (encM f major).extractLsb' 18 2 = f.w := by
  ext i hi
  simp only [encM, BitVec.getLsbD_extractLsb', BitVec.getLsbD_append, ← BitVec.getLsbD_eq_getElem]
  interval_cases i <;> simp

theorem encM_bits_w (f : FmtM) (major : BitVec 3) : bits (encM f major).toNat 18 2 = f.w.toNat := by
  rw [bits_extract, encM_w]

theorem encM_base (f : FmtM) (major : BitVec 3) : (encM f major).extractLsb' 15 3 = f.base := by
  ext i hi
  simp only [encM, BitVec.getLsbD_extractLsb', BitVec.getLsbD_append, ← BitVec.getLsbD_eq_getElem]
  interval_cases i <;> simp

theorem encM_bits_base (f : FmtM) (major : BitVec 3) : bits (encM f major).toNat 15 3 = f.base.toNat := by
  rw [bits_extract, encM_base]

theorem encM_space (f : FmtM) (major : BitVec 3) : (encM f major).extractLsb' 12 3 = f.space := by
  ext i hi
  simp only [encM, BitVec.getLsbD_extractLsb', BitVec.getLsbD_append, ← BitVec.getLsbD_eq_getElem]
  interval_cases i <;> simp

theorem encM_bits_space (f : FmtM) (major : BitVec 3) : bits (encM f major).toNat 12 3 = f.space.toNat := by
  rw [bits_extract, encM_space]

theorem encM_off (f : FmtM) (major : BitVec 3) : (encM f major).extractLsb' 0 12 = f.off := by
  ext i hi
  simp only [encM, BitVec.getLsbD_extractLsb', BitVec.getLsbD_append, ← BitVec.getLsbD_eq_getElem]
  interval_cases i <;> simp

theorem encM_bits_off (f : FmtM) (major : BitVec 3) : bits (encM f major).toNat 0 12 = f.off.toNat := by
  rw [bits_extract, encM_off]

theorem encM_major (f : FmtM) (major : BitVec 3) : (encM f major).extractLsb' 25 3 = major := by
  ext i hi
  simp only [encM, BitVec.getLsbD_extractLsb', BitVec.getLsbD_append, ← BitVec.getLsbD_eq_getElem]
  interval_cases i <;> simp

theorem encM_bits_major (f : FmtM) (major : BitVec 3) : bits (encM f major).toNat 25 3 = major.toNat := by
  rw [bits_extract, encM_major]

theorem fieldsM_encM (f : FmtM) (major : BitVec 3) : fieldsM (encM f major) = f := by
  simp [fieldsM, encM_pred, encM_rd, encM_w, encM_base, encM_space, encM_off]

theorem legalWord_encA (f : FmtA) (func : BitVec 10) :
    legalWord (encA f func) = legalA f.rd.toNat f.rs1.toNat f.rs2.toNat func.toNat := by
  simp [legalWord, encA_bits_major, encA_bits_rd, encA_bits_rs1, encA_bits_rs2, encA_bits_func]

theorem legalWord_encI (f : FmtI) (sub : BitVec 4) :
    legalWord (encI f sub) = (decide (sub.toNat ≤ 10) && (decide (sub.toNat < 8) || decide (f.imm.toNat < 64))) := by
  simp [legalWord, encI_bits_major, encI_bits_sub, encI_bits_imm]

theorem legalWord_encB (f : FmtB) (op : BitVec 5) : legalWord (encB f op) = decide (op.toNat ≤ 1) := by
  simp [legalWord, encB_bits_major, encB_bits_op]

theorem legalWord_encT (f : FmtT) (kind : BitVec 3) :
    legalWord (encT f kind) = ((decide (1 ≤ kind.toNat) && decide (kind.toNat ≤ 5) && decide (f.dst.toNat < 16)) ||
      (kind.toNat == 6 && f.ps.toNat == 0)) := by
  simp [legalWord, encT_bits_major, encT_bits_kind, encT_bits_dst, encT_bits_ps]

theorem legalWord_encM (f : FmtM) (major : BitVec 3) (h4 : 4 ≤ major.toNat) (h6 : major.toNat ≤ 6) :
    legalWord (encM f major) = (f.space.toNat != 7) := by
  simp only [legalWord, encM_bits_major, encM_bits_space]
  have h : major.toNat = 4 ∨ major.toNat = 5 ∨ major.toNat = 6 := by omega
  rcases h with h | h | h <;> simp [h]

end Sys2Proof.Laws
end

