-- ==== Sys2Proof/Laws/Dispatch.lean ====
section
/-! SUPPORT. Laws/Dispatch.lean: exec of each command is its meaning, true by rfl, so that no proof unfolds the whole of exec. -/

namespace Sys2Proof.Machine

@[simp] theorem exec_ctxEnable (t n w memFailAt s) : exec (.ctxEnable t n w memFailAt) s = execCtxEnable t n w memFailAt s := rfl
@[simp] theorem exec_ctxDisable (t n w s) : exec (.ctxDisable t n w) s = execCtxDisable t n w s := rfl
@[simp] theorem exec_submissionDoorbell (t off size v s) : exec (.submissionDoorbell t off size v) s = execSubmissionDoorbell t off size v s := rfl
@[simp] theorem exec_completionDoorbell (t off size v s) : exec (.completionDoorbell t off size v) s = execCompletionDoorbell t off size v s := rfl
@[simp] theorem exec_descriptorFetch (t n desc buf bufWriteOk s) : exec (.descriptorFetch t n desc buf bufWriteOk) s = execDescriptorFetch t n desc buf bufWriteOk s := rfl
@[simp] theorem exec_descriptorRelease (t rid s) : exec (.descriptorRelease t rid) s = execDescriptorRelease t rid s := rfl
@[simp] theorem exec_irqHoldoffExpiry (t vec s) : exec (.irqHoldoffExpiry t vec) s = execIrqHoldoffExpiry t vec s := rfl
@[simp] theorem exec_pcieLinkDown (t s) : exec (.pcieLinkDown t) s = execPcieLinkDown t s := rfl
@[simp] theorem exec_pcieLinkUp (t gen width s) : exec (.pcieLinkUp t gen width) s = execPcieLinkUp t gen width s := rfl
@[simp] theorem exec_modeStatus (rid s) : exec (.modeStatus rid) s = execModeStatus rid s := rfl
@[simp] theorem exec_modeSet (rid s) : exec (.modeSet rid) s = execModeSet rid s := rfl
@[simp] theorem exec_restart (rid s) : exec (.restart rid) s = execRestart rid s := rfl
@[simp] theorem exec_equinox (rid s) : exec (.equinox rid) s = execEquinox rid s := rfl
@[simp] theorem exec_drillNow (rid s) : exec (.drillNow rid) s = execDrillNow rid s := rfl
@[simp] theorem exec_detach (rid s) : exec (.detach rid) s = execDetach rid s := rfl
@[simp] theorem exec_rejoin (rid s) : exec (.rejoin rid) s = execRejoin rid s := rfl
@[simp] theorem exec_tilePower (rid s) : exec (.tilePower rid) s = execTilePower rid s := rfl
@[simp] theorem exec_tileReset (rid s) : exec (.tileReset rid) s = execTileReset rid s := rfl
@[simp] theorem exec_drainEnd (t die outstanding s) : exec (.drainEnd t die outstanding) s = execDrainEnd t die outstanding s := rfl
@[simp] theorem exec_staleReply (t die epoch s) : exec (.staleReply t die epoch) s = execStaleReply t die epoch s := rfl
@[simp] theorem exec_progInfo (rid s) : exec (.progInfo rid) s = execProgInfo rid s := rfl
@[simp] theorem exec_progLoad (rid s) : exec (.progLoad rid) s = execProgLoad rid s := rfl
@[simp] theorem exec_progExchange (rid s) : exec (.progExchange rid) s = execProgExchange rid s := rfl
@[simp] theorem exec_onlineChange (rid s) : exec (.onlineChange rid) s = execOnlineChange rid s := rfl
@[simp] theorem exec_forceSet (rid s) : exec (.forceSet rid) s = execForceSet rid s := rfl
@[simp] theorem exec_forceRelease (rid s) : exec (.forceRelease rid) s = execForceRelease rid s := rfl
@[simp] theorem exec_forceList (rid s) : exec (.forceList rid) s = execForceList rid s := rfl
@[simp] theorem exec_varRead (rid s) : exec (.varRead rid) s = execVarRead rid s := rfl
@[simp] theorem exec_varSubscribe (rid handle s) : exec (.varSubscribe rid handle) s = execVarSubscribe rid handle s := rfl
@[simp] theorem exec_subCancel (rid s) : exec (.subCancel rid) s = execSubCancel rid s := rfl
@[simp] theorem exec_taskStatus (rid s) : exec (.taskStatus rid) s = execTaskStatus rid s := rfl
@[simp] theorem exec_loopAdmit (rid s) : exec (.loopAdmit rid) s = execLoopAdmit rid s := rfl
@[simp] theorem exec_loopParam (rid s) : exec (.loopParam rid) s = execLoopParam rid s := rfl
@[simp] theorem exec_loopMode (rid s) : exec (.loopMode rid) s = execLoopMode rid s := rfl
@[simp] theorem exec_loopRead (rid s) : exec (.loopRead rid) s = execLoopRead rid s := rfl
@[simp] theorem exec_loopSubscribe (rid handle s) : exec (.loopSubscribe rid handle) s = execLoopSubscribe rid handle s := rfl
@[simp] theorem exec_cellPlan (rid s) : exec (.cellPlan rid) s = execCellPlan rid s := rfl
@[simp] theorem exec_chemLoad (rid s) : exec (.chemLoad rid) s = execChemLoad rid s := rfl
@[simp] theorem exec_strEnum (rid s) : exec (.strEnum rid) s = execStrEnum rid s := rfl
@[simp] theorem exec_balPlan (rid s) : exec (.balPlan rid) s = execBalPlan rid s := rfl
@[simp] theorem exec_contactorPlan (rid s) : exec (.contactorPlan rid) s = execContactorPlan rid s := rfl
@[simp] theorem exec_probeSweep (rid s) : exec (.probeSweep rid) s = execProbeSweep rid s := rfl
@[simp] theorem exec_cellSubscribe (rid handle s) : exec (.cellSubscribe rid handle) s = execCellSubscribe rid handle s := rfl
@[simp] theorem exec_cellRead (rid s) : exec (.cellRead rid) s = execCellRead rid s := rfl
@[simp] theorem exec_ringStatus (rid s) : exec (.ringStatus rid) s = execRingStatus rid s := rfl
@[simp] theorem exec_bypassForce (rid s) : exec (.bypassForce rid) s = execBypassForce rid s := rfl
@[simp] theorem exec_dropSubscribe (rid handle s) : exec (.dropSubscribe rid handle) s = execDropSubscribe rid handle s := rfl
@[simp] theorem exec_canSchedule (rid s) : exec (.canSchedule rid) s = execCanSchedule rid s := rfl
@[simp] theorem exec_canSend (rid s) : exec (.canSend rid) s = execCanSend rid s := rfl
@[simp] theorem exec_canSubscribe (rid handle s) : exec (.canSubscribe rid handle) s = execCanSubscribe rid handle s := rfl
@[simp] theorem exec_recRead (rid s) : exec (.recRead rid) s = execRecRead rid s := rfl
@[simp] theorem exec_recSubscribe (rid handle s) : exec (.recSubscribe rid handle) s = execRecSubscribe rid handle s := rfl
@[simp] theorem exec_recConfig (rid s) : exec (.recConfig rid) s = execRecConfig rid s := rfl
@[simp] theorem exec_timeRead (rid s) : exec (.timeRead rid) s = execTimeRead rid s := rfl
@[simp] theorem exec_timeSet (rid s) : exec (.timeSet rid) s = execTimeSet rid s := rfl
@[simp] theorem exec_rtcAlarm (rid s) : exec (.rtcAlarm rid) s = execRtcAlarm rid s := rfl
@[simp] theorem exec_helmStatus (rid s) : exec (.helmStatus rid) s = execHelmStatus rid s := rfl
@[simp] theorem exec_helmRelease (rid s) : exec (.helmRelease rid) s = execHelmRelease rid s := rfl
@[simp] theorem exec_helmTake (rid s) : exec (.helmTake rid) s = execHelmTake rid s := rfl
@[simp] theorem exec_helmSeize (rid s) : exec (.helmSeize rid) s = execHelmSeize rid s := rfl
@[simp] theorem exec_keyLoad (rid s) : exec (.keyLoad rid) s = execKeyLoad rid s := rfl
@[simp] theorem exec_keyErase (rid s) : exec (.keyErase rid) s = execKeyErase rid s := rfl
@[simp] theorem exec_counterRead (rid s) : exec (.counterRead rid) s = execCounterRead rid s := rfl
@[simp] theorem exec_pwdLogin (rid s) : exec (.pwdLogin rid) s = execPwdLogin rid s := rfl
@[simp] theorem exec_pwdLogout (rid s) : exec (.pwdLogout rid) s = execPwdLogout rid s := rfl
@[simp] theorem exec_pwdSet (rid s) : exec (.pwdSet rid) s = execPwdSet rid s := rfl
@[simp] theorem exec_tripConfig (rid s) : exec (.tripConfig rid) s = execTripConfig rid s := rfl
@[simp] theorem exec_safetyConfig (rid s) : exec (.safetyConfig rid) s = execSafetyConfig rid s := rfl
@[simp] theorem exec_tripReset (rid high low s) : exec (.tripReset rid high low) s = execTripReset rid high low s := rfl
@[simp] theorem exec_tripStatus (rid s) : exec (.tripStatus rid) s = execTripStatus rid s := rfl
@[simp] theorem exec_safetyStatus (rid s) : exec (.safetyStatus rid) s = execSafetyStatus rid s := rfl
@[simp] theorem exec_fwInfo (rid s) : exec (.fwInfo rid) s = execFwInfo rid s := rfl
@[simp] theorem exec_fwWrite (rid s) : exec (.fwWrite rid) s = execFwWrite rid s := rfl
@[simp] theorem exec_fwActivate (rid s) : exec (.fwActivate rid) s = execFwActivate rid s := rfl
@[simp] theorem exec_dspWrite (rid s) : exec (.dspWrite rid) s = execDspWrite rid s := rfl
@[simp] theorem exec_dspStatus (rid s) : exec (.dspStatus rid) s = execDspStatus rid s := rfl
@[simp] theorem exec_fioRead (rid s) : exec (.fioRead rid) s = execFioRead rid s := rfl
@[simp] theorem exec_fioSubscribe (rid handle s) : exec (.fioSubscribe rid handle) s = execFioSubscribe rid handle s := rfl
@[simp] theorem exec_fioTest (rid s) : exec (.fioTest rid) s = execFioTest rid s := rfl
@[simp] theorem exec_fioTrim (rid s) : exec (.fioTrim rid) s = execFioTrim rid s := rfl
@[simp] theorem exec_sidebandDatagram (t peer packet s) : exec (.sidebandDatagram t peer packet) s = execSidebandDatagram t peer packet s := rfl
@[simp] theorem exec_sidebandDequeue (t s) : exec (.sidebandDequeue t) s = execSidebandDequeue t s := rfl
@[simp] theorem exec_sbLinkChange (t ok lowAmpl s) : exec (.sbLinkChange t ok lowAmpl) s = execSbLinkChange t ok lowAmpl s := rfl
@[simp] theorem exec_sbConfigWrite (t w s) : exec (.sbConfigWrite t w) s = execSbConfigWrite t w s := rfl
@[simp] theorem exec_helmTimeout (t s) : exec (.helmTimeout t) s = execHelmTimeout t s := rfl
@[simp] theorem exec_sbIdle (t s) : exec (.sbIdle t) s = execSbIdle t s := rfl
@[simp] theorem exec_mirrorTimeout (t s) : exec (.mirrorTimeout t) s = execMirrorTimeout t s := rfl
@[simp] theorem exec_presenceWindow (t s) : exec (.presenceWindow t) s = execPresenceWindow t s := rfl
@[simp] theorem exec_presenceWindowEnd (t s) : exec (.presenceWindowEnd t) s = execPresenceWindowEnd t s := rfl
@[simp] theorem exec_sessionTimeout (t s) : exec (.sessionTimeout t) s = execSessionTimeout t s := rfl
@[simp] theorem exec_lockoutEnd (t s) : exec (.lockoutEnd t) s = execLockoutEnd t s := rfl
@[simp] theorem exec_supplyGood (t b s) : exec (.supplyGood t b) s = execSupplyGood t b s := rfl
@[simp] theorem exec_recoveryKeySequence (t s) : exec (.recoveryKeySequence t) s = execRecoveryKeySequence t s := rfl
@[simp] theorem exec_roleWaitEnd (t s) : exec (.roleWaitEnd t) s = execRoleWaitEnd t s := rfl
@[simp] theorem exec_claimDrive (t s) : exec (.claimDrive t) s = execClaimDrive t s := rfl
@[simp] theorem exec_claimSeen (t s) : exec (.claimSeen t) s = execClaimSeen t s := rfl
@[simp] theorem exec_claimRelease (t s) : exec (.claimRelease t) s = execClaimRelease t s := rfl
@[simp] theorem exec_restartInstant (t s) : exec (.restartInstant t) s = execRestartInstant t s := rfl
@[simp] theorem exec_holdInstant (t s) : exec (.holdInstant t) s = execHoldInstant t s := rfl
@[simp] theorem exec_recoveryReset (t s) : exec (.recoveryReset t) s = execRecoveryReset t s := rfl
@[simp] theorem exec_activateReset (t s) : exec (.activateReset t) s = execActivateReset t s := rfl
@[simp] theorem exec_leaveRecovery (t s) : exec (.leaveRecovery t) s = execLeaveRecovery t s := rfl
@[simp] theorem exec_moduleReset (t s) : exec (.moduleReset t) s = execModuleReset t s := rfl
@[simp] theorem exec_cycleStart (t task s) : exec (.cycleStart t task) s = execCycleStart t task s := rfl
@[simp] theorem exec_harvestPoint (t task s) : exec (.harvestPoint t task) s = execHarvestPoint t task s := rfl
@[simp] theorem exec_speculationStart (t task s) : exec (.speculationStart t task) s = execSpeculationStart t task s := rfl
@[simp] theorem exec_budgetWarning (t task charged s) : exec (.budgetWarning t task charged) s = execBudgetWarning t task charged s := rfl
@[simp] theorem exec_watchdogTrip (t task charged s) : exec (.watchdogTrip t task charged) s = execWatchdogTrip t task charged s := rfl
@[simp] theorem exec_add (task f s) : exec (.add task f) s = execAdd task f s := rfl
@[simp] theorem exec_sub (task f s) : exec (.sub task f) s = execSub task f s := rfl
@[simp] theorem exec_mul (task f s) : exec (.mul task f) s = execMul task f s := rfl
@[simp] theorem exec_mulh (task f s) : exec (.mulh task f) s = execMulh task f s := rfl
@[simp] theorem exec_mulhu (task f s) : exec (.mulhu task f) s = execMulhu task f s := rfl
@[simp] theorem exec_div (task f s) : exec (.div task f) s = execDiv task f s := rfl
@[simp] theorem exec_divu (task f s) : exec (.divu task f) s = execDivu task f s := rfl
@[simp] theorem exec_rem (task f s) : exec (.rem task f) s = execRem task f s := rfl
@[simp] theorem exec_remu (task f s) : exec (.remu task f) s = execRemu task f s := rfl
@[simp] theorem exec_min (task f s) : exec (.min task f) s = execMin task f s := rfl
@[simp] theorem exec_max (task f s) : exec (.max task f) s = execMax task f s := rfl
@[simp] theorem exec_and (task f s) : exec (.and task f) s = execAnd task f s := rfl
@[simp] theorem exec_or (task f s) : exec (.or task f) s = execOr task f s := rfl
@[simp] theorem exec_xor (task f s) : exec (.xor task f) s = execXor task f s := rfl
@[simp] theorem exec_andn (task f s) : exec (.andn task f) s = execAndn task f s := rfl
@[simp] theorem exec_shl (task f s) : exec (.shl task f) s = execShl task f s := rfl
@[simp] theorem exec_shr (task f s) : exec (.shr task f) s = execShr task f s := rfl
@[simp] theorem exec_sar (task f s) : exec (.sar task f) s = execSar task f s := rfl
@[simp] theorem exec_bfx (task f s) : exec (.bfx task f) s = execBfx task f s := rfl
@[simp] theorem exec_bfxs (task f s) : exec (.bfxs task f) s = execBfxs task f s := rfl
@[simp] theorem exec_bfi (task f s) : exec (.bfi task f) s = execBfi task f s := rfl
@[simp] theorem exec_ceq (task f s) : exec (.ceq task f) s = execCeq task f s := rfl
@[simp] theorem exec_cne (task f s) : exec (.cne task f) s = execCne task f s := rfl
@[simp] theorem exec_clt (task f s) : exec (.clt task f) s = execClt task f s := rfl
@[simp] theorem exec_cle (task f s) : exec (.cle task f) s = execCle task f s := rfl
@[simp] theorem exec_cltu (task f s) : exec (.cltu task f) s = execCltu task f s := rfl
@[simp] theorem exec_cleu (task f s) : exec (.cleu task f) s = execCleu task f s := rfl
@[simp] theorem exec_btst (task f s) : exec (.btst task f) s = execBtst task f s := rfl
@[simp] theorem exec_pand (task f s) : exec (.pand task f) s = execPand task f s := rfl
@[simp] theorem exec_por (task f s) : exec (.por task f) s = execPor task f s := rfl
@[simp] theorem exec_pxor (task f s) : exec (.pxor task f) s = execPxor task f s := rfl
@[simp] theorem exec_pandn (task f s) : exec (.pandn task f) s = execPandn task f s := rfl
@[simp] theorem exec_pget (task f s) : exec (.pget task f) s = execPget task f s := rfl
@[simp] theorem exec_pset (task f s) : exec (.pset task f) s = execPset task f s := rfl
@[simp] theorem exec_fadd (task d f s) : exec (.fadd task d f) s = execFadd task d f s := rfl
@[simp] theorem exec_fsub (task d f s) : exec (.fsub task d f) s = execFsub task d f s := rfl
@[simp] theorem exec_fmul (task d f s) : exec (.fmul task d f) s = execFmul task d f s := rfl
@[simp] theorem exec_fdiv (task d f s) : exec (.fdiv task d f) s = execFdiv task d f s := rfl
@[simp] theorem exec_fsqrt (task d f s) : exec (.fsqrt task d f) s = execFsqrt task d f s := rfl
@[simp] theorem exec_fma (task d f s) : exec (.fma task d f) s = execFma task d f s := rfl
@[simp] theorem exec_fmin (task d f s) : exec (.fmin task d f) s = execFmin task d f s := rfl
@[simp] theorem exec_fmax (task d f s) : exec (.fmax task d f) s = execFmax task d f s := rfl
@[simp] theorem exec_fneg (task d f s) : exec (.fneg task d f) s = execFneg task d f s := rfl
@[simp] theorem exec_fabs (task d f s) : exec (.fabs task d f) s = execFabs task d f s := rfl
@[simp] theorem exec_fceq (task d f s) : exec (.fceq task d f) s = execFceq task d f s := rfl
@[simp] theorem exec_fclt (task d f s) : exec (.fclt task d f) s = execFclt task d f s := rfl
@[simp] theorem exec_fcle (task d f s) : exec (.fcle task d f) s = execFcle task d f s := rfl
@[simp] theorem exec_fcun (task d f s) : exec (.fcun task d f) s = execFcun task d f s := rfl
@[simp] theorem exec_ftoi (task d f s) : exec (.ftoi task d f) s = execFtoi task d f s := rfl
@[simp] theorem exec_ftrunc (task d f s) : exec (.ftrunc task d f) s = execFtrunc task d f s := rfl
@[simp] theorem exec_itof (task d f s) : exec (.itof task d f) s = execItof task d f s := rfl
@[simp] theorem exec_fcvt (task d f s) : exec (.fcvt task d f) s = execFcvt task d f s := rfl
@[simp] theorem exec_li (task f s) : exec (.li task f) s = execLi task f s := rfl
@[simp] theorem exec_lih1 (task f s) : exec (.lih1 task f) s = execLih1 task f s := rfl
@[simp] theorem exec_lih2 (task f s) : exec (.lih2 task f) s = execLih2 task f s := rfl
@[simp] theorem exec_lih3 (task f s) : exec (.lih3 task f) s = execLih3 task f s := rfl
@[simp] theorem exec_addi (task f s) : exec (.addi task f) s = execAddi task f s := rfl
@[simp] theorem exec_andi (task f s) : exec (.andi task f) s = execAndi task f s := rfl
@[simp] theorem exec_ori (task f s) : exec (.ori task f) s = execOri task f s := rfl
@[simp] theorem exec_xori (task f s) : exec (.xori task f) s = execXori task f s := rfl
@[simp] theorem exec_shli (task f s) : exec (.shli task f) s = execShli task f s := rfl
@[simp] theorem exec_shri (task f s) : exec (.shri task f) s = execShri task f s := rfl
@[simp] theorem exec_sari (task f s) : exec (.sari task f) s = execSari task f s := rfl
@[simp] theorem exec_br (task f s) : exec (.br task f) s = execBr task f s := rfl
@[simp] theorem exec_call (task f s) : exec (.call task f) s = execCall task f s := rfl
@[simp] theorem exec_ret (task f s) : exec (.ret task f) s = execRet task f s := rfl
@[simp] theorem exec_endCycle (task f s) : exec (.endCycle task f) s = execEndCycle task f s := rfl
@[simp] theorem exec_fence (task f s) : exec (.fence task f) s = execFence task f s := rfl
@[simp] theorem exec_tsr (task f s) : exec (.tsr task f) s = execTsr task f s := rfl
@[simp] theorem exec_ton (task f s) : exec (.ton task f) s = execTon task f s := rfl
@[simp] theorem exec_tof (task f s) : exec (.tof task f) s = execTof task f s := rfl
@[simp] theorem exec_tp (task f s) : exec (.tp task f) s = execTp task f s := rfl
@[simp] theorem exec_rtrig (task f s) : exec (.rtrig task f) s = execRtrig task f s := rfl
@[simp] theorem exec_ftrig (task f s) : exec (.ftrig task f) s = execFtrig task f s := rfl
@[simp] theorem exec_tet (task f s) : exec (.tet task f) s = execTet task f s := rfl
@[simp] theorem exec_ldu (task f s) : exec (.ldu task f) s = execLdu task f s := rfl
@[simp] theorem exec_lds (task f s) : exec (.lds task f) s = execLds task f s := rfl
@[simp] theorem exec_st (task f s) : exec (.st task f) s = execSt task f s := rfl
@[simp] theorem exec_loopSample (t handle s) : exec (.loopSample t handle) s = execLoopSample t handle s := rfl
@[simp] theorem exec_loopCommit (t handle s) : exec (.loopCommit t handle) s = execLoopCommit t handle s := rfl
@[simp] theorem exec_loopOutput (t handle s) : exec (.loopOutput t handle) s = execLoopOutput t handle s := rfl
@[simp] theorem exec_sampleSend (t port s) : exec (.sampleSend t port) s = execSampleSend t port s := rfl
@[simp] theorem exec_readSend (t port s) : exec (.readSend t port) s = execReadSend t port s := rfl
@[simp] theorem exec_blockReceive (t port endB bytes s) : exec (.blockReceive t port endB bytes) s = execBlockReceive t port endB bytes s := rfl
@[simp] theorem exec_blockMissing (t port lastA firstB s) : exec (.blockMissing t port lastA firstB) s = execBlockMissing t port lastA firstB s := rfl
@[simp] theorem exec_chainFrameSend (t port endB f s) : exec (.chainFrameSend t port endB f) s = execChainFrameSend t port endB f s := rfl
@[simp] theorem exec_chainReply (t port endB rtt bytes s) : exec (.chainReply t port endB rtt bytes) s = execChainReply t port endB rtt bytes s := rfl
@[simp] theorem exec_replyTimeout (t port s) : exec (.replyTimeout t port) s = execReplyTimeout t port s := rfl
@[simp] theorem exec_enumTimeout (t port endB s) : exec (.enumTimeout t port endB) s = execEnumTimeout t port endB s := rfl
@[simp] theorem exec_balEnd (t port s) : exec (.balEnd t port) s = execBalEnd t port s := rfl
@[simp] theorem exec_toneStateChange (t port endB tone s) : exec (.toneStateChange t port endB tone) s = execToneStateChange t port endB tone s := rfl
@[simp] theorem exec_toneReport (t port endB tone s) : exec (.toneReport t port endB tone) s = execToneReport t port endB tone s := rfl
@[simp] theorem exec_toneReportStale (t port s) : exec (.toneReportStale t port) s = execToneReportStale t port s := rfl
@[simp] theorem exec_loopOpen (t port s) : exec (.loopOpen t port) s = execLoopOpen t port s := rfl
@[simp] theorem exec_currentLatch (t port s) : exec (.currentLatch t port) s = execCurrentLatch t port s := rfl
@[simp] theorem exec_estimation (t port s) : exec (.estimation t port) s = execEstimation t port s := rfl
@[simp] theorem exec_publication (t s) : exec (.publication t) s = execPublication t s := rfl
@[simp] theorem exec_cellCommit (t s) : exec (.cellCommit t) s = execCellCommit t s := rfl
@[simp] theorem exec_contactorTick (t s) : exec (.contactorTick t) s = execContactorTick t s := rfl
@[simp] theorem exec_tripInputEdge (t n level stableNs s) : exec (.tripInputEdge t n level stableNs) s = execTripInputEdge t n level stableNs s := rfl
@[simp] theorem exec_dieTemperature (t die deg s) : exec (.dieTemperature t die deg) s = execDieTemperature t die deg s := rfl
@[simp] theorem exec_pulseTest (t n opened closed s) : exec (.pulseTest t n opened closed) s = execPulseTest t n opened closed s := rfl
@[simp] theorem exec_switchFault (t n high durNs s) : exec (.switchFault t n high durNs) s = execSwitchFault t n high durNs s := rfl
@[simp] theorem exec_safetyPeriod (t s) : exec (.safetyPeriod t) s = execSafetyPeriod t s := rfl
@[simp] theorem exec_lockstepMismatch (t s) : exec (.lockstepMismatch t) s = execLockstepMismatch t s := rfl
@[simp] theorem exec_proofDue (t src s) : exec (.proofDue t src) s = execProofDue t src s := rfl
@[simp] theorem exec_ringCycleOpen (t s) : exec (.ringCycleOpen t) s = execRingCycleOpen t s := rfl
@[simp] theorem exec_c1Slot (t slot leftAt s) : exec (.c1Slot t slot leftAt) s = execC1Slot t slot leftAt s := rfl
@[simp] theorem exec_linkFrameSend (t s) : exec (.linkFrameSend t) s = execLinkFrameSend t s := rfl
@[simp] theorem exec_dataFrameReceive (t east f s) : exec (.dataFrameReceive t east f) s = execDataFrameReceive t east f s := rfl
@[simp] theorem exec_blockFrameReceive (t east f s) : exec (.blockFrameReceive t east f) s = execBlockFrameReceive t east f s := rfl
@[simp] theorem exec_dropImageReceive (t east f s) : exec (.dropImageReceive t east f) s = execDropImageReceive t east f s := rfl
@[simp] theorem exec_tripFrameReceive (t east f s) : exec (.tripFrameReceive t east f) s = execTripFrameReceive t east f s := rfl
@[simp] theorem exec_syncReceive (t east f s) : exec (.syncReceive t east f) s = execSyncReceive t east f s := rfl
@[simp] theorem exec_linkFrameReceive (t east f s) : exec (.linkFrameReceive t east f) s = execLinkFrameReceive t east f s := rfl
@[simp] theorem exec_serviceFrameReceive (t east f s) : exec (.serviceFrameReceive t east f) s = execServiceFrameReceive t east f s := rfl
@[simp] theorem exec_tripFrameSend (t s) : exec (.tripFrameSend t) s = execTripFrameSend t s := rfl
@[simp] theorem exec_syncTimeout (t s) : exec (.syncTimeout t) s = execSyncTimeout t s := rfl
@[simp] theorem exec_linkLost (t port s) : exec (.linkLost t port) s = execLinkLost t port s := rfl
@[simp] theorem exec_unwrap (t s) : exec (.unwrap t) s = execUnwrap t s := rfl
@[simp] theorem exec_valueLost (t id s) : exec (.valueLost t id) s = execValueLost t id s := rfl
@[simp] theorem exec_dropLost (t node s) : exec (.dropLost t node) s = execDropLost t node s := rfl
@[simp] theorem exec_apply (t w s) : exec (.apply t w) s = execApply t w s := rfl
@[simp] theorem exec_relaySense (t eastClosed westClosed s) : exec (.relaySense t eastClosed westClosed) s = execRelaySense t eastClosed westClosed s := rfl
@[simp] theorem exec_canEnable (t ch w s) : exec (.canEnable t ch w) s = execCanEnable t ch w s := rfl
@[simp] theorem exec_canDisable (t ch w s) : exec (.canDisable t ch w) s = execCanDisable t ch w s := rfl
@[simp] theorem exec_canIntegrated (t ch s) : exec (.canIntegrated t ch) s = execCanIntegrated t ch s := rfl
@[simp] theorem exec_recover (t ch s) : exec (.recover t ch) s = execRecover t ch s := rfl
@[simp] theorem exec_canSlotOpen (t ch slot busIdle s) : exec (.canSlotOpen t ch slot busIdle) s = execCanSlotOpen t ch slot busIdle s := rfl
@[simp] theorem exec_canSlotClose (t ch s) : exec (.canSlotClose t ch) s = execCanSlotClose t ch s := rfl
@[simp] theorem exec_canFrameSent (t ch stamp res tec tdcv s) : exec (.canFrameSent t ch stamp res tec tdcv) s = execCanFrameSent t ch stamp res tec tdcv s := rfl
@[simp] theorem exec_canFrameReceive (t ch stamp f err q s) : exec (.canFrameReceive t ch stamp f err q) s = execCanFrameReceive t ch stamp f err q s := rfl
@[simp] theorem exec_canSendExpiry (t ch s) : exec (.canSendExpiry t ch) s = execCanSendExpiry t ch s := rfl
@[simp] theorem exec_canRxTimeout (t ch filter s) : exec (.canRxTimeout t ch filter) s = execCanRxTimeout t ch filter s := rfl
@[simp] theorem exec_streamRecordTimeout (t sub s) : exec (.streamRecordTimeout t sub) s = execStreamRecordTimeout t sub s := rfl
@[simp] theorem exec_diDebounce (t n level stableNs s) : exec (.diDebounce t n level stableNs) s = execDiDebounce t n level stableNs s := rfl
@[simp] theorem exec_wireBreak (t n current durNs s) : exec (.wireBreak t n current durNs) s = execWireBreak t n current durNs s := rfl
@[simp] theorem exec_doShort (t n milliamp durNs s) : exec (.doShort t n milliamp durNs) s = execDoShort t n milliamp durNs s := rfl
@[simp] theorem exec_doRetry (t n holds s) : exec (.doRetry t n holds) s = execDoRetry t n holds s := rfl
@[simp] theorem exec_mismatch (t n readback durNs s) : exec (.mismatch t n readback durNs) s = execMismatch t n readback durNs s := rfl
@[simp] theorem exec_clConversion (t n raw s) : exec (.clConversion t n raw) s = execClConversion t n raw s := rfl
@[simp] theorem exec_miswire (t n milliamp reverse durNs s) : exec (.miswire t n milliamp reverse durNs) s = execMiswire t n milliamp reverse durNs s := rfl
@[simp] theorem exec_miswireRetry (t n holds s) : exec (.miswireRetry t n holds) s = execMiswireRetry t n holds s := rfl
@[simp] theorem exec_faiAperture (t volts s) : exec (.faiAperture t volts) s = execFaiAperture t volts s := rfl
@[simp] theorem exec_pulseEdge (t n e s) : exec (.pulseEdge t n e) s = execPulseEdge t n e s := rfl
@[simp] theorem exec_lineFault (t n line low durNs s) : exec (.lineFault t n line low durNs) s = execLineFault t n line low durNs s := rfl
@[simp] theorem exec_stalled (t n s) : exec (.stalled t n) s = execStalled t n s := rfl
@[simp] theorem exec_wdExpired (t group ch s) : exec (.wdExpired t group ch) s = execWdExpired t group ch s := rfl
@[simp] theorem exec_wdRefresh (t group ch s) : exec (.wdRefresh t group ch) s = execWdRefresh t group ch s := rfl
@[simp] theorem exec_fioSubscribeSample (t sub s) : exec (.fioSubscribeSample t sub) s = execFioSubscribeSample t sub s := rfl
@[simp] theorem exec_springRamp (t die due s) : exec (.springRamp t die due) s = execSpringRamp t die due s := rfl
@[simp] theorem exec_autumnRamp (t die due s) : exec (.autumnRamp t die due) s = execAutumnRamp t die due s := rfl
@[simp] theorem exec_rampStep (t die busy s) : exec (.rampStep t die busy) s = execRampStep t die busy s := rfl
@[simp] theorem exec_asyncWake (t die s) : exec (.asyncWake t die) s = execAsyncWake t die s := rfl
@[simp] theorem exec_winterLoss (t gapNs s) : exec (.winterLoss t gapNs) s = execWinterLoss t gapNs s := rfl
@[simp] theorem exec_clockMonitorWindow (t int25 refclk internal s) : exec (.clockMonitorWindow t int25 refclk internal) s = execClockMonitorWindow t int25 refclk internal s := rfl
@[simp] theorem exec_stoppedClock (t die s) : exec (.stoppedClock t die) s = execStoppedClock t die s := rfl
@[simp] theorem exec_refclkDelayExpiry (t s) : exec (.refclkDelayExpiry t) s = execRefclkDelayExpiry t s := rfl
@[simp] theorem exec_feedGood (t b millivolt durNs tenMilliamp s) : exec (.feedGood t b millivolt durNs tenMilliamp) s = execFeedGood t b millivolt durNs tenMilliamp s := rfl
@[simp] theorem exec_feedLost (t b millivolt durNs s) : exec (.feedLost t b millivolt durNs) s = execFeedLost t b millivolt durNs s := rfl
@[simp] theorem exec_railFault (t rail durNs s) : exec (.railFault t rail durNs) s = execRailFault t rail durNs s := rfl
@[simp] theorem exec_prsntNDeassert (t s) : exec (.prsntNDeassert t) s = execPrsntNDeassert t s := rfl
@[simp] theorem exec_powerDownReset (t s) : exec (.powerDownReset t) s = execPowerDownReset t s := rfl
@[simp] theorem exec_backupLost (t millivolt durNs s) : exec (.backupLost t millivolt durNs) s = execBackupLost t millivolt durNs s := rfl
@[simp] theorem exec_osf (t gapNs s) : exec (.osf t gapNs) s = execOsf t gapNs s := rfl
@[simp] theorem exec_rtcCheck (t drift s) : exec (.rtcCheck t drift) s = execRtcCheck t drift s := rfl
@[simp] theorem exec_rtcCommit (t s) : exec (.rtcCommit t) s = execRtcCommit t s := rfl
@[simp] theorem exec_alarmFire (t s) : exec (.alarmFire t) s = execAlarmFire t s := rfl
@[simp] theorem exec_wakeTimeout (t s) : exec (.wakeTimeout t) s = execWakeTimeout t s := rfl
@[simp] theorem exec_slewEnd (t s) : exec (.slewEnd t) s = execSlewEnd t s := rfl
@[simp] theorem exec_heartbeatSend (t s) : exec (.heartbeatSend t) s = execHeartbeatSend t s := rfl
@[simp] theorem exec_heartbeatMissed (t s) : exec (.heartbeatMissed t) s = execHeartbeatMissed t s := rfl
@[simp] theorem exec_heartbeatConfirm (t alive s) : exec (.heartbeatConfirm t alive) s = execHeartbeatConfirm t alive s := rfl
@[simp] theorem exec_twinLinkUp (t lanes p s) : exec (.twinLinkUp t lanes p) s = execTwinLinkUp t lanes p s := rfl
@[simp] theorem exec_laneDown (t lane s) : exec (.laneDown t lane) s = execLaneDown t lane s := rfl
@[simp] theorem exec_mirrorReceive (t m latency s) : exec (.mirrorReceive t m latency) s = execMirrorReceive t m latency s := rfl
@[simp] theorem exec_readbackDiff (t group ch durNs s) : exec (.readbackDiff t group ch durNs) s = execReadbackDiff t group ch durNs s := rfl
@[simp] theorem exec_digestCompare (t kind id lead s) : exec (.digestCompare t kind id lead) s = execDigestCompare t kind id lead s := rfl
@[simp] theorem exec_selfTestDone (t own partner s) : exec (.selfTestDone t own partner) s = execSelfTestDone t own partner s := rfl
@[simp] theorem exec_eccError (t die link s) : exec (.eccError t die link) s = execEccError t die link s := rfl
@[simp] theorem exec_leadAliveWatchdog (t s) : exec (.leadAliveWatchdog t) s = execLeadAliveWatchdog t s := rfl
@[simp] theorem exec_yieldSafeTimeout (t s) : exec (.yieldSafeTimeout t) s = execYieldSafeTimeout t s := rfl
@[simp] theorem exec_yieldNAssert (t check s) : exec (.yieldNAssert t check) s = execYieldNAssert t check s := rfl
@[simp] theorem exec_leadAliveDeassert (t s) : exec (.leadAliveDeassert t) s = execLeadAliveDeassert t s := rfl
@[simp] theorem exec_thaw (t s) : exec (.thaw t) s = execThaw t s := rfl
@[simp] theorem exec_equinoxInstant (t s) : exec (.equinoxInstant t) s = execEquinoxInstant t s := rfl
@[simp] theorem exec_equinoxClaim (t s) : exec (.equinoxClaim t) s = execEquinoxClaim t s := rfl
@[simp] theorem exec_equinoxWindowEnd (t s) : exec (.equinoxWindowEnd t) s = execEquinoxWindowEnd t s := rfl
@[simp] theorem exec_drillDue (t s) : exec (.drillDue t) s = execDrillDue t s := rfl
@[simp] theorem exec_drillPostponed (t s) : exec (.drillPostponed t) s = execDrillPostponed t s := rfl
@[simp] theorem exec_drillCheck (t terminal s) : exec (.drillCheck t terminal) s = execDrillCheck t terminal s := rfl
@[simp] theorem exec_exchangeImageStored (t x s) : exec (.exchangeImageStored t x) s = execExchangeImageStored t x s := rfl
@[simp] theorem exec_mappingInstant (t s) : exec (.mappingInstant t) s = execMappingInstant t s := rfl
@[simp] theorem exec_syncTransferDone (t ok j s) : exec (.syncTransferDone t ok j) s = execSyncTransferDone t ok j s := rfl
@[simp] theorem exec_joinInstant (t s) : exec (.joinInstant t) s = execJoinInstant t s := rfl
@[simp] theorem exec_recordWrite (t verified s) : exec (.recordWrite t verified) s = execRecordWrite t verified s := rfl
@[simp] theorem exec_summaryRecord (t code s) : exec (.summaryRecord t code) s = execSummaryRecord t code s := rfl
@[simp] theorem exec_frameStart (t temp s) : exec (.frameStart t temp) s = execFrameStart t temp s := rfl
@[simp] theorem exec_frameCheck (t scan s) : exec (.frameCheck t scan) s = execFrameCheck t scan s := rfl
@[simp] theorem exec_keyPress (t key pressed s) : exec (.keyPress t key pressed) s = execKeyPress t key pressed s := rfl
@[simp] theorem exec_tripPageReset (t high low s) : exec (.tripPageReset t high low) s = execTripPageReset t high low s := rfl
@[simp] theorem exec_ejectHold (t s) : exec (.ejectHold t) s = execEjectHold t s := rfl
@[simp] theorem exec_menuTimeout (t s) : exec (.menuTimeout t) s = execMenuTimeout t s := rfl
@[simp] theorem exec_ejectLeverPulled (t s) : exec (.ejectLeverPulled t) s = execEjectLeverPulled t s := rfl
@[simp] theorem exec_ejectRetry (t s) : exec (.ejectRetry t) s = execEjectRetry t s := rfl
@[simp] theorem exec_ejectCancel (t s) : exec (.ejectCancel t) s = execEjectCancel t s := rfl
@[simp] theorem exec_counterClear (t off v s) : exec (.counterClear t off v) s = execCounterClear t off v s := rfl
@[simp] theorem exec_rtcSecRead (t s) : exec (.rtcSecRead t) s = execRtcSecRead t s := rfl
@[simp] theorem exec_clkMtRead (t s) : exec (.clkMtRead t) s = execClkMtRead t s := rfl
@[simp] theorem exec_piStatusRead (t n s) : exec (.piStatusRead t n) s = execPiStatusRead t n s := rfl
@[simp] theorem exec_bkupWrite (t n v s) : exec (.bkupWrite t n v) s = execBkupWrite t n v s := rfl
@[simp] theorem exec_regionWrite (t n v s) : exec (.regionWrite t n v) s = execRegionWrite t n v s := rfl
@[simp] theorem exec_registerWrite (t off size v s) : exec (.registerWrite t off size v) s = execRegisterWrite t off size v s := rfl
@[simp] theorem exec_keelBroughtUp (t s) : exec (.keelBroughtUp t) s = execKeelBroughtUp t s := rfl
@[simp] theorem exec_leadAliveReadEnd (t asserted s) : exec (.leadAliveReadEnd t asserted) s = execLeadAliveReadEnd t asserted s := rfl
@[simp] theorem exec_startSequenceComplete (t imageOk restartAt s) : exec (.startSequenceComplete t imageOk restartAt) s = execStartSequenceComplete t imageOk restartAt s := rfl
@[simp] theorem exec_flashStoreDone (t ok s) : exec (.flashStoreDone t ok) s = execFlashStoreDone t ok s := rfl
@[simp] theorem exec_passwordCheckDone (t s) : exec (.passwordCheckDone t) s = execPasswordCheckDone t s := rfl
@[simp] theorem exec_mirrorAck (t rid s) : exec (.mirrorAck t rid) s = execMirrorAck t rid s := rfl
@[simp] theorem exec_heartbeatReceive (t p s) : exec (.heartbeatReceive t p) s = execHeartbeatReceive t p s := rfl
@[simp] theorem exec_winterRecovered (t goodCycles s) : exec (.winterRecovered t goodCycles) s = execWinterRecovered t goodCycles s := rfl
@[simp] theorem exec_pllLocked (t die s) : exec (.pllLocked t die) s = execPllLocked t die s := rfl
@[simp] theorem exec_correctedLinkError (t die s) : exec (.correctedLinkError t die) s = execCorrectedLinkError t die s := rfl
@[simp] theorem exec_ringLinkUp (t east s) : exec (.ringLinkUp t east) s = execRingLinkUp t east s := rfl
@[simp] theorem exec_busOffRecovered (t ch s) : exec (.busOffRecovered t ch) s = execBusOffRecovered t ch s := rfl
@[simp] theorem exec_basicCycleOpen (t ch s) : exec (.basicCycleOpen t ch) s = execBasicCycleOpen t ch s := rfl
@[simp] theorem exec_fioTestSettled (t readback s) : exec (.fioTestSettled t readback) s = execFioTestSettled t readback s := rfl
@[simp] theorem exec_clTrimHold (t n select up s) : exec (.clTrimHold t n select up) s = execClTrimHold t n select up s := rfl
@[simp] theorem exec_forceRefresh (t s) : exec (.forceRefresh t) s = execForceRefresh t s := rfl

end Sys2Proof.Machine
end

