-- ==== Sys2Proof/Laws/Tables.lean ====
section
/-! SUPPORT. Laws/Tables.lean: tables keyed by a number: a read after a write, and that a write leaves other keys
alone. -/

namespace Sys2Proof.Machine

theorem tget_tset {α : Type} (t : Tab α) (k j : Nat) (v d : α) :
    tget (tset t k v) j d = if j = k then v else tget t j d := by
  induction t with
  | nil =>
    by_cases h : j = k
    · subst h; simp [tset, tget]
    · have : ¬ k = j := fun q => h q.symm
      simp [tset, tget, h, this]
  | cons e r ih =>
    rcases Nat.lt_trichotomy k e.1 with h | h | h
    · by_cases hj : j = k
      · subst hj; simp [tset, h, tget]
      · have : ¬ k = j := fun q => hj q.symm
        simp [tset, h, tget, hj, this]
    · subst h
      by_cases hj : j = e.1
      · subst hj; simp [tset, tget]
      · have : ¬ e.1 = j := fun q => hj q.symm
        simp [tset, tget, hj, this]
    · have h0 : ¬ e.1 = k := by omega
      have h1 : ¬ k < e.1 := by omega
      by_cases hj : e.1 = j
      · have h2 : ¬ j = k := by omega
        subst hj; simp [tset, h0, h1, tget]
      · simp [tset, h0, h1, tget, hj, ih]

/-- A table's entry is what a lookup of its key finds, with the default where it finds none. -/
theorem tget_eq_tfind {α : Type} (t : Tab α) (k : Nat) (d : α) : tget t k d = (tfind t k).getD d := by
  induction t with
  | nil => rfl
  | cons e r ih => by_cases h : e.1 = k <;> simp [tget, tfind, h, ih]

theorem tfind_tset {α : Type} (t : Tab α) (k j : Nat) (v : α) :
    tfind (tset t k v) j = if j = k then some v else tfind t j := by
  induction t with
  | nil =>
    by_cases h : j = k
    · subst h; simp [tset, tfind]
    · have : ¬ k = j := fun q => h q.symm
      simp [tset, tfind, h, this]
  | cons e r ih =>
    rcases Nat.lt_trichotomy k e.1 with h | h | h
    · by_cases hj : j = k
      · subst hj; simp [tset, h, tfind]
      · have : ¬ k = j := fun q => hj q.symm
        simp [tset, h, tfind, hj, this]
    · subst h
      by_cases hj : j = e.1
      · subst hj; simp [tset, tfind]
      · have : ¬ e.1 = j := fun q => hj q.symm
        simp [tset, tfind, hj, this]
    · have h0 : ¬ e.1 = k := by omega
      have h1 : ¬ k < e.1 := by omega
      by_cases hj : e.1 = j
      · have h2 : ¬ j = k := by omega
        subst hj; simp [tset, h0, h1, tfind]
      · simp [tset, h0, h1, tfind, hj, ih]

@[simp] theorem tget_nil {α : Type} (k : Nat) (d : α) : tget [] k d = d := rfl
@[simp] theorem tfind_nil {α : Type} (k : Nat) : tfind ([] : Tab α) k = none := rfl

/-- n bytes of a number are n bytes. -/
@[simp] theorem length_leBytes (n v : Nat) : (leBytes n v).length = n := by
  induction n generalizing v with
  | zero => rfl
  | succ n ih => simp [leBytes, ih]

@[simp] theorem length_u8 (v : Nat) : (u8 v).length = 1 := length_leBytes 1 v
@[simp] theorem length_u16 (v : Nat) : (u16 v).length = 2 := length_leBytes 2 v
@[simp] theorem length_u32 (v : Nat) : (u32 v).length = 4 := length_leBytes 4 v
@[simp] theorem length_u64 (v : Nat) : (u64 v).length = 8 := length_leBytes 8 v
@[simp] theorem length_zeros (n : Nat) : (zeros n).length = n := List.length_replicate

end Sys2Proof.Machine
end

