-- ==== Sys2Proof/Laws/State.lean ====
section
/-! SUPPORT. Laws/State.lean: what every setter and shared effect leaves, field by field: true by rfl, so that no proof
unfolds a record update; and what a reader finds after a setter. -/

namespace Sys2Proof.Machine

/-! ### State.setTile -/

@[simp] theorem State.setTile_pending (s : State) (n : Nat) (x : Tile) : (s.setTile n x).pending = s.pending := (rfl)
@[simp] theorem State.setTile_now (s : State) (n : Nat) (x : Tile) : (s.setTile n x).now = s.now := (rfl)
@[simp] theorem State.setTile_mtOff (s : State) (n : Nat) (x : Tile) : (s.setTile n x).mtOff = s.mtOff := (rfl)
@[simp] theorem State.setTile_slew (s : State) (n : Nat) (x : Tile) : (s.setTile n x).slew = s.slew := (rfl)
@[simp] theorem State.setTile_out (s : State) (n : Nat) (x : Tile) : (s.setTile n x).out = s.out := (rfl)
@[simp] theorem State.setTile_cfg (s : State) (n : Nat) (x : Tile) : (s.setTile n x).cfg = s.cfg := (rfl)
@[simp] theorem State.setTile_host (s : State) (n : Nat) (x : Tile) : (s.setTile n x).host = s.host := (rfl)
@[simp] theorem State.setTile_mgmt (s : State) (n : Nat) (x : Tile) : (s.setTile n x).mgmt = s.mgmt := (rfl)
@[simp] theorem State.setTile_sec (s : State) (n : Nat) (x : Tile) : (s.setTile n x).sec = s.sec := (rfl)
@[simp] theorem State.setTile_modes (s : State) (n : Nat) (x : Tile) : (s.setTile n x).modes = s.modes := (rfl)
@[simp] theorem State.setTile_fabric (s : State) (n : Nat) (x : Tile) : (s.setTile n x).fabric = s.fabric := (rfl)
@[simp] theorem State.setTile_late (s : State) (n : Nat) (x : Tile) : (s.setTile n x).late = s.late := (rfl)
@[simp] theorem State.setTile_prog (s : State) (n : Nat) (x : Tile) : (s.setTile n x).prog = s.prog := (rfl)
@[simp] theorem State.setTile_loops (s : State) (n : Nat) (x : Tile) : (s.setTile n x).loops = s.loops := (rfl)
@[simp] theorem State.setTile_ports (s : State) (n : Nat) (x : Tile) : (s.setTile n x).ports = s.ports := (rfl)
@[simp] theorem State.setTile_cells (s : State) (n : Nat) (x : Tile) : (s.setTile n x).cells = s.cells := (rfl)
@[simp] theorem State.setTile_twin (s : State) (n : Nat) (x : Tile) : (s.setTile n x).twin = s.twin := (rfl)
@[simp] theorem State.setTile_trip (s : State) (n : Nat) (x : Tile) : (s.setTile n x).trip = s.trip := (rfl)
@[simp] theorem State.setTile_ring (s : State) (n : Nat) (x : Tile) : (s.setTile n x).ring = s.ring := (rfl)
@[simp] theorem State.setTile_can (s : State) (n : Nat) (x : Tile) : (s.setTile n x).can = s.can := (rfl)
@[simp] theorem State.setTile_fio (s : State) (n : Nat) (x : Tile) : (s.setTile n x).fio = s.fio := (rfl)
@[simp] theorem State.setTile_clk (s : State) (n : Nat) (x : Tile) : (s.setTile n x).clk = s.clk := (rfl)
@[simp] theorem State.setTile_pwr (s : State) (n : Nat) (x : Tile) : (s.setTile n x).pwr = s.pwr := (rfl)
@[simp] theorem State.setTile_rtc (s : State) (n : Nat) (x : Tile) : (s.setTile n x).rtc = s.rtc := (rfl)
@[simp] theorem State.setTile_recd (s : State) (n : Nat) (x : Tile) : (s.setTile n x).recd = s.recd := (rfl)
@[simp] theorem State.setTile_dsp (s : State) (n : Nat) (x : Tile) : (s.setTile n x).dsp = s.dsp := (rfl)
@[simp] theorem State.setTile_free (s : State) (n : Nat) (x : Tile) : (s.setTile n x).free = s.free := (rfl)
@[simp] theorem State.setTile_tile (s : State) (n : Nat) (x : Tile) (m : Nat) :
    (s.setTile n x).tile m = if m = n then x else s.tile m := tget_tset _ _ _ _ _
@[simp] theorem State.setTile_port (s : State) (n : Nat) (x : Tile) (m : Nat) : (s.setTile n x).port m = s.port m := (rfl)
@[simp] theorem State.setTile_chan (s : State) (n : Nat) (x : Tile) (m : Nat) : (s.setTile n x).chan m = s.chan m := (rfl)
@[simp] theorem State.setTile_ctx (s : State) (n : Nat) (x : Tile) (m : Nat) : (s.setTile n x).ctx m = s.ctx m := (rfl)
@[simp] theorem State.setTile_task (s : State) (n : Nat) (x : Tile) (m : Nat) : (s.setTile n x).task m = s.task m := (rfl)
@[simp] theorem State.setTile_di (s : State) (n : Nat) (x : Tile) (m : Nat) : (s.setTile n x).di m = s.di m := (rfl)
@[simp] theorem State.setTile_do_ (s : State) (n : Nat) (x : Tile) (m : Nat) : (s.setTile n x).do_ m = s.do_ m := (rfl)
@[simp] theorem State.setTile_cl (s : State) (n : Nat) (x : Tile) (m : Nat) : (s.setTile n x).cl m = s.cl m := (rfl)
@[simp] theorem State.setTile_fao (s : State) (n : Nat) (x : Tile) (m : Nat) : (s.setTile n x).fao m = s.fao m := (rfl)
@[simp] theorem State.setTile_pulse (s : State) (n : Nat) (x : Tile) (m : Nat) : (s.setTile n x).pulse m = s.pulse m := (rfl)
@[simp] theorem State.setTile_tripOut (s : State) (n : Nat) (x : Tile) (m : Nat) : (s.setTile n x).tripOut m = s.tripOut m := (rfl)
@[simp] theorem State.setTile_keySlot (s : State) (n : Nat) (x : Tile) (m : Nat) : (s.setTile n x).keySlot m = s.keySlot m := (rfl)
@[simp] theorem State.setTile_leadsPair (s : State) (n : Nat) (x : Tile) : (s.setTile n x).leadsPair = s.leadsPair := (rfl)
@[simp] theorem State.setTile_keepsHelm (s : State) (n : Nat) (x : Tile) : (s.setTile n x).keepsHelm = s.keepsHelm := (rfl)
@[simp] theorem State.setTile_slotB (s : State) (n : Nat) (x : Tile) : (s.setTile n x).slotB = s.slotB := (rfl)
@[simp] theorem State.setTile_mt (s : State) (n : Nat) (x : Tile) : (s.setTile n x).mt = s.mt := (rfl)
@[simp] theorem State.setTile_offset (s : State) (n : Nat) (x : Tile) : (s.setTile n x).offset = s.offset := (rfl)
@[simp] theorem State.setTile_rtcNs (s : State) (n : Nat) (x : Tile) : (s.setTile n x).rtcNs = s.rtcNs := (rfl)
@[simp] theorem State.setTile_findReq (s : State) (n : Nat) (x : Tile) (m : Nat) : (s.setTile n x).findReq m = s.findReq m := (rfl)

/-! ### State.setPort -/

@[simp] theorem State.setPort_pending (s : State) (n : Nat) (x : Port) : (s.setPort n x).pending = s.pending := (rfl)
@[simp] theorem State.setPort_now (s : State) (n : Nat) (x : Port) : (s.setPort n x).now = s.now := (rfl)
@[simp] theorem State.setPort_mtOff (s : State) (n : Nat) (x : Port) : (s.setPort n x).mtOff = s.mtOff := (rfl)
@[simp] theorem State.setPort_slew (s : State) (n : Nat) (x : Port) : (s.setPort n x).slew = s.slew := (rfl)
@[simp] theorem State.setPort_out (s : State) (n : Nat) (x : Port) : (s.setPort n x).out = s.out := (rfl)
@[simp] theorem State.setPort_cfg (s : State) (n : Nat) (x : Port) : (s.setPort n x).cfg = s.cfg := (rfl)
@[simp] theorem State.setPort_host (s : State) (n : Nat) (x : Port) : (s.setPort n x).host = s.host := (rfl)
@[simp] theorem State.setPort_mgmt (s : State) (n : Nat) (x : Port) : (s.setPort n x).mgmt = s.mgmt := (rfl)
@[simp] theorem State.setPort_sec (s : State) (n : Nat) (x : Port) : (s.setPort n x).sec = s.sec := (rfl)
@[simp] theorem State.setPort_modes (s : State) (n : Nat) (x : Port) : (s.setPort n x).modes = s.modes := (rfl)
@[simp] theorem State.setPort_tiles (s : State) (n : Nat) (x : Port) : (s.setPort n x).tiles = s.tiles := (rfl)
@[simp] theorem State.setPort_fabric (s : State) (n : Nat) (x : Port) : (s.setPort n x).fabric = s.fabric := (rfl)
@[simp] theorem State.setPort_late (s : State) (n : Nat) (x : Port) : (s.setPort n x).late = s.late := (rfl)
@[simp] theorem State.setPort_prog (s : State) (n : Nat) (x : Port) : (s.setPort n x).prog = s.prog := (rfl)
@[simp] theorem State.setPort_loops (s : State) (n : Nat) (x : Port) : (s.setPort n x).loops = s.loops := (rfl)
@[simp] theorem State.setPort_cells (s : State) (n : Nat) (x : Port) : (s.setPort n x).cells = s.cells := (rfl)
@[simp] theorem State.setPort_twin (s : State) (n : Nat) (x : Port) : (s.setPort n x).twin = s.twin := (rfl)
@[simp] theorem State.setPort_trip (s : State) (n : Nat) (x : Port) : (s.setPort n x).trip = s.trip := (rfl)
@[simp] theorem State.setPort_ring (s : State) (n : Nat) (x : Port) : (s.setPort n x).ring = s.ring := (rfl)
@[simp] theorem State.setPort_can (s : State) (n : Nat) (x : Port) : (s.setPort n x).can = s.can := (rfl)
@[simp] theorem State.setPort_fio (s : State) (n : Nat) (x : Port) : (s.setPort n x).fio = s.fio := (rfl)
@[simp] theorem State.setPort_clk (s : State) (n : Nat) (x : Port) : (s.setPort n x).clk = s.clk := (rfl)
@[simp] theorem State.setPort_pwr (s : State) (n : Nat) (x : Port) : (s.setPort n x).pwr = s.pwr := (rfl)
@[simp] theorem State.setPort_rtc (s : State) (n : Nat) (x : Port) : (s.setPort n x).rtc = s.rtc := (rfl)
@[simp] theorem State.setPort_recd (s : State) (n : Nat) (x : Port) : (s.setPort n x).recd = s.recd := (rfl)
@[simp] theorem State.setPort_dsp (s : State) (n : Nat) (x : Port) : (s.setPort n x).dsp = s.dsp := (rfl)
@[simp] theorem State.setPort_free (s : State) (n : Nat) (x : Port) : (s.setPort n x).free = s.free := (rfl)
@[simp] theorem State.setPort_tile (s : State) (n : Nat) (x : Port) (m : Nat) : (s.setPort n x).tile m = s.tile m := (rfl)
@[simp] theorem State.setPort_port (s : State) (n : Nat) (x : Port) (m : Nat) :
    (s.setPort n x).port m = if m = n then x else s.port m := tget_tset _ _ _ _ _
@[simp] theorem State.setPort_chan (s : State) (n : Nat) (x : Port) (m : Nat) : (s.setPort n x).chan m = s.chan m := (rfl)
@[simp] theorem State.setPort_ctx (s : State) (n : Nat) (x : Port) (m : Nat) : (s.setPort n x).ctx m = s.ctx m := (rfl)
@[simp] theorem State.setPort_task (s : State) (n : Nat) (x : Port) (m : Nat) : (s.setPort n x).task m = s.task m := (rfl)
@[simp] theorem State.setPort_di (s : State) (n : Nat) (x : Port) (m : Nat) : (s.setPort n x).di m = s.di m := (rfl)
@[simp] theorem State.setPort_do_ (s : State) (n : Nat) (x : Port) (m : Nat) : (s.setPort n x).do_ m = s.do_ m := (rfl)
@[simp] theorem State.setPort_cl (s : State) (n : Nat) (x : Port) (m : Nat) : (s.setPort n x).cl m = s.cl m := (rfl)
@[simp] theorem State.setPort_fao (s : State) (n : Nat) (x : Port) (m : Nat) : (s.setPort n x).fao m = s.fao m := (rfl)
@[simp] theorem State.setPort_pulse (s : State) (n : Nat) (x : Port) (m : Nat) : (s.setPort n x).pulse m = s.pulse m := (rfl)
@[simp] theorem State.setPort_tripOut (s : State) (n : Nat) (x : Port) (m : Nat) : (s.setPort n x).tripOut m = s.tripOut m := (rfl)
@[simp] theorem State.setPort_keySlot (s : State) (n : Nat) (x : Port) (m : Nat) : (s.setPort n x).keySlot m = s.keySlot m := (rfl)
@[simp] theorem State.setPort_leadsPair (s : State) (n : Nat) (x : Port) : (s.setPort n x).leadsPair = s.leadsPair := (rfl)
@[simp] theorem State.setPort_keepsHelm (s : State) (n : Nat) (x : Port) : (s.setPort n x).keepsHelm = s.keepsHelm := (rfl)
@[simp] theorem State.setPort_slotB (s : State) (n : Nat) (x : Port) : (s.setPort n x).slotB = s.slotB := (rfl)
@[simp] theorem State.setPort_mt (s : State) (n : Nat) (x : Port) : (s.setPort n x).mt = s.mt := (rfl)
@[simp] theorem State.setPort_offset (s : State) (n : Nat) (x : Port) : (s.setPort n x).offset = s.offset := (rfl)
@[simp] theorem State.setPort_rtcNs (s : State) (n : Nat) (x : Port) : (s.setPort n x).rtcNs = s.rtcNs := (rfl)
@[simp] theorem State.setPort_findReq (s : State) (n : Nat) (x : Port) (m : Nat) : (s.setPort n x).findReq m = s.findReq m := (rfl)

/-! ### State.setChan -/

@[simp] theorem State.setChan_pending (s : State) (n : Nat) (x : Can) : (s.setChan n x).pending = s.pending := (rfl)
@[simp] theorem State.setChan_now (s : State) (n : Nat) (x : Can) : (s.setChan n x).now = s.now := (rfl)
@[simp] theorem State.setChan_mtOff (s : State) (n : Nat) (x : Can) : (s.setChan n x).mtOff = s.mtOff := (rfl)
@[simp] theorem State.setChan_slew (s : State) (n : Nat) (x : Can) : (s.setChan n x).slew = s.slew := (rfl)
@[simp] theorem State.setChan_out (s : State) (n : Nat) (x : Can) : (s.setChan n x).out = s.out := (rfl)
@[simp] theorem State.setChan_cfg (s : State) (n : Nat) (x : Can) : (s.setChan n x).cfg = s.cfg := (rfl)
@[simp] theorem State.setChan_host (s : State) (n : Nat) (x : Can) : (s.setChan n x).host = s.host := (rfl)
@[simp] theorem State.setChan_mgmt (s : State) (n : Nat) (x : Can) : (s.setChan n x).mgmt = s.mgmt := (rfl)
@[simp] theorem State.setChan_sec (s : State) (n : Nat) (x : Can) : (s.setChan n x).sec = s.sec := (rfl)
@[simp] theorem State.setChan_modes (s : State) (n : Nat) (x : Can) : (s.setChan n x).modes = s.modes := (rfl)
@[simp] theorem State.setChan_tiles (s : State) (n : Nat) (x : Can) : (s.setChan n x).tiles = s.tiles := (rfl)
@[simp] theorem State.setChan_fabric (s : State) (n : Nat) (x : Can) : (s.setChan n x).fabric = s.fabric := (rfl)
@[simp] theorem State.setChan_late (s : State) (n : Nat) (x : Can) : (s.setChan n x).late = s.late := (rfl)
@[simp] theorem State.setChan_prog (s : State) (n : Nat) (x : Can) : (s.setChan n x).prog = s.prog := (rfl)
@[simp] theorem State.setChan_loops (s : State) (n : Nat) (x : Can) : (s.setChan n x).loops = s.loops := (rfl)
@[simp] theorem State.setChan_ports (s : State) (n : Nat) (x : Can) : (s.setChan n x).ports = s.ports := (rfl)
@[simp] theorem State.setChan_cells (s : State) (n : Nat) (x : Can) : (s.setChan n x).cells = s.cells := (rfl)
@[simp] theorem State.setChan_twin (s : State) (n : Nat) (x : Can) : (s.setChan n x).twin = s.twin := (rfl)
@[simp] theorem State.setChan_trip (s : State) (n : Nat) (x : Can) : (s.setChan n x).trip = s.trip := (rfl)
@[simp] theorem State.setChan_ring (s : State) (n : Nat) (x : Can) : (s.setChan n x).ring = s.ring := (rfl)
@[simp] theorem State.setChan_fio (s : State) (n : Nat) (x : Can) : (s.setChan n x).fio = s.fio := (rfl)
@[simp] theorem State.setChan_clk (s : State) (n : Nat) (x : Can) : (s.setChan n x).clk = s.clk := (rfl)
@[simp] theorem State.setChan_pwr (s : State) (n : Nat) (x : Can) : (s.setChan n x).pwr = s.pwr := (rfl)
@[simp] theorem State.setChan_rtc (s : State) (n : Nat) (x : Can) : (s.setChan n x).rtc = s.rtc := (rfl)
@[simp] theorem State.setChan_recd (s : State) (n : Nat) (x : Can) : (s.setChan n x).recd = s.recd := (rfl)
@[simp] theorem State.setChan_dsp (s : State) (n : Nat) (x : Can) : (s.setChan n x).dsp = s.dsp := (rfl)
@[simp] theorem State.setChan_free (s : State) (n : Nat) (x : Can) : (s.setChan n x).free = s.free := (rfl)
@[simp] theorem State.setChan_tile (s : State) (n : Nat) (x : Can) (m : Nat) : (s.setChan n x).tile m = s.tile m := (rfl)
@[simp] theorem State.setChan_port (s : State) (n : Nat) (x : Can) (m : Nat) : (s.setChan n x).port m = s.port m := (rfl)
@[simp] theorem State.setChan_chan (s : State) (n : Nat) (x : Can) (m : Nat) :
    (s.setChan n x).chan m = if m = n then x else s.chan m := tget_tset _ _ _ _ _
@[simp] theorem State.setChan_ctx (s : State) (n : Nat) (x : Can) (m : Nat) : (s.setChan n x).ctx m = s.ctx m := (rfl)
@[simp] theorem State.setChan_task (s : State) (n : Nat) (x : Can) (m : Nat) : (s.setChan n x).task m = s.task m := (rfl)
@[simp] theorem State.setChan_di (s : State) (n : Nat) (x : Can) (m : Nat) : (s.setChan n x).di m = s.di m := (rfl)
@[simp] theorem State.setChan_do_ (s : State) (n : Nat) (x : Can) (m : Nat) : (s.setChan n x).do_ m = s.do_ m := (rfl)
@[simp] theorem State.setChan_cl (s : State) (n : Nat) (x : Can) (m : Nat) : (s.setChan n x).cl m = s.cl m := (rfl)
@[simp] theorem State.setChan_fao (s : State) (n : Nat) (x : Can) (m : Nat) : (s.setChan n x).fao m = s.fao m := (rfl)
@[simp] theorem State.setChan_pulse (s : State) (n : Nat) (x : Can) (m : Nat) : (s.setChan n x).pulse m = s.pulse m := (rfl)
@[simp] theorem State.setChan_tripOut (s : State) (n : Nat) (x : Can) (m : Nat) : (s.setChan n x).tripOut m = s.tripOut m := (rfl)
@[simp] theorem State.setChan_keySlot (s : State) (n : Nat) (x : Can) (m : Nat) : (s.setChan n x).keySlot m = s.keySlot m := (rfl)
@[simp] theorem State.setChan_leadsPair (s : State) (n : Nat) (x : Can) : (s.setChan n x).leadsPair = s.leadsPair := (rfl)
@[simp] theorem State.setChan_keepsHelm (s : State) (n : Nat) (x : Can) : (s.setChan n x).keepsHelm = s.keepsHelm := (rfl)
@[simp] theorem State.setChan_slotB (s : State) (n : Nat) (x : Can) : (s.setChan n x).slotB = s.slotB := (rfl)
@[simp] theorem State.setChan_mt (s : State) (n : Nat) (x : Can) : (s.setChan n x).mt = s.mt := (rfl)
@[simp] theorem State.setChan_offset (s : State) (n : Nat) (x : Can) : (s.setChan n x).offset = s.offset := (rfl)
@[simp] theorem State.setChan_rtcNs (s : State) (n : Nat) (x : Can) : (s.setChan n x).rtcNs = s.rtcNs := (rfl)
@[simp] theorem State.setChan_findReq (s : State) (n : Nat) (x : Can) (m : Nat) : (s.setChan n x).findReq m = s.findReq m := (rfl)

/-! ### State.setCtx -/

@[simp] theorem State.setCtx_pending (s : State) (n : Nat) (x : Ctx) : (s.setCtx n x).pending = s.pending := (rfl)
@[simp] theorem State.setCtx_now (s : State) (n : Nat) (x : Ctx) : (s.setCtx n x).now = s.now := (rfl)
@[simp] theorem State.setCtx_mtOff (s : State) (n : Nat) (x : Ctx) : (s.setCtx n x).mtOff = s.mtOff := (rfl)
@[simp] theorem State.setCtx_slew (s : State) (n : Nat) (x : Ctx) : (s.setCtx n x).slew = s.slew := (rfl)
@[simp] theorem State.setCtx_out (s : State) (n : Nat) (x : Ctx) : (s.setCtx n x).out = s.out := (rfl)
@[simp] theorem State.setCtx_cfg (s : State) (n : Nat) (x : Ctx) : (s.setCtx n x).cfg = s.cfg := (rfl)
@[simp] theorem State.setCtx_mgmt (s : State) (n : Nat) (x : Ctx) : (s.setCtx n x).mgmt = s.mgmt := (rfl)
@[simp] theorem State.setCtx_sec (s : State) (n : Nat) (x : Ctx) : (s.setCtx n x).sec = s.sec := (rfl)
@[simp] theorem State.setCtx_modes (s : State) (n : Nat) (x : Ctx) : (s.setCtx n x).modes = s.modes := (rfl)
@[simp] theorem State.setCtx_tiles (s : State) (n : Nat) (x : Ctx) : (s.setCtx n x).tiles = s.tiles := (rfl)
@[simp] theorem State.setCtx_fabric (s : State) (n : Nat) (x : Ctx) : (s.setCtx n x).fabric = s.fabric := (rfl)
@[simp] theorem State.setCtx_late (s : State) (n : Nat) (x : Ctx) : (s.setCtx n x).late = s.late := (rfl)
@[simp] theorem State.setCtx_prog (s : State) (n : Nat) (x : Ctx) : (s.setCtx n x).prog = s.prog := (rfl)
@[simp] theorem State.setCtx_loops (s : State) (n : Nat) (x : Ctx) : (s.setCtx n x).loops = s.loops := (rfl)
@[simp] theorem State.setCtx_ports (s : State) (n : Nat) (x : Ctx) : (s.setCtx n x).ports = s.ports := (rfl)
@[simp] theorem State.setCtx_cells (s : State) (n : Nat) (x : Ctx) : (s.setCtx n x).cells = s.cells := (rfl)
@[simp] theorem State.setCtx_twin (s : State) (n : Nat) (x : Ctx) : (s.setCtx n x).twin = s.twin := (rfl)
@[simp] theorem State.setCtx_trip (s : State) (n : Nat) (x : Ctx) : (s.setCtx n x).trip = s.trip := (rfl)
@[simp] theorem State.setCtx_ring (s : State) (n : Nat) (x : Ctx) : (s.setCtx n x).ring = s.ring := (rfl)
@[simp] theorem State.setCtx_can (s : State) (n : Nat) (x : Ctx) : (s.setCtx n x).can = s.can := (rfl)
@[simp] theorem State.setCtx_fio (s : State) (n : Nat) (x : Ctx) : (s.setCtx n x).fio = s.fio := (rfl)
@[simp] theorem State.setCtx_clk (s : State) (n : Nat) (x : Ctx) : (s.setCtx n x).clk = s.clk := (rfl)
@[simp] theorem State.setCtx_pwr (s : State) (n : Nat) (x : Ctx) : (s.setCtx n x).pwr = s.pwr := (rfl)
@[simp] theorem State.setCtx_rtc (s : State) (n : Nat) (x : Ctx) : (s.setCtx n x).rtc = s.rtc := (rfl)
@[simp] theorem State.setCtx_recd (s : State) (n : Nat) (x : Ctx) : (s.setCtx n x).recd = s.recd := (rfl)
@[simp] theorem State.setCtx_dsp (s : State) (n : Nat) (x : Ctx) : (s.setCtx n x).dsp = s.dsp := (rfl)
@[simp] theorem State.setCtx_free (s : State) (n : Nat) (x : Ctx) : (s.setCtx n x).free = s.free := (rfl)
@[simp] theorem State.setCtx_host_link (s : State) (n : Nat) (x : Ctx) : (s.setCtx n x).host.link = s.host.link := (rfl)
@[simp] theorem State.setCtx_host_speed (s : State) (n : Nat) (x : Ctx) : (s.setCtx n x).host.speed = s.host.speed := (rfl)
@[simp] theorem State.setCtx_host_width (s : State) (n : Nat) (x : Ctx) : (s.setCtx n x).host.width = s.host.width := (rfl)
@[simp] theorem State.setCtx_host_engine (s : State) (n : Nat) (x : Ctx) : (s.setCtx n x).host.engine = s.host.engine := (rfl)
@[simp] theorem State.setCtx_host_linkEpoch (s : State) (n : Nat) (x : Ctx) : (s.setCtx n x).host.linkEpoch = s.host.linkEpoch := (rfl)
@[simp] theorem State.setCtx_host_eventVector (s : State) (n : Nat) (x : Ctx) : (s.setCtx n x).host.eventVector = s.host.eventVector := (rfl)
@[simp] theorem State.setCtx_host_eventCause (s : State) (n : Nat) (x : Ctx) : (s.setCtx n x).host.eventCause = s.host.eventCause := (rfl)
@[simp] theorem State.setCtx_host_irqHoldoff (s : State) (n : Nat) (x : Ctx) : (s.setCtx n x).host.irqHoldoff = s.host.irqHoldoff := (rfl)
@[simp] theorem State.setCtx_host_doorbellDrop (s : State) (n : Nat) (x : Ctx) : (s.setCtx n x).host.doorbellDrop = s.host.doorbellDrop := (rfl)
@[simp] theorem State.setCtx_host_fetchAt (s : State) (n : Nat) (x : Ctx) : (s.setCtx n x).host.fetchAt = s.host.fetchAt := (rfl)
@[simp] theorem State.setCtx_host_reqs (s : State) (n : Nat) (x : Ctx) : (s.setCtx n x).host.reqs = s.host.reqs := (rfl)
@[simp] theorem State.setCtx_host_nextRid (s : State) (n : Nat) (x : Ctx) : (s.setCtx n x).host.nextRid = s.host.nextRid := (rfl)
@[simp] theorem State.setCtx_host_vecs (s : State) (n : Nat) (x : Ctx) : (s.setCtx n x).host.vecs = s.host.vecs := (rfl)
@[simp] theorem State.setCtx_host_subs (s : State) (n : Nat) (x : Ctx) : (s.setCtx n x).host.subs = s.host.subs := (rfl)
@[simp] theorem State.setCtx_tile (s : State) (n : Nat) (x : Ctx) (m : Nat) : (s.setCtx n x).tile m = s.tile m := (rfl)
@[simp] theorem State.setCtx_port (s : State) (n : Nat) (x : Ctx) (m : Nat) : (s.setCtx n x).port m = s.port m := (rfl)
@[simp] theorem State.setCtx_chan (s : State) (n : Nat) (x : Ctx) (m : Nat) : (s.setCtx n x).chan m = s.chan m := (rfl)
@[simp] theorem State.setCtx_ctx (s : State) (n : Nat) (x : Ctx) (m : Nat) :
    (s.setCtx n x).ctx m = if m = n then x else s.ctx m := tget_tset _ _ _ _ _
@[simp] theorem State.setCtx_task (s : State) (n : Nat) (x : Ctx) (m : Nat) : (s.setCtx n x).task m = s.task m := (rfl)
@[simp] theorem State.setCtx_di (s : State) (n : Nat) (x : Ctx) (m : Nat) : (s.setCtx n x).di m = s.di m := (rfl)
@[simp] theorem State.setCtx_do_ (s : State) (n : Nat) (x : Ctx) (m : Nat) : (s.setCtx n x).do_ m = s.do_ m := (rfl)
@[simp] theorem State.setCtx_cl (s : State) (n : Nat) (x : Ctx) (m : Nat) : (s.setCtx n x).cl m = s.cl m := (rfl)
@[simp] theorem State.setCtx_fao (s : State) (n : Nat) (x : Ctx) (m : Nat) : (s.setCtx n x).fao m = s.fao m := (rfl)
@[simp] theorem State.setCtx_pulse (s : State) (n : Nat) (x : Ctx) (m : Nat) : (s.setCtx n x).pulse m = s.pulse m := (rfl)
@[simp] theorem State.setCtx_tripOut (s : State) (n : Nat) (x : Ctx) (m : Nat) : (s.setCtx n x).tripOut m = s.tripOut m := (rfl)
@[simp] theorem State.setCtx_keySlot (s : State) (n : Nat) (x : Ctx) (m : Nat) : (s.setCtx n x).keySlot m = s.keySlot m := (rfl)
@[simp] theorem State.setCtx_leadsPair (s : State) (n : Nat) (x : Ctx) : (s.setCtx n x).leadsPair = s.leadsPair := (rfl)
@[simp] theorem State.setCtx_keepsHelm (s : State) (n : Nat) (x : Ctx) : (s.setCtx n x).keepsHelm = s.keepsHelm := (rfl)
@[simp] theorem State.setCtx_slotB (s : State) (n : Nat) (x : Ctx) : (s.setCtx n x).slotB = s.slotB := (rfl)
@[simp] theorem State.setCtx_mt (s : State) (n : Nat) (x : Ctx) : (s.setCtx n x).mt = s.mt := (rfl)
@[simp] theorem State.setCtx_offset (s : State) (n : Nat) (x : Ctx) : (s.setCtx n x).offset = s.offset := (rfl)
@[simp] theorem State.setCtx_rtcNs (s : State) (n : Nat) (x : Ctx) : (s.setCtx n x).rtcNs = s.rtcNs := (rfl)
@[simp] theorem State.setCtx_findReq (s : State) (n : Nat) (x : Ctx) (m : Nat) : (s.setCtx n x).findReq m = s.findReq m := (rfl)

/-! ### State.setTask -/

@[simp] theorem State.setTask_pending (s : State) (n : Nat) (x : Task) : (s.setTask n x).pending = s.pending := (rfl)
@[simp] theorem State.setTask_now (s : State) (n : Nat) (x : Task) : (s.setTask n x).now = s.now := (rfl)
@[simp] theorem State.setTask_mtOff (s : State) (n : Nat) (x : Task) : (s.setTask n x).mtOff = s.mtOff := (rfl)
@[simp] theorem State.setTask_slew (s : State) (n : Nat) (x : Task) : (s.setTask n x).slew = s.slew := (rfl)
@[simp] theorem State.setTask_out (s : State) (n : Nat) (x : Task) : (s.setTask n x).out = s.out := (rfl)
@[simp] theorem State.setTask_cfg (s : State) (n : Nat) (x : Task) : (s.setTask n x).cfg = s.cfg := (rfl)
@[simp] theorem State.setTask_host (s : State) (n : Nat) (x : Task) : (s.setTask n x).host = s.host := (rfl)
@[simp] theorem State.setTask_mgmt (s : State) (n : Nat) (x : Task) : (s.setTask n x).mgmt = s.mgmt := (rfl)
@[simp] theorem State.setTask_sec (s : State) (n : Nat) (x : Task) : (s.setTask n x).sec = s.sec := (rfl)
@[simp] theorem State.setTask_modes (s : State) (n : Nat) (x : Task) : (s.setTask n x).modes = s.modes := (rfl)
@[simp] theorem State.setTask_tiles (s : State) (n : Nat) (x : Task) : (s.setTask n x).tiles = s.tiles := (rfl)
@[simp] theorem State.setTask_fabric (s : State) (n : Nat) (x : Task) : (s.setTask n x).fabric = s.fabric := (rfl)
@[simp] theorem State.setTask_late (s : State) (n : Nat) (x : Task) : (s.setTask n x).late = s.late := (rfl)
@[simp] theorem State.setTask_loops (s : State) (n : Nat) (x : Task) : (s.setTask n x).loops = s.loops := (rfl)
@[simp] theorem State.setTask_ports (s : State) (n : Nat) (x : Task) : (s.setTask n x).ports = s.ports := (rfl)
@[simp] theorem State.setTask_cells (s : State) (n : Nat) (x : Task) : (s.setTask n x).cells = s.cells := (rfl)
@[simp] theorem State.setTask_twin (s : State) (n : Nat) (x : Task) : (s.setTask n x).twin = s.twin := (rfl)
@[simp] theorem State.setTask_trip (s : State) (n : Nat) (x : Task) : (s.setTask n x).trip = s.trip := (rfl)
@[simp] theorem State.setTask_ring (s : State) (n : Nat) (x : Task) : (s.setTask n x).ring = s.ring := (rfl)
@[simp] theorem State.setTask_can (s : State) (n : Nat) (x : Task) : (s.setTask n x).can = s.can := (rfl)
@[simp] theorem State.setTask_fio (s : State) (n : Nat) (x : Task) : (s.setTask n x).fio = s.fio := (rfl)
@[simp] theorem State.setTask_clk (s : State) (n : Nat) (x : Task) : (s.setTask n x).clk = s.clk := (rfl)
@[simp] theorem State.setTask_pwr (s : State) (n : Nat) (x : Task) : (s.setTask n x).pwr = s.pwr := (rfl)
@[simp] theorem State.setTask_rtc (s : State) (n : Nat) (x : Task) : (s.setTask n x).rtc = s.rtc := (rfl)
@[simp] theorem State.setTask_recd (s : State) (n : Nat) (x : Task) : (s.setTask n x).recd = s.recd := (rfl)
@[simp] theorem State.setTask_dsp (s : State) (n : Nat) (x : Task) : (s.setTask n x).dsp = s.dsp := (rfl)
@[simp] theorem State.setTask_free (s : State) (n : Nat) (x : Task) : (s.setTask n x).free = s.free := (rfl)
@[simp] theorem State.setTask_prog_stored (s : State) (n : Nat) (x : Task) : (s.setTask n x).prog.stored = s.prog.stored := (rfl)
@[simp] theorem State.setTask_prog_loaded (s : State) (n : Nat) (x : Task) : (s.setTask n x).prog.loaded = s.prog.loaded := (rfl)
@[simp] theorem State.setTask_prog_storing (s : State) (n : Nat) (x : Task) : (s.setTask n x).prog.storing = s.prog.storing := (rfl)
@[simp] theorem State.setTask_prog_admitted (s : State) (n : Nat) (x : Task) : (s.setTask n x).prog.admitted = s.prog.admitted := (rfl)
@[simp] theorem State.setTask_prog_anchor (s : State) (n : Nat) (x : Task) : (s.setTask n x).prog.anchor = s.prog.anchor := (rfl)
@[simp] theorem State.setTask_prog_units (s : State) (n : Nat) (x : Task) : (s.setTask n x).prog.units = s.prog.units := (rfl)
@[simp] theorem State.setTask_prog_forces (s : State) (n : Nat) (x : Task) : (s.setTask n x).prog.forces = s.prog.forces := (rfl)
@[simp] theorem State.setTask_prog_effForces (s : State) (n : Nat) (x : Task) : (s.setTask n x).prog.effForces = s.prog.effForces := (rfl)
@[simp] theorem State.setTask_prog_released (s : State) (n : Nat) (x : Task) : (s.setTask n x).prog.released = s.prog.released := (rfl)
@[simp] theorem State.setTask_prog_storedForces (s : State) (n : Nat) (x : Task) : (s.setTask n x).prog.storedForces = s.prog.storedForces := (rfl)
@[simp] theorem State.setTask_prog_refreshed (s : State) (n : Nat) (x : Task) : (s.setTask n x).prog.refreshed = s.prog.refreshed := (rfl)
@[simp] theorem State.setTask_prog_startMt (s : State) (n : Nat) (x : Task) : (s.setTask n x).prog.startMt = s.prog.startMt := (rfl)
@[simp] theorem State.setTask_prog_startKind (s : State) (n : Nat) (x : Task) : (s.setTask n x).prog.startKind = s.prog.startKind := (rfl)
@[simp] theorem State.setTask_prog_running (s : State) (n : Nat) (x : Task) : (s.setTask n x).prog.running = s.prog.running := (rfl)
@[simp] theorem State.setTask_prog_waiting (s : State) (n : Nat) (x : Task) : (s.setTask n x).prog.waiting = s.prog.waiting := (rfl)
@[simp] theorem State.setTask_tile (s : State) (n : Nat) (x : Task) (m : Nat) : (s.setTask n x).tile m = s.tile m := (rfl)
@[simp] theorem State.setTask_port (s : State) (n : Nat) (x : Task) (m : Nat) : (s.setTask n x).port m = s.port m := (rfl)
@[simp] theorem State.setTask_chan (s : State) (n : Nat) (x : Task) (m : Nat) : (s.setTask n x).chan m = s.chan m := (rfl)
@[simp] theorem State.setTask_ctx (s : State) (n : Nat) (x : Task) (m : Nat) : (s.setTask n x).ctx m = s.ctx m := (rfl)
@[simp] theorem State.setTask_task (s : State) (n : Nat) (x : Task) (m : Nat) :
    (s.setTask n x).task m = if m = n then x else s.task m := tget_tset _ _ _ _ _
@[simp] theorem State.setTask_di (s : State) (n : Nat) (x : Task) (m : Nat) : (s.setTask n x).di m = s.di m := (rfl)
@[simp] theorem State.setTask_do_ (s : State) (n : Nat) (x : Task) (m : Nat) : (s.setTask n x).do_ m = s.do_ m := (rfl)
@[simp] theorem State.setTask_cl (s : State) (n : Nat) (x : Task) (m : Nat) : (s.setTask n x).cl m = s.cl m := (rfl)
@[simp] theorem State.setTask_fao (s : State) (n : Nat) (x : Task) (m : Nat) : (s.setTask n x).fao m = s.fao m := (rfl)
@[simp] theorem State.setTask_pulse (s : State) (n : Nat) (x : Task) (m : Nat) : (s.setTask n x).pulse m = s.pulse m := (rfl)
@[simp] theorem State.setTask_tripOut (s : State) (n : Nat) (x : Task) (m : Nat) : (s.setTask n x).tripOut m = s.tripOut m := (rfl)
@[simp] theorem State.setTask_keySlot (s : State) (n : Nat) (x : Task) (m : Nat) : (s.setTask n x).keySlot m = s.keySlot m := (rfl)
@[simp] theorem State.setTask_leadsPair (s : State) (n : Nat) (x : Task) : (s.setTask n x).leadsPair = s.leadsPair := (rfl)
@[simp] theorem State.setTask_keepsHelm (s : State) (n : Nat) (x : Task) : (s.setTask n x).keepsHelm = s.keepsHelm := (rfl)
@[simp] theorem State.setTask_slotB (s : State) (n : Nat) (x : Task) : (s.setTask n x).slotB = s.slotB := (rfl)
@[simp] theorem State.setTask_mt (s : State) (n : Nat) (x : Task) : (s.setTask n x).mt = s.mt := (rfl)
@[simp] theorem State.setTask_offset (s : State) (n : Nat) (x : Task) : (s.setTask n x).offset = s.offset := (rfl)
@[simp] theorem State.setTask_rtcNs (s : State) (n : Nat) (x : Task) : (s.setTask n x).rtcNs = s.rtcNs := (rfl)
@[simp] theorem State.setTask_findReq (s : State) (n : Nat) (x : Task) (m : Nat) : (s.setTask n x).findReq m = s.findReq m := (rfl)

/-! ### State.setDi -/

@[simp] theorem State.setDi_pending (s : State) (n : Nat) (x : Di) : (s.setDi n x).pending = s.pending := (rfl)
@[simp] theorem State.setDi_now (s : State) (n : Nat) (x : Di) : (s.setDi n x).now = s.now := (rfl)
@[simp] theorem State.setDi_mtOff (s : State) (n : Nat) (x : Di) : (s.setDi n x).mtOff = s.mtOff := (rfl)
@[simp] theorem State.setDi_slew (s : State) (n : Nat) (x : Di) : (s.setDi n x).slew = s.slew := (rfl)
@[simp] theorem State.setDi_out (s : State) (n : Nat) (x : Di) : (s.setDi n x).out = s.out := (rfl)
@[simp] theorem State.setDi_cfg (s : State) (n : Nat) (x : Di) : (s.setDi n x).cfg = s.cfg := (rfl)
@[simp] theorem State.setDi_host (s : State) (n : Nat) (x : Di) : (s.setDi n x).host = s.host := (rfl)
@[simp] theorem State.setDi_mgmt (s : State) (n : Nat) (x : Di) : (s.setDi n x).mgmt = s.mgmt := (rfl)
@[simp] theorem State.setDi_sec (s : State) (n : Nat) (x : Di) : (s.setDi n x).sec = s.sec := (rfl)
@[simp] theorem State.setDi_modes (s : State) (n : Nat) (x : Di) : (s.setDi n x).modes = s.modes := (rfl)
@[simp] theorem State.setDi_tiles (s : State) (n : Nat) (x : Di) : (s.setDi n x).tiles = s.tiles := (rfl)
@[simp] theorem State.setDi_fabric (s : State) (n : Nat) (x : Di) : (s.setDi n x).fabric = s.fabric := (rfl)
@[simp] theorem State.setDi_late (s : State) (n : Nat) (x : Di) : (s.setDi n x).late = s.late := (rfl)
@[simp] theorem State.setDi_prog (s : State) (n : Nat) (x : Di) : (s.setDi n x).prog = s.prog := (rfl)
@[simp] theorem State.setDi_loops (s : State) (n : Nat) (x : Di) : (s.setDi n x).loops = s.loops := (rfl)
@[simp] theorem State.setDi_ports (s : State) (n : Nat) (x : Di) : (s.setDi n x).ports = s.ports := (rfl)
@[simp] theorem State.setDi_cells (s : State) (n : Nat) (x : Di) : (s.setDi n x).cells = s.cells := (rfl)
@[simp] theorem State.setDi_twin (s : State) (n : Nat) (x : Di) : (s.setDi n x).twin = s.twin := (rfl)
@[simp] theorem State.setDi_trip (s : State) (n : Nat) (x : Di) : (s.setDi n x).trip = s.trip := (rfl)
@[simp] theorem State.setDi_ring (s : State) (n : Nat) (x : Di) : (s.setDi n x).ring = s.ring := (rfl)
@[simp] theorem State.setDi_can (s : State) (n : Nat) (x : Di) : (s.setDi n x).can = s.can := (rfl)
@[simp] theorem State.setDi_clk (s : State) (n : Nat) (x : Di) : (s.setDi n x).clk = s.clk := (rfl)
@[simp] theorem State.setDi_pwr (s : State) (n : Nat) (x : Di) : (s.setDi n x).pwr = s.pwr := (rfl)
@[simp] theorem State.setDi_rtc (s : State) (n : Nat) (x : Di) : (s.setDi n x).rtc = s.rtc := (rfl)
@[simp] theorem State.setDi_recd (s : State) (n : Nat) (x : Di) : (s.setDi n x).recd = s.recd := (rfl)
@[simp] theorem State.setDi_dsp (s : State) (n : Nat) (x : Di) : (s.setDi n x).dsp = s.dsp := (rfl)
@[simp] theorem State.setDi_free (s : State) (n : Nat) (x : Di) : (s.setDi n x).free = s.free := (rfl)
@[simp] theorem State.setDi_fio_wbEn (s : State) (n : Nat) (x : Di) : (s.setDi n x).fio.wbEn = s.fio.wbEn := (rfl)
@[simp] theorem State.setDi_fio_dout (s : State) (n : Nat) (x : Di) : (s.setDi n x).fio.dout = s.fio.dout := (rfl)
@[simp] theorem State.setDi_fio_cl (s : State) (n : Nat) (x : Di) : (s.setDi n x).fio.cl = s.fio.cl := (rfl)
@[simp] theorem State.setDi_fio_fai (s : State) (n : Nat) (x : Di) : (s.setDi n x).fio.fai = s.fio.fai := (rfl)
@[simp] theorem State.setDi_fio_faiOver (s : State) (n : Nat) (x : Di) : (s.setDi n x).fio.faiOver = s.fio.faiOver := (rfl)
@[simp] theorem State.setDi_fio_faiMt (s : State) (n : Nat) (x : Di) : (s.setDi n x).fio.faiMt = s.fio.faiMt := (rfl)
@[simp] theorem State.setDi_fio_faiShared (s : State) (n : Nat) (x : Di) : (s.setDi n x).fio.faiShared = s.fio.faiShared := (rfl)
@[simp] theorem State.setDi_fio_fao (s : State) (n : Nat) (x : Di) : (s.setDi n x).fio.fao = s.fio.fao := (rfl)
@[simp] theorem State.setDi_fio_pi (s : State) (n : Nat) (x : Di) : (s.setDi n x).fio.pi = s.fio.pi := (rfl)
@[simp] theorem State.setDi_fio_tests (s : State) (n : Nat) (x : Di) : (s.setDi n x).fio.tests = s.fio.tests := (rfl)
@[simp] theorem State.setDi_fio_capture (s : State) (n : Nat) (x : Di) : (s.setDi n x).fio.capture = s.fio.capture := (rfl)
@[simp] theorem State.setDi_fio_trim (s : State) (n : Nat) (x : Di) : (s.setDi n x).fio.trim = s.fio.trim := (rfl)
@[simp] theorem State.setDi_fio_trimJob (s : State) (n : Nat) (x : Di) : (s.setDi n x).fio.trimJob = s.fio.trimJob := (rfl)
@[simp] theorem State.setDi_tile (s : State) (n : Nat) (x : Di) (m : Nat) : (s.setDi n x).tile m = s.tile m := (rfl)
@[simp] theorem State.setDi_port (s : State) (n : Nat) (x : Di) (m : Nat) : (s.setDi n x).port m = s.port m := (rfl)
@[simp] theorem State.setDi_chan (s : State) (n : Nat) (x : Di) (m : Nat) : (s.setDi n x).chan m = s.chan m := (rfl)
@[simp] theorem State.setDi_ctx (s : State) (n : Nat) (x : Di) (m : Nat) : (s.setDi n x).ctx m = s.ctx m := (rfl)
@[simp] theorem State.setDi_task (s : State) (n : Nat) (x : Di) (m : Nat) : (s.setDi n x).task m = s.task m := (rfl)
@[simp] theorem State.setDi_di (s : State) (n : Nat) (x : Di) (m : Nat) :
    (s.setDi n x).di m = if m = n then x else s.di m := tget_tset _ _ _ _ _
@[simp] theorem State.setDi_do_ (s : State) (n : Nat) (x : Di) (m : Nat) : (s.setDi n x).do_ m = s.do_ m := (rfl)
@[simp] theorem State.setDi_cl (s : State) (n : Nat) (x : Di) (m : Nat) : (s.setDi n x).cl m = s.cl m := (rfl)
@[simp] theorem State.setDi_fao (s : State) (n : Nat) (x : Di) (m : Nat) : (s.setDi n x).fao m = s.fao m := (rfl)
@[simp] theorem State.setDi_pulse (s : State) (n : Nat) (x : Di) (m : Nat) : (s.setDi n x).pulse m = s.pulse m := (rfl)
@[simp] theorem State.setDi_tripOut (s : State) (n : Nat) (x : Di) (m : Nat) : (s.setDi n x).tripOut m = s.tripOut m := (rfl)
@[simp] theorem State.setDi_keySlot (s : State) (n : Nat) (x : Di) (m : Nat) : (s.setDi n x).keySlot m = s.keySlot m := (rfl)
@[simp] theorem State.setDi_leadsPair (s : State) (n : Nat) (x : Di) : (s.setDi n x).leadsPair = s.leadsPair := (rfl)
@[simp] theorem State.setDi_keepsHelm (s : State) (n : Nat) (x : Di) : (s.setDi n x).keepsHelm = s.keepsHelm := (rfl)
@[simp] theorem State.setDi_slotB (s : State) (n : Nat) (x : Di) : (s.setDi n x).slotB = s.slotB := (rfl)
@[simp] theorem State.setDi_mt (s : State) (n : Nat) (x : Di) : (s.setDi n x).mt = s.mt := (rfl)
@[simp] theorem State.setDi_offset (s : State) (n : Nat) (x : Di) : (s.setDi n x).offset = s.offset := (rfl)
@[simp] theorem State.setDi_rtcNs (s : State) (n : Nat) (x : Di) : (s.setDi n x).rtcNs = s.rtcNs := (rfl)
@[simp] theorem State.setDi_findReq (s : State) (n : Nat) (x : Di) (m : Nat) : (s.setDi n x).findReq m = s.findReq m := (rfl)

/-! ### State.setDo -/

@[simp] theorem State.setDo_pending (s : State) (n : Nat) (x : Do) : (s.setDo n x).pending = s.pending := (rfl)
@[simp] theorem State.setDo_now (s : State) (n : Nat) (x : Do) : (s.setDo n x).now = s.now := (rfl)
@[simp] theorem State.setDo_mtOff (s : State) (n : Nat) (x : Do) : (s.setDo n x).mtOff = s.mtOff := (rfl)
@[simp] theorem State.setDo_slew (s : State) (n : Nat) (x : Do) : (s.setDo n x).slew = s.slew := (rfl)
@[simp] theorem State.setDo_out (s : State) (n : Nat) (x : Do) : (s.setDo n x).out = s.out := (rfl)
@[simp] theorem State.setDo_cfg (s : State) (n : Nat) (x : Do) : (s.setDo n x).cfg = s.cfg := (rfl)
@[simp] theorem State.setDo_host (s : State) (n : Nat) (x : Do) : (s.setDo n x).host = s.host := (rfl)
@[simp] theorem State.setDo_mgmt (s : State) (n : Nat) (x : Do) : (s.setDo n x).mgmt = s.mgmt := (rfl)
@[simp] theorem State.setDo_sec (s : State) (n : Nat) (x : Do) : (s.setDo n x).sec = s.sec := (rfl)
@[simp] theorem State.setDo_modes (s : State) (n : Nat) (x : Do) : (s.setDo n x).modes = s.modes := (rfl)
@[simp] theorem State.setDo_tiles (s : State) (n : Nat) (x : Do) : (s.setDo n x).tiles = s.tiles := (rfl)
@[simp] theorem State.setDo_fabric (s : State) (n : Nat) (x : Do) : (s.setDo n x).fabric = s.fabric := (rfl)
@[simp] theorem State.setDo_late (s : State) (n : Nat) (x : Do) : (s.setDo n x).late = s.late := (rfl)
@[simp] theorem State.setDo_prog (s : State) (n : Nat) (x : Do) : (s.setDo n x).prog = s.prog := (rfl)
@[simp] theorem State.setDo_loops (s : State) (n : Nat) (x : Do) : (s.setDo n x).loops = s.loops := (rfl)
@[simp] theorem State.setDo_ports (s : State) (n : Nat) (x : Do) : (s.setDo n x).ports = s.ports := (rfl)
@[simp] theorem State.setDo_cells (s : State) (n : Nat) (x : Do) : (s.setDo n x).cells = s.cells := (rfl)
@[simp] theorem State.setDo_twin (s : State) (n : Nat) (x : Do) : (s.setDo n x).twin = s.twin := (rfl)
@[simp] theorem State.setDo_trip (s : State) (n : Nat) (x : Do) : (s.setDo n x).trip = s.trip := (rfl)
@[simp] theorem State.setDo_ring (s : State) (n : Nat) (x : Do) : (s.setDo n x).ring = s.ring := (rfl)
@[simp] theorem State.setDo_can (s : State) (n : Nat) (x : Do) : (s.setDo n x).can = s.can := (rfl)
@[simp] theorem State.setDo_clk (s : State) (n : Nat) (x : Do) : (s.setDo n x).clk = s.clk := (rfl)
@[simp] theorem State.setDo_pwr (s : State) (n : Nat) (x : Do) : (s.setDo n x).pwr = s.pwr := (rfl)
@[simp] theorem State.setDo_rtc (s : State) (n : Nat) (x : Do) : (s.setDo n x).rtc = s.rtc := (rfl)
@[simp] theorem State.setDo_recd (s : State) (n : Nat) (x : Do) : (s.setDo n x).recd = s.recd := (rfl)
@[simp] theorem State.setDo_dsp (s : State) (n : Nat) (x : Do) : (s.setDo n x).dsp = s.dsp := (rfl)
@[simp] theorem State.setDo_free (s : State) (n : Nat) (x : Do) : (s.setDo n x).free = s.free := (rfl)
@[simp] theorem State.setDo_fio_di (s : State) (n : Nat) (x : Do) : (s.setDo n x).fio.di = s.fio.di := (rfl)
@[simp] theorem State.setDo_fio_wbEn (s : State) (n : Nat) (x : Do) : (s.setDo n x).fio.wbEn = s.fio.wbEn := (rfl)
@[simp] theorem State.setDo_fio_cl (s : State) (n : Nat) (x : Do) : (s.setDo n x).fio.cl = s.fio.cl := (rfl)
@[simp] theorem State.setDo_fio_fai (s : State) (n : Nat) (x : Do) : (s.setDo n x).fio.fai = s.fio.fai := (rfl)
@[simp] theorem State.setDo_fio_faiOver (s : State) (n : Nat) (x : Do) : (s.setDo n x).fio.faiOver = s.fio.faiOver := (rfl)
@[simp] theorem State.setDo_fio_faiMt (s : State) (n : Nat) (x : Do) : (s.setDo n x).fio.faiMt = s.fio.faiMt := (rfl)
@[simp] theorem State.setDo_fio_faiShared (s : State) (n : Nat) (x : Do) : (s.setDo n x).fio.faiShared = s.fio.faiShared := (rfl)
@[simp] theorem State.setDo_fio_fao (s : State) (n : Nat) (x : Do) : (s.setDo n x).fio.fao = s.fio.fao := (rfl)
@[simp] theorem State.setDo_fio_pi (s : State) (n : Nat) (x : Do) : (s.setDo n x).fio.pi = s.fio.pi := (rfl)
@[simp] theorem State.setDo_fio_tests (s : State) (n : Nat) (x : Do) : (s.setDo n x).fio.tests = s.fio.tests := (rfl)
@[simp] theorem State.setDo_fio_capture (s : State) (n : Nat) (x : Do) : (s.setDo n x).fio.capture = s.fio.capture := (rfl)
@[simp] theorem State.setDo_fio_trim (s : State) (n : Nat) (x : Do) : (s.setDo n x).fio.trim = s.fio.trim := (rfl)
@[simp] theorem State.setDo_fio_trimJob (s : State) (n : Nat) (x : Do) : (s.setDo n x).fio.trimJob = s.fio.trimJob := (rfl)
@[simp] theorem State.setDo_tile (s : State) (n : Nat) (x : Do) (m : Nat) : (s.setDo n x).tile m = s.tile m := (rfl)
@[simp] theorem State.setDo_port (s : State) (n : Nat) (x : Do) (m : Nat) : (s.setDo n x).port m = s.port m := (rfl)
@[simp] theorem State.setDo_chan (s : State) (n : Nat) (x : Do) (m : Nat) : (s.setDo n x).chan m = s.chan m := (rfl)
@[simp] theorem State.setDo_ctx (s : State) (n : Nat) (x : Do) (m : Nat) : (s.setDo n x).ctx m = s.ctx m := (rfl)
@[simp] theorem State.setDo_task (s : State) (n : Nat) (x : Do) (m : Nat) : (s.setDo n x).task m = s.task m := (rfl)
@[simp] theorem State.setDo_di (s : State) (n : Nat) (x : Do) (m : Nat) : (s.setDo n x).di m = s.di m := (rfl)
@[simp] theorem State.setDo_do_ (s : State) (n : Nat) (x : Do) (m : Nat) :
    (s.setDo n x).do_ m = if m = n then x else s.do_ m := tget_tset _ _ _ _ _
@[simp] theorem State.setDo_cl (s : State) (n : Nat) (x : Do) (m : Nat) : (s.setDo n x).cl m = s.cl m := (rfl)
@[simp] theorem State.setDo_fao (s : State) (n : Nat) (x : Do) (m : Nat) : (s.setDo n x).fao m = s.fao m := (rfl)
@[simp] theorem State.setDo_pulse (s : State) (n : Nat) (x : Do) (m : Nat) : (s.setDo n x).pulse m = s.pulse m := (rfl)
@[simp] theorem State.setDo_tripOut (s : State) (n : Nat) (x : Do) (m : Nat) : (s.setDo n x).tripOut m = s.tripOut m := (rfl)
@[simp] theorem State.setDo_keySlot (s : State) (n : Nat) (x : Do) (m : Nat) : (s.setDo n x).keySlot m = s.keySlot m := (rfl)
@[simp] theorem State.setDo_leadsPair (s : State) (n : Nat) (x : Do) : (s.setDo n x).leadsPair = s.leadsPair := (rfl)
@[simp] theorem State.setDo_keepsHelm (s : State) (n : Nat) (x : Do) : (s.setDo n x).keepsHelm = s.keepsHelm := (rfl)
@[simp] theorem State.setDo_slotB (s : State) (n : Nat) (x : Do) : (s.setDo n x).slotB = s.slotB := (rfl)
@[simp] theorem State.setDo_mt (s : State) (n : Nat) (x : Do) : (s.setDo n x).mt = s.mt := (rfl)
@[simp] theorem State.setDo_offset (s : State) (n : Nat) (x : Do) : (s.setDo n x).offset = s.offset := (rfl)
@[simp] theorem State.setDo_rtcNs (s : State) (n : Nat) (x : Do) : (s.setDo n x).rtcNs = s.rtcNs := (rfl)
@[simp] theorem State.setDo_findReq (s : State) (n : Nat) (x : Do) (m : Nat) : (s.setDo n x).findReq m = s.findReq m := (rfl)

/-! ### State.setCl -/

@[simp] theorem State.setCl_pending (s : State) (n : Nat) (x : Cl) : (s.setCl n x).pending = s.pending := (rfl)
@[simp] theorem State.setCl_now (s : State) (n : Nat) (x : Cl) : (s.setCl n x).now = s.now := (rfl)
@[simp] theorem State.setCl_mtOff (s : State) (n : Nat) (x : Cl) : (s.setCl n x).mtOff = s.mtOff := (rfl)
@[simp] theorem State.setCl_slew (s : State) (n : Nat) (x : Cl) : (s.setCl n x).slew = s.slew := (rfl)
@[simp] theorem State.setCl_out (s : State) (n : Nat) (x : Cl) : (s.setCl n x).out = s.out := (rfl)
@[simp] theorem State.setCl_cfg (s : State) (n : Nat) (x : Cl) : (s.setCl n x).cfg = s.cfg := (rfl)
@[simp] theorem State.setCl_host (s : State) (n : Nat) (x : Cl) : (s.setCl n x).host = s.host := (rfl)
@[simp] theorem State.setCl_mgmt (s : State) (n : Nat) (x : Cl) : (s.setCl n x).mgmt = s.mgmt := (rfl)
@[simp] theorem State.setCl_sec (s : State) (n : Nat) (x : Cl) : (s.setCl n x).sec = s.sec := (rfl)
@[simp] theorem State.setCl_modes (s : State) (n : Nat) (x : Cl) : (s.setCl n x).modes = s.modes := (rfl)
@[simp] theorem State.setCl_tiles (s : State) (n : Nat) (x : Cl) : (s.setCl n x).tiles = s.tiles := (rfl)
@[simp] theorem State.setCl_fabric (s : State) (n : Nat) (x : Cl) : (s.setCl n x).fabric = s.fabric := (rfl)
@[simp] theorem State.setCl_late (s : State) (n : Nat) (x : Cl) : (s.setCl n x).late = s.late := (rfl)
@[simp] theorem State.setCl_prog (s : State) (n : Nat) (x : Cl) : (s.setCl n x).prog = s.prog := (rfl)
@[simp] theorem State.setCl_loops (s : State) (n : Nat) (x : Cl) : (s.setCl n x).loops = s.loops := (rfl)
@[simp] theorem State.setCl_ports (s : State) (n : Nat) (x : Cl) : (s.setCl n x).ports = s.ports := (rfl)
@[simp] theorem State.setCl_cells (s : State) (n : Nat) (x : Cl) : (s.setCl n x).cells = s.cells := (rfl)
@[simp] theorem State.setCl_twin (s : State) (n : Nat) (x : Cl) : (s.setCl n x).twin = s.twin := (rfl)
@[simp] theorem State.setCl_trip (s : State) (n : Nat) (x : Cl) : (s.setCl n x).trip = s.trip := (rfl)
@[simp] theorem State.setCl_ring (s : State) (n : Nat) (x : Cl) : (s.setCl n x).ring = s.ring := (rfl)
@[simp] theorem State.setCl_can (s : State) (n : Nat) (x : Cl) : (s.setCl n x).can = s.can := (rfl)
@[simp] theorem State.setCl_clk (s : State) (n : Nat) (x : Cl) : (s.setCl n x).clk = s.clk := (rfl)
@[simp] theorem State.setCl_pwr (s : State) (n : Nat) (x : Cl) : (s.setCl n x).pwr = s.pwr := (rfl)
@[simp] theorem State.setCl_rtc (s : State) (n : Nat) (x : Cl) : (s.setCl n x).rtc = s.rtc := (rfl)
@[simp] theorem State.setCl_recd (s : State) (n : Nat) (x : Cl) : (s.setCl n x).recd = s.recd := (rfl)
@[simp] theorem State.setCl_dsp (s : State) (n : Nat) (x : Cl) : (s.setCl n x).dsp = s.dsp := (rfl)
@[simp] theorem State.setCl_free (s : State) (n : Nat) (x : Cl) : (s.setCl n x).free = s.free := (rfl)
@[simp] theorem State.setCl_fio_di (s : State) (n : Nat) (x : Cl) : (s.setCl n x).fio.di = s.fio.di := (rfl)
@[simp] theorem State.setCl_fio_wbEn (s : State) (n : Nat) (x : Cl) : (s.setCl n x).fio.wbEn = s.fio.wbEn := (rfl)
@[simp] theorem State.setCl_fio_dout (s : State) (n : Nat) (x : Cl) : (s.setCl n x).fio.dout = s.fio.dout := (rfl)
@[simp] theorem State.setCl_fio_fai (s : State) (n : Nat) (x : Cl) : (s.setCl n x).fio.fai = s.fio.fai := (rfl)
@[simp] theorem State.setCl_fio_faiOver (s : State) (n : Nat) (x : Cl) : (s.setCl n x).fio.faiOver = s.fio.faiOver := (rfl)
@[simp] theorem State.setCl_fio_faiMt (s : State) (n : Nat) (x : Cl) : (s.setCl n x).fio.faiMt = s.fio.faiMt := (rfl)
@[simp] theorem State.setCl_fio_faiShared (s : State) (n : Nat) (x : Cl) : (s.setCl n x).fio.faiShared = s.fio.faiShared := (rfl)
@[simp] theorem State.setCl_fio_fao (s : State) (n : Nat) (x : Cl) : (s.setCl n x).fio.fao = s.fio.fao := (rfl)
@[simp] theorem State.setCl_fio_pi (s : State) (n : Nat) (x : Cl) : (s.setCl n x).fio.pi = s.fio.pi := (rfl)
@[simp] theorem State.setCl_fio_tests (s : State) (n : Nat) (x : Cl) : (s.setCl n x).fio.tests = s.fio.tests := (rfl)
@[simp] theorem State.setCl_fio_capture (s : State) (n : Nat) (x : Cl) : (s.setCl n x).fio.capture = s.fio.capture := (rfl)
@[simp] theorem State.setCl_fio_trim (s : State) (n : Nat) (x : Cl) : (s.setCl n x).fio.trim = s.fio.trim := (rfl)
@[simp] theorem State.setCl_fio_trimJob (s : State) (n : Nat) (x : Cl) : (s.setCl n x).fio.trimJob = s.fio.trimJob := (rfl)
@[simp] theorem State.setCl_tile (s : State) (n : Nat) (x : Cl) (m : Nat) : (s.setCl n x).tile m = s.tile m := (rfl)
@[simp] theorem State.setCl_port (s : State) (n : Nat) (x : Cl) (m : Nat) : (s.setCl n x).port m = s.port m := (rfl)
@[simp] theorem State.setCl_chan (s : State) (n : Nat) (x : Cl) (m : Nat) : (s.setCl n x).chan m = s.chan m := (rfl)
@[simp] theorem State.setCl_ctx (s : State) (n : Nat) (x : Cl) (m : Nat) : (s.setCl n x).ctx m = s.ctx m := (rfl)
@[simp] theorem State.setCl_task (s : State) (n : Nat) (x : Cl) (m : Nat) : (s.setCl n x).task m = s.task m := (rfl)
@[simp] theorem State.setCl_di (s : State) (n : Nat) (x : Cl) (m : Nat) : (s.setCl n x).di m = s.di m := (rfl)
@[simp] theorem State.setCl_do_ (s : State) (n : Nat) (x : Cl) (m : Nat) : (s.setCl n x).do_ m = s.do_ m := (rfl)
@[simp] theorem State.setCl_cl (s : State) (n : Nat) (x : Cl) (m : Nat) :
    (s.setCl n x).cl m = if m = n then x else s.cl m := tget_tset _ _ _ _ _
@[simp] theorem State.setCl_fao (s : State) (n : Nat) (x : Cl) (m : Nat) : (s.setCl n x).fao m = s.fao m := (rfl)
@[simp] theorem State.setCl_pulse (s : State) (n : Nat) (x : Cl) (m : Nat) : (s.setCl n x).pulse m = s.pulse m := (rfl)
@[simp] theorem State.setCl_tripOut (s : State) (n : Nat) (x : Cl) (m : Nat) : (s.setCl n x).tripOut m = s.tripOut m := (rfl)
@[simp] theorem State.setCl_keySlot (s : State) (n : Nat) (x : Cl) (m : Nat) : (s.setCl n x).keySlot m = s.keySlot m := (rfl)
@[simp] theorem State.setCl_leadsPair (s : State) (n : Nat) (x : Cl) : (s.setCl n x).leadsPair = s.leadsPair := (rfl)
@[simp] theorem State.setCl_keepsHelm (s : State) (n : Nat) (x : Cl) : (s.setCl n x).keepsHelm = s.keepsHelm := (rfl)
@[simp] theorem State.setCl_slotB (s : State) (n : Nat) (x : Cl) : (s.setCl n x).slotB = s.slotB := (rfl)
@[simp] theorem State.setCl_mt (s : State) (n : Nat) (x : Cl) : (s.setCl n x).mt = s.mt := (rfl)
@[simp] theorem State.setCl_offset (s : State) (n : Nat) (x : Cl) : (s.setCl n x).offset = s.offset := (rfl)
@[simp] theorem State.setCl_rtcNs (s : State) (n : Nat) (x : Cl) : (s.setCl n x).rtcNs = s.rtcNs := (rfl)
@[simp] theorem State.setCl_findReq (s : State) (n : Nat) (x : Cl) (m : Nat) : (s.setCl n x).findReq m = s.findReq m := (rfl)

/-! ### State.setFao -/

@[simp] theorem State.setFao_pending (s : State) (n : Nat) (x : Fao) : (s.setFao n x).pending = s.pending := (rfl)
@[simp] theorem State.setFao_now (s : State) (n : Nat) (x : Fao) : (s.setFao n x).now = s.now := (rfl)
@[simp] theorem State.setFao_mtOff (s : State) (n : Nat) (x : Fao) : (s.setFao n x).mtOff = s.mtOff := (rfl)
@[simp] theorem State.setFao_slew (s : State) (n : Nat) (x : Fao) : (s.setFao n x).slew = s.slew := (rfl)
@[simp] theorem State.setFao_out (s : State) (n : Nat) (x : Fao) : (s.setFao n x).out = s.out := (rfl)
@[simp] theorem State.setFao_cfg (s : State) (n : Nat) (x : Fao) : (s.setFao n x).cfg = s.cfg := (rfl)
@[simp] theorem State.setFao_host (s : State) (n : Nat) (x : Fao) : (s.setFao n x).host = s.host := (rfl)
@[simp] theorem State.setFao_mgmt (s : State) (n : Nat) (x : Fao) : (s.setFao n x).mgmt = s.mgmt := (rfl)
@[simp] theorem State.setFao_sec (s : State) (n : Nat) (x : Fao) : (s.setFao n x).sec = s.sec := (rfl)
@[simp] theorem State.setFao_modes (s : State) (n : Nat) (x : Fao) : (s.setFao n x).modes = s.modes := (rfl)
@[simp] theorem State.setFao_tiles (s : State) (n : Nat) (x : Fao) : (s.setFao n x).tiles = s.tiles := (rfl)
@[simp] theorem State.setFao_fabric (s : State) (n : Nat) (x : Fao) : (s.setFao n x).fabric = s.fabric := (rfl)
@[simp] theorem State.setFao_late (s : State) (n : Nat) (x : Fao) : (s.setFao n x).late = s.late := (rfl)
@[simp] theorem State.setFao_prog (s : State) (n : Nat) (x : Fao) : (s.setFao n x).prog = s.prog := (rfl)
@[simp] theorem State.setFao_loops (s : State) (n : Nat) (x : Fao) : (s.setFao n x).loops = s.loops := (rfl)
@[simp] theorem State.setFao_ports (s : State) (n : Nat) (x : Fao) : (s.setFao n x).ports = s.ports := (rfl)
@[simp] theorem State.setFao_cells (s : State) (n : Nat) (x : Fao) : (s.setFao n x).cells = s.cells := (rfl)
@[simp] theorem State.setFao_twin (s : State) (n : Nat) (x : Fao) : (s.setFao n x).twin = s.twin := (rfl)
@[simp] theorem State.setFao_trip (s : State) (n : Nat) (x : Fao) : (s.setFao n x).trip = s.trip := (rfl)
@[simp] theorem State.setFao_ring (s : State) (n : Nat) (x : Fao) : (s.setFao n x).ring = s.ring := (rfl)
@[simp] theorem State.setFao_can (s : State) (n : Nat) (x : Fao) : (s.setFao n x).can = s.can := (rfl)
@[simp] theorem State.setFao_clk (s : State) (n : Nat) (x : Fao) : (s.setFao n x).clk = s.clk := (rfl)
@[simp] theorem State.setFao_pwr (s : State) (n : Nat) (x : Fao) : (s.setFao n x).pwr = s.pwr := (rfl)
@[simp] theorem State.setFao_rtc (s : State) (n : Nat) (x : Fao) : (s.setFao n x).rtc = s.rtc := (rfl)
@[simp] theorem State.setFao_recd (s : State) (n : Nat) (x : Fao) : (s.setFao n x).recd = s.recd := (rfl)
@[simp] theorem State.setFao_dsp (s : State) (n : Nat) (x : Fao) : (s.setFao n x).dsp = s.dsp := (rfl)
@[simp] theorem State.setFao_free (s : State) (n : Nat) (x : Fao) : (s.setFao n x).free = s.free := (rfl)
@[simp] theorem State.setFao_fio_di (s : State) (n : Nat) (x : Fao) : (s.setFao n x).fio.di = s.fio.di := (rfl)
@[simp] theorem State.setFao_fio_wbEn (s : State) (n : Nat) (x : Fao) : (s.setFao n x).fio.wbEn = s.fio.wbEn := (rfl)
@[simp] theorem State.setFao_fio_dout (s : State) (n : Nat) (x : Fao) : (s.setFao n x).fio.dout = s.fio.dout := (rfl)
@[simp] theorem State.setFao_fio_cl (s : State) (n : Nat) (x : Fao) : (s.setFao n x).fio.cl = s.fio.cl := (rfl)
@[simp] theorem State.setFao_fio_fai (s : State) (n : Nat) (x : Fao) : (s.setFao n x).fio.fai = s.fio.fai := (rfl)
@[simp] theorem State.setFao_fio_faiOver (s : State) (n : Nat) (x : Fao) : (s.setFao n x).fio.faiOver = s.fio.faiOver := (rfl)
@[simp] theorem State.setFao_fio_faiMt (s : State) (n : Nat) (x : Fao) : (s.setFao n x).fio.faiMt = s.fio.faiMt := (rfl)
@[simp] theorem State.setFao_fio_faiShared (s : State) (n : Nat) (x : Fao) : (s.setFao n x).fio.faiShared = s.fio.faiShared := (rfl)
@[simp] theorem State.setFao_fio_pi (s : State) (n : Nat) (x : Fao) : (s.setFao n x).fio.pi = s.fio.pi := (rfl)
@[simp] theorem State.setFao_fio_tests (s : State) (n : Nat) (x : Fao) : (s.setFao n x).fio.tests = s.fio.tests := (rfl)
@[simp] theorem State.setFao_fio_capture (s : State) (n : Nat) (x : Fao) : (s.setFao n x).fio.capture = s.fio.capture := (rfl)
@[simp] theorem State.setFao_fio_trim (s : State) (n : Nat) (x : Fao) : (s.setFao n x).fio.trim = s.fio.trim := (rfl)
@[simp] theorem State.setFao_fio_trimJob (s : State) (n : Nat) (x : Fao) : (s.setFao n x).fio.trimJob = s.fio.trimJob := (rfl)
@[simp] theorem State.setFao_tile (s : State) (n : Nat) (x : Fao) (m : Nat) : (s.setFao n x).tile m = s.tile m := (rfl)
@[simp] theorem State.setFao_port (s : State) (n : Nat) (x : Fao) (m : Nat) : (s.setFao n x).port m = s.port m := (rfl)
@[simp] theorem State.setFao_chan (s : State) (n : Nat) (x : Fao) (m : Nat) : (s.setFao n x).chan m = s.chan m := (rfl)
@[simp] theorem State.setFao_ctx (s : State) (n : Nat) (x : Fao) (m : Nat) : (s.setFao n x).ctx m = s.ctx m := (rfl)
@[simp] theorem State.setFao_task (s : State) (n : Nat) (x : Fao) (m : Nat) : (s.setFao n x).task m = s.task m := (rfl)
@[simp] theorem State.setFao_di (s : State) (n : Nat) (x : Fao) (m : Nat) : (s.setFao n x).di m = s.di m := (rfl)
@[simp] theorem State.setFao_do_ (s : State) (n : Nat) (x : Fao) (m : Nat) : (s.setFao n x).do_ m = s.do_ m := (rfl)
@[simp] theorem State.setFao_cl (s : State) (n : Nat) (x : Fao) (m : Nat) : (s.setFao n x).cl m = s.cl m := (rfl)
@[simp] theorem State.setFao_fao (s : State) (n : Nat) (x : Fao) (m : Nat) :
    (s.setFao n x).fao m = if m = n then x else s.fao m := tget_tset _ _ _ _ _
@[simp] theorem State.setFao_pulse (s : State) (n : Nat) (x : Fao) (m : Nat) : (s.setFao n x).pulse m = s.pulse m := (rfl)
@[simp] theorem State.setFao_tripOut (s : State) (n : Nat) (x : Fao) (m : Nat) : (s.setFao n x).tripOut m = s.tripOut m := (rfl)
@[simp] theorem State.setFao_keySlot (s : State) (n : Nat) (x : Fao) (m : Nat) : (s.setFao n x).keySlot m = s.keySlot m := (rfl)
@[simp] theorem State.setFao_leadsPair (s : State) (n : Nat) (x : Fao) : (s.setFao n x).leadsPair = s.leadsPair := (rfl)
@[simp] theorem State.setFao_keepsHelm (s : State) (n : Nat) (x : Fao) : (s.setFao n x).keepsHelm = s.keepsHelm := (rfl)
@[simp] theorem State.setFao_slotB (s : State) (n : Nat) (x : Fao) : (s.setFao n x).slotB = s.slotB := (rfl)
@[simp] theorem State.setFao_mt (s : State) (n : Nat) (x : Fao) : (s.setFao n x).mt = s.mt := (rfl)
@[simp] theorem State.setFao_offset (s : State) (n : Nat) (x : Fao) : (s.setFao n x).offset = s.offset := (rfl)
@[simp] theorem State.setFao_rtcNs (s : State) (n : Nat) (x : Fao) : (s.setFao n x).rtcNs = s.rtcNs := (rfl)
@[simp] theorem State.setFao_findReq (s : State) (n : Nat) (x : Fao) (m : Nat) : (s.setFao n x).findReq m = s.findReq m := (rfl)

/-! ### State.setPulse -/

@[simp] theorem State.setPulse_pending (s : State) (n : Nat) (x : Pi) : (s.setPulse n x).pending = s.pending := (rfl)
@[simp] theorem State.setPulse_now (s : State) (n : Nat) (x : Pi) : (s.setPulse n x).now = s.now := (rfl)
@[simp] theorem State.setPulse_mtOff (s : State) (n : Nat) (x : Pi) : (s.setPulse n x).mtOff = s.mtOff := (rfl)
@[simp] theorem State.setPulse_slew (s : State) (n : Nat) (x : Pi) : (s.setPulse n x).slew = s.slew := (rfl)
@[simp] theorem State.setPulse_out (s : State) (n : Nat) (x : Pi) : (s.setPulse n x).out = s.out := (rfl)
@[simp] theorem State.setPulse_cfg (s : State) (n : Nat) (x : Pi) : (s.setPulse n x).cfg = s.cfg := (rfl)
@[simp] theorem State.setPulse_host (s : State) (n : Nat) (x : Pi) : (s.setPulse n x).host = s.host := (rfl)
@[simp] theorem State.setPulse_mgmt (s : State) (n : Nat) (x : Pi) : (s.setPulse n x).mgmt = s.mgmt := (rfl)
@[simp] theorem State.setPulse_sec (s : State) (n : Nat) (x : Pi) : (s.setPulse n x).sec = s.sec := (rfl)
@[simp] theorem State.setPulse_modes (s : State) (n : Nat) (x : Pi) : (s.setPulse n x).modes = s.modes := (rfl)
@[simp] theorem State.setPulse_tiles (s : State) (n : Nat) (x : Pi) : (s.setPulse n x).tiles = s.tiles := (rfl)
@[simp] theorem State.setPulse_fabric (s : State) (n : Nat) (x : Pi) : (s.setPulse n x).fabric = s.fabric := (rfl)
@[simp] theorem State.setPulse_late (s : State) (n : Nat) (x : Pi) : (s.setPulse n x).late = s.late := (rfl)
@[simp] theorem State.setPulse_prog (s : State) (n : Nat) (x : Pi) : (s.setPulse n x).prog = s.prog := (rfl)
@[simp] theorem State.setPulse_loops (s : State) (n : Nat) (x : Pi) : (s.setPulse n x).loops = s.loops := (rfl)
@[simp] theorem State.setPulse_ports (s : State) (n : Nat) (x : Pi) : (s.setPulse n x).ports = s.ports := (rfl)
@[simp] theorem State.setPulse_cells (s : State) (n : Nat) (x : Pi) : (s.setPulse n x).cells = s.cells := (rfl)
@[simp] theorem State.setPulse_twin (s : State) (n : Nat) (x : Pi) : (s.setPulse n x).twin = s.twin := (rfl)
@[simp] theorem State.setPulse_trip (s : State) (n : Nat) (x : Pi) : (s.setPulse n x).trip = s.trip := (rfl)
@[simp] theorem State.setPulse_ring (s : State) (n : Nat) (x : Pi) : (s.setPulse n x).ring = s.ring := (rfl)
@[simp] theorem State.setPulse_can (s : State) (n : Nat) (x : Pi) : (s.setPulse n x).can = s.can := (rfl)
@[simp] theorem State.setPulse_clk (s : State) (n : Nat) (x : Pi) : (s.setPulse n x).clk = s.clk := (rfl)
@[simp] theorem State.setPulse_pwr (s : State) (n : Nat) (x : Pi) : (s.setPulse n x).pwr = s.pwr := (rfl)
@[simp] theorem State.setPulse_rtc (s : State) (n : Nat) (x : Pi) : (s.setPulse n x).rtc = s.rtc := (rfl)
@[simp] theorem State.setPulse_recd (s : State) (n : Nat) (x : Pi) : (s.setPulse n x).recd = s.recd := (rfl)
@[simp] theorem State.setPulse_dsp (s : State) (n : Nat) (x : Pi) : (s.setPulse n x).dsp = s.dsp := (rfl)
@[simp] theorem State.setPulse_free (s : State) (n : Nat) (x : Pi) : (s.setPulse n x).free = s.free := (rfl)
@[simp] theorem State.setPulse_fio_di (s : State) (n : Nat) (x : Pi) : (s.setPulse n x).fio.di = s.fio.di := (rfl)
@[simp] theorem State.setPulse_fio_wbEn (s : State) (n : Nat) (x : Pi) : (s.setPulse n x).fio.wbEn = s.fio.wbEn := (rfl)
@[simp] theorem State.setPulse_fio_dout (s : State) (n : Nat) (x : Pi) : (s.setPulse n x).fio.dout = s.fio.dout := (rfl)
@[simp] theorem State.setPulse_fio_cl (s : State) (n : Nat) (x : Pi) : (s.setPulse n x).fio.cl = s.fio.cl := (rfl)
@[simp] theorem State.setPulse_fio_fai (s : State) (n : Nat) (x : Pi) : (s.setPulse n x).fio.fai = s.fio.fai := (rfl)
@[simp] theorem State.setPulse_fio_faiOver (s : State) (n : Nat) (x : Pi) : (s.setPulse n x).fio.faiOver = s.fio.faiOver := (rfl)
@[simp] theorem State.setPulse_fio_faiMt (s : State) (n : Nat) (x : Pi) : (s.setPulse n x).fio.faiMt = s.fio.faiMt := (rfl)
@[simp] theorem State.setPulse_fio_faiShared (s : State) (n : Nat) (x : Pi) : (s.setPulse n x).fio.faiShared = s.fio.faiShared := (rfl)
@[simp] theorem State.setPulse_fio_fao (s : State) (n : Nat) (x : Pi) : (s.setPulse n x).fio.fao = s.fio.fao := (rfl)
@[simp] theorem State.setPulse_fio_tests (s : State) (n : Nat) (x : Pi) : (s.setPulse n x).fio.tests = s.fio.tests := (rfl)
@[simp] theorem State.setPulse_fio_capture (s : State) (n : Nat) (x : Pi) : (s.setPulse n x).fio.capture = s.fio.capture := (rfl)
@[simp] theorem State.setPulse_fio_trim (s : State) (n : Nat) (x : Pi) : (s.setPulse n x).fio.trim = s.fio.trim := (rfl)
@[simp] theorem State.setPulse_fio_trimJob (s : State) (n : Nat) (x : Pi) : (s.setPulse n x).fio.trimJob = s.fio.trimJob := (rfl)
@[simp] theorem State.setPulse_tile (s : State) (n : Nat) (x : Pi) (m : Nat) : (s.setPulse n x).tile m = s.tile m := (rfl)
@[simp] theorem State.setPulse_port (s : State) (n : Nat) (x : Pi) (m : Nat) : (s.setPulse n x).port m = s.port m := (rfl)
@[simp] theorem State.setPulse_chan (s : State) (n : Nat) (x : Pi) (m : Nat) : (s.setPulse n x).chan m = s.chan m := (rfl)
@[simp] theorem State.setPulse_ctx (s : State) (n : Nat) (x : Pi) (m : Nat) : (s.setPulse n x).ctx m = s.ctx m := (rfl)
@[simp] theorem State.setPulse_task (s : State) (n : Nat) (x : Pi) (m : Nat) : (s.setPulse n x).task m = s.task m := (rfl)
@[simp] theorem State.setPulse_di (s : State) (n : Nat) (x : Pi) (m : Nat) : (s.setPulse n x).di m = s.di m := (rfl)
@[simp] theorem State.setPulse_do_ (s : State) (n : Nat) (x : Pi) (m : Nat) : (s.setPulse n x).do_ m = s.do_ m := (rfl)
@[simp] theorem State.setPulse_cl (s : State) (n : Nat) (x : Pi) (m : Nat) : (s.setPulse n x).cl m = s.cl m := (rfl)
@[simp] theorem State.setPulse_fao (s : State) (n : Nat) (x : Pi) (m : Nat) : (s.setPulse n x).fao m = s.fao m := (rfl)
@[simp] theorem State.setPulse_pulse (s : State) (n : Nat) (x : Pi) (m : Nat) :
    (s.setPulse n x).pulse m = if m = n then x else s.pulse m := tget_tset _ _ _ _ _
@[simp] theorem State.setPulse_tripOut (s : State) (n : Nat) (x : Pi) (m : Nat) : (s.setPulse n x).tripOut m = s.tripOut m := (rfl)
@[simp] theorem State.setPulse_keySlot (s : State) (n : Nat) (x : Pi) (m : Nat) : (s.setPulse n x).keySlot m = s.keySlot m := (rfl)
@[simp] theorem State.setPulse_leadsPair (s : State) (n : Nat) (x : Pi) : (s.setPulse n x).leadsPair = s.leadsPair := (rfl)
@[simp] theorem State.setPulse_keepsHelm (s : State) (n : Nat) (x : Pi) : (s.setPulse n x).keepsHelm = s.keepsHelm := (rfl)
@[simp] theorem State.setPulse_slotB (s : State) (n : Nat) (x : Pi) : (s.setPulse n x).slotB = s.slotB := (rfl)
@[simp] theorem State.setPulse_mt (s : State) (n : Nat) (x : Pi) : (s.setPulse n x).mt = s.mt := (rfl)
@[simp] theorem State.setPulse_offset (s : State) (n : Nat) (x : Pi) : (s.setPulse n x).offset = s.offset := (rfl)
@[simp] theorem State.setPulse_rtcNs (s : State) (n : Nat) (x : Pi) : (s.setPulse n x).rtcNs = s.rtcNs := (rfl)
@[simp] theorem State.setPulse_findReq (s : State) (n : Nat) (x : Pi) (m : Nat) : (s.setPulse n x).findReq m = s.findReq m := (rfl)

/-! ### State.setTripOut -/

@[simp] theorem State.setTripOut_pending (s : State) (n : Nat) (x : TripOut) : (s.setTripOut n x).pending = s.pending := (rfl)
@[simp] theorem State.setTripOut_now (s : State) (n : Nat) (x : TripOut) : (s.setTripOut n x).now = s.now := (rfl)
@[simp] theorem State.setTripOut_mtOff (s : State) (n : Nat) (x : TripOut) : (s.setTripOut n x).mtOff = s.mtOff := (rfl)
@[simp] theorem State.setTripOut_slew (s : State) (n : Nat) (x : TripOut) : (s.setTripOut n x).slew = s.slew := (rfl)
@[simp] theorem State.setTripOut_out (s : State) (n : Nat) (x : TripOut) : (s.setTripOut n x).out = s.out := (rfl)
@[simp] theorem State.setTripOut_cfg (s : State) (n : Nat) (x : TripOut) : (s.setTripOut n x).cfg = s.cfg := (rfl)
@[simp] theorem State.setTripOut_host (s : State) (n : Nat) (x : TripOut) : (s.setTripOut n x).host = s.host := (rfl)
@[simp] theorem State.setTripOut_mgmt (s : State) (n : Nat) (x : TripOut) : (s.setTripOut n x).mgmt = s.mgmt := (rfl)
@[simp] theorem State.setTripOut_sec (s : State) (n : Nat) (x : TripOut) : (s.setTripOut n x).sec = s.sec := (rfl)
@[simp] theorem State.setTripOut_modes (s : State) (n : Nat) (x : TripOut) : (s.setTripOut n x).modes = s.modes := (rfl)
@[simp] theorem State.setTripOut_tiles (s : State) (n : Nat) (x : TripOut) : (s.setTripOut n x).tiles = s.tiles := (rfl)
@[simp] theorem State.setTripOut_fabric (s : State) (n : Nat) (x : TripOut) : (s.setTripOut n x).fabric = s.fabric := (rfl)
@[simp] theorem State.setTripOut_late (s : State) (n : Nat) (x : TripOut) : (s.setTripOut n x).late = s.late := (rfl)
@[simp] theorem State.setTripOut_prog (s : State) (n : Nat) (x : TripOut) : (s.setTripOut n x).prog = s.prog := (rfl)
@[simp] theorem State.setTripOut_loops (s : State) (n : Nat) (x : TripOut) : (s.setTripOut n x).loops = s.loops := (rfl)
@[simp] theorem State.setTripOut_ports (s : State) (n : Nat) (x : TripOut) : (s.setTripOut n x).ports = s.ports := (rfl)
@[simp] theorem State.setTripOut_cells (s : State) (n : Nat) (x : TripOut) : (s.setTripOut n x).cells = s.cells := (rfl)
@[simp] theorem State.setTripOut_twin (s : State) (n : Nat) (x : TripOut) : (s.setTripOut n x).twin = s.twin := (rfl)
@[simp] theorem State.setTripOut_ring (s : State) (n : Nat) (x : TripOut) : (s.setTripOut n x).ring = s.ring := (rfl)
@[simp] theorem State.setTripOut_can (s : State) (n : Nat) (x : TripOut) : (s.setTripOut n x).can = s.can := (rfl)
@[simp] theorem State.setTripOut_fio (s : State) (n : Nat) (x : TripOut) : (s.setTripOut n x).fio = s.fio := (rfl)
@[simp] theorem State.setTripOut_clk (s : State) (n : Nat) (x : TripOut) : (s.setTripOut n x).clk = s.clk := (rfl)
@[simp] theorem State.setTripOut_pwr (s : State) (n : Nat) (x : TripOut) : (s.setTripOut n x).pwr = s.pwr := (rfl)
@[simp] theorem State.setTripOut_rtc (s : State) (n : Nat) (x : TripOut) : (s.setTripOut n x).rtc = s.rtc := (rfl)
@[simp] theorem State.setTripOut_recd (s : State) (n : Nat) (x : TripOut) : (s.setTripOut n x).recd = s.recd := (rfl)
@[simp] theorem State.setTripOut_dsp (s : State) (n : Nat) (x : TripOut) : (s.setTripOut n x).dsp = s.dsp := (rfl)
@[simp] theorem State.setTripOut_free (s : State) (n : Nat) (x : TripOut) : (s.setTripOut n x).free = s.free := (rfl)
@[simp] theorem State.setTripOut_trip_invert (s : State) (n : Nat) (x : TripOut) : (s.setTripOut n x).trip.invert = s.trip.invert := (rfl)
@[simp] theorem State.setTripOut_trip_proofDays (s : State) (n : Nat) (x : TripOut) : (s.setTripOut n x).trip.proofDays = s.trip.proofDays := (rfl)
@[simp] theorem State.setTripOut_trip_proofDue (s : State) (n : Nat) (x : TripOut) : (s.setTripOut n x).trip.proofDue = s.trip.proofDue := (rfl)
@[simp] theorem State.setTripOut_trip_lockstep (s : State) (n : Nat) (x : TripOut) : (s.setTripOut n x).trip.lockstep = s.trip.lockstep := (rfl)
@[simp] theorem State.setTripOut_trip_safetyRun (s : State) (n : Nat) (x : TripOut) : (s.setTripOut n x).trip.safetyRun = s.trip.safetyRun := (rfl)
@[simp] theorem State.setTripOut_trip_safetyBad (s : State) (n : Nat) (x : TripOut) : (s.setTripOut n x).trip.safetyBad = s.trip.safetyBad := (rfl)
@[simp] theorem State.setTripOut_trip_cfgBad (s : State) (n : Nat) (x : TripOut) : (s.setTripOut n x).trip.cfgBad = s.trip.cfgBad := (rfl)
@[simp] theorem State.setTripOut_trip_loaded (s : State) (n : Nat) (x : TripOut) : (s.setTripOut n x).trip.loaded = s.trip.loaded := (rfl)
@[simp] theorem State.setTripOut_trip_cfgCrc (s : State) (n : Nat) (x : TripOut) : (s.setTripOut n x).trip.cfgCrc = s.trip.cfgCrc := (rfl)
@[simp] theorem State.setTripOut_trip_safetyCrc (s : State) (n : Nat) (x : TripOut) : (s.setTripOut n x).trip.safetyCrc = s.trip.safetyCrc := (rfl)
@[simp] theorem State.setTripOut_trip_levels (s : State) (n : Nat) (x : TripOut) : (s.setTripOut n x).trip.levels = s.trip.levels := (rfl)
@[simp] theorem State.setTripOut_trip_src (s : State) (n : Nat) (x : TripOut) : (s.setTripOut n x).trip.src = s.trip.src := (rfl)
@[simp] theorem State.setTripOut_trip_srcSeen (s : State) (n : Nat) (x : TripOut) : (s.setTripOut n x).trip.srcSeen = s.trip.srcSeen := (rfl)
@[simp] theorem State.setTripOut_trip_ward (s : State) (n : Nat) (x : TripOut) : (s.setTripOut n x).trip.ward = s.trip.ward := (rfl)
@[simp] theorem State.setTripOut_trip_wardPeriodDone (s : State) (n : Nat) (x : TripOut) : (s.setTripOut n x).trip.wardPeriodDone = s.trip.wardPeriodDone := (rfl)
@[simp] theorem State.setTripOut_trip_overTemp (s : State) (n : Nat) (x : TripOut) : (s.setTripOut n x).trip.overTemp = s.trip.overTemp := (rfl)
@[simp] theorem State.setTripOut_trip_watchdog (s : State) (n : Nat) (x : TripOut) : (s.setTripOut n x).trip.watchdog = s.trip.watchdog := (rfl)
@[simp] theorem State.setTripOut_trip_clockFail (s : State) (n : Nat) (x : TripOut) : (s.setTripOut n x).trip.clockFail = s.trip.clockFail := (rfl)
@[simp] theorem State.setTripOut_trip_switchFaults (s : State) (n : Nat) (x : TripOut) : (s.setTripOut n x).trip.switchFaults = s.trip.switchFaults := (rfl)
@[simp] theorem State.setTripOut_trip_lastAssert (s : State) (n : Nat) (x : TripOut) : (s.setTripOut n x).trip.lastAssert = s.trip.lastAssert := (rfl)
@[simp] theorem State.setTripOut_trip_namedAt (s : State) (n : Nat) (x : TripOut) : (s.setTripOut n x).trip.namedAt = s.trip.namedAt := (rfl)
@[simp] theorem State.setTripOut_trip_proofAt (s : State) (n : Nat) (x : TripOut) : (s.setTripOut n x).trip.proofAt = s.trip.proofAt := (rfl)
@[simp] theorem State.setTripOut_trip_period (s : State) (n : Nat) (x : TripOut) : (s.setTripOut n x).trip.period = s.trip.period := (rfl)
@[simp] theorem State.setTripOut_trip_periodAt (s : State) (n : Nat) (x : TripOut) : (s.setTripOut n x).trip.periodAt = s.trip.periodAt := (rfl)
@[simp] theorem State.setTripOut_trip_fns (s : State) (n : Nat) (x : TripOut) : (s.setTripOut n x).trip.fns = s.trip.fns := (rfl)
@[simp] theorem State.setTripOut_trip_newFns (s : State) (n : Nat) (x : TripOut) : (s.setTripOut n x).trip.newFns = s.trip.newFns := (rfl)
@[simp] theorem State.setTripOut_trip_strs (s : State) (n : Nat) (x : TripOut) : (s.setTripOut n x).trip.strs = s.trip.strs := (rfl)
@[simp] theorem State.setTripOut_tile (s : State) (n : Nat) (x : TripOut) (m : Nat) : (s.setTripOut n x).tile m = s.tile m := (rfl)
@[simp] theorem State.setTripOut_port (s : State) (n : Nat) (x : TripOut) (m : Nat) : (s.setTripOut n x).port m = s.port m := (rfl)
@[simp] theorem State.setTripOut_chan (s : State) (n : Nat) (x : TripOut) (m : Nat) : (s.setTripOut n x).chan m = s.chan m := (rfl)
@[simp] theorem State.setTripOut_ctx (s : State) (n : Nat) (x : TripOut) (m : Nat) : (s.setTripOut n x).ctx m = s.ctx m := (rfl)
@[simp] theorem State.setTripOut_task (s : State) (n : Nat) (x : TripOut) (m : Nat) : (s.setTripOut n x).task m = s.task m := (rfl)
@[simp] theorem State.setTripOut_di (s : State) (n : Nat) (x : TripOut) (m : Nat) : (s.setTripOut n x).di m = s.di m := (rfl)
@[simp] theorem State.setTripOut_do_ (s : State) (n : Nat) (x : TripOut) (m : Nat) : (s.setTripOut n x).do_ m = s.do_ m := (rfl)
@[simp] theorem State.setTripOut_cl (s : State) (n : Nat) (x : TripOut) (m : Nat) : (s.setTripOut n x).cl m = s.cl m := (rfl)
@[simp] theorem State.setTripOut_fao (s : State) (n : Nat) (x : TripOut) (m : Nat) : (s.setTripOut n x).fao m = s.fao m := (rfl)
@[simp] theorem State.setTripOut_pulse (s : State) (n : Nat) (x : TripOut) (m : Nat) : (s.setTripOut n x).pulse m = s.pulse m := (rfl)
@[simp] theorem State.setTripOut_tripOut (s : State) (n : Nat) (x : TripOut) (m : Nat) :
    (s.setTripOut n x).tripOut m = if m = n then x else s.tripOut m := tget_tset _ _ _ _ _
@[simp] theorem State.setTripOut_keySlot (s : State) (n : Nat) (x : TripOut) (m : Nat) : (s.setTripOut n x).keySlot m = s.keySlot m := (rfl)
@[simp] theorem State.setTripOut_leadsPair (s : State) (n : Nat) (x : TripOut) : (s.setTripOut n x).leadsPair = s.leadsPair := (rfl)
@[simp] theorem State.setTripOut_keepsHelm (s : State) (n : Nat) (x : TripOut) : (s.setTripOut n x).keepsHelm = s.keepsHelm := (rfl)
@[simp] theorem State.setTripOut_slotB (s : State) (n : Nat) (x : TripOut) : (s.setTripOut n x).slotB = s.slotB := (rfl)
@[simp] theorem State.setTripOut_mt (s : State) (n : Nat) (x : TripOut) : (s.setTripOut n x).mt = s.mt := (rfl)
@[simp] theorem State.setTripOut_offset (s : State) (n : Nat) (x : TripOut) : (s.setTripOut n x).offset = s.offset := (rfl)
@[simp] theorem State.setTripOut_rtcNs (s : State) (n : Nat) (x : TripOut) : (s.setTripOut n x).rtcNs = s.rtcNs := (rfl)
@[simp] theorem State.setTripOut_findReq (s : State) (n : Nat) (x : TripOut) (m : Nat) : (s.setTripOut n x).findReq m = s.findReq m := (rfl)

/-! ### State.setKeySlot -/

@[simp] theorem State.setKeySlot_pending (s : State) (n : Nat) (x : KeySlot) : (s.setKeySlot n x).pending = s.pending := (rfl)
@[simp] theorem State.setKeySlot_now (s : State) (n : Nat) (x : KeySlot) : (s.setKeySlot n x).now = s.now := (rfl)
@[simp] theorem State.setKeySlot_mtOff (s : State) (n : Nat) (x : KeySlot) : (s.setKeySlot n x).mtOff = s.mtOff := (rfl)
@[simp] theorem State.setKeySlot_slew (s : State) (n : Nat) (x : KeySlot) : (s.setKeySlot n x).slew = s.slew := (rfl)
@[simp] theorem State.setKeySlot_out (s : State) (n : Nat) (x : KeySlot) : (s.setKeySlot n x).out = s.out := (rfl)
@[simp] theorem State.setKeySlot_cfg (s : State) (n : Nat) (x : KeySlot) : (s.setKeySlot n x).cfg = s.cfg := (rfl)
@[simp] theorem State.setKeySlot_host (s : State) (n : Nat) (x : KeySlot) : (s.setKeySlot n x).host = s.host := (rfl)
@[simp] theorem State.setKeySlot_mgmt (s : State) (n : Nat) (x : KeySlot) : (s.setKeySlot n x).mgmt = s.mgmt := (rfl)
@[simp] theorem State.setKeySlot_modes (s : State) (n : Nat) (x : KeySlot) : (s.setKeySlot n x).modes = s.modes := (rfl)
@[simp] theorem State.setKeySlot_tiles (s : State) (n : Nat) (x : KeySlot) : (s.setKeySlot n x).tiles = s.tiles := (rfl)
@[simp] theorem State.setKeySlot_fabric (s : State) (n : Nat) (x : KeySlot) : (s.setKeySlot n x).fabric = s.fabric := (rfl)
@[simp] theorem State.setKeySlot_late (s : State) (n : Nat) (x : KeySlot) : (s.setKeySlot n x).late = s.late := (rfl)
@[simp] theorem State.setKeySlot_prog (s : State) (n : Nat) (x : KeySlot) : (s.setKeySlot n x).prog = s.prog := (rfl)
@[simp] theorem State.setKeySlot_loops (s : State) (n : Nat) (x : KeySlot) : (s.setKeySlot n x).loops = s.loops := (rfl)
@[simp] theorem State.setKeySlot_ports (s : State) (n : Nat) (x : KeySlot) : (s.setKeySlot n x).ports = s.ports := (rfl)
@[simp] theorem State.setKeySlot_cells (s : State) (n : Nat) (x : KeySlot) : (s.setKeySlot n x).cells = s.cells := (rfl)
@[simp] theorem State.setKeySlot_twin (s : State) (n : Nat) (x : KeySlot) : (s.setKeySlot n x).twin = s.twin := (rfl)
@[simp] theorem State.setKeySlot_trip (s : State) (n : Nat) (x : KeySlot) : (s.setKeySlot n x).trip = s.trip := (rfl)
@[simp] theorem State.setKeySlot_ring (s : State) (n : Nat) (x : KeySlot) : (s.setKeySlot n x).ring = s.ring := (rfl)
@[simp] theorem State.setKeySlot_can (s : State) (n : Nat) (x : KeySlot) : (s.setKeySlot n x).can = s.can := (rfl)
@[simp] theorem State.setKeySlot_fio (s : State) (n : Nat) (x : KeySlot) : (s.setKeySlot n x).fio = s.fio := (rfl)
@[simp] theorem State.setKeySlot_clk (s : State) (n : Nat) (x : KeySlot) : (s.setKeySlot n x).clk = s.clk := (rfl)
@[simp] theorem State.setKeySlot_pwr (s : State) (n : Nat) (x : KeySlot) : (s.setKeySlot n x).pwr = s.pwr := (rfl)
@[simp] theorem State.setKeySlot_rtc (s : State) (n : Nat) (x : KeySlot) : (s.setKeySlot n x).rtc = s.rtc := (rfl)
@[simp] theorem State.setKeySlot_recd (s : State) (n : Nat) (x : KeySlot) : (s.setKeySlot n x).recd = s.recd := (rfl)
@[simp] theorem State.setKeySlot_dsp (s : State) (n : Nat) (x : KeySlot) : (s.setKeySlot n x).dsp = s.dsp := (rfl)
@[simp] theorem State.setKeySlot_free (s : State) (n : Nat) (x : KeySlot) : (s.setKeySlot n x).free = s.free := (rfl)
@[simp] theorem State.setKeySlot_sec_authFails (s : State) (n : Nat) (x : KeySlot) : (s.setKeySlot n x).sec.authFails = s.sec.authFails := (rfl)
@[simp] theorem State.setKeySlot_sec_stale (s : State) (n : Nat) (x : KeySlot) : (s.setKeySlot n x).sec.stale = s.sec.stale := (rfl)
@[simp] theorem State.setKeySlot_sec_verifier (s : State) (n : Nat) (x : KeySlot) : (s.setKeySlot n x).sec.verifier = s.sec.verifier := (rfl)
@[simp] theorem State.setKeySlot_sec_fails (s : State) (n : Nat) (x : KeySlot) : (s.setKeySlot n x).sec.fails = s.sec.fails := (rfl)
@[simp] theorem State.setKeySlot_sec_lockEnd (s : State) (n : Nat) (x : KeySlot) : (s.setKeySlot n x).sec.lockEnd = s.sec.lockEnd := (rfl)
@[simp] theorem State.setKeySlot_sec_session (s : State) (n : Nat) (x : KeySlot) : (s.setKeySlot n x).sec.session = s.sec.session := (rfl)
@[simp] theorem State.setKeySlot_sec_pwdCheck (s : State) (n : Nat) (x : KeySlot) : (s.setKeySlot n x).sec.pwdCheck = s.sec.pwdCheck := (rfl)
@[simp] theorem State.setKeySlot_sec_fwActiveB (s : State) (n : Nat) (x : KeySlot) : (s.setKeySlot n x).sec.fwActiveB = s.sec.fwActiveB := (rfl)
@[simp] theorem State.setKeySlot_sec_fwAValid (s : State) (n : Nat) (x : KeySlot) : (s.setKeySlot n x).sec.fwAValid = s.sec.fwAValid := (rfl)
@[simp] theorem State.setKeySlot_sec_fwBValid (s : State) (n : Nat) (x : KeySlot) : (s.setKeySlot n x).sec.fwBValid = s.sec.fwBValid := (rfl)
@[simp] theorem State.setKeySlot_sec_fwPending (s : State) (n : Nat) (x : KeySlot) : (s.setKeySlot n x).sec.fwPending = s.sec.fwPending := (rfl)
@[simp] theorem State.setKeySlot_sec_fwMinVersion (s : State) (n : Nat) (x : KeySlot) : (s.setKeySlot n x).sec.fwMinVersion = s.sec.fwMinVersion := (rfl)
@[simp] theorem State.setKeySlot_sec_fwVersionA (s : State) (n : Nat) (x : KeySlot) : (s.setKeySlot n x).sec.fwVersionA = s.sec.fwVersionA := (rfl)
@[simp] theorem State.setKeySlot_sec_fwVersionB (s : State) (n : Nat) (x : KeySlot) : (s.setKeySlot n x).sec.fwVersionB = s.sec.fwVersionB := (rfl)
@[simp] theorem State.setKeySlot_sec_fwSigA (s : State) (n : Nat) (x : KeySlot) : (s.setKeySlot n x).sec.fwSigA = s.sec.fwSigA := (rfl)
@[simp] theorem State.setKeySlot_sec_fwSigB (s : State) (n : Nat) (x : KeySlot) : (s.setKeySlot n x).sec.fwSigB = s.sec.fwSigB := (rfl)
@[simp] theorem State.setKeySlot_sec_fwChunks (s : State) (n : Nat) (x : KeySlot) : (s.setKeySlot n x).sec.fwChunks = s.sec.fwChunks := (rfl)
@[simp] theorem State.setKeySlot_sec_fwStore (s : State) (n : Nat) (x : KeySlot) : (s.setKeySlot n x).sec.fwStore = s.sec.fwStore := (rfl)
@[simp] theorem State.setKeySlot_sec_activateAt (s : State) (n : Nat) (x : KeySlot) : (s.setKeySlot n x).sec.activateAt = s.sec.activateAt := (rfl)
@[simp] theorem State.setKeySlot_tile (s : State) (n : Nat) (x : KeySlot) (m : Nat) : (s.setKeySlot n x).tile m = s.tile m := (rfl)
@[simp] theorem State.setKeySlot_port (s : State) (n : Nat) (x : KeySlot) (m : Nat) : (s.setKeySlot n x).port m = s.port m := (rfl)
@[simp] theorem State.setKeySlot_chan (s : State) (n : Nat) (x : KeySlot) (m : Nat) : (s.setKeySlot n x).chan m = s.chan m := (rfl)
@[simp] theorem State.setKeySlot_ctx (s : State) (n : Nat) (x : KeySlot) (m : Nat) : (s.setKeySlot n x).ctx m = s.ctx m := (rfl)
@[simp] theorem State.setKeySlot_task (s : State) (n : Nat) (x : KeySlot) (m : Nat) : (s.setKeySlot n x).task m = s.task m := (rfl)
@[simp] theorem State.setKeySlot_di (s : State) (n : Nat) (x : KeySlot) (m : Nat) : (s.setKeySlot n x).di m = s.di m := (rfl)
@[simp] theorem State.setKeySlot_do_ (s : State) (n : Nat) (x : KeySlot) (m : Nat) : (s.setKeySlot n x).do_ m = s.do_ m := (rfl)
@[simp] theorem State.setKeySlot_cl (s : State) (n : Nat) (x : KeySlot) (m : Nat) : (s.setKeySlot n x).cl m = s.cl m := (rfl)
@[simp] theorem State.setKeySlot_fao (s : State) (n : Nat) (x : KeySlot) (m : Nat) : (s.setKeySlot n x).fao m = s.fao m := (rfl)
@[simp] theorem State.setKeySlot_pulse (s : State) (n : Nat) (x : KeySlot) (m : Nat) : (s.setKeySlot n x).pulse m = s.pulse m := (rfl)
@[simp] theorem State.setKeySlot_tripOut (s : State) (n : Nat) (x : KeySlot) (m : Nat) : (s.setKeySlot n x).tripOut m = s.tripOut m := (rfl)
@[simp] theorem State.setKeySlot_keySlot (s : State) (n : Nat) (x : KeySlot) (m : Nat) :
    (s.setKeySlot n x).keySlot m = if m = n then x else s.keySlot m := tget_tset _ _ _ _ _
@[simp] theorem State.setKeySlot_leadsPair (s : State) (n : Nat) (x : KeySlot) : (s.setKeySlot n x).leadsPair = s.leadsPair := (rfl)
@[simp] theorem State.setKeySlot_keepsHelm (s : State) (n : Nat) (x : KeySlot) : (s.setKeySlot n x).keepsHelm = s.keepsHelm := (rfl)
@[simp] theorem State.setKeySlot_slotB (s : State) (n : Nat) (x : KeySlot) : (s.setKeySlot n x).slotB = s.slotB := (rfl)
@[simp] theorem State.setKeySlot_mt (s : State) (n : Nat) (x : KeySlot) : (s.setKeySlot n x).mt = s.mt := (rfl)
@[simp] theorem State.setKeySlot_offset (s : State) (n : Nat) (x : KeySlot) : (s.setKeySlot n x).offset = s.offset := (rfl)
@[simp] theorem State.setKeySlot_rtcNs (s : State) (n : Nat) (x : KeySlot) : (s.setKeySlot n x).rtcNs = s.rtcNs := (rfl)
@[simp] theorem State.setKeySlot_findReq (s : State) (n : Nat) (x : KeySlot) (m : Nat) : (s.setKeySlot n x).findReq m = s.findReq m := (rfl)

/-! ### State.emit -/

@[simp] theorem State.emit_pending (s : State) (o : Output) : (s.emit o).pending = s.pending := (rfl)
@[simp] theorem State.emit_now (s : State) (o : Output) : (s.emit o).now = s.now := (rfl)
@[simp] theorem State.emit_mtOff (s : State) (o : Output) : (s.emit o).mtOff = s.mtOff := (rfl)
@[simp] theorem State.emit_slew (s : State) (o : Output) : (s.emit o).slew = s.slew := (rfl)
@[simp] theorem State.emit_cfg (s : State) (o : Output) : (s.emit o).cfg = s.cfg := (rfl)
@[simp] theorem State.emit_host (s : State) (o : Output) : (s.emit o).host = s.host := (rfl)
@[simp] theorem State.emit_mgmt (s : State) (o : Output) : (s.emit o).mgmt = s.mgmt := (rfl)
@[simp] theorem State.emit_sec (s : State) (o : Output) : (s.emit o).sec = s.sec := (rfl)
@[simp] theorem State.emit_modes (s : State) (o : Output) : (s.emit o).modes = s.modes := (rfl)
@[simp] theorem State.emit_tiles (s : State) (o : Output) : (s.emit o).tiles = s.tiles := (rfl)
@[simp] theorem State.emit_fabric (s : State) (o : Output) : (s.emit o).fabric = s.fabric := (rfl)
@[simp] theorem State.emit_late (s : State) (o : Output) : (s.emit o).late = s.late := (rfl)
@[simp] theorem State.emit_prog (s : State) (o : Output) : (s.emit o).prog = s.prog := (rfl)
@[simp] theorem State.emit_loops (s : State) (o : Output) : (s.emit o).loops = s.loops := (rfl)
@[simp] theorem State.emit_ports (s : State) (o : Output) : (s.emit o).ports = s.ports := (rfl)
@[simp] theorem State.emit_cells (s : State) (o : Output) : (s.emit o).cells = s.cells := (rfl)
@[simp] theorem State.emit_twin (s : State) (o : Output) : (s.emit o).twin = s.twin := (rfl)
@[simp] theorem State.emit_trip (s : State) (o : Output) : (s.emit o).trip = s.trip := (rfl)
@[simp] theorem State.emit_ring (s : State) (o : Output) : (s.emit o).ring = s.ring := (rfl)
@[simp] theorem State.emit_can (s : State) (o : Output) : (s.emit o).can = s.can := (rfl)
@[simp] theorem State.emit_fio (s : State) (o : Output) : (s.emit o).fio = s.fio := (rfl)
@[simp] theorem State.emit_clk (s : State) (o : Output) : (s.emit o).clk = s.clk := (rfl)
@[simp] theorem State.emit_pwr (s : State) (o : Output) : (s.emit o).pwr = s.pwr := (rfl)
@[simp] theorem State.emit_rtc (s : State) (o : Output) : (s.emit o).rtc = s.rtc := (rfl)
@[simp] theorem State.emit_recd (s : State) (o : Output) : (s.emit o).recd = s.recd := (rfl)
@[simp] theorem State.emit_dsp (s : State) (o : Output) : (s.emit o).dsp = s.dsp := (rfl)
@[simp] theorem State.emit_free (s : State) (o : Output) : (s.emit o).free = s.free := (rfl)
@[simp] theorem State.emit_tile (s : State) (o : Output) (m : Nat) : (s.emit o).tile m = s.tile m := (rfl)
@[simp] theorem State.emit_port (s : State) (o : Output) (m : Nat) : (s.emit o).port m = s.port m := (rfl)
@[simp] theorem State.emit_chan (s : State) (o : Output) (m : Nat) : (s.emit o).chan m = s.chan m := (rfl)
@[simp] theorem State.emit_ctx (s : State) (o : Output) (m : Nat) : (s.emit o).ctx m = s.ctx m := (rfl)
@[simp] theorem State.emit_task (s : State) (o : Output) (m : Nat) : (s.emit o).task m = s.task m := (rfl)
@[simp] theorem State.emit_di (s : State) (o : Output) (m : Nat) : (s.emit o).di m = s.di m := (rfl)
@[simp] theorem State.emit_do_ (s : State) (o : Output) (m : Nat) : (s.emit o).do_ m = s.do_ m := (rfl)
@[simp] theorem State.emit_cl (s : State) (o : Output) (m : Nat) : (s.emit o).cl m = s.cl m := (rfl)
@[simp] theorem State.emit_fao (s : State) (o : Output) (m : Nat) : (s.emit o).fao m = s.fao m := (rfl)
@[simp] theorem State.emit_pulse (s : State) (o : Output) (m : Nat) : (s.emit o).pulse m = s.pulse m := (rfl)
@[simp] theorem State.emit_tripOut (s : State) (o : Output) (m : Nat) : (s.emit o).tripOut m = s.tripOut m := (rfl)
@[simp] theorem State.emit_keySlot (s : State) (o : Output) (m : Nat) : (s.emit o).keySlot m = s.keySlot m := (rfl)
@[simp] theorem State.emit_leadsPair (s : State) (o : Output) : (s.emit o).leadsPair = s.leadsPair := (rfl)
@[simp] theorem State.emit_keepsHelm (s : State) (o : Output) : (s.emit o).keepsHelm = s.keepsHelm := (rfl)
@[simp] theorem State.emit_slotB (s : State) (o : Output) : (s.emit o).slotB = s.slotB := (rfl)
@[simp] theorem State.emit_mt (s : State) (o : Output) : (s.emit o).mt = s.mt := (rfl)
@[simp] theorem State.emit_offset (s : State) (o : Output) : (s.emit o).offset = s.offset := (rfl)
@[simp] theorem State.emit_rtcNs (s : State) (o : Output) : (s.emit o).rtcNs = s.rtcNs := (rfl)
@[simp] theorem State.emit_findReq (s : State) (o : Output) (m : Nat) : (s.emit o).findReq m = s.findReq m := (rfl)

/-! ### State.tick -/

@[simp] theorem State.tick_pending (s : State) (t : Nat) : (s.tick t).pending = s.pending := (rfl)
@[simp] theorem State.tick_mtOff (s : State) (t : Nat) : (s.tick t).mtOff = s.mtOff := (rfl)
@[simp] theorem State.tick_slew (s : State) (t : Nat) : (s.tick t).slew = s.slew := (rfl)
@[simp] theorem State.tick_out (s : State) (t : Nat) : (s.tick t).out = s.out := (rfl)
@[simp] theorem State.tick_cfg (s : State) (t : Nat) : (s.tick t).cfg = s.cfg := (rfl)
@[simp] theorem State.tick_host (s : State) (t : Nat) : (s.tick t).host = s.host := (rfl)
@[simp] theorem State.tick_mgmt (s : State) (t : Nat) : (s.tick t).mgmt = s.mgmt := (rfl)
@[simp] theorem State.tick_sec (s : State) (t : Nat) : (s.tick t).sec = s.sec := (rfl)
@[simp] theorem State.tick_modes (s : State) (t : Nat) : (s.tick t).modes = s.modes := (rfl)
@[simp] theorem State.tick_tiles (s : State) (t : Nat) : (s.tick t).tiles = s.tiles := (rfl)
@[simp] theorem State.tick_fabric (s : State) (t : Nat) : (s.tick t).fabric = s.fabric := (rfl)
@[simp] theorem State.tick_late (s : State) (t : Nat) : (s.tick t).late = s.late := (rfl)
@[simp] theorem State.tick_prog (s : State) (t : Nat) : (s.tick t).prog = s.prog := (rfl)
@[simp] theorem State.tick_loops (s : State) (t : Nat) : (s.tick t).loops = s.loops := (rfl)
@[simp] theorem State.tick_ports (s : State) (t : Nat) : (s.tick t).ports = s.ports := (rfl)
@[simp] theorem State.tick_cells (s : State) (t : Nat) : (s.tick t).cells = s.cells := (rfl)
@[simp] theorem State.tick_twin (s : State) (t : Nat) : (s.tick t).twin = s.twin := (rfl)
@[simp] theorem State.tick_trip (s : State) (t : Nat) : (s.tick t).trip = s.trip := (rfl)
@[simp] theorem State.tick_ring (s : State) (t : Nat) : (s.tick t).ring = s.ring := (rfl)
@[simp] theorem State.tick_can (s : State) (t : Nat) : (s.tick t).can = s.can := (rfl)
@[simp] theorem State.tick_fio (s : State) (t : Nat) : (s.tick t).fio = s.fio := (rfl)
@[simp] theorem State.tick_clk (s : State) (t : Nat) : (s.tick t).clk = s.clk := (rfl)
@[simp] theorem State.tick_pwr (s : State) (t : Nat) : (s.tick t).pwr = s.pwr := (rfl)
@[simp] theorem State.tick_rtc (s : State) (t : Nat) : (s.tick t).rtc = s.rtc := (rfl)
@[simp] theorem State.tick_recd (s : State) (t : Nat) : (s.tick t).recd = s.recd := (rfl)
@[simp] theorem State.tick_dsp (s : State) (t : Nat) : (s.tick t).dsp = s.dsp := (rfl)
@[simp] theorem State.tick_free (s : State) (t : Nat) : (s.tick t).free = s.free := (rfl)
@[simp] theorem State.tick_tile (s : State) (t : Nat) (m : Nat) : (s.tick t).tile m = s.tile m := (rfl)
@[simp] theorem State.tick_port (s : State) (t : Nat) (m : Nat) : (s.tick t).port m = s.port m := (rfl)
@[simp] theorem State.tick_chan (s : State) (t : Nat) (m : Nat) : (s.tick t).chan m = s.chan m := (rfl)
@[simp] theorem State.tick_ctx (s : State) (t : Nat) (m : Nat) : (s.tick t).ctx m = s.ctx m := (rfl)
@[simp] theorem State.tick_task (s : State) (t : Nat) (m : Nat) : (s.tick t).task m = s.task m := (rfl)
@[simp] theorem State.tick_di (s : State) (t : Nat) (m : Nat) : (s.tick t).di m = s.di m := (rfl)
@[simp] theorem State.tick_do_ (s : State) (t : Nat) (m : Nat) : (s.tick t).do_ m = s.do_ m := (rfl)
@[simp] theorem State.tick_cl (s : State) (t : Nat) (m : Nat) : (s.tick t).cl m = s.cl m := (rfl)
@[simp] theorem State.tick_fao (s : State) (t : Nat) (m : Nat) : (s.tick t).fao m = s.fao m := (rfl)
@[simp] theorem State.tick_pulse (s : State) (t : Nat) (m : Nat) : (s.tick t).pulse m = s.pulse m := (rfl)
@[simp] theorem State.tick_tripOut (s : State) (t : Nat) (m : Nat) : (s.tick t).tripOut m = s.tripOut m := (rfl)
@[simp] theorem State.tick_keySlot (s : State) (t : Nat) (m : Nat) : (s.tick t).keySlot m = s.keySlot m := (rfl)
@[simp] theorem State.tick_leadsPair (s : State) (t : Nat) : (s.tick t).leadsPair = s.leadsPair := (rfl)
@[simp] theorem State.tick_keepsHelm (s : State) (t : Nat) : (s.tick t).keepsHelm = s.keepsHelm := (rfl)
@[simp] theorem State.tick_slotB (s : State) (t : Nat) : (s.tick t).slotB = s.slotB := (rfl)
@[simp] theorem State.tick_findReq (s : State) (t : Nat) (m : Nat) : (s.tick t).findReq m = s.findReq m := (rfl)

/-! ### State.event -/

@[simp] theorem State.event_pending (s : State) (code : Nat) (data : List Nat) : (s.event code data).pending = s.pending := (rfl)
@[simp] theorem State.event_now (s : State) (code : Nat) (data : List Nat) : (s.event code data).now = s.now := (rfl)
@[simp] theorem State.event_mtOff (s : State) (code : Nat) (data : List Nat) : (s.event code data).mtOff = s.mtOff := (rfl)
@[simp] theorem State.event_slew (s : State) (code : Nat) (data : List Nat) : (s.event code data).slew = s.slew := (rfl)
@[simp] theorem State.event_out (s : State) (code : Nat) (data : List Nat) : (s.event code data).out = s.out := (rfl)
@[simp] theorem State.event_cfg (s : State) (code : Nat) (data : List Nat) : (s.event code data).cfg = s.cfg := (rfl)
@[simp] theorem State.event_host (s : State) (code : Nat) (data : List Nat) : (s.event code data).host = s.host := (rfl)
@[simp] theorem State.event_mgmt (s : State) (code : Nat) (data : List Nat) : (s.event code data).mgmt = s.mgmt := (rfl)
@[simp] theorem State.event_sec (s : State) (code : Nat) (data : List Nat) : (s.event code data).sec = s.sec := (rfl)
@[simp] theorem State.event_modes (s : State) (code : Nat) (data : List Nat) : (s.event code data).modes = s.modes := (rfl)
@[simp] theorem State.event_tiles (s : State) (code : Nat) (data : List Nat) : (s.event code data).tiles = s.tiles := (rfl)
@[simp] theorem State.event_fabric (s : State) (code : Nat) (data : List Nat) : (s.event code data).fabric = s.fabric := (rfl)
@[simp] theorem State.event_late (s : State) (code : Nat) (data : List Nat) : (s.event code data).late = s.late := (rfl)
@[simp] theorem State.event_prog (s : State) (code : Nat) (data : List Nat) : (s.event code data).prog = s.prog := (rfl)
@[simp] theorem State.event_loops (s : State) (code : Nat) (data : List Nat) : (s.event code data).loops = s.loops := (rfl)
@[simp] theorem State.event_ports (s : State) (code : Nat) (data : List Nat) : (s.event code data).ports = s.ports := (rfl)
@[simp] theorem State.event_cells (s : State) (code : Nat) (data : List Nat) : (s.event code data).cells = s.cells := (rfl)
@[simp] theorem State.event_twin (s : State) (code : Nat) (data : List Nat) : (s.event code data).twin = s.twin := (rfl)
@[simp] theorem State.event_trip (s : State) (code : Nat) (data : List Nat) : (s.event code data).trip = s.trip := (rfl)
@[simp] theorem State.event_ring (s : State) (code : Nat) (data : List Nat) : (s.event code data).ring = s.ring := (rfl)
@[simp] theorem State.event_can (s : State) (code : Nat) (data : List Nat) : (s.event code data).can = s.can := (rfl)
@[simp] theorem State.event_fio (s : State) (code : Nat) (data : List Nat) : (s.event code data).fio = s.fio := (rfl)
@[simp] theorem State.event_clk (s : State) (code : Nat) (data : List Nat) : (s.event code data).clk = s.clk := (rfl)
@[simp] theorem State.event_pwr (s : State) (code : Nat) (data : List Nat) : (s.event code data).pwr = s.pwr := (rfl)
@[simp] theorem State.event_rtc (s : State) (code : Nat) (data : List Nat) : (s.event code data).rtc = s.rtc := (rfl)
@[simp] theorem State.event_dsp (s : State) (code : Nat) (data : List Nat) : (s.event code data).dsp = s.dsp := (rfl)
@[simp] theorem State.event_free (s : State) (code : Nat) (data : List Nat) : (s.event code data).free = s.free := (rfl)
@[simp] theorem State.event_tile (s : State) (code : Nat) (data : List Nat) (m : Nat) : (s.event code data).tile m = s.tile m := (rfl)
@[simp] theorem State.event_port (s : State) (code : Nat) (data : List Nat) (m : Nat) : (s.event code data).port m = s.port m := (rfl)
@[simp] theorem State.event_chan (s : State) (code : Nat) (data : List Nat) (m : Nat) : (s.event code data).chan m = s.chan m := (rfl)
@[simp] theorem State.event_ctx (s : State) (code : Nat) (data : List Nat) (m : Nat) : (s.event code data).ctx m = s.ctx m := (rfl)
@[simp] theorem State.event_task (s : State) (code : Nat) (data : List Nat) (m : Nat) : (s.event code data).task m = s.task m := (rfl)
@[simp] theorem State.event_di (s : State) (code : Nat) (data : List Nat) (m : Nat) : (s.event code data).di m = s.di m := (rfl)
@[simp] theorem State.event_do_ (s : State) (code : Nat) (data : List Nat) (m : Nat) : (s.event code data).do_ m = s.do_ m := (rfl)
@[simp] theorem State.event_cl (s : State) (code : Nat) (data : List Nat) (m : Nat) : (s.event code data).cl m = s.cl m := (rfl)
@[simp] theorem State.event_fao (s : State) (code : Nat) (data : List Nat) (m : Nat) : (s.event code data).fao m = s.fao m := (rfl)
@[simp] theorem State.event_pulse (s : State) (code : Nat) (data : List Nat) (m : Nat) : (s.event code data).pulse m = s.pulse m := (rfl)
@[simp] theorem State.event_tripOut (s : State) (code : Nat) (data : List Nat) (m : Nat) : (s.event code data).tripOut m = s.tripOut m := (rfl)
@[simp] theorem State.event_keySlot (s : State) (code : Nat) (data : List Nat) (m : Nat) : (s.event code data).keySlot m = s.keySlot m := (rfl)
@[simp] theorem State.event_leadsPair (s : State) (code : Nat) (data : List Nat) : (s.event code data).leadsPair = s.leadsPair := (rfl)
@[simp] theorem State.event_keepsHelm (s : State) (code : Nat) (data : List Nat) : (s.event code data).keepsHelm = s.keepsHelm := (rfl)
@[simp] theorem State.event_slotB (s : State) (code : Nat) (data : List Nat) : (s.event code data).slotB = s.slotB := (rfl)
@[simp] theorem State.event_mt (s : State) (code : Nat) (data : List Nat) : (s.event code data).mt = s.mt := (rfl)
@[simp] theorem State.event_offset (s : State) (code : Nat) (data : List Nat) : (s.event code data).offset = s.offset := (rfl)
@[simp] theorem State.event_rtcNs (s : State) (code : Nat) (data : List Nat) : (s.event code data).rtcNs = s.rtcNs := (rfl)
@[simp] theorem State.event_findReq (s : State) (code : Nat) (data : List Nat) (m : Nat) : (s.event code data).findReq m = s.findReq m := (rfl)

end Sys2Proof.Machine
end

