-- ==== Sys2Proof/Laws/Keeps.lean ====
section
/-! SUPPORT. Laws/Keeps.lean: an operation leaves the queue, the clock and the fittings alone, and takes back nothing that
was sent: one lemma for each operation. -/

namespace Sys2Proof.Machine

/-- The queue, the clock and the fittings other than the EEPROM stay, and what was sent stays sent. -/
structure Keeps (s t : State) : Prop where
  pending : t.pending = s.pending
  now : t.now = s.now
  cfg : { t.cfg with ee := s.cfg.ee } = s.cfg
  sent : s.out <:+ t.out

theorem Keeps.refl (s : State) : Keeps s s := ⟨rfl, rfl, rfl, List.suffix_refl _⟩

theorem Keeps.trans {s t u : State} (h : Keeps s t) (k : Keeps t u) : Keeps s u := by
  refine ⟨k.pending.trans h.pending, k.now.trans h.now, ?_, h.sent.trans k.sent⟩
  rw [← h.cfg, ← k.cfg]

theorem Keeps.ite {s t u : State} {c : Prop} [Decidable c] (h : Keeps s t) (k : Keeps s u) : Keeps s (if c then t else u)
    := by
  split <;> assumption

theorem Keeps.foldl {α : Type} {f : State → α → State} {l : List α} {s t : State} (h : ∀ s a, Keeps s (f s a)) (k : Keeps
    s t) :
    Keeps s (l.foldl f t) := by
  induction l generalizing t with
  | nil => exact k
  | cons a r ih => exact ih (k.trans (h t a))

theorem Keeps.foldlOn {α β : Type} {past : State} (p : β → State) {f : β → α → β} {l : List α} {b : β}
    (h : ∀ b a, Keeps past (p b) → Keeps past (p (f b a))) (k : Keeps past (p b)) : Keeps past (p (l.foldl f b)) := by
  induction l generalizing b with
  | nil => exact k
  | cons a r ih => exact ih (h b a k)

/-- A record update of fields other than the four. -/
theorem Keeps.upd {s t : State} {mtOff slew host mgmt sec modes tiles fabric late prog loops ports cells twin trip ring
    can fio clk pwr rtc recd dsp free} (h : Keeps s t) :
    Keeps s ⟨t.pending, t.now, mtOff, slew, t.out, t.cfg, host, mgmt, sec, modes, tiles, fabric, late, prog, loops, ports,
        cells, twin, trip, ring, can, fio, clk, pwr, rtc, recd, dsp, free⟩ := ⟨h.pending, h.now, h.cfg, h.sent⟩

/-- A record update that also sends. -/
theorem Keeps.send {s t : State} {o} {mtOff slew host mgmt sec modes tiles fabric late prog loops ports cells twin trip
    ring can fio clk pwr rtc recd dsp free} (h : Keeps s t) :
    Keeps s ⟨t.pending, t.now, mtOff, slew, o :: t.out, t.cfg, host, mgmt, sec, modes, tiles, fabric, late, prog, loops,
        ports, cells, twin, trip, ring, can, fio, clk, pwr, rtc, recd, dsp, free⟩ :=
  ⟨h.pending, h.now, h.cfg, h.sent.trans (List.suffix_cons _ _)⟩

theorem Keeps.append {s t : State} {o} {mtOff slew host mgmt sec modes tiles fabric late prog loops ports cells twin trip
    ring can fio clk pwr rtc recd dsp free} (h : Keeps s t) :
    Keeps s ⟨t.pending, t.now, mtOff, slew, o ++ t.out, t.cfg, host, mgmt, sec, modes, tiles, fabric, late, prog, loops,
        ports, cells, twin, trip, ring, can, fio, clk, pwr, rtc, recd, dsp, free⟩ :=
  ⟨h.pending, h.now, h.cfg, h.sent.trans (List.suffix_append _ _)⟩

theorem State.updReq_keeps {s t : State} (rid f) (h : Keeps t s) : Keeps t (s.updReq rid f) := h.upd

theorem State.when_keeps {past : State} (s : State) (c : Bool) (f : State → State) (h0 : Keeps past s) (h : Keeps past (f
    s)) :
    Keeps past (s.when c f) := by
  unfold State.when; split <;> assumption
end Sys2Proof.Machine
end

