-- ==== Sys2Proof/Laws/KeepsHost.lean ====
section
/-! SUPPORT. Laws/KeepsHost.lean: what `Keeps` says of the operations and commands of
the host interface, events and the trip network. -/

set_option linter.unusedSimpArgs false

set_option linter.unusedTactic false
set_option linter.unreachableTactic false

namespace Sys2Proof.Machine

theorem State.setTile_keeps (s : State) (n : Nat) (x : Tile) {past : State} (h0 : Keeps past s) :
    Keeps past (State.setTile s n x) := h0.upd

theorem State.setPort_keeps (s : State) (n : Nat) (x : Port) {past : State} (h0 : Keeps past s) :
    Keeps past (State.setPort s n x) := h0.upd

theorem State.setChan_keeps (s : State) (n : Nat) (x : Can) {past : State} (h0 : Keeps past s) :
    Keeps past (State.setChan s n x) := h0.upd

theorem State.setCtx_keeps (s : State) (n : Nat) (x : Ctx) {past : State} (h0 : Keeps past s) :
    Keeps past (State.setCtx s n x) := h0.upd

theorem State.setTask_keeps (s : State) (n : Nat) (x : Task) {past : State} (h0 : Keeps past s) :
    Keeps past (State.setTask s n x) := h0.upd

theorem State.setDi_keeps (s : State) (n : Nat) (x : Di) {past : State} (h0 : Keeps past s) :
    Keeps past (State.setDi s n x) := h0.upd

theorem State.setDo_keeps (s : State) (n : Nat) (x : Do) {past : State} (h0 : Keeps past s) :
    Keeps past (State.setDo s n x) := by
  unfold State.setDo
  simp (maxDischargeDepth := 40) only [implies_true, Keeps.refl, Keeps.ite, Keeps.upd, Keeps.send, h0]

theorem State.setCl_keeps (s : State) (n : Nat) (x : Cl) {past : State} (h0 : Keeps past s) :
    Keeps past (State.setCl s n x) := h0.upd

theorem State.setFao_keeps (s : State) (n : Nat) (x : Fao) {past : State} (h0 : Keeps past s) :
    Keeps past (State.setFao s n x) := h0.upd

theorem State.setPulse_keeps (s : State) (n : Nat) (x : Pi) {past : State} (h0 : Keeps past s) :
    Keeps past (State.setPulse s n x) := h0.upd

theorem State.setTripOut_keeps (s : State) (n : Nat) (x : TripOut) {past : State} (h0 : Keeps past s) :
    Keeps past (State.setTripOut s n x) := h0.upd

theorem State.setKeySlot_keeps (s : State) (n : Nat) (x : KeySlot) {past : State} (h0 : Keeps past s) :
    Keeps past (State.setKeySlot s n x) := h0.upd

theorem State.emit_keeps (s : State) (o : Output) {past : State} (h0 : Keeps past s) :
    Keeps past (State.emit s o) := by
  unfold State.emit
  simp (maxDischargeDepth := 40) only [implies_true, Keeps.refl, Keeps.ite, Keeps.upd, Keeps.send, h0]

theorem State.fresh_keeps (s : State) {past : State} (h0 : Keeps past s) :
    Keeps past (State.fresh s).2 := h0.upd

theorem State.holdOuts_keeps (s : State) {past : State} (h0 : Keeps past s) :
    Keeps past (State.holdOuts s) := by
  unfold State.holdOuts
  simp (maxDischargeDepth := 40) only [implies_true, Keeps.refl, Keeps.ite, Keeps.upd, Keeps.send, h0, Keeps.foldl]

theorem State.event_keeps (s : State) (code : Nat) (data : List Nat := []) {past : State} (h0 : Keeps past s) :
    Keeps past (State.event s code data) := h0.upd

theorem State.timeValid_keeps (s : State) {past : State} (h0 : Keeps past s) :
    Keeps past (State.timeValid s) := by
  unfold State.timeValid
  simp (maxDischargeDepth := 40) only [implies_true, Keeps.refl, Keeps.ite, Keeps.upd, Keeps.send, h0, State.event_keeps]

theorem State.msix_keeps (s : State) (v : Nat) {past : State} (h0 : Keeps past s) :
    Keeps past (State.msix s v) := by
  unfold State.msix
  simp (maxDischargeDepth := 40) only [implies_true, Keeps.refl, Keeps.ite, Keeps.upd, Keeps.send, h0]

theorem State.cause_keeps (s : State) (b : Nat) {past : State} (h0 : Keeps past s) :
    Keeps past (State.cause s b) := by
  unfold State.cause
  simp (maxDischargeDepth := 40) only [implies_true, Keeps.refl, Keeps.ite, Keeps.upd, Keeps.send, h0, State.msix_keeps]

theorem State.ctxError_keeps (s : State) (n reason : Nat) {past : State} (h0 : Keeps past s) :
    Keeps past (State.ctxError s n reason) := by
  unfold State.ctxError
  simp (maxDischargeDepth := 40) only [implies_true, Keeps.refl, Keeps.ite, Keeps.upd, Keeps.send, h0, State.cause_keeps,
      State.setCtx_keeps]

theorem State.postEntry_keeps (s : State) (n : Nat) (tag : BitVec 32) (status flags : Nat) (result : BitVec 64) (irq :
    Bool) {past : State} (h0 : Keeps past s) :
    Keeps past (State.postEntry s n tag status flags result irq) := by
  unfold State.postEntry
  simp (maxDischargeDepth := 40) only [implies_true, Keeps.refl, Keeps.ite, Keeps.upd, Keeps.send, h0,
      State.ctxError_keeps, State.emit_keeps, State.msix_keeps, State.setCtx_keeps]

theorem State.goodFrame_keeps (s : State) {past : State} (h0 : Keeps past s) :
    Keeps past (State.goodFrame s) := h0.upd

theorem State.respond_keeps (s : State) (peer : Peer) (r : Req) (signed : Bool) (status flags : Nat) (result : BitVec 64)
    (data : List Byte) {past : State} (h0 : Keeps past s) :
    Keeps past (State.respond s peer r signed status flags result data) := by
  unfold State.respond
  simp (maxDischargeDepth := 40) only [implies_true, Keeps.refl, Keeps.ite, Keeps.upd, Keeps.send, h0]

theorem State.ctxDone_keeps (s : State) (n : Nat) {past : State} (h0 : Keeps past s) :
    Keeps past (State.ctxDone s n) := by
  unfold State.ctxDone
  simp (maxDischargeDepth := 40) only [implies_true, Keeps.refl, Keeps.ite, Keeps.upd, Keeps.send, h0, State.setCtx_keeps]

theorem State.finish_keeps (s : State) (r : Req) (status flags : Nat) (result : BitVec 64) (data : Option (List Byte))
    {past : State} (h0 : Keeps past s) :
    Keeps past (State.finish s r status flags result data) := by
  unfold State.finish
  repeat' first
    | (simp (maxDischargeDepth := 40) only [implies_true, Keeps.refl, Keeps.ite, Keeps.upd, Keeps.send, h0,
        State.ctxDone_keeps, State.emit_keeps, State.postEntry_keeps, State.respond_keeps]; done)
    | split
    | dsimp only

theorem State.mirrorReq_keeps (s : State) (r : Req) {past : State} (h0 : Keeps past s) :
    Keeps past (State.mirrorReq s r) := by
  unfold State.mirrorReq
  simp (maxDischargeDepth := 40) only [implies_true, Keeps.refl, Keeps.ite, Keeps.upd, Keeps.send, h0, State.emit_keeps,
      State.updReq_keeps]

theorem State.answered_keeps (s : State) (rid : Nat) {past : State} (h0 : Keeps past s) :
    Keeps past (State.answered s rid) := h0.upd

theorem State.complete_keeps (s : State) (r : Req) (status : Nat) (result : Nat := 0) (flags : Nat := 0) (data : Option
    (List Byte) := none) {past : State} (h0 : Keeps past s) :
    Keeps past (State.complete s r status result flags data) := by
  unfold State.complete
  simp (maxDischargeDepth := 40) only [implies_true, Keeps.refl, Keeps.ite, Keeps.upd, Keeps.send, h0,
      State.answered_keeps, State.finish_keeps, State.mirrorReq_keeps, State.updReq_keeps]

theorem State.release_keeps (s : State) (rid : Nat) {past : State} (h0 : Keeps past s) :
    Keeps past (State.release s rid) := by
  unfold State.release
  repeat' first
    | (simp (maxDischargeDepth := 40) only [implies_true, Keeps.refl, Keeps.ite, Keeps.upd, Keeps.send, h0,
        State.finish_keeps]; done)
    | split
    | dsimp only

theorem State.onReq_keeps {past : State} (s : State) (rid op : Nat) (k : Req → State) (h0 : Keeps past s)
    (h : ∀ r, Keeps past (k r)) : Keeps past (s.onReq rid op k) := by
  unfold State.onReq
  split
  · split
    · exact h0
    · split
      · exact State.complete_keeps _ _ _ _ _ _ h0
      · exact h _
  · exact h0

theorem State.running_keeps (s : State) (rid : Nat) {past : State} (h0 : Keeps past s) :
    Keeps past (State.running s rid) := by
  unfold State.running
  repeat' first
    | (simp (maxDischargeDepth := 40) only [implies_true, Keeps.refl, Keeps.ite, Keeps.upd, Keeps.send, h0,
        State.answered_keeps, State.mirrorReq_keeps, State.updReq_keeps]; done)
    | split
    | dsimp only

theorem State.changeLog_keeps (s : State) (op actor slot old new target counter : Nat) {past : State} (h0 : Keeps past s)
    :
    Keeps past (State.changeLog s op actor slot old new target counter) := by
  unfold State.changeLog
  simp (maxDischargeDepth := 40) only [implies_true, Keeps.refl, Keeps.ite, Keeps.upd, Keeps.send, h0, State.event_keeps]

theorem State.logChange_keeps (s : State) (r : Req) (old new target : Nat) {past : State} (h0 : Keeps past s) :
    Keeps past (State.logChange s r old new target) := by
  unfold State.logChange
  simp (maxDischargeDepth := 40) only [implies_true, Keeps.refl, Keeps.ite, Keeps.upd, Keeps.send, h0,
      State.changeLog_keeps]

theorem State.postRecord_keeps (s : State) (h : BitVec 32) (stamp : Nat) (frag : Nat) (first last : Bool) (payload : List
    Byte) {past : State} (h0 : Keeps past s) :
    Keeps past (State.postRecord s h stamp frag first last payload) := by
  unfold State.postRecord
  repeat' first
    | (simp (maxDischargeDepth := 40) only [implies_true, Keeps.refl, Keeps.ite, Keeps.upd, Keeps.send, h0,
        State.ctxError_keeps, State.emit_keeps, State.msix_keeps, State.setCtx_keeps]; done)
    | split
    | dsimp only

theorem State.deliver_keeps (s : State) (h : BitVec 32) (stamp : Nat) (items : List (List Byte)) {past : State} (h0 :
    Keeps past s) :
    Keeps past (State.deliver s h stamp items) := by
  unfold State.deliver
  repeat' first
    | (simp (maxDischargeDepth := 40) only [implies_true, Keeps.refl, Keeps.ite, Keeps.upd, Keeps.send, h0, Keeps.foldl,
        State.postRecord_keeps]; done)
    | with_reducible refine Keeps.foldl (fun _ _ => ?_) ?_
    | split
    | dsimp only

theorem State.setSub_keeps (s : State) (x : Sub) {past : State} (h0 : Keeps past s) :
    Keeps past (State.setSub s x) := by
  unfold State.setSub
  simp (maxDischargeDepth := 40) only [implies_true, Keeps.refl, Keeps.ite, Keeps.upd, Keeps.send, h0]

theorem State.subscribe_keeps (s : State) (r : Req) (x : Sub) {past : State} (h0 : Keeps past s) :
    Keeps past (State.subscribe s r x) := by
  unfold State.subscribe
  simp (maxDischargeDepth := 40) only [implies_true, Keeps.refl, Keeps.ite, Keeps.upd, Keeps.send, h0,
      State.complete_keeps]

theorem State.endSession_keeps (s : State) {past : State} (h0 : Keeps past s) :
    Keeps past (State.endSession s) := by
  unfold State.endSession
  repeat' first
    | (simp (maxDischargeDepth := 40) only [implies_true, Keeps.refl, Keeps.ite, Keeps.upd, Keeps.send, h0,
        State.event_keeps]; done)
    | split
    | dsimp only

theorem State.helmHere_keeps (s : State) (h : Holder) (c : Nat) {past : State} (h0 : Keeps past s) :
    Keeps past (State.helmHere s h c) := by
  unfold State.helmHere
  simp (maxDischargeDepth := 40) only [implies_true, Keeps.refl, Keeps.ite, Keeps.upd, Keeps.send, h0, State.cause_keeps,
      State.endSession_keeps, State.event_keeps]

theorem State.setHelm_keeps (s : State) (h : Holder) (c : Nat) {past : State} (h0 : Keeps past s) :
    Keeps past (State.setHelm s h c) := by
  unfold State.setHelm
  simp (maxDischargeDepth := 40) only [implies_true, Keeps.refl, Keeps.ite, Keeps.upd, Keeps.send, h0, State.emit_keeps,
      State.helmHere_keeps]

theorem State.freeHelm_keeps (s : State) (c : Nat) (byHost : Bool) {past : State} (h0 : Keeps past s) :
    Keeps past (State.freeHelm s c byHost) := by
  unfold State.freeHelm
  simp (maxDischargeDepth := 40) only [implies_true, Keeps.refl, Keeps.ite, Keeps.upd, Keeps.send, h0,
      State.setHelm_keeps]

theorem State.srcAssert_keeps (s : State) (n : Nat) {past : State} (h0 : Keeps past s) :
    Keeps past (State.srcAssert s n) := by
  unfold State.srcAssert
  simp (maxDischargeDepth := 40) only [implies_true, Keeps.refl, Keeps.ite, Keeps.upd, Keeps.send, h0, State.event_keeps]

theorem State.putOut_keeps (s : State) (n : Nat) (o : TripOut) {past : State} (h0 : Keeps past s) :
    Keeps past (State.putOut s n o) := by
  unfold State.putOut
  simp (maxDischargeDepth := 40) only [implies_true, Keeps.refl, Keeps.ite, Keeps.upd, Keeps.send, h0, State.cause_keeps,
      State.event_keeps, State.setTripOut_keeps]

theorem State.evalOuts_keeps (s : State) {past : State} (h0 : Keeps past s) :
    Keeps past (State.evalOuts s) := by
  unfold State.evalOuts
  simp (maxDischargeDepth := 40) only [implies_true, Keeps.refl, Keeps.ite, Keeps.upd, Keeps.send, h0, Keeps.foldl,
      State.putOut_keeps]

theorem State.tripEval_keeps (s : State) {past : State} (h0 : Keeps past s) :
    Keeps past (State.tripEval s) := by
  unfold State.tripEval
  simp (maxDischargeDepth := 40) only [implies_true, Keeps.refl, Keeps.ite, Keeps.upd, Keeps.send, h0, Keeps.foldl,
      State.evalOuts_keeps, State.srcAssert_keeps]

theorem State.holdOff_keeps (s : State) {past : State} (h0 : Keeps past s) :
    Keeps past (State.holdOff s) := by
  unfold State.holdOff
  simp (maxDischargeDepth := 40) only [implies_true, Keeps.refl, Keeps.ite, Keeps.upd, Keeps.send, h0, Keeps.foldl,
      State.setDo_keeps]

theorem State.wardEval_keeps (s : State) {past : State} (h0 : Keeps past s) :
    Keeps past (State.wardEval s) := by
  unfold State.wardEval
  simp (maxDischargeDepth := 40) only [implies_true, Keeps.refl, Keeps.ite, Keeps.upd, Keeps.send, h0,
      State.holdOff_keeps, State.tripEval_keeps]

theorem State.safetyFollow_keeps (s : State) {past : State} (h0 : Keeps past s) :
    Keeps past (State.safetyFollow s) := by
  unfold State.safetyFollow
  simp (maxDischargeDepth := 40) only [implies_true, Keeps.refl, Keeps.ite, Keeps.upd, Keeps.send, h0,
      State.wardEval_keeps]

end Sys2Proof.Machine
end

