-- ==== Sys2Proof/Laws/KeepsModes.lean ====
section
/-! SUPPORT. Laws/KeepsModes.lean: what `Keeps` says of the operations and commands of
modes, images, the trip term and field I/O. -/

set_option linter.unusedSimpArgs false

set_option linter.unusedTactic false
set_option linter.unreachableTactic false

namespace Sys2Proof.Machine

theorem State.endTests_keeps (s : State) {past : State} (h0 : Keeps past s) :
    Keeps past (State.endTests s) := by
  unfold State.endTests
  simp (maxDischargeDepth := 40) only [implies_true, Keeps.refl, Keeps.ite, Keeps.upd, Keeps.send, h0, Keeps.foldl,
      State.event_keeps]

theorem State.fwReached_keeps (s : State) {past : State} (h0 : Keeps past s) :
    Keeps past (State.fwReached s) := h0.upd

theorem State.ejectSafe_keeps (s : State) {past : State} (h0 : Keeps past s) :
    Keeps past (State.ejectSafe s) := by
  unfold State.ejectSafe
  simp (maxDischargeDepth := 40) only [implies_true, Keeps.refl, Keeps.ite, Keeps.upd, Keeps.send, h0, State.event_keeps]

theorem State.leavePages_keeps (s : State) {past : State} (h0 : Keeps past s) :
    Keeps past (State.leavePages s) := by
  unfold State.leavePages
  simp (maxDischargeDepth := 40) only [implies_true, Keeps.refl, Keeps.ite, Keeps.upd, Keeps.send, h0]

theorem State.setMode_keeps (s : State) (m : Mode) (cause : Nat) {past : State} (h0 : Keeps past s) :
    Keeps past (State.setMode s m cause) := by
  unfold State.setMode
  simp (maxDischargeDepth := 40) only [implies_true, Keeps.refl, Keeps.ite, Keeps.upd, Keeps.send, h0, State.cause_keeps,
      State.ejectSafe_keeps, State.endSession_keeps, State.endTests_keeps, State.event_keeps, State.fwReached_keeps,
      State.holdOuts_keeps, State.leavePages_keeps, State.safetyFollow_keeps]

theorem State.setRole_keeps (s : State) (r : Role) {past : State} (h0 : Keeps past s) :
    Keeps past (State.setRole s r) := by
  unfold State.setRole
  simp (maxDischargeDepth := 40) only [implies_true, Keeps.refl, Keeps.ite, Keeps.upd, Keeps.send, h0, State.cause_keeps,
      State.ejectSafe_keeps, State.endSession_keeps, State.event_keeps, State.holdOuts_keeps, State.timeValid_keeps]

theorem State.startSpring_keeps (s : State) (n : Nat) {past : State} (h0 : Keeps past s) :
    Keeps past (State.startSpring s n) := by
  unfold State.startSpring
  repeat' first
    | (simp (maxDischargeDepth := 40) only [implies_true, Keeps.refl, Keeps.ite, Keeps.upd, Keeps.send, h0,
        State.setTile_keeps]; done)
    | split
    | dsimp only

theorem State.springTiles_keeps (s : State) {past : State} (h0 : Keeps past s) :
    Keeps past (State.springTiles s) := by
  unfold State.springTiles
  repeat' first
    | (simp (maxDischargeDepth := 40) only [implies_true, Keeps.refl, Keeps.ite, Keeps.upd, Keeps.send, h0, Keeps.foldl,
        State.startSpring_keeps]; done)
    | with_reducible refine Keeps.foldl (fun _ _ => ?_) ?_
    | split
    | dsimp only

theorem State.abandonTrans_keeps (s : State) {past : State} (h0 : Keeps past s) :
    Keeps past (State.abandonTrans s) := by
  unfold State.abandonTrans
  repeat' first
    | (simp (maxDischargeDepth := 40) only [implies_true, Keeps.refl, Keeps.ite, Keeps.upd, Keeps.send, h0,
        State.complete_keeps]; done)
    | split
    | dsimp only

theorem State.markFault_keeps (s : State) {past : State} (h0 : Keeps past s) :
    Keeps past (State.markFault s) := h0.upd

theorem State.beginHold_keeps (s : State) (cause task : Nat) (rid : Option Nat) (bound : Nat) {past : State} (h0 : Keeps
    past s) :
    Keeps past (State.beginHold s cause task rid bound) := by
  unfold State.beginHold
  repeat' first
    | (simp (maxDischargeDepth := 40) only [implies_true, Keeps.refl, Keeps.ite, Keeps.upd, Keeps.send, h0,
        State.cause_keeps, State.emit_keeps, State.fresh_keeps]; done)
    | split
    | dsimp only

theorem State.faultHold_keeps (s : State) (cause task : Nat) {past : State} (h0 : Keeps past s) :
    Keeps past (State.faultHold s cause task) := by
  unfold State.faultHold
  repeat' first
    | (simp (maxDischargeDepth := 40) only [implies_true, Keeps.refl, Keeps.ite, Keeps.upd, Keeps.send, h0,
        State.abandonTrans_keeps, State.beginHold_keeps, State.cause_keeps, State.markFault_keeps]; done)
    | split
    | dsimp only

theorem State.stationHold_keeps (s : State) (cause task : Nat) {past : State} (h0 : Keeps past s) :
    Keeps past (State.stationHold s cause task) := by
  unfold State.stationHold
  simp (maxDischargeDepth := 40) only [implies_true, Keeps.refl, Keeps.ite, Keeps.upd, Keeps.send, h0, State.cause_keeps,
      State.emit_keeps, State.faultHold_keeps]

theorem State.enterHold_keeps (s : State) (cause task : Nat) {past : State} (h0 : Keeps past s) :
    Keeps past (State.enterHold s cause task) := by
  unfold State.enterHold
  simp (maxDischargeDepth := 40) only [implies_true, Keeps.refl, Keeps.ite, Keeps.upd, Keeps.send, h0, State.cause_keeps,
      State.event_keeps, State.setMode_keeps, State.springTiles_keeps]

theorem State.startRestart_keeps (s : State) (warm : Bool) (rid : Option Nat) (cause : Nat) {past : State} (h0 : Keeps
    past s) :
    Keeps past (State.startRestart s warm rid cause) := by
  unfold State.startRestart
  simp (maxDischargeDepth := 40) only [implies_true, Keeps.refl, Keeps.ite, Keeps.upd, Keeps.send, h0, State.cause_keeps,
      State.setMode_keeps, State.springTiles_keeps]

theorem State.wake_keeps (s : State) (cause : Nat) {past : State} (h0 : Keeps past s) :
    Keeps past (State.wake s cause) := by
  unfold State.wake
  simp (maxDischargeDepth := 40) only [implies_true, Keeps.refl, Keeps.ite, Keeps.upd, Keeps.send, h0, State.cause_keeps,
      State.emit_keeps, State.enterHold_keeps, State.startRestart_keeps]

theorem State.tripSettle_keeps (s : State) {past : State} (h0 : Keeps past s) :
    Keeps past (State.tripSettle s) := by
  unfold State.tripSettle
  simp (maxDischargeDepth := 40) only [implies_true, Keeps.refl, Keeps.ite, Keeps.upd, Keeps.send, h0,
      State.tripEval_keeps, State.wake_keeps]

theorem State.ignoreWrite_keeps (s : State) {past : State} (h0 : Keeps past s) :
    Keeps past (State.ignoreWrite s) := by
  unfold State.ignoreWrite
  simp (maxDischargeDepth := 40) only [implies_true, Keeps.refl, Keeps.ite, Keeps.upd, Keeps.send, h0, State.event_keeps]

theorem State.mirrorWrite_keeps (s : State) (off : Nat) (v : BitVec 32) {past : State} (h0 : Keeps past s) :
    Keeps past (State.mirrorWrite s off v) := by
  unfold State.mirrorWrite
  simp (maxDischargeDepth := 40) only [implies_true, Keeps.refl, Keeps.ite, Keeps.upd, Keeps.send, h0, State.emit_keeps]

theorem State.loadStrings_keeps (s : State) {past : State} (h0 : Keeps past s) :
    Keeps past (State.loadStrings s) := by
  unfold State.loadStrings
  repeat' first
    | (simp (maxDischargeDepth := 40) only [implies_true, Keeps.refl, Keeps.ite, Keeps.upd, Keeps.send, h0, Keeps.foldl,
        State.emit_keeps]; done)
    | with_reducible refine Keeps.foldl (fun _ _ => ?_) ?_
    | split
    | dsimp only

theorem State.loopOpened_keeps (s : State) (n : Nat) {past : State} (h0 : Keeps past s) :
    Keeps past (State.loopOpened s n) := by
  unfold State.loopOpened
  simp (maxDischargeDepth := 40) only [implies_true, Keeps.refl, Keeps.ite, Keeps.upd, Keeps.send, h0, State.event_keeps,
      State.setPort_keeps]

theorem State.judgeAlarm_keeps (s : State) (n : Nat) {past : State} (h0 : Keeps past s) :
    Keeps past (State.judgeAlarm s n) := by
  unfold State.judgeAlarm
  repeat' first
    | (simp (maxDischargeDepth := 40) only [implies_true, Keeps.refl, Keeps.ite, Keeps.upd, Keeps.send, h0,
        State.event_keeps, State.setPort_keeps]; done)
    | split
    | dsimp only

theorem State.judgeTone_keeps (s : State) (n : Nat) {past : State} (h0 : Keeps past s) :
    Keeps past (State.judgeTone s n) := by
  unfold State.judgeTone
  repeat' first
    | (simp (maxDischargeDepth := 40) only [implies_true, Keeps.refl, Keeps.ite, Keeps.upd, Keeps.send, h0,
        State.judgeAlarm_keeps, State.loopOpened_keeps, State.setPort_keeps, State.tripSettle_keeps]; done)
    | split
    | dsimp only

theorem State.judgeAll_keeps (s : State) {past : State} (h0 : Keeps past s) :
    Keeps past (State.judgeAll s) := by
  unfold State.judgeAll
  repeat' first
    | (simp (maxDischargeDepth := 40) only [implies_true, Keeps.refl, Keeps.ite, Keeps.upd, Keeps.send, h0, Keeps.foldl,
        State.judgeTone_keeps]; done)
    | with_reducible refine Keeps.foldl (fun _ _ => ?_) ?_
    | split
    | dsimp only

theorem State.putTone_keeps (s : State) (n : Nat) (endB : Bool) (tone : Tone) {past : State} (h0 : Keeps past s) :
    Keeps past (State.putTone s n endB tone) := by
  unfold State.putTone
  simp (maxDischargeDepth := 40) only [implies_true, Keeps.refl, Keeps.ite, Keeps.upd, Keeps.send, h0, State.event_keeps,
      State.judgeTone_keeps, State.setPort_keeps]

theorem State.sendTones_keeps (s : State) {past : State} (h0 : Keeps past s) :
    Keeps past (State.sendTones s) := by
  unfold State.sendTones
  repeat' first
    | (simp (maxDischargeDepth := 40) only [implies_true, Keeps.refl, Keeps.ite, Keeps.upd, Keeps.send, h0, Keeps.foldl,
        State.emit_keeps]; done)
    | with_reducible refine Keeps.foldl (fun _ _ => ?_) ?_
    | split
    | dsimp only

theorem State.taskFault_keeps (s : State) (n : Nat) (b pc : Nat) {past : State} (h0 : Keeps past s) :
    Keeps past (State.taskFault s n b pc) := by
  unfold State.taskFault
  simp (maxDischargeDepth := 40) only [implies_true, Keeps.refl, Keeps.ite, Keeps.upd, Keeps.send, h0, State.event_keeps,
      State.setTask_keeps, State.stationHold_keeps]

theorem State.coreTrap_keeps (s : State) (n : Nat) (t : Task) (c : Cyc) (b : Nat) {past : State} (h0 : Keeps past s) :
    Keeps past (State.coreTrap s n t c b) := by
  unfold State.coreTrap
  simp (maxDischargeDepth := 40) only [implies_true, Keeps.refl, Keeps.ite, Keeps.upd, Keeps.send, h0,
      State.setTask_keeps, State.taskFault_keeps]

theorem State.coreKeep_keeps (s : State) (n : Nat) (t : Task) (c c' : Cyc) {past : State} (h0 : Keeps past s) :
    Keeps past (State.coreKeep s n t c c') := by
  unfold State.coreKeep
  simp (maxDischargeDepth := 40) only [implies_true, Keeps.refl, Keeps.ite, Keeps.upd, Keeps.send, h0, State.event_keeps,
      State.setTask_keeps]

theorem State.core_keeps {past : State} (s : State) (task : Fin 64) (enc : BitVec 32) (f : Env → Cyc → CoreRes)
    (h0 : Keeps past s) : Keeps past (s.core task enc f) := by
  unfold State.core
  dsimp only
  repeat' first
    | (simp only [State.coreTrap_keeps, State.coreKeep_keeps, State.setTask_keeps, h0]; done)
    | split

theorem State.commitUnit_keeps (s : State) (i : Image) (n : Nat) {past : State} (h0 : Keeps past s) :
    Keeps past (State.commitUnit s i n) := by
  unfold State.commitUnit
  simp (maxDischargeDepth := 40) only [implies_true, Keeps.refl, Keeps.ite, Keeps.upd, Keeps.send, h0, Keeps.foldl]

theorem State.commitTasks_keeps (s : State) (concerned : List Nat) {past : State} (h0 : Keeps past s) :
    Keeps past (State.commitTasks s concerned) := by
  unfold State.commitTasks
  repeat' first
    | (simp (maxDischargeDepth := 40) only [implies_true, Keeps.refl, Keeps.ite, Keeps.upd, Keeps.send, h0, Keeps.foldl,
        State.commitUnit_keeps]; done)
    | with_reducible refine Keeps.foldl (fun _ _ => ?_) ?_
    | split
    | dsimp only

theorem State.commitUnits_keeps (s : State) {past : State} (h0 : Keeps past s) :
    Keeps past (State.commitUnits s) := by
  unfold State.commitUnits
  repeat' first
    | (simp (maxDischargeDepth := 40) only [implies_true, Keeps.refl, Keeps.ite, Keeps.upd, Keeps.send, h0, Keeps.foldl,
        State.commitUnit_keeps]; done)
    | with_reducible refine Keeps.foldl (fun _ _ => ?_) ?_
    | split
    | dsimp only

theorem State.applyTrip_keeps (s : State) (b : List Byte) {past : State} (h0 : Keeps past s) :
    Keeps past (State.applyTrip s b) := by
  unfold State.applyTrip
  simp (maxDischargeDepth := 40) only [implies_true, Keeps.refl, Keeps.ite, Keeps.upd, Keeps.send, h0, Keeps.foldl,
      State.event_keeps, State.judgeAll_keeps, State.loadStrings_keeps, State.tripSettle_keeps]

theorem execTripConfig_keeps {past : State} (rid : Nat) (s : State)
    (h : execTripConfig rid s = .next past) : Keeps s past := by
  unfold execTripConfig at h
  simp only [Host.Outcome.next.injEq] at h
  subst h
  simp (maxDischargeDepth := 40) only [implies_true, Keeps.refl, Keeps.ite, Keeps.upd, Keeps.send, State.onReq_keeps,
      State.applyTrip_keeps, State.complete_keeps, State.logChange_keeps]

theorem execSafetyConfig_keeps {past : State} (rid : Nat) (s : State)
    (h : execSafetyConfig rid s = .next past) : Keeps s past := by
  unfold execSafetyConfig at h
  simp only [Host.Outcome.next.injEq] at h
  subst h
  repeat' first
    | (simp (maxDischargeDepth := 40) only [implies_true, Keeps.refl, Keeps.ite, Keeps.upd, Keeps.send, State.onReq_keeps,
        State.complete_keeps, State.logChange_keeps]; done)
    | (with_reducible refine State.onReq_keeps _ _ _ _ (Keeps.refl _) (fun _ => ?_))
    | split
    | dsimp only

theorem State.SafeFn_events_keeps (old new : SafeFn) (s : State) {past : State} (h0 : Keeps past s) :
    Keeps past (SafeFn.events old new s) := by
  unfold SafeFn.events
  simp (maxDischargeDepth := 40) only [implies_true, Keeps.refl, Keeps.ite, Keeps.upd, Keeps.send, h0, Keeps.foldl,
      State.event_keeps]

theorem execSafetyPeriod_keeps {past : State} (t : Nat) (s : State)
    (h : execSafetyPeriod t s = .next past) : Keeps (s.tick t) past := by
  unfold execSafetyPeriod at h
  simp only [Host.Outcome.next.injEq] at h
  subst h
  repeat' first
    | (simp (maxDischargeDepth := 40) only [implies_true, Keeps.refl, Keeps.ite, Keeps.upd, Keeps.send, Keeps.foldl,
        State.SafeFn_events_keeps, State.event_keeps, State.wardEval_keeps]; done)
    | with_reducible refine Keeps.foldl (fun _ _ => ?_) ?_
    | split
    | dsimp only

theorem State.switchFail_keeps (s : State) (n : Nat) (high : Bool) {past : State} (h0 : Keeps past s) :
    Keeps past (State.switchFail s n high) := by
  unfold State.switchFail
  simp (maxDischargeDepth := 40) only [implies_true, Keeps.refl, Keeps.ite, Keeps.upd, Keeps.send, h0, State.event_keeps,
      State.putOut_keeps]

theorem State.resetOut_keeps (s : State) (n actor : Nat) (high low : Bool) {past : State} (h0 : Keeps past s) :
    Keeps past (State.resetOut s n actor high low).1 := by
  unfold State.resetOut
  repeat' first
    | (simp (maxDischargeDepth := 40) only [implies_true, Keeps.refl, Keeps.ite, Keeps.upd, Keeps.send, h0,
        State.event_keeps, State.putOut_keeps, State.setTripOut_keeps, State.switchFail_keeps]; done)
    | split
    | dsimp only

theorem execTripReset_keeps {past : State} (rid : Nat) (high low : Bool) (s : State)
    (h : execTripReset rid high low s = .next past) : Keeps s past := by
  unfold execTripReset at h
  simp only [Host.Outcome.next.injEq] at h
  subst h
  simp (maxDischargeDepth := 40) only [implies_true, Keeps.refl, Keeps.ite, Keeps.upd, Keeps.send, State.onReq_keeps,
      State.complete_keeps, State.logChange_keeps, State.resetOut_keeps]

theorem execPulseTest_keeps {past : State} (t : Nat) (n : Fin 8) (opened closed : Bool) (s : State)
    (h : execPulseTest t n opened closed s = .next past) : Keeps (s.tick t) past := by
  unfold execPulseTest at h
  simp only [Host.Outcome.next.injEq] at h
  subst h
  simp (maxDischargeDepth := 40) only [implies_true, Keeps.refl, Keeps.ite, Keeps.upd, Keeps.send, State.setTripOut_keeps,
      State.switchFail_keeps]

theorem execSwitchFault_keeps {past : State} (t : Nat) (n : Fin 8) (high : Bool) (durNs : Nat) (s : State)
    (h : execSwitchFault t n high durNs s = .next past) : Keeps (s.tick t) past := by
  unfold execSwitchFault at h
  simp only [Host.Outcome.next.injEq] at h
  subst h
  simp (maxDischargeDepth := 40) only [implies_true, Keeps.refl, Keeps.ite, Keeps.upd, Keeps.send, State.switchFail_keeps]

theorem execTripInputEdge_keeps {past : State} (t : Nat) (n : Fin 8) (level : Bool) (stableNs : Nat) (s : State)
    (h : execTripInputEdge t n level stableNs s = .next past) : Keeps (s.tick t) past := by
  unfold execTripInputEdge at h
  simp only [Host.Outcome.next.injEq] at h
  subst h
  simp (maxDischargeDepth := 40) only [implies_true, Keeps.refl, Keeps.ite, Keeps.upd, Keeps.send, State.tripSettle_keeps]

theorem execDieTemperature_keeps {past : State} (t : Nat) (die : Fin 8) (deg : BitVec 16) (s : State)
    (h : execDieTemperature t die deg s = .next past) : Keeps (s.tick t) past := by
  unfold execDieTemperature at h
  simp only [Host.Outcome.next.injEq] at h
  subst h
  simp (maxDischargeDepth := 40) only [implies_true, Keeps.refl, Keeps.ite, Keeps.upd, Keeps.send, State.tripSettle_keeps]

theorem execProofDue_keeps {past : State} (t : Nat) (src : Fin 32) (s : State)
    (h : execProofDue t src s = .next past) : Keeps (s.tick t) past := by
  unfold execProofDue at h
  simp only [Host.Outcome.next.injEq] at h
  subst h
  simp (maxDischargeDepth := 40) only [implies_true, Keeps.refl, Keeps.ite, Keeps.upd, Keeps.send, State.event_keeps]

theorem execTripStatus_keeps {past : State} (rid : Nat) (s : State)
    (h : execTripStatus rid s = .next past) : Keeps s past := by
  unfold execTripStatus at h
  simp only [Host.Outcome.next.injEq] at h
  subst h
  simp (maxDischargeDepth := 40) only [implies_true, Keeps.refl, Keeps.ite, Keeps.upd, Keeps.send, State.onReq_keeps,
      State.complete_keeps]

theorem execSafetyStatus_keeps {past : State} (rid : Nat) (s : State)
    (h : execSafetyStatus rid s = .next past) : Keeps s past := by
  unfold execSafetyStatus at h
  simp only [Host.Outcome.next.injEq] at h
  subst h
  simp (maxDischargeDepth := 40) only [implies_true, Keeps.refl, Keeps.ite, Keeps.upd, Keeps.send, State.onReq_keeps,
      State.complete_keeps]

theorem execDiDebounce_keeps {past : State} (t : Nat) (n : Fin 32) (level : Bool) (stableNs : Nat) (s : State)
    (h : execDiDebounce t n level stableNs s = .next past) : Keeps (s.tick t) past := by
  unfold execDiDebounce at h
  simp only [Host.Outcome.next.injEq] at h
  subst h
  simp (maxDischargeDepth := 40) only [implies_true, Keeps.refl, Keeps.ite, Keeps.upd, Keeps.send, State.setDi_keeps]

theorem execWireBreak_keeps {past : State} (t : Nat) (n : Fin 32) (current : BitVec 32) (durNs : Nat) (s : State)
    (h : execWireBreak t n current durNs s = .next past) : Keeps (s.tick t) past := by
  unfold execWireBreak at h
  simp only [Host.Outcome.next.injEq] at h
  subst h
  simp (maxDischargeDepth := 40) only [implies_true, Keeps.refl, Keeps.ite, Keeps.upd, Keeps.send, State.event_keeps,
      State.setDi_keeps]

theorem execDoShort_keeps {past : State} (t : Nat) (n : Fin 16) (milliamp durNs : Nat) (s : State)
    (h : execDoShort t n milliamp durNs s = .next past) : Keeps (s.tick t) past := by
  unfold execDoShort at h
  simp only [Host.Outcome.next.injEq] at h
  subst h
  simp (maxDischargeDepth := 40) only [implies_true, Keeps.refl, Keeps.ite, Keeps.upd, Keeps.send, State.event_keeps,
      State.setDo_keeps]

theorem execDoRetry_keeps {past : State} (t : Nat) (n : Fin 16) (holds : Bool) (s : State)
    (h : execDoRetry t n holds s = .next past) : Keeps (s.tick t) past := by
  unfold execDoRetry at h
  simp only [Host.Outcome.next.injEq] at h
  subst h
  simp (maxDischargeDepth := 40) only [implies_true, Keeps.refl, Keeps.ite, Keeps.upd, Keeps.send, State.setDo_keeps]

theorem execMismatch_keeps {past : State} (t : Nat) (n : Fin 16) (readback : Bool) (durNs : Nat) (s : State)
    (h : execMismatch t n readback durNs s = .next past) : Keeps (s.tick t) past := by
  unfold execMismatch at h
  simp only [Host.Outcome.next.injEq] at h
  subst h
  simp (maxDischargeDepth := 40) only [implies_true, Keeps.refl, Keeps.ite, Keeps.upd, Keeps.send, State.event_keeps,
      State.setDo_keeps]

theorem State.trimStored_keeps (s : State) (actor ch : Nat) (zero span : F) {past : State} (h0 : Keeps past s) :
    Keeps past (State.trimStored s actor ch zero span) := by
  unfold State.trimStored
  simp (maxDischargeDepth := 40) only [implies_true, Keeps.refl, Keeps.ite, Keeps.upd, Keeps.send, h0, State.event_keeps,
      State.setCl_keeps]

theorem State.captureDone_keeps (s : State) (rid : Option Nat) (ch : Nat) (span : Bool) {past : State} (h0 : Keeps past s)
    :
    Keeps past (State.captureDone s rid ch span) := by
  unfold State.captureDone
  repeat' first
    | (simp (maxDischargeDepth := 40) only [implies_true, Keeps.refl, Keeps.ite, Keeps.upd, Keeps.send, h0,
        State.complete_keeps]; done)
    | split
    | dsimp only

theorem execClConversion_keeps {past : State} (t : Nat) (n : Fin 8) (raw : BitVec 32) (s : State)
    (h : execClConversion t n raw s = .next past) : Keeps (s.tick t) past := by
  unfold execClConversion at h
  simp only [Host.Outcome.next.injEq] at h
  subst h
  repeat' first
    | (simp (maxDischargeDepth := 40) only [implies_true, Keeps.refl, Keeps.ite, Keeps.upd, Keeps.send,
        State.captureDone_keeps, State.event_keeps, State.setCl_keeps]; done)
    | split
    | dsimp only

theorem execMiswire_keeps {past : State} (t : Nat) (n : Fin 8) (milliamp : Nat) (reverse : Bool) (durNs : Nat) (s : State)
    (h : execMiswire t n milliamp reverse durNs s = .next past) : Keeps (s.tick t) past := by
  unfold execMiswire at h
  simp only [Host.Outcome.next.injEq] at h
  subst h
  simp (maxDischargeDepth := 40) only [implies_true, Keeps.refl, Keeps.ite, Keeps.upd, Keeps.send, State.event_keeps,
      State.setCl_keeps]

theorem execMiswireRetry_keeps {past : State} (t : Nat) (n : Fin 8) (holds : Bool) (s : State)
    (h : execMiswireRetry t n holds s = .next past) : Keeps (s.tick t) past := by
  unfold execMiswireRetry at h
  simp only [Host.Outcome.next.injEq] at h
  subst h
  simp (maxDischargeDepth := 40) only [implies_true, Keeps.refl, Keeps.ite, Keeps.upd, Keeps.send, State.setCl_keeps]

theorem State.faiRead_keeps (s : State) (n : Nat) (v : F) {past : State} (h0 : Keeps past s) :
    Keeps past (State.faiRead s n v) := by
  unfold State.faiRead
  simp (maxDischargeDepth := 40) only [implies_true, Keeps.refl, Keeps.ite, Keeps.upd, Keeps.send, h0, State.event_keeps]

theorem execPulseEdge_keeps {past : State} (t : Nat) (n : Fin 4) (e : PulseEdge) (s : State)
    (h : execPulseEdge t n e s = .next past) : Keeps (s.tick t) past := by
  unfold execPulseEdge at h
  simp only [Host.Outcome.next.injEq] at h
  subst h
  repeat' first
    | (simp (maxDischargeDepth := 40) only [implies_true, Keeps.refl, Keeps.ite, Keeps.upd, Keeps.send, State.event_keeps,
        State.setPulse_keeps]; done)
    | split
    | dsimp only

theorem execLineFault_keeps {past : State} (t : Nat) (n : Fin 4) (line : Fin 3) (low : Bool) (durNs : Nat) (s : State)
    (h : execLineFault t n line low durNs s = .next past) : Keeps (s.tick t) past := by
  unfold execLineFault at h
  simp only [Host.Outcome.next.injEq] at h
  subst h
  simp (maxDischargeDepth := 40) only [implies_true, Keeps.refl, Keeps.ite, Keeps.upd, Keeps.send, State.event_keeps,
      State.setPulse_keeps]

theorem execStalled_keeps {past : State} (t : Nat) (n : Fin 4) (s : State)
    (h : execStalled t n s = .next past) : Keeps (s.tick t) past := by
  unfold execStalled at h
  simp only [Host.Outcome.next.injEq] at h
  subst h
  repeat' first
    | (simp (maxDischargeDepth := 40) only [implies_true, Keeps.refl, Keeps.ite, Keeps.upd, Keeps.send,
        State.setPulse_keeps]; done)
    | split
    | dsimp only

theorem execPiStatusRead_keeps {past : State} (t : Nat) (n : Fin 4) (s : State)
    (h : execPiStatusRead t n s = .next past) : Keeps (s.tick t) past := by
  unfold execPiStatusRead at h
  simp only [Host.Outcome.next.injEq] at h
  subst h
  simp (maxDischargeDepth := 40) only [implies_true, Keeps.refl, Keeps.ite, Keeps.upd, Keeps.send, State.emit_keeps,
      State.setPulse_keeps]

theorem State.setWd_keeps (s : State) (group ch : Nat) (expired : Bool) {past : State} (h0 : Keeps past s) :
    Keeps past (State.setWd s group ch expired) := by
  unfold State.setWd
  repeat' first
    | (simp (maxDischargeDepth := 40) only [implies_true, Keeps.refl, Keeps.ite, Keeps.upd, Keeps.send, h0,
        State.setCl_keeps, State.setDo_keeps, State.setFao_keeps]; done)
    | split
    | dsimp only

theorem execWdExpired_keeps {past : State} (t : Nat) (group : Nat) (ch : Fin 16) (s : State)
    (h : execWdExpired t group ch s = .next past) : Keeps (s.tick t) past := by
  unfold execWdExpired at h
  simp only [Host.Outcome.next.injEq] at h
  subst h
  repeat' first
    | (simp (maxDischargeDepth := 40) only [implies_true, Keeps.refl, Keeps.ite, Keeps.upd, Keeps.send, State.event_keeps,
        State.setWd_keeps]; done)
    | split
    | dsimp only

theorem execWdRefresh_keeps {past : State} (t : Nat) (group : Nat) (ch : Fin 16) (s : State)
    (h : execWdRefresh t group ch s = .next past) : Keeps (s.tick t) past := by
  unfold execWdRefresh at h
  simp only [Host.Outcome.next.injEq] at h
  subst h
  repeat' first
    | (simp (maxDischargeDepth := 40) only [implies_true, Keeps.refl, Keeps.ite, Keeps.upd, Keeps.send,
        State.setWd_keeps]; done)
    | split
    | dsimp only

theorem State.fioItem_keeps (s : State) (group ch : Nat) {past : State} (h0 : Keeps past s) : Keeps past (s.fioItem group
    ch).2 := by
  unfold State.fioItem
  split
  rename_i m s1 he
  have h : Keeps past s1 := by
    have h1 : s1 = (if group == 1 || group == 4 then s.fresh else (0, s)).2 := by rw [he]
    rw [h1]; split
    · exact State.fresh_keeps s h0
    · exact h0
  exact h

theorem execFioRead_keeps {past : State} (rid : Nat) (s : State)
    (h : execFioRead rid s = .next past) : Keeps s past := by
  unfold execFioRead at h
  simp only [Host.Outcome.next.injEq] at h
  subst h
  simp (maxDischargeDepth := 40) only [implies_true, Keeps.refl, Keeps.ite, Keeps.upd, Keeps.send, State.onReq_keeps,
      State.complete_keeps, State.fioItem_keeps]

theorem execFioSubscribe_keeps {past : State} (rid : Nat) (handle : BitVec 32) (s : State)
    (h : execFioSubscribe rid handle s = .next past) : Keeps s past := by
  unfold execFioSubscribe at h
  simp only [Host.Outcome.next.injEq] at h
  subst h
  simp (maxDischargeDepth := 40) only [implies_true, Keeps.refl, Keeps.ite, Keeps.upd, Keeps.send, State.onReq_keeps,
      State.subscribe_keeps]

theorem State.flushSub_keeps (s : State) (x : Sub) {past : State} (h0 : Keeps past s) :
    Keeps past (State.flushSub s x) := by
  unfold State.flushSub
  simp (maxDischargeDepth := 40) only [implies_true, Keeps.refl, Keeps.ite, Keeps.upd, Keeps.send, h0,
      State.deliver_keeps]

theorem State.addItem_keeps (s : State) (h : BitVec 32) (mt : Nat) (item : List Byte) {past : State} (h0 : Keeps past s) :
    Keeps past (State.addItem s h mt item) := by
  unfold State.addItem
  repeat' first
    | (simp (maxDischargeDepth := 40) only [implies_true, Keeps.refl, Keeps.ite, Keeps.upd, Keeps.send, h0,
        State.flushSub_keeps, State.setSub_keeps]; done)
    | split
    | dsimp only

theorem execFioSubscribeSample_keeps {past : State} (t : Nat) (sub : BitVec 32) (s : State)
    (h : execFioSubscribeSample t sub s = .next past) : Keeps (s.tick t) past := by
  unfold execFioSubscribeSample at h
  simp only [Host.Outcome.next.injEq] at h
  subst h
  repeat' first
    | (simp (maxDischargeDepth := 40) only [implies_true, Keeps.refl, Keeps.ite, Keeps.upd, Keeps.send,
        State.addItem_keeps, State.fioItem_keeps]; done)
    | split
    | dsimp only

theorem execStreamRecordTimeout_keeps {past : State} (t : Nat) (sub : BitVec 32) (s : State)
    (h : execStreamRecordTimeout t sub s = .next past) : Keeps (s.tick t) past := by
  unfold execStreamRecordTimeout at h
  simp only [Host.Outcome.next.injEq] at h
  subst h
  repeat' first
    | (simp (maxDischargeDepth := 40) only [implies_true, Keeps.refl, Keeps.ite, Keeps.upd, Keeps.send,
        State.flushSub_keeps]; done)
    | split
    | dsimp only

theorem State.setTest_keeps (s : State) (group ch : Nat) (aux : BitVec 32) {past : State} (h0 : Keeps past s) :
    Keeps past (State.setTest s group ch aux) := by
  unfold State.setTest
  repeat' first
    | (simp (maxDischargeDepth := 40) only [implies_true, Keeps.refl, Keeps.ite, Keeps.upd, Keeps.send, h0,
        State.setCl_keeps, State.setDo_keeps, State.setFao_keeps]; done)
    | split
    | dsimp only

theorem execFioTest_keeps {past : State} (rid : Nat) (s : State)
    (h : execFioTest rid s = .next past) : Keeps s past := by
  unfold execFioTest at h
  simp only [Host.Outcome.next.injEq] at h
  subst h
  simp (maxDischargeDepth := 40) only [implies_true, Keeps.refl, Keeps.ite, Keeps.upd, Keeps.send, State.onReq_keeps,
      State.complete_keeps, State.event_keeps, State.running_keeps, State.setTest_keeps]

theorem execFioTestSettled_keeps {past : State} (t : Nat) (readback : BitVec 32) (s : State)
    (h : execFioTestSettled t readback s = .next past) : Keeps (s.tick t) past := by
  unfold execFioTestSettled at h
  simp only [Host.Outcome.next.injEq] at h
  subst h
  repeat' first
    | (simp (maxDischargeDepth := 40) only [implies_true, Keeps.refl, Keeps.ite, Keeps.upd, Keeps.send,
        State.complete_keeps]; done)
    | split
    | dsimp only

theorem execFioTrim_keeps {past : State} (rid : Nat) (s : State)
    (h : execFioTrim rid s = .next past) : Keeps s past := by
  unfold execFioTrim at h
  simp only [Host.Outcome.next.injEq] at h
  subst h
  repeat' first
    | (simp (maxDischargeDepth := 40) only [implies_true, Keeps.refl, Keeps.ite, Keeps.upd, Keeps.send, State.onReq_keeps,
        State.running_keeps, State.setCl_keeps]; done)
    | (with_reducible refine State.onReq_keeps _ _ _ _ (Keeps.refl _) (fun _ => ?_))
    | split
    | dsimp only

theorem State.trimDone_keeps (s : State) (ok : Bool) {past : State} (h0 : Keeps past s) :
    Keeps past (State.trimDone s ok) := by
  unfold State.trimDone
  repeat' first
    | (simp (maxDischargeDepth := 40) only [implies_true, Keeps.refl, Keeps.ite, Keeps.upd, Keeps.send, h0,
        State.complete_keeps, State.trimStored_keeps]; done)
    | split
    | dsimp only

end Sys2Proof.Machine
end

