-- ==== Sys2Proof/Laws/KeepsChannels.lean ====
section
/-! SUPPORT. Laws/KeepsChannels.lean: what `Keeps` says of the operations and commands of
CAN, the ring and the string ports. -/

set_option linter.unusedSimpArgs false

set_option linter.unusedTactic false
set_option linter.unreachableTactic false

namespace Sys2Proof.Machine

theorem execCanSchedule_keeps {past : State} (rid : Nat) (s : State)
    (h : execCanSchedule rid s = .next past) : Keeps s past := by
  unfold execCanSchedule at h
  simp only [Host.Outcome.next.injEq] at h
  subst h
  repeat' first
    | (simp (maxDischargeDepth := 40) only [implies_true, Keeps.refl, Keeps.ite, Keeps.upd, Keeps.send, State.onReq_keeps,
        State.complete_keeps, State.event_keeps, State.setChan_keeps]; done)
    | (with_reducible refine State.onReq_keeps _ _ _ _ (Keeps.refl _) (fun _ => ?_))
    | split
    | dsimp only

theorem execBasicCycleOpen_keeps {past : State} (t : Nat) (ch : Fin 8) (s : State)
    (h : execBasicCycleOpen t ch s = .next past) : Keeps (s.tick t) past := by
  unfold execBasicCycleOpen at h
  simp only [Host.Outcome.next.injEq] at h
  subst h
  repeat' first
    | (simp (maxDischargeDepth := 40) only [implies_true, Keeps.refl, Keeps.ite, Keeps.upd, Keeps.send, State.event_keeps,
        State.setChan_keeps]; done)
    | split
    | dsimp only

theorem State.canCtrl_keeps (s : State) (ch : Nat) (w : BitVec 32) {past : State} (h0 : Keeps past s) :
    Keeps past (State.canCtrl s ch w) := by
  unfold State.canCtrl
  simp (maxDischargeDepth := 40) only [implies_true, Keeps.refl, Keeps.ite, Keeps.upd, Keeps.send, h0, State.event_keeps,
      State.ignoreWrite_keeps, State.mirrorWrite_keeps, State.setChan_keeps]

theorem execCanEnable_keeps {past : State} (t : Nat) (ch : Fin 8) (w : BitVec 32) (s : State)
    (h : execCanEnable t ch w s = .next past) : Keeps (s.tick t) past := by
  unfold execCanEnable at h
  simp only [Host.Outcome.next.injEq] at h
  subst h
  simp (maxDischargeDepth := 40) only [implies_true, Keeps.refl, Keeps.ite, Keeps.upd, Keeps.send, State.canCtrl_keeps]

theorem execCanDisable_keeps {past : State} (t : Nat) (ch : Fin 8) (w : BitVec 32) (s : State)
    (h : execCanDisable t ch w s = .next past) : Keeps (s.tick t) past := by
  unfold execCanDisable at h
  simp only [Host.Outcome.next.injEq] at h
  subst h
  simp (maxDischargeDepth := 40) only [implies_true, Keeps.refl, Keeps.ite, Keeps.upd, Keeps.send, State.canCtrl_keeps]

theorem execCanIntegrated_keeps {past : State} (t : Nat) (ch : Fin 8) (s : State)
    (h : execCanIntegrated t ch s = .next past) : Keeps (s.tick t) past := by
  unfold execCanIntegrated at h
  simp only [Host.Outcome.next.injEq] at h
  subst h
  simp (maxDischargeDepth := 40) only [implies_true, Keeps.refl, Keeps.ite, Keeps.upd, Keeps.send, State.event_keeps,
      State.setChan_keeps]

theorem execRecover_keeps {past : State} (t : Nat) (ch : Fin 8) (s : State)
    (h : execRecover t ch s = .next past) : Keeps (s.tick t) past := by
  unfold execRecover at h
  simp only [Host.Outcome.next.injEq] at h
  subst h
  simp (maxDischargeDepth := 40) only [implies_true, Keeps.refl, Keeps.ite, Keeps.upd, Keeps.send, State.setChan_keeps]

theorem execBusOffRecovered_keeps {past : State} (t : Nat) (ch : Fin 8) (s : State)
    (h : execBusOffRecovered t ch s = .next past) : Keeps (s.tick t) past := by
  unfold execBusOffRecovered at h
  simp only [Host.Outcome.next.injEq] at h
  subst h
  simp (maxDischargeDepth := 40) only [implies_true, Keeps.refl, Keeps.ite, Keeps.upd, Keeps.send, State.event_keeps,
      State.setChan_keeps]

theorem State.canCounters_keeps (s : State) (ch tec rec : Nat) {past : State} (h0 : Keeps past s) :
    Keeps past (State.canCounters s ch tec rec) := by
  unfold State.canCounters
  simp (maxDischargeDepth := 40) only [implies_true, Keeps.refl, Keeps.ite, Keeps.upd, Keeps.send, h0, State.event_keeps,
      State.setChan_keeps]

theorem State.exclChecked_keeps (s : State) (ch : Nat) (e : CanSlot) (acked : Bool) {past : State} (h0 : Keeps past s) :
    Keeps past (State.exclChecked s ch e acked) := by
  unfold State.exclChecked
  repeat' first
    | (simp (maxDischargeDepth := 40) only [implies_true, Keeps.refl, Keeps.ite, Keeps.upd, Keeps.send, h0]; done)
    | split
    | dsimp only

theorem State.exclMissed_keeps (s : State) (ch : Nat) (e : CanSlot) {past : State} (h0 : Keeps past s) :
    Keeps past (State.exclMissed s ch e) := by
  unfold State.exclMissed
  simp (maxDischargeDepth := 40) only [implies_true, Keeps.refl, Keeps.ite, Keeps.upd, Keeps.send, h0, State.event_keeps,
      State.exclChecked_keeps, State.setChan_keeps]

theorem State.slotClose_keeps (s : State) (ch : Nat) {past : State} (h0 : Keeps past s) :
    Keeps past (State.slotClose s ch) := by
  unfold State.slotClose
  repeat' first
    | (simp (maxDischargeDepth := 40) only [implies_true, Keeps.refl, Keeps.ite, Keeps.upd, Keeps.send, h0,
        State.event_keeps, State.exclMissed_keeps, State.setChan_keeps]; done)
    | split
    | dsimp only

theorem execCanSlotClose_keeps {past : State} (t : Nat) (ch : Fin 8) (s : State)
    (h : execCanSlotClose t ch s = .next past) : Keeps (s.tick t) past := by
  unfold execCanSlotClose at h
  simp only [Host.Outcome.next.injEq] at h
  subst h
  repeat' first
    | (simp (maxDischargeDepth := 40) only [implies_true, Keeps.refl, Keeps.ite, Keeps.upd, Keeps.send,
        State.slotClose_keeps]; done)
    | split
    | dsimp only

theorem State.canDeliver_keeps (s : State) (ch stamp : Nat) (f : CanFrame) (own : Bool) {past : State} (h0 : Keeps past s)
    :
    Keeps past (State.canDeliver s ch stamp f own) := by
  unfold State.canDeliver
  simp (maxDischargeDepth := 40) only [implies_true, Keeps.refl, Keeps.ite, Keeps.upd, Keeps.send, h0, Keeps.foldl,
      State.addItem_keeps, State.setChan_keeps]

theorem execCanFrameReceive_keeps {past : State} (t : Nat) (ch : Fin 8) (stamp : Nat) (f : CanFrame) (err : Nat) (rec :
    Nat) (s : State)
    (h : execCanFrameReceive t ch stamp f err rec s = .next past) : Keeps (s.tick t) past := by
  unfold execCanFrameReceive at h
  simp only [Host.Outcome.next.injEq] at h
  subst h
  simp (maxDischargeDepth := 40) only [implies_true, Keeps.refl, Keeps.ite, Keeps.upd, Keeps.send,
      State.canCounters_keeps, State.canDeliver_keeps, State.emit_keeps, State.setChan_keeps]

theorem execCanRxTimeout_keeps {past : State} (t : Nat) (ch : Fin 8) (filter : Nat) (s : State)
    (h : execCanRxTimeout t ch filter s = .next past) : Keeps (s.tick t) past := by
  unfold execCanRxTimeout at h
  simp only [Host.Outcome.next.injEq] at h
  subst h
  repeat' first
    | (simp (maxDischargeDepth := 40) only [implies_true, Keeps.refl, Keeps.ite, Keeps.upd, Keeps.send,
        State.setChan_keeps]; done)
    | split
    | dsimp only

theorem execCanSubscribe_keeps {past : State} (rid : Nat) (handle : BitVec 32) (s : State)
    (h : execCanSubscribe rid handle s = .next past) : Keeps s past := by
  unfold execCanSubscribe at h
  simp only [Host.Outcome.next.injEq] at h
  subst h
  simp (maxDischargeDepth := 40) only [implies_true, Keeps.refl, Keeps.ite, Keeps.upd, Keeps.send, State.onReq_keeps,
      State.subscribe_keeps]

theorem State.canNoAck_keeps (s : State) (ch : Nat) {past : State} (h0 : Keeps past s) :
    Keeps past (State.canNoAck s ch) := by
  unfold State.canNoAck
  simp (maxDischargeDepth := 40) only [implies_true, Keeps.refl, Keeps.ite, Keeps.upd, Keeps.send, h0, State.event_keeps,
      State.setChan_keeps]

theorem State.canAcked_keeps (s : State) (ch stamp : Nat) (o : CanOpen) {past : State} (h0 : Keeps past s) :
    Keeps past (State.canAcked s ch stamp o) := by
  unfold State.canAcked
  repeat' first
    | (simp (maxDischargeDepth := 40) only [implies_true, Keeps.refl, Keeps.ite, Keeps.upd, Keeps.send, h0,
        State.canDeliver_keeps, State.complete_keeps, State.emit_keeps, State.event_keeps, State.exclChecked_keeps,
        State.setChan_keeps]; done)
    | split
    | dsimp only

theorem execCanFrameSent_keeps {past : State} (t : Nat) (ch : Fin 8) (stamp : Nat) (res : CanEnd) (tec : Nat) (tdcv :
    Option (BitVec 7)) (s : State)
    (h : execCanFrameSent t ch stamp res tec tdcv s = .next past) : Keeps (s.tick t) past := by
  unfold execCanFrameSent at h
  simp only [Host.Outcome.next.injEq] at h
  subst h
  repeat' first
    | (simp (maxDischargeDepth := 40) only [implies_true, Keeps.refl, Keeps.ite, Keeps.upd, Keeps.send,
        State.canAcked_keeps, State.canCounters_keeps, State.canNoAck_keeps, State.emit_keeps, State.exclMissed_keeps,
        State.setChan_keeps]; done)
    | split
    | dsimp only

theorem execCanSend_keeps {past : State} (rid : Nat) (s : State)
    (h : execCanSend rid s = .next past) : Keeps s past := by
  unfold execCanSend at h
  simp only [Host.Outcome.next.injEq] at h
  subst h
  simp (maxDischargeDepth := 40) only [implies_true, Keeps.refl, Keeps.ite, Keeps.upd, Keeps.send, State.onReq_keeps,
      State.complete_keeps, State.running_keeps, State.setChan_keeps]

theorem execCanSendExpiry_keeps {past : State} (t : Nat) (ch : Fin 8) (s : State)
    (h : execCanSendExpiry t ch s = .next past) : Keeps (s.tick t) past := by
  unfold execCanSendExpiry at h
  simp only [Host.Outcome.next.injEq] at h
  subst h
  repeat' first
    | (simp (maxDischargeDepth := 40) only [implies_true, Keeps.refl, Keeps.ite, Keeps.upd, Keeps.send,
        State.complete_keeps, State.event_keeps, State.setChan_keeps]; done)
    | split
    | dsimp only

theorem State.ringApply_keeps (s : State) (w : BitVec 32) {past : State} (h0 : Keeps past s) :
    Keeps past (State.ringApply s w) := by
  unfold State.ringApply
  repeat' first
    | (simp (maxDischargeDepth := 40) only [implies_true, Keeps.refl, Keeps.ite, Keeps.upd, Keeps.send, h0,
        State.emit_keeps, State.event_keeps, State.mirrorWrite_keeps]; done)
    | split
    | dsimp only

theorem execApply_keeps {past : State} (t : Nat) (w : BitVec 32) (s : State)
    (h : execApply t w s = .next past) : Keeps (s.tick t) past := by
  unfold execApply at h
  simp only [Host.Outcome.next.injEq] at h
  subst h
  simp (maxDischargeDepth := 40) only [implies_true, Keeps.refl, Keeps.ite, Keeps.upd, Keeps.send, State.ringApply_keeps]

theorem State.setLink_keeps (s : State) (east : Bool) (l : RingLink) {past : State} (h0 : Keeps past s) :
    Keeps past (State.setLink s east l) := by
  unfold State.setLink
  simp (maxDischargeDepth := 40) only [implies_true, Keeps.refl, Keeps.ite, Keeps.upd, Keeps.send, h0]

theorem State.ringStart_keeps (s : State) (east : Bool) (f : RingFrame) {past : State} (h0 : Keeps past s) :
    Keeps past (State.ringStart s east f) := by
  unfold State.ringStart
  repeat' first
    | (simp (maxDischargeDepth := 40) only [implies_true, Keeps.refl, Keeps.ite, Keeps.upd, Keeps.send, h0,
        State.emit_keeps]; done)
    | split
    | dsimp only

theorem State.ringOut_keeps (s : State) (east : Bool) (f : RingFrame) {past : State} (h0 : Keeps past s) :
    Keeps past (State.ringOut s east f) := by
  unfold State.ringOut
  simp (maxDischargeDepth := 40) only [implies_true, Keeps.refl, Keeps.ite, Keeps.upd, Keeps.send, h0,
      State.ringStart_keeps]

theorem State.ringDrain_keeps (s : State) {past : State} (h0 : Keeps past s) :
    Keeps past (State.ringDrain s) := by
  unfold State.ringDrain
  repeat' first
    | (simp (maxDischargeDepth := 40) only [implies_true, Keeps.refl, Keeps.ite, Keeps.upd, Keeps.send, h0, Keeps.foldl,
        State.emit_keeps]; done)
    | with_reducible refine Keeps.foldl (fun _ _ => ?_) ?_
    | split
    | dsimp only

theorem State.ringOwn_keeps (s : State) (kind cls sub : Nat) (stamp : Nat) (payload : List Byte) {past : State} (h0 :
    Keeps past s) :
    Keeps past (State.ringOwn s kind cls sub stamp payload).2 := h0.upd

theorem State.ringSend_keeps (s : State) (kind cls sub stamp : Nat) (payload : List Byte) {past : State} (h0 : Keeps past
    s) :
    Keeps past (State.ringSend s kind cls sub stamp payload) := by
  unfold State.ringSend
  simp (maxDischargeDepth := 40) only [implies_true, Keeps.refl, Keeps.ite, Keeps.upd, Keeps.send, h0,
      State.ringOut_keeps, State.ringOwn_keeps]

theorem State.setMaster_keeps (s : State) (node prio state : Nat) {past : State} (h0 : Keeps past s) :
    Keeps past (State.setMaster s node prio state) := by
  unfold State.setMaster
  simp (maxDischargeDepth := 40) only [implies_true, Keeps.refl, Keeps.ite, Keeps.upd, Keeps.send, h0, State.event_keeps]

theorem State.electMaster_keeps (s : State) {past : State} (h0 : Keeps past s) :
    Keeps past (State.electMaster s) := by
  unfold State.electMaster
  simp (maxDischargeDepth := 40) only [implies_true, Keeps.refl, Keeps.ite, Keeps.upd, Keeps.send, h0,
      State.setMaster_keeps]

theorem State.sendSync_keeps (s : State) {past : State} (h0 : Keeps past s) :
    Keeps past (State.sendSync s) := by
  unfold State.sendSync
  simp (maxDischargeDepth := 40) only [implies_true, Keeps.refl, Keeps.ite, Keeps.upd, Keeps.send, h0,
      State.ringOut_keeps, State.ringOwn_keeps]

theorem State.sendDrops_keeps (s : State) {past : State} (h0 : Keeps past s) :
    Keeps past (State.sendDrops s) := by
  unfold State.sendDrops
  simp (maxDischargeDepth := 40) only [implies_true, Keeps.refl, Keeps.ite, Keeps.upd, Keeps.send, h0, Keeps.foldl,
      State.ringSend_keeps]

theorem State.sendBlocks_keeps (s : State) {past : State} (h0 : Keeps past s) :
    Keeps past (State.sendBlocks s) := by
  unfold State.sendBlocks
  simp (maxDischargeDepth := 40) only [implies_true, Keeps.refl, Keeps.ite, Keeps.upd, Keeps.send, h0, Keeps.foldl,
      State.ringSend_keeps]

theorem execLinkFrameSend_keeps {past : State} (t : Nat) (s : State)
    (h : execLinkFrameSend t s = .next past) : Keeps (s.tick t) past := by
  unfold execLinkFrameSend at h
  simp only [Host.Outcome.next.injEq] at h
  subst h
  simp (maxDischargeDepth := 40) only [implies_true, Keeps.refl, Keeps.ite, Keeps.upd, Keeps.send, State.emit_keeps,
      State.ringDrain_keeps, State.ringOwn_keeps]

theorem execTripFrameSend_keeps {past : State} (t : Nat) (s : State)
    (h : execTripFrameSend t s = .next past) : Keeps (s.tick t) past := by
  unfold execTripFrameSend at h
  simp only [Host.Outcome.next.injEq] at h
  subst h
  simp (maxDischargeDepth := 40) only [implies_true, Keeps.refl, Keeps.ite, Keeps.upd, Keeps.send, State.ringSend_keeps]

theorem State.ringForward_keeps (s : State) (east : Bool) (f : RingFrame) {past : State} (h0 : Keeps past s) :
    Keeps past (State.ringForward s east f) := by
  unfold State.ringForward
  simp (maxDischargeDepth := 40) only [implies_true, Keeps.refl, Keeps.ite, Keeps.upd, Keeps.send, h0, State.fresh_keeps,
      State.ringOut_keeps]

theorem State.seqTake_keeps (s : State) (f : RingFrame) {past : State} (h0 : Keeps past s) :
    Keeps past (State.seqTake s f) := h0.upd

theorem State.ringIn_keeps (s : State) (east : Bool) (f : RingFrame) {past : State} (h0 : Keeps past s) :
    Keeps past (State.ringIn s east f) := by
  unfold State.ringIn
  simp (maxDischargeDepth := 40) only [implies_true, Keeps.refl, Keeps.ite, Keeps.upd, Keeps.send, h0,
      State.ringDrain_keeps, State.ringForward_keeps]

theorem State.ringUse_keeps {past : State} (s : State) (f : RingFrame) (use : State → State) (h0 : Keeps past s)
    (h : ∀ u, Keeps past u → Keeps past (use u)) : Keeps past (s.ringUse f use) := by
  unfold State.ringUse
  split
  · exact h0
  · refine h _ ?_
    split
    · exact State.emit_keeps _ _ h0
    · exact h0

theorem State.ringAccept_keeps {past : State} (s : State) (t : Nat) (east : Bool) (f : RingFrame) (kind : Nat)
    (use : State → State) (h0 : Keeps past (s.tick t)) (h : ∀ u, Keeps past u → Keeps past (use u)) :
    Keeps past (s.ringAccept t east f kind use) := by
  unfold State.ringAccept
  dsimp only
  repeat' first
    | (simp (maxDischargeDepth := 20) only [State.ringIn_keeps, State.seqTake_keeps, h0]; done)
    | (with_reducible refine State.ringUse_keeps _ _ _ ?_ h)
    | split

theorem State.idConflict_keeps (s : State) (id node : Nat) {past : State} (h0 : Keeps past s) :
    Keeps past (State.idConflict s id node) := by
  unfold State.idConflict
  simp (maxDischargeDepth := 40) only [implies_true, Keeps.refl, Keeps.ite, Keeps.upd, Keeps.send, h0, State.event_keeps]

theorem State.setVal_keeps (s : State) (id : Nat) (v : RingVal) {past : State} (h0 : Keeps past s) :
    Keeps past (State.setVal s id v) := h0.upd

theorem State.useEntry_keeps (f : RingFrame) (s : State) (e : List Byte) {past : State} (h0 : Keeps past s) :
    Keeps past (State.useEntry f s e) := by
  unfold State.useEntry
  repeat' first
    | (simp (maxDischargeDepth := 40) only [implies_true, Keeps.refl, Keeps.ite, Keeps.upd, Keeps.send, h0,
        State.idConflict_keeps, State.setVal_keeps]; done)
    | split
    | dsimp only

theorem State.useData_keeps (s : State) (f : RingFrame) {past : State} (h0 : Keeps past s) :
    Keeps past (State.useData s f) := by
  unfold State.useData
  simp (maxDischargeDepth := 40) only [implies_true, Keeps.refl, Keeps.ite, Keeps.upd, Keeps.send, h0, Keeps.foldl,
      State.useEntry_keeps]

theorem State.useBlock_keeps (s : State) (f : RingFrame) {past : State} (h0 : Keeps past s) :
    Keeps past (State.useBlock s f) := by
  unfold State.useBlock
  simp (maxDischargeDepth := 40) only [implies_true, Keeps.refl, Keeps.ite, Keeps.upd, Keeps.send, h0,
      State.idConflict_keeps, State.setVal_keeps]

theorem State.useDrop_keeps (s : State) (f : RingFrame) {past : State} (h0 : Keeps past s) :
    Keeps past (State.useDrop s f) := by
  unfold State.useDrop
  simp (maxDischargeDepth := 40) only [implies_true, Keeps.refl, Keeps.ite, Keeps.upd, Keeps.send, h0, Keeps.foldl,
      State.deliver_keeps, State.event_keeps]

theorem State.useTrip_keeps (s : State) (f : RingFrame) {past : State} (h0 : Keeps past s) :
    Keeps past (State.useTrip s f) := by
  unfold State.useTrip
  simp (maxDischargeDepth := 40) only [implies_true, Keeps.refl, Keeps.ite, Keeps.upd, Keeps.send, h0, State.event_keeps,
      State.setVal_keeps]

theorem execDataFrameReceive_keeps {past : State} (t : Nat) (east : Bool) (f : RingFrame) (s : State)
    (h : execDataFrameReceive t east f s = .next past) : Keeps (s.tick t) past := by
  cases h; exact State.ringAccept_keeps _ _ _ _ _ _ (.refl _) (fun u k => State.useData_keeps u f k)

theorem execBlockFrameReceive_keeps {past : State} (t : Nat) (east : Bool) (f : RingFrame) (s : State)
    (h : execBlockFrameReceive t east f s = .next past) : Keeps (s.tick t) past := by
  cases h; exact State.ringAccept_keeps _ _ _ _ _ _ (.refl _) (fun u k => State.useBlock_keeps u f k)

theorem execDropImageReceive_keeps {past : State} (t : Nat) (east : Bool) (f : RingFrame) (s : State)
    (h : execDropImageReceive t east f s = .next past) : Keeps (s.tick t) past := by
  cases h; exact State.ringAccept_keeps _ _ _ _ _ _ (.refl _) (fun u k => State.useDrop_keeps u f k)

theorem execTripFrameReceive_keeps {past : State} (t : Nat) (east : Bool) (f : RingFrame) (s : State)
    (h : execTripFrameReceive t east f s = .next past) : Keeps (s.tick t) past := by
  cases h; exact State.ringAccept_keeps _ _ _ _ _ _ (.refl _) (fun u k => State.useTrip_keeps u f k)

theorem execServiceFrameReceive_keeps {past : State} (t : Nat) (east : Bool) (f : RingFrame) (s : State)
    (h : execServiceFrameReceive t east f s = .next past) : Keeps (s.tick t) past := by
  unfold execServiceFrameReceive at h
  simp only [Host.Outcome.next.injEq] at h
  subst h
  split
  · exact .refl _
  · exact State.ringAccept_keeps _ _ _ _ _ _ (.refl _) (fun u k => k)

theorem State.hearMaster_keeps (s : State) (f : RingFrame) {past : State} (h0 : Keeps past s) :
    Keeps past (State.hearMaster s f) := by
  unfold State.hearMaster
  repeat' first
    | (simp (maxDischargeDepth := 40) only [implies_true, Keeps.refl, Keeps.ite, Keeps.upd, Keeps.send, h0,
        State.event_keeps, State.setMaster_keeps]; done)
    | split
    | dsimp only

theorem execSyncTimeout_keeps {past : State} (t : Nat) (s : State)
    (h : execSyncTimeout t s = .next past) : Keeps (s.tick t) past := by
  unfold execSyncTimeout at h
  simp only [Host.Outcome.next.injEq] at h
  subst h
  repeat' first
    | (simp (maxDischargeDepth := 40) only [implies_true, Keeps.refl, Keeps.ite, Keeps.upd, Keeps.send,
        State.event_keeps]; done)
    | split
    | dsimp only

theorem State.isolationChange_keeps (old new : State) {past : State} (h0 : Keeps past new) : Keeps past
    (State.isolationChange old new) := by
  unfold State.isolationChange
  repeat' first
    | (simp (maxDischargeDepth := 40) only [implies_true, Keeps.refl, Keeps.upd, h0, State.event_keeps]; done)
    | split
    | dsimp only

theorem State.loseLink_keeps (s : State) (east : Bool) (l : RingLink) {past : State} (h0 : Keeps past s) :
    Keeps past (State.loseLink s east l) := by
  unfold State.loseLink
  repeat' first
    | (simp (maxDischargeDepth := 40) only [implies_true, Keeps.refl, Keeps.ite, Keeps.upd, Keeps.send, h0,
        State.event_keeps, State.isolationChange_keeps, State.setLink_keeps]; done)
    | split
    | dsimp only

theorem execLinkLost_keeps {past : State} (t : Nat) (port : PortLoss) (s : State)
    (h : execLinkLost t port s = .next past) : Keeps (s.tick t) past := by
  unfold execLinkLost at h
  simp only [Host.Outcome.next.injEq] at h
  subst h
  simp (maxDischargeDepth := 40) only [implies_true, Keeps.refl, Keeps.ite, Keeps.upd, Keeps.send, State.loseLink_keeps,
      State.setLink_keeps]

theorem execRingLinkUp_keeps {past : State} (t : Nat) (east : Bool) (s : State)
    (h : execRingLinkUp t east s = .next past) : Keeps (s.tick t) past := by
  unfold execRingLinkUp at h
  simp only [Host.Outcome.next.injEq] at h
  subst h
  simp (maxDischargeDepth := 40) only [implies_true, Keeps.refl, Keeps.ite, Keeps.upd, Keeps.send, State.setLink_keeps]

theorem execLinkFrameReceive_keeps {past : State} (t : Nat) (east : Bool) (f : RingFrame) (s : State)
    (h : execLinkFrameReceive t east f s = .next past) : Keeps (s.tick t) past := by
  unfold execLinkFrameReceive at h
  simp only [Host.Outcome.next.injEq] at h
  subst h
  simp (maxDischargeDepth := 40) only [implies_true, Keeps.refl, Keeps.ite, Keeps.upd, Keeps.send, State.event_keeps,
      State.isolationChange_keeps, State.ringIn_keeps, State.seqTake_keeps, State.setLink_keeps]

theorem State.unwrapPort_keeps (s : State) (east : Bool) {past : State} (h0 : Keeps past s) :
    Keeps past (State.unwrapPort s east) := by
  unfold State.unwrapPort
  repeat' first
    | (simp (maxDischargeDepth := 40) only [implies_true, Keeps.refl, Keeps.ite, Keeps.upd, Keeps.send, h0,
        State.event_keeps, State.setLink_keeps]; done)
    | split
    | dsimp only

theorem State.unwrapDue_keeps (s : State) {past : State} (h0 : Keeps past s) :
    Keeps past (State.unwrapDue s) := by
  unfold State.unwrapDue
  repeat' first
    | (simp (maxDischargeDepth := 40) only [implies_true, Keeps.refl, Keeps.ite, Keeps.upd, Keeps.send, h0,
        State.unwrapPort_keeps]; done)
    | split
    | dsimp only

theorem execUnwrap_keeps {past : State} (t : Nat) (s : State)
    (h : execUnwrap t s = .next past) : Keeps (s.tick t) past := by
  unfold execUnwrap at h
  simp only [Host.Outcome.next.injEq] at h
  subst h
  repeat' first
    | (simp (maxDischargeDepth := 40) only [implies_true, Keeps.refl, Keeps.ite, Keeps.upd, Keeps.send,
        State.unwrapDue_keeps]; done)
    | split
    | dsimp only

theorem State.loseVal_keeps (s : State) (key wait : Nat) {past : State} (h0 : Keeps past s) :
    Keeps past (State.loseVal s key wait) := by
  unfold State.loseVal
  repeat' first
    | (simp (maxDischargeDepth := 40) only [implies_true, Keeps.refl, Keeps.ite, Keeps.upd, Keeps.send, h0,
        State.setVal_keeps]; done)
    | split
    | dsimp only

theorem execValueLost_keeps {past : State} (t : Nat) (id : BitVec 16) (s : State)
    (h : execValueLost t id s = .next past) : Keeps (s.tick t) past := by
  unfold execValueLost at h
  simp only [Host.Outcome.next.injEq] at h
  subst h
  repeat' first
    | (simp (maxDischargeDepth := 40) only [implies_true, Keeps.refl, Keeps.ite, Keeps.upd, Keeps.send,
        State.loseVal_keeps]; done)
    | split
    | dsimp only

theorem execDropLost_keeps {past : State} (t : Nat) (node : Fin 64) (s : State)
    (h : execDropLost t node s = .next past) : Keeps (s.tick t) past := by
  unfold execDropLost at h
  simp only [Host.Outcome.next.injEq] at h
  subst h
  simp (maxDischargeDepth := 40) only [implies_true, Keeps.refl, Keeps.ite, Keeps.upd, Keeps.send, State.event_keeps]

theorem execBypassForce_keeps {past : State} (rid : Nat) (s : State)
    (h : execBypassForce rid s = .next past) : Keeps s past := by
  unfold execBypassForce at h
  simp only [Host.Outcome.next.injEq] at h
  subst h
  simp (maxDischargeDepth := 40) only [implies_true, Keeps.refl, Keeps.ite, Keeps.upd, Keeps.send, State.onReq_keeps,
      State.complete_keeps, State.running_keeps, State.setLink_keeps]

theorem execRelaySense_keeps {past : State} (t : Nat) (eastClosed westClosed : Bool) (s : State)
    (h : execRelaySense t eastClosed westClosed s = .next past) : Keeps (s.tick t) past := by
  unfold execRelaySense at h
  simp only [Host.Outcome.next.injEq] at h
  subst h
  repeat' first
    | (simp (maxDischargeDepth := 40) only [implies_true, Keeps.refl, Keeps.ite, Keeps.upd, Keeps.send,
        State.complete_keeps, State.event_keeps, State.setLink_keeps]; done)
    | split
    | dsimp only

theorem execRingStatus_keeps {past : State} (rid : Nat) (s : State)
    (h : execRingStatus rid s = .next past) : Keeps s past := by
  unfold execRingStatus at h
  simp only [Host.Outcome.next.injEq] at h
  subst h
  simp (maxDischargeDepth := 40) only [implies_true, Keeps.refl, Keeps.ite, Keeps.upd, Keeps.send, State.onReq_keeps,
      State.complete_keeps]

theorem execDropSubscribe_keeps {past : State} (rid : Nat) (handle : BitVec 32) (s : State)
    (h : execDropSubscribe rid handle s = .next past) : Keeps s past := by
  unfold execDropSubscribe at h
  simp only [Host.Outcome.next.injEq] at h
  subst h
  simp (maxDischargeDepth := 40) only [implies_true, Keeps.refl, Keeps.ite, Keeps.upd, Keeps.send, State.onReq_keeps,
      State.complete_keeps, State.subscribe_keeps]

theorem State.chainOut_keeps (s : State) (n : Nat) (endB : Bool) (bytes : List Byte) {past : State} (h0 : Keeps past s) :
    Keeps past (State.chainOut s n endB bytes) := by
  unfold State.chainOut
  simp (maxDischargeDepth := 40) only [implies_true, Keeps.refl, Keeps.ite, Keeps.upd, Keeps.send, h0, State.emit_keeps]

theorem State.sendFrame_keeps (s : State) (n : Nat) (endB : Bool) (dur : Nat) (bytes : List Byte) {past : State} (h0 :
    Keeps past s) :
    Keeps past (State.sendFrame s n endB dur bytes) := by
  unfold State.sendFrame
  repeat' first
    | (simp (maxDischargeDepth := 40) only [implies_true, Keeps.refl, Keeps.ite, Keeps.upd, Keeps.send, h0,
        State.chainOut_keeps, State.setPort_keeps]; done)
    | split
    | dsimp only

theorem State.reportPort_keeps (s : State) (was : Port) (n : Nat) {past : State} (h0 : Keeps past s) :
    Keeps past (State.reportPort s was n) := by
  unfold State.reportPort
  repeat' first
    | (simp (maxDischargeDepth := 40) only [implies_true, Keeps.refl, Keeps.ite, Keeps.upd, Keeps.send, h0,
        State.emit_keeps]; done)
    | split
    | dsimp only

theorem execToneStateChange_keeps {past : State} (t : Nat) (port : Fin 16) (endB : Bool) (tone : Tone) (s : State)
    (h : execToneStateChange t port endB tone s = .next past) : Keeps (s.tick t) past := by
  unfold execToneStateChange at h
  simp only [Host.Outcome.next.injEq] at h
  subst h
  simp (maxDischargeDepth := 40) only [implies_true, Keeps.refl, Keeps.ite, Keeps.upd, Keeps.send, State.putTone_keeps]

theorem execToneReport_keeps {past : State} (t : Nat) (port : Fin 16) (endB : Bool) (tone : Tone) (s : State)
    (h : execToneReport t port endB tone s = .next past) : Keeps (s.tick t) past := by
  unfold execToneReport at h
  simp only [Host.Outcome.next.injEq] at h
  subst h
  simp (maxDischargeDepth := 40) only [implies_true, Keeps.refl, Keeps.ite, Keeps.upd, Keeps.send, State.goodFrame_keeps,
      State.putTone_keeps, State.setPort_keeps]

theorem execToneReportStale_keeps {past : State} (t : Nat) (port : Fin 16) (s : State)
    (h : execToneReportStale t port s = .next past) : Keeps (s.tick t) past := by
  unfold execToneReportStale at h
  simp only [Host.Outcome.next.injEq] at h
  subst h
  simp (maxDischargeDepth := 40) only [implies_true, Keeps.refl, Keeps.ite, Keeps.upd, Keeps.send, State.putTone_keeps]

theorem execLoopOpen_keeps {past : State} (t : Nat) (port : Fin 16) (s : State)
    (h : execLoopOpen t port s = .next past) : Keeps (s.tick t) past := by
  unfold execLoopOpen at h
  simp only [Host.Outcome.next.injEq] at h
  subst h
  simp (maxDischargeDepth := 40) only [implies_true, Keeps.refl, Keeps.ite, Keeps.upd, Keeps.send, State.judgeTone_keeps]

theorem State.probeDone_keeps (s : State) (n : Nat) {past : State} (h0 : Keeps past s) :
    Keeps past (State.probeDone s n) := by
  unfold State.probeDone
  repeat' first
    | (simp (maxDischargeDepth := 40) only [implies_true, Keeps.refl, Keeps.ite, Keeps.upd, Keeps.send, h0,
        State.complete_keeps, State.event_keeps, State.setPort_keeps]; done)
    | split
    | dsimp only

theorem State.probeGone_keeps (s : State) (n : Nat) {past : State} (h0 : Keeps past s) :
    Keeps past (State.probeGone s n) := by
  unfold State.probeGone
  repeat' first
    | (simp (maxDischargeDepth := 40) only [implies_true, Keeps.refl, Keeps.ite, Keeps.upd, Keeps.send, h0,
        State.complete_keeps, State.setPort_keeps]; done)
    | split
    | dsimp only

theorem State.continuity_keeps (s : State) (n notSampled : Nat) {past : State} (h0 : Keeps past s) :
    Keeps past (State.continuity s n notSampled) := by
  unfold State.continuity
  simp (maxDischargeDepth := 40) only [implies_true, Keeps.refl, Keeps.ite, Keeps.upd, Keeps.send, h0, State.event_keeps,
      State.judgeTone_keeps, State.setPort_keeps]

theorem State.closeSweep_keeps (s : State) (n : Nat) (w : Sweep) {past : State} (h0 : Keeps past s) :
    Keeps past (State.closeSweep s n w) := by
  unfold State.closeSweep
  simp (maxDischargeDepth := 40) only [implies_true, Keeps.refl, Keeps.ite, Keeps.upd, Keeps.send, h0, Keeps.foldl,
      State.continuity_keeps, State.deliver_keeps, State.event_keeps, State.probeDone_keeps, State.setPort_keeps]

theorem State.closeOpen_keeps (s : State) (n : Nat) {past : State} (h0 : Keeps past s) :
    Keeps past (State.closeOpen s n) := by
  unfold State.closeOpen
  repeat' first
    | (simp (maxDischargeDepth := 40) only [implies_true, Keeps.refl, Keeps.ite, Keeps.upd, Keeps.send, h0,
        State.closeSweep_keeps]; done)
    | split
    | dsimp only

theorem State.startEnum_keeps (s : State) (n : Nat) (rid : Option Nat) {past : State} (h0 : Keeps past s) :
    Keeps past (State.startEnum s n rid) := by
  unfold State.startEnum
  simp (maxDischargeDepth := 40) only [implies_true, Keeps.refl, Keeps.ite, Keeps.upd, Keeps.send, h0,
      State.closeOpen_keeps, State.judgeTone_keeps, State.reportPort_keeps, State.setPort_keeps]

theorem State.enumSettle_keeps (s : State) (n : Nat) {past : State} (h0 : Keeps past s) :
    Keeps past (State.enumSettle s n) := by
  unfold State.enumSettle
  repeat' first
    | (simp (maxDischargeDepth := 40) only [implies_true, Keeps.refl, Keeps.ite, Keeps.upd, Keeps.send, h0,
        State.complete_keeps, State.setPort_keeps]; done)
    | split
    | dsimp only

theorem State.enumCounted_keeps (s : State) (n : Nat) {past : State} (h0 : Keeps past s) :
    Keeps past (State.enumCounted s n) := by
  unfold State.enumCounted
  repeat' first
    | (simp (maxDischargeDepth := 40) only [implies_true, Keeps.refl, Keeps.ite, Keeps.upd, Keeps.send, h0,
        State.enumSettle_keeps, State.event_keeps, State.judgeTone_keeps, State.setPort_keeps]; done)
    | split
    | dsimp only

theorem execEnumTimeout_keeps {past : State} (t : Nat) (port : Fin 16) (endB : Bool) (s : State)
    (h : execEnumTimeout t port endB s = .next past) : Keeps (s.tick t) past := by
  unfold execEnumTimeout at h
  simp only [Host.Outcome.next.injEq] at h
  subst h
  repeat' first
    | (simp (maxDischargeDepth := 40) only [implies_true, Keeps.refl, Keeps.ite, Keeps.upd, Keeps.send,
        State.enumCounted_keeps, State.reportPort_keeps, State.setPort_keeps]; done)
    | split
    | dsimp only

theorem execStrEnum_keeps {past : State} (rid : Nat) (s : State)
    (h : execStrEnum rid s = .next past) : Keeps s past := by
  unfold execStrEnum at h
  simp only [Host.Outcome.next.injEq] at h
  subst h
  simp (maxDischargeDepth := 40) only [implies_true, Keeps.refl, Keeps.ite, Keeps.upd, Keeps.send, State.onReq_keeps,
      State.running_keeps, State.startEnum_keeps]

theorem State.balDone_keeps (s : State) (rid result : Nat) {past : State} (h0 : Keeps past s) :
    Keeps past (State.balDone s rid result) := by
  unfold State.balDone
  repeat' first
    | (simp (maxDischargeDepth := 40) only [implies_true, Keeps.refl, Keeps.ite, Keeps.upd, Keeps.send, h0,
        State.complete_keeps]; done)
    | split
    | dsimp only

theorem execBalPlan_keeps {past : State} (rid : Nat) (s : State)
    (h : execBalPlan rid s = .next past) : Keeps s past := by
  unfold execBalPlan at h
  simp only [Host.Outcome.next.injEq] at h
  subst h
  repeat' first
    | (simp (maxDischargeDepth := 40) only [implies_true, Keeps.refl, Keeps.ite, Keeps.upd, Keeps.send, State.onReq_keeps,
        State.complete_keeps, State.running_keeps, State.setPort_keeps]; done)
    | (with_reducible refine State.onReq_keeps _ _ _ _ (Keeps.refl _) (fun _ => ?_))
    | split
    | dsimp only

theorem State.balStart_keeps (s : State) (n : Nat) (b : BalPlan) {past : State} (h0 : Keeps past s) :
    Keeps past (State.balStart s n b) := by
  unfold State.balStart
  simp (maxDischargeDepth := 40) only [implies_true, Keeps.refl, Keeps.ite, Keeps.upd, Keeps.send, h0,
      State.balDone_keeps, State.event_keeps, State.setPort_keeps]

theorem State.balPeriod_keeps (s : State) (n : Nat) {past : State} (h0 : Keeps past s) :
    Keeps past (State.balPeriod s n) := by
  unfold State.balPeriod
  repeat' first
    | (simp (maxDischargeDepth := 40) only [implies_true, Keeps.refl, Keeps.ite, Keeps.upd, Keeps.send, h0,
        State.balStart_keeps, State.setPort_keeps]; done)
    | split
    | dsimp only

theorem State.balStop_keeps (s : State) (n : Nat) (keep : Bool) {past : State} (h0 : Keeps past s) :
    Keeps past (State.balStop s n keep) := by
  unfold State.balStop
  simp (maxDischargeDepth := 40) only [implies_true, Keeps.refl, Keeps.ite, Keeps.upd, Keeps.send, h0, Keeps.foldl,
      State.balDone_keeps, State.setPort_keeps]

theorem execBalEnd_keeps {past : State} (t : Nat) (port : Fin 16) (s : State)
    (h : execBalEnd t port s = .next past) : Keeps (s.tick t) past := by
  unfold execBalEnd at h
  simp only [Host.Outcome.next.injEq] at h
  subst h
  repeat' first
    | (simp (maxDischargeDepth := 40) only [implies_true, Keeps.refl, Keeps.ite, Keeps.upd, Keeps.send,
        State.balStop_keeps]; done)
    | split
    | dsimp only

theorem State.holdStrings_keeps (s : State) {past : State} (h0 : Keeps past s) :
    Keeps past (State.holdStrings s) := by
  unfold State.holdStrings
  simp (maxDischargeDepth := 40) only [implies_true, Keeps.refl, Keeps.ite, Keeps.upd, Keeps.send, h0, Keeps.foldl,
      State.balStop_keeps]

theorem State.chainAsk_keeps (s : State) (n : Nat) (endB : Bool) (f : ChainSend) (again : Bool) (dur : Nat) (bytes : List
    Byte) {past : State} (h0 : Keeps past s) :
    Keeps past (State.chainAsk s n endB f again dur bytes) := by
  unfold State.chainAsk
  simp (maxDischargeDepth := 40) only [implies_true, Keeps.refl, Keeps.ite, Keeps.upd, Keeps.send, h0,
      State.sendFrame_keeps, State.setPort_keeps]

theorem execChainFrameSend_keeps {past : State} (t : Nat) (port : Fin 16) (endB : Bool) (f : ChainSend) (s : State)
    (h : execChainFrameSend t port endB f s = .next past) : Keeps (s.tick t) past := by
  unfold execChainFrameSend at h
  simp only [Host.Outcome.next.injEq] at h
  subst h
  repeat' first
    | (simp (maxDischargeDepth := 40) only [implies_true, Keeps.refl, Keeps.ite, Keeps.upd, Keeps.send,
        State.balStop_keeps, State.chainAsk_keeps, State.reportPort_keeps, State.sendFrame_keeps, State.setPort_keeps];
        done)
    | split
    | dsimp only

theorem State.balSettled_keeps (s : State) (n sat : Nat) {past : State} (h0 : Keeps past s) :
    Keeps past (State.balSettled s n sat) := by
  unfold State.balSettled
  repeat' first
    | (simp (maxDischargeDepth := 40) only [implies_true, Keeps.refl, Keeps.ite, Keeps.upd, Keeps.send, h0,
        State.balDone_keeps, State.setPort_keeps]; done)
    | split
    | dsimp only

theorem State.satReset_keeps (s : State) (n sat : Nat) {past : State} (h0 : Keeps past s) :
    Keeps past (State.satReset s n sat) := by
  unfold State.satReset
  simp (maxDischargeDepth := 40) only [implies_true, Keeps.refl, Keeps.ite, Keeps.upd, Keeps.send, h0, State.event_keeps,
      State.setPort_keeps]

theorem State.reachSeen_keeps (s : State) (n : Nat) (endB : Bool) (sat : Nat) {past : State} (h0 : Keeps past s) :
    Keeps past (State.reachSeen s n endB sat) := by
  unfold State.reachSeen
  repeat' first
    | (simp (maxDischargeDepth := 40) only [implies_true, Keeps.refl, Keeps.ite, Keeps.upd, Keeps.send, h0,
        State.judgeTone_keeps, State.setPort_keeps]; done)
    | split
    | dsimp only

theorem State.farSeen_keeps (s : State) (n : Nat) (bytes : List Byte) {past : State} (h0 : Keeps past s) :
    Keeps past (State.farSeen s n bytes) := by
  unfold State.farSeen
  repeat' first
    | (simp (maxDischargeDepth := 40) only [implies_true, Keeps.refl, Keeps.ite, Keeps.upd, Keeps.send, h0,
        State.setPort_keeps]; done)
    | split
    | dsimp only

theorem State.enumReply_keeps (s : State) (n : Nat) (endB : Bool) (pos rtt : Nat) (bytes : List Byte) {past : State} (h0 :
    Keeps past s) :
    Keeps past (State.enumReply s n endB pos rtt bytes) := by
  unfold State.enumReply
  repeat' first
    | (simp (maxDischargeDepth := 40) only [implies_true, Keeps.refl, Keeps.ite, Keeps.upd, Keeps.send, h0,
        State.enumCounted_keeps, State.setPort_keeps]; done)
    | split
    | dsimp only

theorem State.echoReply_keeps (s : State) (n : Nat) (endB : Bool) (sat rtt : Nat) {past : State} (h0 : Keeps past s) :
    Keeps past (State.echoReply s n endB sat rtt) := by
  unfold State.echoReply
  repeat' first
    | (simp (maxDischargeDepth := 40) only [implies_true, Keeps.refl, Keeps.ite, Keeps.upd, Keeps.send, h0,
        State.event_keeps, State.setPort_keeps]; done)
    | split
    | dsimp only

theorem State.chainAnswer_keeps (s : State) (n : Nat) (endB : Bool) (rtt : Nat) (bytes : List Byte) {past : State} (h0 :
    Keeps past s) :
    Keeps past (State.chainAnswer s n endB rtt bytes) := by
  unfold State.chainAnswer
  repeat' first
    | (simp (maxDischargeDepth := 40) only [implies_true, Keeps.refl, Keeps.ite, Keeps.upd, Keeps.send, h0,
        State.balSettled_keeps, State.balStop_keeps, State.echoReply_keeps, State.enumReply_keeps, State.enumSettle_keeps,
        State.reachSeen_keeps, State.satReset_keeps, State.setPort_keeps]; done)
    | split
    | dsimp only

theorem State.chainIn_keeps (s : State) (n : Nat) (endB : Bool) (rtt : Nat) (bytes : List Byte) {past : State} (h0 : Keeps
    past s) :
    Keeps past (State.chainIn s n endB rtt bytes) := by
  unfold State.chainIn
  repeat' first
    | (simp (maxDischargeDepth := 40) only [implies_true, Keeps.refl, Keeps.ite, Keeps.upd, Keeps.send, h0,
        State.chainAnswer_keeps, State.farSeen_keeps, State.reportPort_keeps]; done)
    | split
    | dsimp only

theorem execChainReply_keeps {past : State} (t : Nat) (port : Fin 16) (endB : Bool) (rtt : Nat) (bytes : List Byte) (s :
    State)
    (h : execChainReply t port endB rtt bytes s = .next past) : Keeps (s.tick t) past := by
  unfold execChainReply at h
  simp only [Host.Outcome.next.injEq] at h
  subst h
  repeat' first
    | (simp (maxDischargeDepth := 40) only [implies_true, Keeps.refl, Keeps.ite, Keeps.upd, Keeps.send,
        State.chainIn_keeps, State.emit_keeps, State.setPort_keeps]; done)
    | split
    | dsimp only

theorem State.replyLate_keeps (s : State) (n : Nat) (w : ChainWait) (sat : Nat) {past : State} (h0 : Keeps past s) :
    Keeps past (State.replyLate s n w sat) := by
  unfold State.replyLate
  repeat' first
    | (simp (maxDischargeDepth := 40) only [implies_true, Keeps.refl, Keeps.ite, Keeps.upd, Keeps.send, h0,
        State.balSettled_keeps, State.chainAsk_keeps, State.enumSettle_keeps, State.setPort_keeps]; done)
    | split
    | dsimp only

theorem execReplyTimeout_keeps {past : State} (t : Nat) (port : Fin 16) (s : State)
    (h : execReplyTimeout t port s = .next past) : Keeps (s.tick t) past := by
  unfold execReplyTimeout at h
  simp only [Host.Outcome.next.injEq] at h
  subst h
  repeat' first
    | (simp (maxDischargeDepth := 40) only [implies_true, Keeps.refl, Keeps.ite, Keeps.upd, Keeps.send,
        State.replyLate_keeps, State.reportPort_keeps]; done)
    | split
    | dsimp only

theorem State.sendTold_keeps (s : State) (n : Nat) (endB : Bool) (bytes : List Byte) {past : State} (h0 : Keeps past s) :
    Keeps past (State.sendTold s n endB bytes) := by
  unfold State.sendTold
  repeat' first
    | (simp (maxDischargeDepth := 40) only [implies_true, Keeps.refl, Keeps.ite, Keeps.upd, Keeps.send, h0,
        State.emit_keeps]; done)
    | split
    | dsimp only

theorem State.followPort_keeps (s : State) (n : Nat) (lead : Port) {past : State} (h0 : Keeps past s) :
    Keeps past (State.followPort s n lead) := by
  unfold State.followPort
  repeat' first
    | (simp (maxDischargeDepth := 40) only [implies_true, Keeps.refl, Keeps.ite, Keeps.upd, Keeps.send, h0,
        State.balDone_keeps, State.complete_keeps, State.judgeTone_keeps, State.setPort_keeps]; done)
    | split
    | dsimp only

theorem State.sweepCount_keeps (s : State) (at_ : Nat) {past : State} (h0 : Keeps past s) :
    Keeps past (State.sweepCount s at_).2 := by
  unfold State.sweepCount
  repeat' first
    | (simp (maxDischargeDepth := 40) only [implies_true, Keeps.refl, Keeps.ite, Keeps.upd, Keeps.send, h0]; done)
    | split
    | dsimp only

theorem execSampleSend_keeps {past : State} (t : Nat) (port : Fin 16) (s : State)
    (h : execSampleSend t port s = .next past) : Keeps (s.tick t) past := by
  unfold execSampleSend at h
  simp only [Host.Outcome.next.injEq] at h
  subst h
  repeat' first
    | (simp (maxDischargeDepth := 40) only [implies_true, Keeps.refl, Keeps.ite, Keeps.upd, Keeps.send,
        State.balPeriod_keeps, State.closeOpen_keeps, State.closeSweep_keeps, State.sendFrame_keeps, State.setPort_keeps,
        State.sweepCount_keeps]; done)
    | split
    | dsimp only

theorem State.readFrom_keeps (s : State) (n : Nat) (endB : Bool) (first count : Nat) {past : State} (h0 : Keeps past s) :
    Keeps past (State.readFrom s n endB first count) := by
  unfold State.readFrom
  repeat' first
    | (simp (maxDischargeDepth := 40) only [implies_true, Keeps.refl, Keeps.ite, Keeps.upd, Keeps.send, h0,
        State.sendFrame_keeps, State.setPort_keeps]; done)
    | split
    | dsimp only

theorem execReadSend_keeps {past : State} (t : Nat) (port : Fin 16) (s : State)
    (h : execReadSend t port s = .next past) : Keeps (s.tick t) past := by
  unfold execReadSend at h
  simp only [Host.Outcome.next.injEq] at h
  subst h
  repeat' first
    | (simp (maxDischargeDepth := 40) only [implies_true, Keeps.refl, Keeps.ite, Keeps.upd, Keeps.send,
        State.readFrom_keeps, State.setPort_keeps]; done)
    | split
    | dsimp only

theorem State.finishSweep_keeps (s : State) (n : Nat) {past : State} (h0 : Keeps past s) :
    Keeps past (State.finishSweep s n) := by
  unfold State.finishSweep
  repeat' first
    | (simp (maxDischargeDepth := 40) only [implies_true, Keeps.refl, Keeps.ite, Keeps.upd, Keeps.send, h0,
        State.readFrom_keeps]; done)
    | split
    | dsimp only

theorem State.farLost_keeps (s : State) (n : Nat) {past : State} (h0 : Keeps past s) :
    Keeps past (State.farLost s n) := by
  unfold State.farLost
  repeat' first
    | (simp (maxDischargeDepth := 40) only [implies_true, Keeps.refl, Keeps.ite, Keeps.upd, Keeps.send, h0,
        State.enumCounted_keeps, State.judgeTone_keeps, State.setPort_keeps]; done)
    | split
    | dsimp only

theorem State.takeChains_keeps (s : State) {past : State} (h0 : Keeps past s) :
    Keeps past (State.takeChains s) := by
  unfold State.takeChains
  repeat' first
    | (simp (maxDischargeDepth := 40) only [implies_true, Keeps.refl, Keeps.ite, Keeps.upd, Keeps.send, h0, Keeps.foldl,
        State.farLost_keeps, State.finishSweep_keeps]; done)
    | with_reducible refine Keeps.foldl (fun _ _ => ?_) ?_
    | split
    | dsimp only

theorem State.useChainBlock_keeps (s : State) (n : Nat) (endB : Bool) (b : List Byte) {past : State} (h0 : Keeps past s) :
    Keeps past (State.useChainBlock s n endB b) := by
  unfold State.useChainBlock
  repeat' first
    | (simp (maxDischargeDepth := 40) only [implies_true, Keeps.refl, Keeps.ite, Keeps.upd, Keeps.send, h0,
        State.closeSweep_keeps, State.event_keeps, State.reachSeen_keeps, State.satReset_keeps, State.setPort_keeps];
        done)
    | split
    | dsimp only

theorem execBlockReceive_keeps {past : State} (t : Nat) (port : Fin 16) (endB : Bool) (bytes : List Byte) (s : State)
    (h : execBlockReceive t port endB bytes s = .next past) : Keeps (s.tick t) past := by
  unfold execBlockReceive at h
  simp only [Host.Outcome.next.injEq] at h
  subst h
  simp (maxDischargeDepth := 40) only [implies_true, Keeps.refl, Keeps.ite, Keeps.upd, Keeps.send, State.emit_keeps,
      State.reportPort_keeps, State.setPort_keeps, State.useChainBlock_keeps]

theorem State.locate_keeps (s : State) (n : Nat) (lastA firstB : Option Nat) {past : State} (h0 : Keeps past s) :
    Keeps past (State.locate s n lastA firstB) := by
  unfold State.locate
  simp (maxDischargeDepth := 40) only [implies_true, Keeps.refl, Keeps.ite, Keeps.upd, Keeps.send, h0, State.event_keeps,
      State.judgeTone_keeps, State.setPort_keeps]

theorem execBlockMissing_keeps {past : State} (t : Nat) (port : Fin 16) (lastA firstB : Option Nat) (s : State)
    (h : execBlockMissing t port lastA firstB s = .next past) : Keeps (s.tick t) past := by
  unfold execBlockMissing at h
  simp only [Host.Outcome.next.injEq] at h
  subst h
  repeat' first
    | (simp (maxDischargeDepth := 40) only [implies_true, Keeps.refl, Keeps.ite, Keeps.upd, Keeps.send,
        State.locate_keeps, State.readFrom_keeps, State.reportPort_keeps]; done)
    | split
    | dsimp only

theorem execProbeSweep_keeps {past : State} (rid : Nat) (s : State)
    (h : execProbeSweep rid s = .next past) : Keeps s past := by
  unfold execProbeSweep at h
  simp only [Host.Outcome.next.injEq] at h
  subst h
  simp (maxDischargeDepth := 40) only [implies_true, Keeps.refl, Keeps.ite, Keeps.upd, Keeps.send, State.onReq_keeps,
      State.complete_keeps, State.running_keeps, State.setPort_keeps]

theorem execCellSubscribe_keeps {past : State} (rid : Nat) (handle : BitVec 32) (s : State)
    (h : execCellSubscribe rid handle s = .next past) : Keeps s past := by
  unfold execCellSubscribe at h
  simp only [Host.Outcome.next.injEq] at h
  subst h
  simp (maxDischargeDepth := 40) only [implies_true, Keeps.refl, Keeps.ite, Keeps.upd, Keeps.send, State.onReq_keeps,
      State.subscribe_keeps]

end Sys2Proof.Machine
end

