-- ==== Sys2Proof/Laws/KeepsLoops.lean ====
section
/-! SUPPORT. Laws/KeepsLoops.lean: what `Keeps` says of the operations and commands of
cells, contactors and loops. -/

set_option linter.unusedSimpArgs false

set_option linter.unusedTactic false
set_option linter.unreachableTactic false

namespace Sys2Proof.Machine

theorem execChemLoad_keeps {past : State} (rid : Nat) (s : State)
    (h : execChemLoad rid s = .next past) : Keeps s past := by
  unfold execChemLoad at h
  simp only [Host.Outcome.next.injEq] at h
  subst h
  simp (maxDischargeDepth := 40) only [implies_true, Keeps.refl, Keeps.ite, Keeps.upd, Keeps.send, State.onReq_keeps,
      State.complete_keeps, State.event_keeps]

theorem State.setCur_keeps (s : State) (n : Nat) (c : Cur) {past : State} (h0 : Keeps past s) :
    Keeps past (State.setCur s n c) := h0.upd

theorem State.latchCurrent_keeps (s : State) (n mt : Nat) (v : F) (lost : Bool) {past : State} (h0 : Keeps past s) :
    Keeps past (State.latchCurrent s n mt v lost) := by
  unfold State.latchCurrent
  simp (maxDischargeDepth := 40) only [implies_true, Keeps.refl, Keeps.ite, Keeps.upd, Keeps.send, h0, State.setCur_keeps,
      State.setPort_keeps]

theorem execCurrentLatch_keeps {past : State} (t : Nat) (port : Fin 16) (s : State)
    (h : execCurrentLatch t port s = .next past) : Keeps (s.tick t) past := by
  unfold execCurrentLatch at h
  simp only [Host.Outcome.next.injEq] at h
  subst h
  repeat' first
    | (simp (maxDischargeDepth := 40) only [implies_true, Keeps.refl, Keeps.ite, Keeps.upd, Keeps.send, State.emit_keeps,
        State.latchCurrent_keeps]; done)
    | split
    | dsimp only

theorem State.estimateSweep_keeps (s : State) (n : Nat) (plan : CellPlan) (p : PortPlan) (e : EstPlan) (w : Sweep) {past :
    State} (h0 : Keeps past s) :
    Keeps past (State.estimateSweep s n plan p e w) := by
  unfold State.estimateSweep
  simp (maxDischargeDepth := 40) only [implies_true, Keeps.refl, Keeps.ite, Keeps.upd, Keeps.send, h0, Keeps.foldl,
      State.event_keeps, State.setCur_keeps]

theorem execEstimation_keeps {past : State} (t : Nat) (port : Fin 16) (s : State)
    (h : execEstimation t port s = .next past) : Keeps (s.tick t) past := by
  unfold execEstimation at h
  simp only [Host.Outcome.next.injEq] at h
  subst h
  repeat' first
    | (simp (maxDischargeDepth := 40) only [implies_true, Keeps.refl, Keeps.ite, Keeps.upd, Keeps.send,
        State.closeSweep_keeps, State.estimateSweep_keeps, State.setPort_keeps]; done)
    | split
    | dsimp only

theorem State.unswept_keeps (s : State) (c : CellPlan) (p : PortPlan) (at_ seq : Nat) {past : State} (h0 : Keeps past s) :
    Keeps past (State.unswept s c p at_ seq) := by
  unfold State.unswept
  repeat' first
    | (simp (maxDischargeDepth := 40) only [implies_true, Keeps.refl, Keeps.ite, Keeps.upd, Keeps.send, h0,
        State.estimateSweep_keeps]; done)
    | split
    | dsimp only

theorem State.digest_keeps (s : State) (k : DigestKind) (id : Nat) (v : BitVec 64) {past : State} (h0 : Keeps past s) :
    Keeps past (State.digest s k id v) := by
  unfold State.digest
  simp (maxDischargeDepth := 40) only [implies_true, Keeps.refl, Keeps.ite, Keeps.upd, Keeps.send, h0, State.emit_keeps]

theorem State.postEstimates_keeps (s : State) (p : PortPlan) (at_ seq : Nat) {past : State} (h0 : Keeps past s) :
    Keeps past (State.postEstimates s p at_ seq) := by
  unfold State.postEstimates
  simp (maxDischargeDepth := 40) only [implies_true, Keeps.refl, Keeps.ite, Keeps.upd, Keeps.send, h0, Keeps.foldl,
      State.deliver_keeps]

theorem execPublication_keeps {past : State} (t : Nat) (s : State)
    (h : execPublication t s = .next past) : Keeps (s.tick t) past := by
  unfold execPublication at h
  simp only [Host.Outcome.next.injEq] at h
  subst h
  repeat' first
    | (simp (maxDischargeDepth := 40) only [implies_true, Keeps.refl, Keeps.ite, Keeps.upd, Keeps.send, Keeps.foldl,
        State.digest_keeps, State.event_keeps, State.postEstimates_keeps, State.unswept_keeps]; done)
    | with_reducible refine Keeps.foldl (fun _ _ => ?_) ?_
    | split
    | dsimp only

theorem State.stepSweeps_keeps (s : State) {past : State} (h0 : Keeps past s) :
    Keeps past (State.stepSweeps s) := by
  unfold State.stepSweeps
  repeat' first
    | (simp (maxDischargeDepth := 40) only [implies_true, Keeps.refl, Keeps.ite, Keeps.upd, Keeps.send, h0, Keeps.foldl,
        State.closeOpen_keeps, State.setPort_keeps]; done)
    | with_reducible refine Keeps.foldl (fun _ _ => ?_) ?_
    | split
    | dsimp only

theorem execCellCommit_keeps {past : State} (t : Nat) (s : State)
    (h : execCellCommit t s = .next past) : Keeps (s.tick t) past := by
  unfold execCellCommit at h
  simp only [Host.Outcome.next.injEq] at h
  subst h
  simp (maxDischargeDepth := 40) only [implies_true, Keeps.refl, Keeps.ite, Keeps.upd, Keeps.send]

theorem execCellRead_keeps {past : State} (rid : Nat) (s : State)
    (h : execCellRead rid s = .next past) : Keeps s past := by
  unfold execCellRead at h
  simp only [Host.Outcome.next.injEq] at h
  subst h
  repeat' first
    | (simp (maxDischargeDepth := 40) only [implies_true, Keeps.refl, Keeps.ite, Keeps.upd, Keeps.send, State.onReq_keeps,
        State.complete_keeps]; done)
    | (with_reducible refine State.onReq_keeps _ _ _ _ (Keeps.refl _) (fun _ => ?_))
    | split
    | dsimp only

theorem State.contDrive_keeps (s : State) (n : Nat) (b : Option Bool) {past : State} (h0 : Keeps past s) :
    Keeps past (State.contDrive s n b) := by
  unfold State.contDrive
  simp (maxDischargeDepth := 40) only [implies_true, Keeps.refl, Keeps.ite, Keeps.upd, Keeps.send, h0, State.setDo_keeps]

theorem State.contApply_keeps (s : State) (k : ContactorRun) {past : State} (h0 : Keeps past s) :
    Keeps past (State.contApply s k) := by
  unfold State.contApply
  simp (maxDischargeDepth := 40) only [implies_true, Keeps.refl, Keeps.ite, Keeps.upd, Keeps.send, h0,
      State.contDrive_keeps]

theorem State.contOut_keeps (s : State) {past : State} (h0 : Keeps past s) :
    Keeps past (State.contOut s) := by
  unfold State.contOut
  simp (maxDischargeDepth := 40) only [implies_true, Keeps.refl, Keeps.ite, Keeps.upd, Keeps.send, h0, Keeps.foldl,
      State.contApply_keeps, State.contDrive_keeps]

theorem State.contMove_keeps (s : State) (at_ : Nat) (k : ContactorRun) (n cause : Nat) {past : State} (h0 : Keeps past s)
    :
    Keeps past (State.contMove s at_ k n cause).2 := by
  unfold State.contMove
  simp (maxDischargeDepth := 40) only [implies_true, Keeps.refl, Keeps.ite, Keeps.upd, Keeps.send, h0, State.cause_keeps,
      State.event_keeps]

theorem State.tellConts_keeps (s : State) {past : State} (h0 : Keeps past s) :
    Keeps past (State.tellConts s) := by
  unfold State.tellConts
  repeat' first
    | (simp (maxDischargeDepth := 40) only [implies_true, Keeps.refl, Keeps.ite, Keeps.upd, Keeps.send, h0,
        State.emit_keeps]; done)
    | split
    | dsimp only

theorem State.toldConts_keeps (s : State) (states : List Nat) {past : State} (h0 : Keeps past s) :
    Keeps past (State.toldConts s states) := by
  unfold State.toldConts
  repeat' first
    | (simp (maxDischargeDepth := 40) only [implies_true, Keeps.refl, Keeps.ite, Keeps.upd, Keeps.send, h0,
        State.contOut_keeps]; done)
    | split
    | dsimp only

theorem State.contRestart_keeps (s : State) {past : State} (h0 : Keeps past s) :
    Keeps past (State.contRestart s) := by
  unfold State.contRestart
  simp (maxDischargeDepth := 40) only [implies_true, Keeps.refl, Keeps.ite, Keeps.upd, Keeps.send, h0, Keeps.foldl,
      State.contOut_keeps, State.event_keeps, State.tellConts_keeps]

theorem State.contSwap_keeps (s : State) (at_ : Nat) (cs : List Contactor) (crc : BitVec 32) {past : State}
    (h0 : Keeps past s) : Keeps past (s.contSwap at_ cs crc) :=
  State.event_keeps _ _ _ (State.tellConts_keeps _ (Keeps.upd (Keeps.foldlOn Prod.snd (b := ([], s)) (fun a k h => by
    dsimp only; split
    · exact h
    · exact State.contMove_keeps a.2 at_ k 5 0 h) h0)))

theorem State.contTake_keeps (s : State) (cs : List Contactor) (crc : BitVec 32) {past : State} (h0 : Keeps past s) :
    Keeps past (State.contTake s cs crc) := by
  unfold State.contTake
  simp (maxDischargeDepth := 40) only [implies_true, Keeps.refl, Keeps.ite, Keeps.upd, Keeps.send, h0,
      State.contOut_keeps, State.event_keeps, State.tellConts_keeps]

theorem execContactorPlan_keeps {past : State} (rid : Nat) (s : State)
    (h : execContactorPlan rid s = .next past) : Keeps s past := by
  unfold execContactorPlan at h
  simp only [Host.Outcome.next.injEq] at h
  subst h
  repeat' first
    | (simp (maxDischargeDepth := 40) only [implies_true, Keeps.refl, Keeps.ite, Keeps.upd, Keeps.send, State.onReq_keeps,
        State.complete_keeps, State.contTake_keeps, State.running_keeps]; done)
    | (with_reducible refine State.onReq_keeps _ _ _ _ (Keeps.refl _) (fun _ => ?_))
    | split
    | dsimp only

theorem State.contDue_keeps (s : State) (at_ : Nat) {past : State} (h0 : Keeps past s) :
    Keeps past (State.contDue s at_) := by
  unfold State.contDue
  repeat' first
    | (simp (maxDischargeDepth := 40) only [implies_true, Keeps.refl, Keeps.ite, Keeps.upd, Keeps.send, h0, Keeps.foldl,
        State.complete_keeps, State.contSwap_keeps]; done)
    | with_reducible refine Keeps.foldl (fun _ _ => ?_) ?_
    | split
    | dsimp only

theorem State.contHold_keeps (s : State) {past : State} (h0 : Keeps past s) :
    Keeps past (State.contHold s) := by
  unfold State.contHold
  repeat' first
    | (simp (maxDischargeDepth := 40) only [implies_true, Keeps.refl, Keeps.ite, Keeps.upd, Keeps.send, h0, Keeps.foldl,
        State.complete_keeps, State.contTake_keeps]; done)
    | with_reducible refine Keeps.foldl (fun _ _ => ?_) ?_
    | split
    | dsimp only

theorem State.contRun_keeps (s : State) (at_ : Nat) (ins : List (BitVec 32 × Option Bool)) {past : State}
    (h0 : Keeps past s) : Keeps past (s.contRun at_ ins) :=
  State.contOut_keeps _ (Keeps.upd (Keeps.foldlOn Prod.snd (b := ([], s)) (fun a k h => by
    dsimp only; split
    · exact h
    · exact State.contMove_keeps a.2 at_ _ _ _ h) h0))

theorem State.contTold_keeps (s : State) (at_ : Nat) (ins : List (BitVec 32 × Option Bool)) {past : State} (h0 : Keeps
    past s) :
    Keeps past (State.contTold s at_ ins) := by
  unfold State.contTold
  repeat' first
    | (simp (maxDischargeDepth := 40) only [implies_true, Keeps.refl, Keeps.ite, Keeps.upd, Keeps.send, h0,
        State.contDue_keeps, State.contRun_keeps]; done)
    | split
    | dsimp only

theorem State.contGone_keeps (s : State) (waits : List (Nat × Nat × BitVec 32 × List Contactor)) {past : State} (h0 :
    Keeps past s) :
    Keeps past (State.contGone s waits) := by
  unfold State.contGone
  repeat' first
    | (simp (maxDischargeDepth := 40) only [implies_true, Keeps.refl, Keeps.ite, Keeps.upd, Keeps.send, h0, Keeps.foldl,
        State.complete_keeps, State.contOut_keeps]; done)
    | with_reducible refine Keeps.foldl (fun _ _ => ?_) ?_
    | split
    | dsimp only

theorem State.planPort_keeps (s : State) (n : Nat) {past : State} (h0 : Keeps past s) :
    Keeps past (State.planPort s n) := by
  unfold State.planPort
  repeat' first
    | (simp (maxDischargeDepth := 40) only [implies_true, Keeps.refl, Keeps.ite, Keeps.upd, Keeps.send, h0, Keeps.foldl,
        State.balDone_keeps, State.judgeTone_keeps, State.probeGone_keeps, State.setPort_keeps, State.startEnum_keeps];
        done)
    | with_reducible refine Keeps.foldl (fun _ _ => ?_) ?_
    | split
    | dsimp only

theorem State.applyPlan_keeps (s : State) (c : CellPlan) {past : State} (h0 : Keeps past s) :
    Keeps past (State.applyPlan s c) := by
  unfold State.applyPlan
  simp (maxDischargeDepth := 40) only [implies_true, Keeps.refl, Keeps.ite, Keeps.upd, Keeps.send, h0, Keeps.foldl,
      State.contGone_keeps, State.event_keeps, State.planPort_keeps]

theorem execCellPlan_keeps {past : State} (rid : Nat) (s : State)
    (h : execCellPlan rid s = .next past) : Keeps s past := by
  unfold execCellPlan at h
  simp only [Host.Outcome.next.injEq] at h
  subst h
  repeat' first
    | (simp (maxDischargeDepth := 40) only [implies_true, Keeps.refl, Keeps.ite, Keeps.upd, Keeps.send, State.onReq_keeps,
        State.applyPlan_keeps, State.complete_keeps]; done)
    | (with_reducible refine State.onReq_keeps _ _ _ _ (Keeps.refl _) (fun _ => ?_))
    | split
    | dsimp only

theorem execLoopAdmit_keeps {past : State} (rid : Nat) (s : State)
    (h : execLoopAdmit rid s = .next past) : Keeps s past := by
  unfold execLoopAdmit at h
  simp only [Host.Outcome.next.injEq] at h
  subst h
  repeat' first
    | (simp (maxDischargeDepth := 40) only [implies_true, Keeps.refl, Keeps.ite, Keeps.upd, Keeps.send, State.onReq_keeps,
        State.complete_keeps, State.event_keeps]; done)
    | (with_reducible refine State.onReq_keeps _ _ _ _ (Keeps.refl _) (fun _ => ?_))
    | split
    | dsimp only

theorem State.setLoop_keeps (s : State) (l : Loop) {past : State} (h0 : Keeps past s) :
    Keeps past (State.setLoop s l) := h0.upd

theorem State.loopModeTo_keeps (s : State) (l : Loop) (m : Nat) {past : State} (h0 : Keeps past s) :
    Keeps past (State.loopModeTo s l m) := by
  unfold State.loopModeTo
  simp (maxDischargeDepth := 40) only [implies_true, Keeps.refl, Keeps.ite, Keeps.upd, Keeps.send, h0, State.event_keeps,
      State.setLoop_keeps]

theorem State.loopModesDue_keeps (s : State) (h at_ : Nat) {past : State} (h0 : Keeps past s) :
    Keeps past (State.loopModesDue s h at_) := by
  unfold State.loopModesDue
  repeat' first
    | (simp (maxDischargeDepth := 40) only [implies_true, Keeps.refl, Keeps.ite, Keeps.upd, Keeps.send, h0, Keeps.foldl,
        State.complete_keeps, State.loopModeTo_keeps, State.setLoop_keeps]; done)
    | with_reducible refine Keeps.foldl (fun _ _ => ?_) ?_
    | split
    | dsimp only

theorem State.loopDigest_keeps (s : State) (l : Loop) {past : State} (h0 : Keeps past s) :
    Keeps past (State.loopDigest s l) := by
  unfold State.loopDigest
  simp (maxDischargeDepth := 40) only [implies_true, Keeps.refl, Keeps.ite, Keeps.upd, Keeps.send, h0, State.digest_keeps]

theorem State.postLoop_keeps (s : State) (l : Loop) (stamp : Nat) {past : State} (h0 : Keeps past s) :
    Keeps past (State.postLoop s l stamp) := by
  unfold State.postLoop
  simp (maxDischargeDepth := 40) only [implies_true, Keeps.refl, Keeps.ite, Keeps.upd, Keeps.send, h0, Keeps.foldl,
      State.deliver_keeps, State.setSub_keeps]

theorem State.storePar_keeps (s : State) (h : Nat) (p : LoopPar) {past : State} (h0 : Keeps past s) :
    Keeps past (State.storePar s h p) := by
  unfold State.storePar
  simp (maxDischargeDepth := 40) only [implies_true, Keeps.refl, Keeps.ite, Keeps.upd, Keeps.send, h0]

theorem State.applyPar_keeps (s : State) (l : Loop) (rid : Nat) (p : LoopPar) (at_ : Nat) (pe : Option (F × F)) {past :
    State} (h0 : Keeps past s) :
    Keeps past (State.applyPar s l rid p at_ pe) := by
  unfold State.applyPar
  repeat' first
    | (simp (maxDischargeDepth := 40) only [implies_true, Keeps.refl, Keeps.ite, Keeps.upd, Keeps.send, h0,
        State.complete_keeps, State.event_keeps, State.setLoop_keeps, State.storePar_keeps]; done)
    | split
    | dsimp only

theorem State.parDue_keeps (s : State) (h at_ : Nat) (pe : Option (F × F)) {past : State} (h0 : Keeps past s) :
    Keeps past (State.parDue s h at_ pe) := by
  unfold State.parDue
  repeat' first
    | (simp (maxDischargeDepth := 40) only [implies_true, Keeps.refl, Keeps.ite, Keeps.upd, Keeps.send, h0,
        State.applyPar_keeps]; done)
    | split
    | dsimp only

theorem State.takeSample_keeps (s : State) (h : Nat) (m : LoopSmp) {past : State} (h0 : Keeps past s) :
    Keeps past (State.takeSample s h m) := by
  unfold State.takeSample
  repeat' first
    | (simp (maxDischargeDepth := 40) only [implies_true, Keeps.refl, Keeps.ite, Keeps.upd, Keeps.send, h0,
        State.event_keeps, State.loopModesDue_keeps, State.parDue_keeps, State.setLoop_keeps]; done)
    | split
    | dsimp only

theorem State.commitSample_keeps (s : State) (l : Loop) (m : LoopSmp) {past : State} (h0 : Keeps past s) :
    Keeps past (s.commitSample l m).2.1 := by
  unfold State.commitSample
  repeat' first
    | (simp (maxDischargeDepth := 20) only [Keeps.ite, State.event_keeps, h0]; done)
    | split
    | dsimp only

theorem State.commitLoop_keeps (s : State) (l : Loop) (m : LoopSmp) {past : State} (h0 : Keeps past s) :
    Keeps past (s.commitLoop l m) := by
  unfold State.commitLoop
  have hs := State.commitSample_keeps s l m h0
  generalize s.commitSample l m = q at hs ⊢
  obtain ⟨l1, s1, c⟩ := q
  dsimp only at hs ⊢
  have h2 : Keeps past (if c then ((s1.setLoop l1.show_).loopDigest l1).postLoop l1 m.mt else s1.setLoop l1) :=
    .ite (State.postLoop_keeps _ _ _ (State.loopDigest_keeps _ _ (State.setLoop_keeps _ _ hs))) (State.setLoop_keeps _ _
        hs)
  have h3 := State.parDue_keeps _ l.handle m.mt (if m.lost then none else some (l1.sp, m.y)) h2
  split
  · exact h3
  · exact State.setLoop_keeps _ _ h3

theorem execLoopCommit_keeps {past : State} (t : Nat) (handle : BitVec 16) (s : State)
    (h : execLoopCommit t handle s = .next past) : Keeps (s.tick t) past := by
  unfold execLoopCommit at h
  simp only [Host.Outcome.next.injEq] at h
  subst h
  repeat' first
    | (simp (maxDischargeDepth := 40) only [implies_true, Keeps.refl, Keeps.ite, Keeps.upd, Keeps.send,
        State.commitLoop_keeps]; done)
    | split
    | dsimp only

theorem State.loopDrive_keeps (s : State) (at_ : Nat) (w : BitVec 32) (v : Option F) (lost : Bool) {past : State}
    (h0 : Keeps past s) : Keeps past (s.loopDrive at_ w v lost) := by
  unfold State.loopDrive
  generalize srcKind w = k
  match k, v with
  | 0, _ => exact h0
  | 1, some _ => exact h0.upd
  | 1, none => exact h0.upd
  | 2, some _ => exact h0.upd
  | 2, none => exact h0.upd
  | 3, some _ => exact h0.upd
  | 3, none => exact h0.upd
  | 4, some _ => exact h0.upd
  | 4, none => exact h0.upd
  | 5, some _ => exact h0.upd
  | 5, none => exact h0
  | _ + 6, _ => exact h0

theorem State.outputLoop_keeps (s : State) (l : Loop) {past : State} (h0 : Keeps past s) :
    Keeps past (State.outputLoop s l) := by
  unfold State.outputLoop
  repeat' first
    | (simp (maxDischargeDepth := 40) only [implies_true, Keeps.refl, Keeps.ite, Keeps.upd, Keeps.send, h0,
        State.loopDrive_keeps, State.setLoop_keeps]; done)
    | split
    | dsimp only

theorem execLoopOutput_keeps {past : State} (t : Nat) (handle : BitVec 16) (s : State)
    (h : execLoopOutput t handle s = .next past) : Keeps (s.tick t) past := by
  unfold execLoopOutput at h
  simp only [Host.Outcome.next.injEq] at h
  subst h
  repeat' first
    | (simp (maxDischargeDepth := 40) only [implies_true, Keeps.refl, Keeps.ite, Keeps.upd, Keeps.send,
        State.outputLoop_keeps]; done)
    | split
    | dsimp only

theorem State.outputsDue_keeps (s : State) {past : State} (h0 : Keeps past s) :
    Keeps past (State.outputsDue s) := by
  unfold State.outputsDue
  repeat' first
    | (simp (maxDischargeDepth := 40) only [implies_true, Keeps.refl, Keeps.ite, Keeps.upd, Keeps.send, h0, Keeps.foldl,
        State.outputLoop_keeps]; done)
    | with_reducible refine Keeps.foldl (fun _ _ => ?_) ?_
    | split
    | dsimp only

theorem execLoopParam_keeps {past : State} (rid : Nat) (s : State)
    (h : execLoopParam rid s = .next past) : Keeps s past := by
  unfold execLoopParam at h
  simp only [Host.Outcome.next.injEq] at h
  subst h
  repeat' first
    | (simp (maxDischargeDepth := 40) only [implies_true, Keeps.refl, Keeps.ite, Keeps.upd, Keeps.send, State.onReq_keeps,
        State.applyPar_keeps, State.complete_keeps, State.event_keeps, State.running_keeps, State.setLoop_keeps]; done)
    | (with_reducible refine State.onReq_keeps _ _ _ _ (Keeps.refl _) (fun _ => ?_))
    | split
    | dsimp only

theorem execLoopMode_keeps {past : State} (rid : Nat) (s : State)
    (h : execLoopMode rid s = .next past) : Keeps s past := by
  unfold execLoopMode at h
  simp only [Host.Outcome.next.injEq] at h
  subst h
  repeat' first
    | (simp (maxDischargeDepth := 40) only [implies_true, Keeps.refl, Keeps.ite, Keeps.upd, Keeps.send, State.onReq_keeps,
        State.complete_keeps, State.loopModeTo_keeps, State.running_keeps, State.setLoop_keeps]; done)
    | (with_reducible refine State.onReq_keeps _ _ _ _ (Keeps.refl _) (fun _ => ?_))
    | split
    | dsimp only

theorem execLoopRead_keeps {past : State} (rid : Nat) (s : State)
    (h : execLoopRead rid s = .next past) : Keeps s past := by
  unfold execLoopRead at h
  simp only [Host.Outcome.next.injEq] at h
  subst h
  repeat' first
    | (simp (maxDischargeDepth := 40) only [implies_true, Keeps.refl, Keeps.ite, Keeps.upd, Keeps.send, State.onReq_keeps,
        State.complete_keeps]; done)
    | (with_reducible refine State.onReq_keeps _ _ _ _ (Keeps.refl _) (fun _ => ?_))
    | split
    | dsimp only

theorem execLoopSubscribe_keeps {past : State} (rid : Nat) (handle : BitVec 32) (s : State)
    (h : execLoopSubscribe rid handle s = .next past) : Keeps s past := by
  unfold execLoopSubscribe at h
  simp only [Host.Outcome.next.injEq] at h
  subst h
  repeat' first
    | (simp (maxDischargeDepth := 40) only [implies_true, Keeps.refl, Keeps.ite, Keeps.upd, Keeps.send, State.onReq_keeps,
        State.complete_keeps, State.subscribe_keeps]; done)
    | (with_reducible refine State.onReq_keeps _ _ _ _ (Keeps.refl _) (fun _ => ?_))
    | split
    | dsimp only

theorem State.holdLoops_keeps (s : State) {past : State} (h0 : Keeps past s) :
    Keeps past (State.holdLoops s) := by
  unfold State.holdLoops
  repeat' first
    | (simp (maxDischargeDepth := 40) only [implies_true, Keeps.refl, Keeps.ite, Keeps.upd, Keeps.send, h0, Keeps.foldl,
        State.applyPar_keeps, State.complete_keeps, State.loopModeTo_keeps, State.setLoop_keeps]; done)
    | with_reducible refine Keeps.foldl (fun _ _ => ?_) ?_
    | split
    | dsimp only

theorem State.startLoops_keeps (s : State) (warm : Bool) {past : State} (h0 : Keeps past s) :
    Keeps past (State.startLoops s warm) := by
  unfold State.startLoops
  simp (maxDischargeDepth := 40) only [implies_true, Keeps.refl, Keeps.ite, Keeps.upd, Keeps.send, h0, Keeps.foldl,
      State.fresh_keeps]

theorem State.syncForces_keeps (s : State) (task sp : Nat) {past : State} (h0 : Keeps past s) :
    Keeps past (State.syncForces s task sp) := h0.upd

theorem State.syncAll_keeps (s : State) {past : State} (h0 : Keeps past s) :
    Keeps past (State.syncAll s) := h0.upd

theorem State.showOuts_keeps (s : State) {past : State} (h0 : Keeps past s) :
    Keeps past (State.showOuts s) := h0.upd

theorem State.fioOut_keeps (s : State) (ref : Nat) (b : List Byte) {past : State} (h0 : Keeps past s) :
    Keeps past (State.fioOut s ref b) := by
  unfold State.fioOut
  repeat' first
    | (simp (maxDischargeDepth := 40) only [implies_true, Keeps.refl, Keeps.ite, Keeps.upd, Keeps.send, h0, Keeps.foldl,
        State.setCl_keeps, State.setDo_keeps, State.setFao_keeps]; done)
    | with_reducible refine Keeps.foldl (fun _ _ => ?_) ?_
    | split
    | dsimp only

theorem State.bindOut_keeps (s : State) (hp : Nat) (b : Bind) (bs : List Byte) {past : State} (h0 : Keeps past s) :
    Keeps past (State.bindOut s hp b bs) := by
  unfold State.bindOut
  repeat' first
    | (simp (maxDischargeDepth := 40) only [implies_true, Keeps.refl, Keeps.ite, Keeps.upd, Keeps.send, h0,
        State.fioOut_keeps, State.setChan_keeps]; done)
    | split
    | dsimp only

theorem State.applyOuts_keeps (s : State) (d : TaskDef) (hp : Nat) {past : State} (h0 : Keeps past s) :
    Keeps past (State.applyOuts s d hp) := by
  unfold State.applyOuts
  simp (maxDischargeDepth := 40) only [implies_true, Keeps.refl, Keeps.ite, Keeps.upd, Keeps.send, h0, Keeps.foldl,
      State.bindOut_keeps]

end Sys2Proof.Machine
end

