-- ==== Sys2Proof/Laws/KeepsTasks.lean ====
section
/-! SUPPORT. Laws/KeepsTasks.lean: what `Keeps` says of the operations and commands of
tasks, the pair, tiles, times and the cycle core. -/

set_option linter.unusedSimpArgs false

set_option linter.unusedTactic false
set_option linter.unreachableTactic false

namespace Sys2Proof.Machine

theorem State.drawCharge_keeps (s : State) (d : TaskDef) (c : Cyc) {past : State} (h0 : Keeps past s) :
    Keeps past (State.drawCharge s d c).2 := by
  unfold State.drawCharge
  repeat' first
    | (simp (maxDischargeDepth := 40) only [implies_true, Keeps.refl, Keeps.ite, Keeps.upd, Keeps.send, h0]; done)
    | split
    | dsimp only

theorem State.confirm_keeps (s : State) (n : Nat) (tk : Task) (c : Cyc) (img : Mem) {past : State} (h0 : Keeps past s) :
    Keeps past (State.confirm s n tk c img) := by
  unfold State.confirm
  repeat' first
    | (simp (maxDischargeDepth := 40) only [implies_true, Keeps.refl, Keeps.ite, Keeps.upd, Keeps.send, h0,
        State.event_keeps, State.setTask_keeps, State.taskFault_keeps]; done)
    | split
    | dsimp only

theorem State.latch_keeps (s : State) (d : TaskDef) (tk : Task) (start : Nat) (raw : Mem) (lat : Nat) {past : State} (h0 :
    Keeps past s) :
    Keeps past (State.latch s d tk start raw lat) := by
  unfold State.latch
  repeat' first
    | (simp (maxDischargeDepth := 40) only [implies_true, Keeps.refl, Keeps.ite, Keeps.upd, Keeps.send, h0,
        State.confirm_keeps, State.fresh_keeps, State.setTask_keeps]; done)
    | split
    | dsimp only

theorem execBudgetWarning_keeps {past : State} (t : Nat) (task : Fin 64) (charged : Nat) (s : State)
    (h : execBudgetWarning t task charged s = .next past) : Keeps (s.tick t) past := by
  unfold execBudgetWarning at h
  simp only [Host.Outcome.next.injEq] at h
  subst h
  repeat' first
    | (simp (maxDischargeDepth := 40) only [implies_true, Keeps.refl, Keeps.ite, Keeps.upd, Keeps.send, State.event_keeps,
        State.setTask_keeps]; done)
    | split
    | dsimp only

theorem State.watchdogTrip_keeps (s : State) (n charged : Nat) {past : State} (h0 : Keeps past s) :
    Keeps past (State.watchdogTrip s n charged) := by
  unfold State.watchdogTrip
  simp (maxDischargeDepth := 40) only [implies_true, Keeps.refl, Keeps.ite, Keeps.upd, Keeps.send, h0, State.event_keeps,
      State.setTask_keeps, State.stationHold_keeps, State.tripSettle_keeps]

theorem execWatchdogTrip_keeps {past : State} (t : Nat) (task : Fin 64) (charged : Nat) (s : State)
    (h : execWatchdogTrip t task charged s = .next past) : Keeps (s.tick t) past := by
  unfold execWatchdogTrip at h
  simp only [Host.Outcome.next.injEq] at h
  subst h
  repeat' first
    | (simp (maxDischargeDepth := 40) only [implies_true, Keeps.refl, Keeps.ite, Keeps.upd, Keeps.send,
        State.watchdogTrip_keeps]; done)
    | split
    | dsimp only

theorem State.applySet_keeps (s : State) (o : OcSet) (n at_ : Nat) {past : State} (h0 : Keeps past s) :
    Keeps past (State.applySet s o n at_).1 := by
  unfold State.applySet
  simp (maxDischargeDepth := 40) only [implies_true, Keeps.refl, Keeps.ite, Keeps.upd, Keeps.send, h0, Keeps.foldl,
      State.event_keeps, State.setTask_keeps]

theorem State.setDone_keeps (s : State) (o : OcSet) {past : State} (h0 : Keeps past s) :
    Keeps past (State.setDone s o) := by
  unfold State.setDone
  repeat' first
    | (simp (maxDischargeDepth := 40) only [implies_true, Keeps.refl, Keeps.ite, Keeps.upd, Keeps.send, h0,
        State.complete_keeps]; done)
    | split
    | dsimp only

theorem State.applyWhole_keeps (s : State) (o : OcSet) {past : State} (h0 : Keeps past s) : Keeps past (s.applyWhole o) :=
  State.setDone_keeps _ _ (State.commitTasks_keeps _ _ (Keeps.foldlOn Prod.fst (b := (s, o))
    (fun x _ h => State.applySet_keeps x.1 x.2 _ _ h) h0))

theorem State.startSets_keeps (s : State) {past : State} (h0 : Keeps past s) :
    Keeps past (State.startSets s) := by
  unfold State.startSets
  simp (maxDischargeDepth := 40) only [implies_true, Keeps.refl, Keeps.ite, Keeps.upd, Keeps.send, h0, Keeps.foldl,
      State.applyWhole_keeps, State.running_keeps]

theorem State.holdSets_keeps (s : State) {past : State} (h0 : Keeps past s) :
    Keeps past (State.holdSets s) := by
  unfold State.holdSets
  simp (maxDischargeDepth := 40) only [implies_true, Keeps.refl, Keeps.ite, Keeps.upd, Keeps.send, h0, Keeps.foldl,
      State.applyWhole_keeps, State.running_keeps]

theorem State.harvest_keeps (s : State) (i : Image) (d : TaskDef) (c : Cyc) (hp : Nat) {past : State} (h0 : Keeps past s)
    :
    Keeps past (s.harvest i d c hp) := by
  unfold State.harvest
  refine State.startSets_keeps _ (Keeps.foldl (fun st o => State.setDone_keeps st o (.refl _)) (Keeps.foldl (fun st x =>
      ?_)
    (State.digest_keeps _ _ _ _ (State.commitUnit_keeps _ _ _ (State.setTask_keeps _ _ _ (State.drawCharge_keeps _ _ _
      (Keeps.upd (Keeps.foldlOn Prod.fst (b := (_, [])) (fun x o h => by dsimp only; exact State.applySet_keeps _ _ _ _ h)
        (State.applyOuts_keeps _ _ _ (State.setTask_keeps _ _ _ (State.syncForces_keeps _ _ _ h0))))))))))) 
  split
  · exact State.deliver_keeps _ _ _ _ (.refl _)
  · exact .refl _

theorem State.harvestOne_keeps (s : State) (i : Image) (d : TaskDef) {past : State} (h0 : Keeps past s) :
    Keeps past (State.harvestOne s i d) := by
  unfold State.harvestOne
  repeat' first
    | (simp (maxDischargeDepth := 40) only [implies_true, Keeps.refl, Keeps.ite, Keeps.upd, Keeps.send, h0,
        State.drawCharge_keeps, State.harvest_keeps, State.watchdogTrip_keeps]; done)
    | split
    | dsimp only

theorem State.harvestDue_keeps (s : State) (upTo : Option Nat) {past : State} (h0 : Keeps past s) :
    Keeps past (State.harvestDue s upTo) := by
  unfold State.harvestDue
  repeat' first
    | (simp (maxDischargeDepth := 40) only [implies_true, Keeps.refl, Keeps.ite, Keeps.upd, Keeps.send, h0, Keeps.foldl,
        State.harvestOne_keeps]; done)
    | with_reducible refine Keeps.foldl (fun _ _ => ?_) ?_
    | split
    | dsimp only

theorem execHarvestPoint_keeps {past : State} (t : Nat) (task : Fin 64) (s : State)
    (h : execHarvestPoint t task s = .next past) : Keeps (s.tick t) past := by
  unfold execHarvestPoint at h
  simp only [Host.Outcome.next.injEq] at h
  subst h
  repeat' first
    | (simp (maxDischargeDepth := 40) only [implies_true, Keeps.refl, Keeps.ite, Keeps.upd, Keeps.send,
        State.harvestDue_keeps]; done)
    | split
    | dsimp only

theorem execCycleStart_keeps {past : State} (t : Nat) (task : Fin 64) (s : State)
    (h : execCycleStart t task s = .next past) : Keeps (s.tick t) past := by
  unfold execCycleStart at h
  simp only [Host.Outcome.next.injEq] at h
  subst h
  repeat' first
    | (simp (maxDischargeDepth := 40) only [implies_true, Keeps.refl, Keeps.ite, Keeps.upd, Keeps.send, State.emit_keeps,
        State.harvestDue_keeps, State.latch_keeps, State.syncForces_keeps]; done)
    | split
    | dsimp only

theorem execSpeculationStart_keeps {past : State} (t : Nat) (task : Fin 64) (s : State)
    (h : execSpeculationStart t task s = .next past) : Keeps (s.tick t) past := by
  unfold execSpeculationStart at h
  simp only [Host.Outcome.next.injEq] at h
  subst h
  repeat' first
    | (simp (maxDischargeDepth := 40) only [implies_true, Keeps.refl, Keeps.ite, Keeps.upd, Keeps.send,
        State.setTask_keeps]; done)
    | split
    | dsimp only

theorem execOnlineChange_keeps {past : State} (rid : Nat) (s : State) (h : execOnlineChange rid s = .next past) :
    Keeps s past := by
  cases h
  refine State.onReq_keeps _ _ _ _ (.refl _) (fun r => ?_)
  dsimp only
  split
  · exact State.complete_keeps _ _ _ _ _ _ (.refl _)
  refine .ite (State.applyWhole_keeps _ _ (State.running_keeps _ _ (.refl _))) (State.startSets_keeps _
    (Keeps.foldl (fun st w => ?_) (State.running_keeps _ _ (.refl _)).upd))
  split
  · exact .ite (State.complete_keeps _ _ _ _ _ _ (State.event_keeps _ _ _ (.refl _))) (State.event_keeps _ _ _ (.refl _))
  · exact State.event_keeps _ _ _ (.refl _)

theorem State.forcesChanged_keeps (s : State) (handles : List (BitVec 32)) {past : State} (h0 : Keeps past s) :
    Keeps past (State.forcesChanged s handles) := by
  unfold State.forcesChanged
  simp (maxDischargeDepth := 40) only [implies_true, Keeps.refl, Keeps.ite, Keeps.upd, Keeps.send, h0,
      State.commitTasks_keeps]

theorem execForceSet_keeps {past : State} (rid : Nat) (s : State)
    (h : execForceSet rid s = .next past) : Keeps s past := by
  unfold execForceSet at h
  simp only [Host.Outcome.next.injEq] at h
  subst h
  repeat' first
    | (simp (maxDischargeDepth := 40) only [implies_true, Keeps.refl, Keeps.ite, Keeps.upd, Keeps.send, Keeps.foldl,
        State.onReq_keeps, State.complete_keeps, State.event_keeps, State.forcesChanged_keeps]; done)
    | with_reducible refine Keeps.foldl (fun _ _ => ?_) ?_
    | (with_reducible refine State.onReq_keeps _ _ _ _ (Keeps.refl _) (fun _ => ?_))
    | split
    | dsimp only

theorem execForceRelease_keeps {past : State} (rid : Nat) (s : State)
    (h : execForceRelease rid s = .next past) : Keeps s past := by
  unfold execForceRelease at h
  simp only [Host.Outcome.next.injEq] at h
  subst h
  simp (maxDischargeDepth := 40) only [implies_true, Keeps.refl, Keeps.ite, Keeps.upd, Keeps.send, Keeps.foldl,
      State.onReq_keeps, State.complete_keeps, State.event_keeps, State.forcesChanged_keeps]

theorem execForceList_keeps {past : State} (rid : Nat) (s : State)
    (h : execForceList rid s = .next past) : Keeps s past := by
  unfold execForceList at h
  simp only [Host.Outcome.next.injEq] at h
  subst h
  simp (maxDischargeDepth := 40) only [implies_true, Keeps.refl, Keeps.ite, Keeps.upd, Keeps.send, State.onReq_keeps,
      State.complete_keeps]

theorem execForceRefresh_keeps {past : State} (t : Nat) (s : State)
    (h : execForceRefresh t s = .next past) : Keeps (s.tick t) past := by
  unfold execForceRefresh at h
  simp only [Host.Outcome.next.injEq] at h
  subst h
  simp (maxDischargeDepth := 40) only [implies_true, Keeps.refl, Keeps.ite, Keeps.upd, Keeps.send, Keeps.foldl,
      State.setTask_keeps, State.syncAll_keeps]

theorem execVarRead_keeps {past : State} (rid : Nat) (s : State)
    (h : execVarRead rid s = .next past) : Keeps s past := by
  unfold execVarRead at h
  simp only [Host.Outcome.next.injEq] at h
  subst h
  repeat' first
    | (simp (maxDischargeDepth := 40) only [implies_true, Keeps.refl, Keeps.ite, Keeps.upd, Keeps.send, State.onReq_keeps,
        State.complete_keeps]; done)
    | (with_reducible refine State.onReq_keeps _ _ _ _ (Keeps.refl _) (fun _ => ?_))
    | split
    | dsimp only

theorem execVarSubscribe_keeps {past : State} (rid : Nat) (handle : BitVec 32) (s : State)
    (h : execVarSubscribe rid handle s = .next past) : Keeps s past := by
  unfold execVarSubscribe at h
  simp only [Host.Outcome.next.injEq] at h
  subst h
  repeat' first
    | (simp (maxDischargeDepth := 40) only [implies_true, Keeps.refl, Keeps.ite, Keeps.upd, Keeps.send, State.onReq_keeps,
        State.complete_keeps, State.subscribe_keeps]; done)
    | (with_reducible refine State.onReq_keeps _ _ _ _ (Keeps.refl _) (fun _ => ?_))
    | split
    | dsimp only

theorem execSubCancel_keeps {past : State} (rid : Nat) (s : State)
    (h : execSubCancel rid s = .next past) : Keeps s past := by
  unfold execSubCancel at h
  simp only [Host.Outcome.next.injEq] at h
  subst h
  simp (maxDischargeDepth := 40) only [implies_true, Keeps.refl, Keeps.ite, Keeps.upd, Keeps.send, State.onReq_keeps,
      State.complete_keeps]

theorem execTaskStatus_keeps {past : State} (rid : Nat) (s : State)
    (h : execTaskStatus rid s = .next past) : Keeps s past := by
  unfold execTaskStatus at h
  simp only [Host.Outcome.next.injEq] at h
  subst h
  simp (maxDischargeDepth := 40) only [implies_true, Keeps.refl, Keeps.ite, Keeps.upd, Keeps.send, State.onReq_keeps,
      State.complete_keeps]

theorem execProgInfo_keeps {past : State} (rid : Nat) (s : State)
    (h : execProgInfo rid s = .next past) : Keeps s past := by
  unfold execProgInfo at h
  simp only [Host.Outcome.next.injEq] at h
  subst h
  simp (maxDischargeDepth := 40) only [implies_true, Keeps.refl, Keeps.ite, Keeps.upd, Keeps.send, State.onReq_keeps,
      State.complete_keeps]

theorem execProgLoad_keeps {past : State} (rid : Nat) (s : State)
    (h : execProgLoad rid s = .next past) : Keeps s past := by
  unfold execProgLoad at h
  simp only [Host.Outcome.next.injEq] at h
  subst h
  repeat' first
    | (simp (maxDischargeDepth := 40) only [implies_true, Keeps.refl, Keeps.ite, Keeps.upd, Keeps.send, State.onReq_keeps,
        State.complete_keeps, State.running_keeps]; done)
    | (with_reducible refine State.onReq_keeps _ _ _ _ (Keeps.refl _) (fun _ => ?_))
    | split
    | dsimp only

theorem State.outerFirst_keeps (s : State) (h : Nat) {past : State} (h0 : Keeps past s) :
    Keeps past (State.outerFirst s h) := by
  unfold State.outerFirst
  repeat' first
    | (simp (maxDischargeDepth := 40) only [implies_true, Keeps.refl, Keeps.ite, Keeps.upd, Keeps.send, h0,
        State.commitLoop_keeps]; done)
    | split
    | dsimp only

theorem execLoopSample_keeps {past : State} (t : Nat) (handle : BitVec 16) (s : State)
    (h : execLoopSample t handle s = .next past) : Keeps (s.tick t) past := by
  unfold execLoopSample at h
  simp only [Host.Outcome.next.injEq] at h
  subst h
  repeat' first
    | (simp (maxDischargeDepth := 40) only [implies_true, Keeps.refl, Keeps.ite, Keeps.upd, Keeps.send, State.emit_keeps,
        State.harvestDue_keeps, State.outerFirst_keeps, State.takeSample_keeps]; done)
    | split
    | dsimp only

theorem execRingCycleOpen_keeps {past : State} (t : Nat) (s : State)
    (h : execRingCycleOpen t s = .next past) : Keeps (s.tick t) past := by
  unfold execRingCycleOpen at h
  simp only [Host.Outcome.next.injEq] at h
  subst h
  repeat' first
    | (simp (maxDischargeDepth := 40) only [implies_true, Keeps.refl, Keeps.ite, Keeps.upd, Keeps.send, Keeps.foldl,
        State.electMaster_keeps, State.event_keeps, State.harvestDue_keeps, State.sendBlocks_keeps, State.sendDrops_keeps,
        State.sendSync_keeps, State.unwrapDue_keeps]; done)
    | with_reducible refine Keeps.foldl (fun _ _ => ?_) ?_
    | split
    | dsimp only

theorem execC1Slot_keeps {past : State} (t : Nat) (slot : Fin 64) (leftAt : Nat) (s : State)
    (h : execC1Slot t slot leftAt s = .next past) : Keeps (s.tick t) past := by
  unfold execC1Slot at h
  simp only [Host.Outcome.next.injEq] at h
  subst h
  repeat' first
    | (simp (maxDischargeDepth := 40) only [implies_true, Keeps.refl, Keeps.ite, Keeps.upd, Keeps.send,
        State.outputsDue_keeps, State.ringSend_keeps]; done)
    | split
    | dsimp only

theorem execCanSlotOpen_keeps {past : State} (t : Nat) (ch : Fin 8) (slot : Fin 32) (busIdle : Bool) (s : State)
    (h : execCanSlotOpen t ch slot busIdle s = .next past) : Keeps (s.tick t) past := by
  unfold execCanSlotOpen at h
  simp only [Host.Outcome.next.injEq] at h
  subst h
  repeat' first
    | (simp (maxDischargeDepth := 40) only [implies_true, Keeps.refl, Keeps.ite, Keeps.upd, Keeps.send, State.emit_keeps,
        State.harvestDue_keeps, State.outputsDue_keeps, State.setChan_keeps, State.slotClose_keeps]; done)
    | split
    | dsimp only

theorem execContactorTick_keeps {past : State} (t : Nat) (s : State)
    (h : execContactorTick t s = .next past) : Keeps (s.tick t) past := by
  unfold execContactorTick at h
  simp only [Host.Outcome.next.injEq] at h
  subst h
  repeat' first
    | (simp (maxDischargeDepth := 40) only [implies_true, Keeps.refl, Keeps.ite, Keeps.upd, Keeps.send,
        State.contDue_keeps, State.contRun_keeps, State.emit_keeps, State.harvestDue_keeps]; done)
    | split
    | dsimp only

theorem State.holdWork_keeps (s : State) {past : State} (h0 : Keeps past s) :
    Keeps past (State.holdWork s) := by
  unfold State.holdWork
  simp (maxDischargeDepth := 40) only [implies_true, Keeps.refl, Keeps.ite, Keeps.upd, Keeps.send, h0,
      State.contHold_keeps, State.holdLoops_keeps, State.holdSets_keeps, State.holdStrings_keeps]

theorem State.holdNow_keeps (s : State) (cause task : Nat) {past : State} (h0 : Keeps past s) :
    Keeps past (State.holdNow s cause task) := by
  unfold State.holdNow
  simp (maxDischargeDepth := 40) only [implies_true, Keeps.refl, Keeps.ite, Keeps.upd, Keeps.send, h0,
      State.abandonTrans_keeps, State.cause_keeps, State.enterHold_keeps, State.holdWork_keeps]

theorem execHoldInstant_keeps {past : State} (t : Nat) (s : State)
    (h : execHoldInstant t s = .next past) : Keeps (s.tick t) past := by
  unfold execHoldInstant at h
  simp only [Host.Outcome.next.injEq] at h
  subst h
  repeat' first
    | (simp (maxDischargeDepth := 40) only [implies_true, Keeps.refl, Keeps.ite, Keeps.upd, Keeps.send, State.cause_keeps,
        State.complete_keeps, State.enterHold_keeps, State.holdWork_keeps]; done)
    | split
    | dsimp only

theorem State.endReq_keeps (s : State) (rid : Option Nat) (op status result flags : Nat) {past : State} (h0 : Keeps past
    s) :
    Keeps past (State.endReq s rid op status result flags) := by
  unfold State.endReq
  repeat' first
    | (simp (maxDischargeDepth := 40) only [implies_true, Keeps.refl, Keeps.ite, Keeps.upd, Keeps.send, h0,
        State.complete_keeps]; done)
    | split
    | dsimp only

theorem State.dropSwap_keeps (s : State) {past : State} (h0 : Keeps past s) :
    Keeps past (State.dropSwap s) := by
  unfold State.dropSwap
  repeat' first
    | (simp (maxDischargeDepth := 40) only [implies_true, Keeps.refl, Keeps.ite, Keeps.upd, Keeps.send, h0,
        State.endReq_keeps]; done)
    | split
    | dsimp only

theorem State.yield_keeps (s : State) (check : Nat) {past : State} (h0 : Keeps past s) :
    Keeps past (State.yield s check) := by
  unfold State.yield
  simp (maxDischargeDepth := 40) only [implies_true, Keeps.refl, Keeps.ite, Keeps.upd, Keeps.send, h0, State.cause_keeps,
      State.dropSwap_keeps, State.endSession_keeps, State.event_keeps, State.holdNow_keeps, State.holdOuts_keeps,
      State.markFault_keeps]

theorem State.diagnose_keeps (s : State) (c : Check) {past : State} (h0 : Keeps past s) :
    Keeps past (State.diagnose s c) := by
  unfold State.diagnose
  repeat' first
    | (simp (maxDischargeDepth := 40) only [implies_true, Keeps.refl, Keeps.ite, Keeps.upd, Keeps.send, h0,
        State.faultHold_keeps, State.holdNow_keeps, State.markFault_keeps, State.yield_keeps]; done)
    | split
    | dsimp only

theorem execEccError_keeps {past : State} (t : Nat) (die : Fin 8) (link : Bool) (s : State)
    (h : execEccError t die link s = .next past) : Keeps (s.tick t) past := by
  unfold execEccError at h
  simp only [Host.Outcome.next.injEq] at h
  subst h
  simp (maxDischargeDepth := 40) only [implies_true, Keeps.refl, Keeps.ite, Keeps.upd, Keeps.send, State.diagnose_keeps,
      State.setTile_keeps]

theorem execLockstepMismatch_keeps {past : State} (t : Nat) (s : State)
    (h : execLockstepMismatch t s = .next past) : Keeps (s.tick t) past := by
  unfold execLockstepMismatch at h
  simp only [Host.Outcome.next.injEq] at h
  subst h
  simp (maxDischargeDepth := 40) only [implies_true, Keeps.refl, Keeps.ite, Keeps.upd, Keeps.send, State.diagnose_keeps,
      State.event_keeps, State.wardEval_keeps]

theorem execLeadAliveWatchdog_keeps {past : State} (t : Nat) (s : State)
    (h : execLeadAliveWatchdog t s = .next past) : Keeps (s.tick t) past := by
  unfold execLeadAliveWatchdog at h
  simp only [Host.Outcome.next.injEq] at h
  subst h
  simp (maxDischargeDepth := 40) only [implies_true, Keeps.refl, Keeps.ite, Keeps.upd, Keeps.send, State.diagnose_keeps,
      State.holdNow_keeps, State.markFault_keeps]

theorem execYieldSafeTimeout_keeps {past : State} (t : Nat) (s : State)
    (h : execYieldSafeTimeout t s = .next past) : Keeps (s.tick t) past := by
  unfold execYieldSafeTimeout at h
  simp only [Host.Outcome.next.injEq] at h
  subst h
  repeat' first
    | (simp (maxDischargeDepth := 40) only [implies_true, Keeps.refl, Keeps.ite, Keeps.upd, Keeps.send]; done)
    | split
    | dsimp only

theorem State.dropAcks_keeps (s : State) {past : State} (h0 : Keeps past s) :
    Keeps past (State.dropAcks s) := by
  unfold State.dropAcks
  simp (maxDischargeDepth := 40) only [implies_true, Keeps.refl, Keeps.ite, Keeps.upd, Keeps.send, h0, Keeps.foldl,
      State.release_keeps, State.updReq_keeps]

theorem State.markLost_keeps (s : State) (cause : Nat) {past : State} (h0 : Keeps past s) :
    Keeps past (State.markLost s cause) := by
  unfold State.markLost
  simp (maxDischargeDepth := 40) only [implies_true, Keeps.refl, Keeps.ite, Keeps.upd, Keeps.send, h0, State.cause_keeps,
      State.dropAcks_keeps, State.dropSwap_keeps, State.event_keeps, State.setRole_keeps, State.takeChains_keeps]

theorem execMirrorTimeout_keeps {past : State} (t : Nat) (s : State)
    (h : execMirrorTimeout t s = .next past) : Keeps (s.tick t) past := by
  unfold execMirrorTimeout at h
  simp only [Host.Outcome.next.injEq] at h
  subst h
  simp (maxDischargeDepth := 40) only [implies_true, Keeps.refl, Keeps.ite, Keeps.upd, Keeps.send, State.dropAcks_keeps,
      State.markLost_keeps, State.yield_keeps]

theorem execMirrorAck_keeps {past : State} (t : Nat) (rid : Nat) (s : State)
    (h : execMirrorAck t rid s = .next past) : Keeps (s.tick t) past := by
  unfold execMirrorAck at h
  simp only [Host.Outcome.next.injEq] at h
  subst h
  simp (maxDischargeDepth := 40) only [implies_true, Keeps.refl, Keeps.ite, Keeps.upd, Keeps.send, State.goodFrame_keeps,
      State.release_keeps, State.updReq_keeps]

theorem State.loadStages_keeps (s : State) {past : State} (h0 : Keeps past s) :
    Keeps past (State.loadStages s) := by
  unfold State.loadStages
  simp (maxDischargeDepth := 40) only [implies_true, Keeps.refl, Keeps.ite, Keeps.upd, Keeps.send, h0, Keeps.foldl,
      State.fresh_keeps, State.setFao_keeps]

theorem State.takeLatch_keeps (s : State) (d : TaskDef) {past : State} (h0 : Keeps past s) :
    Keeps past (State.takeLatch s d) := by
  unfold State.takeLatch
  repeat' first
    | (simp (maxDischargeDepth := 40) only [implies_true, Keeps.refl, Keeps.ite, Keeps.upd, Keeps.send, h0,
        State.latch_keeps, State.setTask_keeps, State.syncForces_keeps]; done)
    | split
    | dsimp only

theorem State.takeover_keeps (s : State) (cause : Nat) {past : State} (h0 : Keeps past s) :
    Keeps past (State.takeover s cause) := by
  unfold State.takeover
  repeat' first
    | (simp (maxDischargeDepth := 40) only [implies_true, Keeps.refl, Keeps.ite, Keeps.upd, Keeps.send, h0, Keeps.foldl,
        State.cause_keeps, State.dropSwap_keeps, State.holdNow_keeps, State.loadStages_keeps, State.setRole_keeps,
        State.takeChains_keeps, State.takeLatch_keeps]; done)
    | with_reducible refine Keeps.foldl (fun _ _ => ?_) ?_
    | split
    | dsimp only

theorem execThaw_keeps {past : State} (t : Nat) (s : State)
    (h : execThaw t s = .next past) : Keeps (s.tick t) past := by
  unfold execThaw at h
  simp only [Host.Outcome.next.injEq] at h
  subst h
  repeat' first
    | (simp (maxDischargeDepth := 40) only [implies_true, Keeps.refl, Keeps.ite, Keeps.upd, Keeps.send, State.cause_keeps,
        State.dropAcks_keeps, State.event_keeps, State.setRole_keeps, State.takeChains_keeps]; done)
    | split
    | dsimp only

theorem State.syncingLead_keeps (s : State) {past : State} (h0 : Keeps past s) :
    Keeps past (State.syncingLead s) := by
  unfold State.syncingLead
  simp (maxDischargeDepth := 40) only [implies_true, Keeps.refl, Keeps.ite, Keeps.upd, Keeps.send, h0,
      State.dropSwap_keeps, State.holdNow_keeps, State.setRole_keeps]

theorem execYieldNAssert_keeps {past : State} (t : Nat) (check : Nat) (s : State)
    (h : execYieldNAssert t check s = .next past) : Keeps (s.tick t) past := by
  unfold execYieldNAssert at h
  simp only [Host.Outcome.next.injEq] at h
  subst h
  repeat' first
    | (simp (maxDischargeDepth := 40) only [implies_true, Keeps.refl, Keeps.ite, Keeps.upd, Keeps.send, State.event_keeps,
        State.markLost_keeps, State.syncingLead_keeps, State.takeover_keeps]; done)
    | split
    | dsimp only

theorem execLeadAliveDeassert_keeps {past : State} (t : Nat) (s : State)
    (h : execLeadAliveDeassert t s = .next past) : Keeps (s.tick t) past := by
  unfold execLeadAliveDeassert at h
  simp only [Host.Outcome.next.injEq] at h
  subst h
  simp (maxDischargeDepth := 40) only [implies_true, Keeps.refl, Keeps.ite, Keeps.upd, Keeps.send,
      State.syncingLead_keeps, State.takeover_keeps]

theorem execHeartbeatSend_keeps {past : State} (t : Nat) (s : State)
    (h : execHeartbeatSend t s = .next past) : Keeps (s.tick t) past := by
  unfold execHeartbeatSend at h
  simp only [Host.Outcome.next.injEq] at h
  subst h
  simp (maxDischargeDepth := 40) only [implies_true, Keeps.refl, Keeps.ite, Keeps.upd, Keeps.send, State.emit_keeps,
      State.sendTones_keeps]

theorem execHeartbeatMissed_keeps {past : State} (t : Nat) (s : State)
    (h : execHeartbeatMissed t s = .next past) : Keeps (s.tick t) past := by
  unfold execHeartbeatMissed at h
  simp only [Host.Outcome.next.injEq] at h
  subst h
  simp (maxDischargeDepth := 40) only [implies_true, Keeps.refl, Keeps.ite, Keeps.upd, Keeps.send, State.markLost_keeps]

theorem execHeartbeatConfirm_keeps {past : State} (t : Nat) (alive : Bool) (s : State)
    (h : execHeartbeatConfirm t alive s = .next past) : Keeps (s.tick t) past := by
  unfold execHeartbeatConfirm at h
  simp only [Host.Outcome.next.injEq] at h
  subst h
  repeat' first
    | (simp (maxDischargeDepth := 40) only [implies_true, Keeps.refl, Keeps.ite, Keeps.upd, Keeps.send,
        State.takeover_keeps, State.yield_keeps]; done)
    | split
    | dsimp only

theorem State.startPorts_keeps (s : State) {past : State} (h0 : Keeps past s) :
    Keeps past (State.startPorts s) := by
  unfold State.startPorts
  repeat' first
    | (simp (maxDischargeDepth := 40) only [implies_true, Keeps.refl, Keeps.ite, Keeps.upd, Keeps.send, h0, Keeps.foldl,
        State.startEnum_keeps]; done)
    | with_reducible refine Keeps.foldl (fun _ _ => ?_) ?_
    | split
    | dsimp only

theorem State.settleDone_keeps (s : State) {past : State} (h0 : Keeps past s) :
    Keeps past (State.settleDone s) := by
  unfold State.settleDone
  simp (maxDischargeDepth := 40) only [implies_true, Keeps.refl, Keeps.ite, Keeps.upd, Keeps.send, h0, State.event_keeps,
      State.springTiles_keeps, State.startPorts_keeps]

theorem State.settleLead_keeps (s : State) {past : State} (h0 : Keeps past s) :
    Keeps past (State.settleLead s) := by
  unfold State.settleLead
  simp (maxDischargeDepth := 40) only [implies_true, Keeps.refl, Keeps.ite, Keeps.upd, Keeps.send, h0,
      State.setRole_keeps, State.settleDone_keeps]

theorem State.settleFollow_keeps (s : State) {past : State} (h0 : Keeps past s) :
    Keeps past (State.settleFollow s) := by
  unfold State.settleFollow
  simp (maxDischargeDepth := 40) only [implies_true, Keeps.refl, Keeps.ite, Keeps.upd, Keeps.send, h0,
      State.holdNow_keeps, State.setRole_keeps, State.settleDone_keeps]

theorem execRoleWaitEnd_keeps {past : State} (t : Nat) (s : State)
    (h : execRoleWaitEnd t s = .next past) : Keeps (s.tick t) past := by
  unfold execRoleWaitEnd at h
  simp only [Host.Outcome.next.injEq] at h
  subst h
  repeat' first
    | (simp (maxDischargeDepth := 40) only [implies_true, Keeps.refl, Keeps.ite, Keeps.upd, Keeps.send, State.event_keeps,
        State.holdNow_keeps, State.setRole_keeps, State.settleDone_keeps, State.settleFollow_keeps,
        State.settleLead_keeps]; done)
    | split
    | dsimp only

theorem execClaimDrive_keeps {past : State} (t : Nat) (s : State)
    (h : execClaimDrive t s = .next past) : Keeps (s.tick t) past := by
  unfold execClaimDrive at h
  simp only [Host.Outcome.next.injEq] at h
  subst h
  repeat' first
    | (simp (maxDischargeDepth := 40) only [implies_true, Keeps.refl, Keeps.ite, Keeps.upd, Keeps.send,
        State.settleFollow_keeps, State.settleLead_keeps]; done)
    | split
    | dsimp only

theorem execClaimSeen_keeps {past : State} (t : Nat) (s : State)
    (h : execClaimSeen t s = .next past) : Keeps (s.tick t) past := by
  unfold execClaimSeen at h
  simp only [Host.Outcome.next.injEq] at h
  subst h
  repeat' first
    | (simp (maxDischargeDepth := 40) only [implies_true, Keeps.refl, Keeps.ite, Keeps.upd, Keeps.send,
        State.settleFollow_keeps]; done)
    | split
    | dsimp only

theorem execClaimRelease_keeps {past : State} (t : Nat) (s : State)
    (h : execClaimRelease t s = .next past) : Keeps (s.tick t) past := by
  unfold execClaimRelease at h
  simp only [Host.Outcome.next.injEq] at h
  subst h
  simp (maxDischargeDepth := 40) only [implies_true, Keeps.refl, Keeps.ite, Keeps.upd, Keeps.send]

theorem State.setMark_keeps (s : State) (m : Nat) {past : State} (h0 : Keeps past s) :
    Keeps past (State.setMark s m) := by
  unfold State.setMark
  simp (maxDischargeDepth := 40) only [implies_true, Keeps.refl, Keeps.ite, Keeps.upd, Keeps.send, h0]

theorem execDigestCompare_keeps {past : State} (t : Nat) (kind : DigestKind) (id : Nat) (lead : BitVec 64) (s : State)
    (h : execDigestCompare t kind id lead s = .next past) : Keeps (s.tick t) past := by
  unfold execDigestCompare at h
  simp only [Host.Outcome.next.injEq] at h
  subst h
  repeat' first
    | (simp (maxDischargeDepth := 40) only [implies_true, Keeps.refl, Keeps.ite, Keeps.upd, Keeps.send, State.emit_keeps,
        State.event_keeps]; done)
    | split
    | dsimp only

theorem execSelfTestDone_keeps {past : State} (t : Nat) (own partner : Bool) (s : State)
    (h : execSelfTestDone t own partner s = .next past) : Keeps (s.tick t) past := by
  unfold execSelfTestDone at h
  simp only [Host.Outcome.next.injEq] at h
  subst h
  repeat' first
    | (simp (maxDischargeDepth := 40) only [implies_true, Keeps.refl, Keeps.ite, Keeps.upd, Keeps.send, State.event_keeps,
        State.faultHold_keeps, State.setMark_keeps, State.yield_keeps]; done)
    | split
    | dsimp only

theorem execReadbackDiff_keeps {past : State} (t : Nat) (group : Nat) (ch : Fin 16) (durNs : Nat) (s : State)
    (h : execReadbackDiff t group ch durNs s = .next past) : Keeps (s.tick t) past := by
  unfold execReadbackDiff at h
  simp only [Host.Outcome.next.injEq] at h
  subst h
  simp (maxDischargeDepth := 40) only [implies_true, Keeps.refl, Keeps.ite, Keeps.upd, Keeps.send, State.event_keeps]

theorem execLaneDown_keeps {past : State} (t : Nat) (lane : Fin 4) (s : State)
    (h : execLaneDown t lane s = .next past) : Keeps (s.tick t) past := by
  unfold execLaneDown at h
  simp only [Host.Outcome.next.injEq] at h
  subst h
  simp (maxDischargeDepth := 40) only [implies_true, Keeps.refl, Keeps.ite, Keeps.upd, Keeps.send, State.event_keeps]

theorem execTilePower_keeps {past : State} (rid : Nat) (s : State)
    (h : execTilePower rid s = .next past) : Keeps s past := by
  unfold execTilePower at h
  simp only [Host.Outcome.next.injEq] at h
  subst h
  simp (maxDischargeDepth := 40) only [implies_true, Keeps.refl, Keeps.ite, Keeps.upd, Keeps.send, State.onReq_keeps,
      State.complete_keeps, State.ignoreWrite_keeps, State.setTile_keeps]

theorem execTileReset_keeps {past : State} (rid : Nat) (s : State)
    (h : execTileReset rid s = .next past) : Keeps s past := by
  unfold execTileReset at h
  simp only [Host.Outcome.next.injEq] at h
  subst h
  simp (maxDischargeDepth := 40) only [implies_true, Keeps.refl, Keeps.ite, Keeps.upd, Keeps.send, State.onReq_keeps,
      State.complete_keeps, State.setTile_keeps]

theorem State.retract_keeps (s : State) (n : Nat) {past : State} (h0 : Keeps past s) :
    Keeps past (State.retract s n) := by
  unfold State.retract
  repeat' first
    | (simp (maxDischargeDepth := 40) only [implies_true, Keeps.refl, Keeps.ite, Keeps.upd, Keeps.send, h0, Keeps.foldl,
        State.answered_keeps, State.complete_keeps]; done)
    | with_reducible refine Keeps.foldl (fun _ _ => ?_) ?_
    | split
    | dsimp only

theorem State.cancelOwn_keeps (s : State) (n : Nat) {past : State} (h0 : Keeps past s) :
    Keeps past (State.cancelOwn s n) := by
  unfold State.cancelOwn
  repeat' first
    | (simp (maxDischargeDepth := 40) only [implies_true, Keeps.refl, Keeps.ite, Keeps.upd, Keeps.send, h0, Keeps.foldl,
        State.setLoop_keeps, State.setTask_keeps]; done)
    | with_reducible refine Keeps.foldl (fun _ _ => ?_) ?_
    | split
    | dsimp only

theorem execDrainEnd_keeps {past : State} (t : Nat) (die : Fin 8) (outstanding : Nat) (s : State)
    (h : execDrainEnd t die outstanding s = .next past) : Keeps (s.tick t) past := by
  unfold execDrainEnd at h
  simp only [Host.Outcome.next.injEq] at h
  subst h
  repeat' first
    | (simp (maxDischargeDepth := 40) only [implies_true, Keeps.refl, Keeps.ite, Keeps.upd, Keeps.send,
        State.cancelOwn_keeps, State.retract_keeps, State.setTile_keeps]; done)
    | split
    | dsimp only

theorem execStaleReply_keeps {past : State} (t : Nat) (die : Fin 8) (epoch : Byte) (s : State)
    (h : execStaleReply t die epoch s = .next past) : Keeps (s.tick t) past := by
  unfold execStaleReply at h
  simp only [Host.Outcome.next.injEq] at h
  subst h
  simp (maxDischargeDepth := 40) only [implies_true, Keeps.refl, Keeps.ite, Keeps.upd, Keeps.send, State.setTile_keeps]

theorem execCorrectedLinkError_keeps {past : State} (t : Nat) (die : Fin 8) (s : State)
    (h : execCorrectedLinkError t die s = .next past) : Keeps (s.tick t) past := by
  unfold execCorrectedLinkError at h
  simp only [Host.Outcome.next.injEq] at h
  subst h
  simp (maxDischargeDepth := 40) only [implies_true, Keeps.refl, Keeps.ite, Keeps.upd, Keeps.send, State.setTile_keeps]

theorem State.startAutumn_keeps (s : State) (n : Nat) {past : State} (h0 : Keeps past s) :
    Keeps past (State.startAutumn s n) := by
  unfold State.startAutumn
  repeat' first
    | (simp (maxDischargeDepth := 40) only [implies_true, Keeps.refl, Keeps.ite, Keeps.upd, Keeps.send, h0,
        State.setTile_keeps]; done)
    | split
    | dsimp only

theorem execSpringRamp_keeps {past : State} (t : Nat) (die : Fin 8) (due : Option Nat) (s : State)
    (h : execSpringRamp t die due s = .next past) : Keeps (s.tick t) past := by
  unfold execSpringRamp at h
  simp only [Host.Outcome.next.injEq] at h
  subst h
  simp (maxDischargeDepth := 40) only [implies_true, Keeps.refl, Keeps.ite, Keeps.upd, Keeps.send,
      State.startSpring_keeps]

theorem execAsyncWake_keeps {past : State} (t : Nat) (die : Fin 8) (s : State)
    (h : execAsyncWake t die s = .next past) : Keeps (s.tick t) past := by
  unfold execAsyncWake at h
  simp only [Host.Outcome.next.injEq] at h
  subst h
  simp (maxDischargeDepth := 40) only [implies_true, Keeps.refl, Keeps.ite, Keeps.upd, Keeps.send,
      State.startSpring_keeps]

theorem execAutumnRamp_keeps {past : State} (t : Nat) (die : Fin 8) (due : Option Nat) (s : State)
    (h : execAutumnRamp t die due s = .next past) : Keeps (s.tick t) past := by
  unfold execAutumnRamp at h
  simp only [Host.Outcome.next.injEq] at h
  subst h
  simp (maxDischargeDepth := 40) only [implies_true, Keeps.refl, Keeps.ite, Keeps.upd, Keeps.send,
      State.startAutumn_keeps]

theorem execPllLocked_keeps {past : State} (t : Nat) (die : Fin 8) (s : State)
    (h : execPllLocked t die s = .next past) : Keeps (s.tick t) past := by
  unfold execPllLocked at h
  simp only [Host.Outcome.next.injEq] at h
  subst h
  simp (maxDischargeDepth := 40) only [implies_true, Keeps.refl, Keeps.ite, Keeps.upd, Keeps.send, State.setTile_keeps]

theorem State.clockSettle_keeps (s : State) {past : State} (h0 : Keeps past s) :
    Keeps past (State.clockSettle s) := by
  unfold State.clockSettle
  simp (maxDischargeDepth := 40) only [implies_true, Keeps.refl, Keeps.ite, Keeps.upd, Keeps.send, h0,
      State.tripSettle_keeps]

theorem State.tileSwitched_keeps (s : State) (n src : Nat) {past : State} (h0 : Keeps past s) :
    Keeps past (State.tileSwitched s n src) := by
  unfold State.tileSwitched
  simp (maxDischargeDepth := 40) only [implies_true, Keeps.refl, Keeps.ite, Keeps.upd, Keeps.send, h0,
      State.clockSettle_keeps, State.event_keeps, State.setTile_keeps]

theorem State.gate_keeps (s : State) (n : Nat) {past : State} (h0 : Keeps past s) :
    Keeps past (State.gate s n) := by
  unfold State.gate
  repeat' first
    | (simp (maxDischargeDepth := 40) only [implies_true, Keeps.refl, Keeps.ite, Keeps.upd, Keeps.send, h0,
        State.setTile_keeps]; done)
    | split
    | dsimp only

theorem State.endAutumn_keeps (s : State) (n : Nat) (busy : Bool) {past : State} (h0 : Keeps past s) :
    Keeps past (State.endAutumn s n busy) := by
  unfold State.endAutumn
  repeat' first
    | (simp (maxDischargeDepth := 40) only [implies_true, Keeps.refl, Keeps.ite, Keeps.upd, Keeps.send, h0,
        State.event_keeps, State.gate_keeps, State.setTile_keeps, State.tileSwitched_keeps]; done)
    | split
    | dsimp only

theorem execRampStep_keeps {past : State} (t : Nat) (die : Fin 8) (busy : Bool) (s : State)
    (h : execRampStep t die busy s = .next past) : Keeps (s.tick t) past := by
  unfold execRampStep at h
  simp only [Host.Outcome.next.injEq] at h
  subst h
  repeat' first
    | (simp (maxDischargeDepth := 40) only [implies_true, Keeps.refl, Keeps.ite, Keeps.upd, Keeps.send,
        State.endAutumn_keeps, State.gate_keeps, State.setTile_keeps, State.startAutumn_keeps]; done)
    | split
    | dsimp only

theorem State.fallBack_keeps (s : State) (old : Nat) {past : State} (h0 : Keeps past s) : Keeps past (s.fallBack old) :=
    by
  unfold State.fallBack
  refine State.clockSettle_keeps _ (Keeps.foldl (fun st n => ?_) (State.event_keeps _ _ _ h0.upd))
  dsimp only
  split
  case h_4 => exact State.tileSwitched_keeps _ _ _ (.refl _)
  all_goals
    split
    · exact State.tileSwitched_keeps _ _ _ (State.startAutumn_keeps _ _ (.refl _))
    · exact State.setTile_keeps _ _ _ (State.startAutumn_keeps _ _ (.refl _))

theorem State.plannedSwitch_keeps (s : State) (src : Nat) {past : State} (h0 : Keeps past s) :
    Keeps past (State.plannedSwitch s src) := by
  unfold State.plannedSwitch
  simp (maxDischargeDepth := 40) only [implies_true, Keeps.refl, Keeps.ite, Keeps.upd, Keeps.send, h0, Keeps.foldl,
      State.clockSettle_keeps, State.event_keeps, State.tileSwitched_keeps]

theorem State.judgeWindows_keeps (s : State) (int25 refclk : Nat) {past : State} (h0 : Keeps past s) :
    Keeps past (State.judgeWindows s int25 refclk) := by
  unfold State.judgeWindows
  simp (maxDischargeDepth := 40) only [implies_true, Keeps.refl, Keeps.ite, Keeps.upd, Keeps.send, h0, State.event_keeps]

theorem State.clockFailed_keeps (s : State) (src count : Nat) {past : State} (h0 : Keeps past s) :
    Keeps past (State.clockFailed s src count) := by
  unfold State.clockFailed
  repeat' first
    | (simp (maxDischargeDepth := 40) only [implies_true, Keeps.refl, Keeps.ite, Keeps.upd, Keeps.send, h0,
        State.emit_keeps, State.event_keeps, State.fallBack_keeps, State.tripSettle_keeps]; done)
    | split
    | dsimp only

theorem execClockMonitorWindow_keeps {past : State} (t : Nat) (int25 refclk internal : Nat) (s : State)
    (h : execClockMonitorWindow t int25 refclk internal s = .next past) : Keeps (s.tick t) past := by
  unfold execClockMonitorWindow at h
  simp only [Host.Outcome.next.injEq] at h
  subst h
  repeat' first
    | (simp (maxDischargeDepth := 40) only [implies_true, Keeps.refl, Keeps.ite, Keeps.upd, Keeps.send, Keeps.foldl,
        State.clockFailed_keeps, State.diagnose_keeps, State.judgeWindows_keeps, State.plannedSwitch_keeps]; done)
    | with_reducible refine Keeps.foldl (fun _ _ => ?_) ?_
    | split
    | dsimp only

theorem execStoppedClock_keeps {past : State} (t : Nat) (die : Fin 8) (s : State)
    (h : execStoppedClock t die s = .next past) : Keeps (s.tick t) past := by
  unfold execStoppedClock at h
  simp only [Host.Outcome.next.injEq] at h
  subst h
  simp (maxDischargeDepth := 40) only [implies_true, Keeps.refl, Keeps.ite, Keeps.upd, Keeps.send,
      State.clockSettle_keeps, State.event_keeps, State.gate_keeps, State.setTile_keeps, State.tileSwitched_keeps]

theorem execRefclkDelayExpiry_keeps {past : State} (t : Nat) (s : State)
    (h : execRefclkDelayExpiry t s = .next past) : Keeps (s.tick t) past := by
  unfold execRefclkDelayExpiry at h
  simp only [Host.Outcome.next.injEq] at h
  subst h
  simp (maxDischargeDepth := 40) only [implies_true, Keeps.refl, Keeps.ite, Keeps.upd, Keeps.send]

theorem State.backupRail_keeps (s : State) {past : State} (h0 : Keeps past s) :
    Keeps past (State.backupRail s) := by
  unfold State.backupRail
  simp (maxDischargeDepth := 40) only [implies_true, Keeps.refl, Keeps.ite, Keeps.upd, Keeps.send, h0, State.fresh_keeps]

theorem execFeedGood_keeps {past : State} (t : Nat) (b : Bool) (millivolt durNs : Nat) (tenMilliamp : Nat) (s : State)
    (h : execFeedGood t b millivolt durNs tenMilliamp s = .next past) : Keeps (s.tick t) past := by
  unfold execFeedGood at h
  simp only [Host.Outcome.next.injEq] at h
  subst h
  simp (maxDischargeDepth := 40) only [implies_true, Keeps.refl, Keeps.ite, Keeps.upd, Keeps.send, State.backupRail_keeps,
      State.event_keeps]

theorem State.powerFail_keeps (s : State) (cause : Nat) (c : Check) {past : State} (h0 : Keeps past s) :
    Keeps past (State.powerFail s cause c) := by
  unfold State.powerFail
  simp (maxDischargeDepth := 40) only [implies_true, Keeps.refl, Keeps.ite, Keeps.upd, Keeps.send, h0, State.cause_keeps,
      State.diagnose_keeps, State.event_keeps, State.running_keeps]

theorem execFeedLost_keeps {past : State} (t : Nat) (b : Bool) (millivolt durNs : Nat) (s : State)
    (h : execFeedLost t b millivolt durNs s = .next past) : Keeps (s.tick t) past := by
  unfold execFeedLost at h
  simp only [Host.Outcome.next.injEq] at h
  subst h
  simp (maxDischargeDepth := 40) only [implies_true, Keeps.refl, Keeps.ite, Keeps.upd, Keeps.send, State.backupRail_keeps,
      State.event_keeps, State.powerFail_keeps]

theorem execRailFault_keeps {past : State} (t : Nat) (rail : Nat) (durNs : Nat) (s : State)
    (h : execRailFault t rail durNs s = .next past) : Keeps (s.tick t) past := by
  unfold execRailFault at h
  simp only [Host.Outcome.next.injEq] at h
  subst h
  simp (maxDischargeDepth := 40) only [implies_true, Keeps.refl, Keeps.ite, Keeps.upd, Keeps.send, State.event_keeps,
      State.powerFail_keeps]

theorem execPrsntNDeassert_keeps {past : State} (t : Nat) (s : State)
    (h : execPrsntNDeassert t s = .next past) : Keeps (s.tick t) past := by
  unfold execPrsntNDeassert at h
  simp only [Host.Outcome.next.injEq] at h
  subst h
  simp (maxDischargeDepth := 40) only [implies_true, Keeps.refl, Keeps.ite, Keeps.upd, Keeps.send, State.powerFail_keeps]

theorem execTimeRead_keeps {past : State} (rid : Nat) (s : State)
    (h : execTimeRead rid s = .next past) : Keeps s past := by
  unfold execTimeRead at h
  simp only [Host.Outcome.next.injEq] at h
  subst h
  simp (maxDischargeDepth := 40) only [implies_true, Keeps.refl, Keeps.ite, Keeps.upd, Keeps.send, State.onReq_keeps,
      State.complete_keeps]

theorem execClkMtRead_keeps {past : State} (t : Nat) (s : State)
    (h : execClkMtRead t s = .next past) : Keeps (s.tick t) past := by
  unfold execClkMtRead at h
  simp only [Host.Outcome.next.injEq] at h
  subst h
  simp (maxDischargeDepth := 40) only [implies_true, Keeps.refl, Keeps.ite, Keeps.upd, Keeps.send, State.emit_keeps]

theorem State.stageRtc_keeps (s : State) {past : State} (h0 : Keeps past s) :
    Keeps past (State.stageRtc s) := by
  unfold State.stageRtc
  simp (maxDischargeDepth := 40) only [implies_true, Keeps.refl, Keeps.ite, Keeps.upd, Keeps.send, h0]

theorem State.stepTime_keeps (s : State) (mt : Nat) {past : State} (h0 : Keeps past s) :
    Keeps past (State.stepTime s mt) := by
  unfold State.stepTime
  repeat' first
    | (simp (maxDischargeDepth := 40) only [implies_true, Keeps.refl, Keeps.ite, Keeps.upd, Keeps.send, h0,
        State.stepSweeps_keeps]; done)
    | split
    | dsimp only

theorem State.slewTime_keeps (s : State) (mt : Nat) {past : State} (h0 : Keeps past s) :
    Keeps past (State.slewTime s mt) := h0.upd

theorem execFaiAperture_keeps {past : State} (t : Nat) (volts : List (BitVec 32)) (s : State)
    (h : execFaiAperture t volts s = .next past) : Keeps (s.tick t) past := by
  unfold execFaiAperture at h
  simp only [Host.Outcome.next.injEq] at h
  subst h
  simp (maxDischargeDepth := 40) only [implies_true, Keeps.refl, Keeps.ite, Keeps.upd, Keeps.send, Keeps.foldl,
      State.faiRead_keeps]

theorem State.discipline_keeps (s : State) (off0 : Int) (since0 : Nat) (again : Bool) {past : State} (h0 : Keeps past s) :
    Keeps past (State.discipline s off0 since0 again) := by
  unfold State.discipline
  simp (maxDischargeDepth := 40) only [implies_true, Keeps.refl, Keeps.ite, Keeps.upd, Keeps.send, h0, State.event_keeps,
      State.stepSweeps_keeps, State.timeValid_keeps]

theorem State.useSync_keeps (s : State) (east : Bool) (f : RingFrame) (again : Bool) {past : State} (h0 : Keeps past s) :
    Keeps past (State.useSync s east f again) := by
  unfold State.useSync
  simp (maxDischargeDepth := 40) only [implies_true, Keeps.refl, Keeps.ite, Keeps.upd, Keeps.send, h0,
      State.discipline_keeps, State.hearMaster_keeps, State.setMaster_keeps]

theorem execSyncReceive_keeps {past : State} (t : Nat) (east : Bool) (f : RingFrame) (s : State)
    (h : execSyncReceive t east f s = .next past) : Keeps (s.tick t) past := by
  unfold execSyncReceive at h
  simp only [Host.Outcome.next.injEq] at h
  subst h
  repeat' first
    | (simp (maxDischargeDepth := 20) only [State.ringIn_keeps, State.seqTake_keeps, Keeps.refl]; done)
    | (with_reducible refine State.ringUse_keeps _ _ _ ?_ (fun u k => State.useSync_keeps _ _ _ _ k))
    | split
    | dsimp only

theorem execTimeSet_keeps {past : State} (rid : Nat) (s : State)
    (h : execTimeSet rid s = .next past) : Keeps s past := by
  unfold execTimeSet at h
  simp only [Host.Outcome.next.injEq] at h
  subst h
  simp (maxDischargeDepth := 40) only [implies_true, Keeps.refl, Keeps.ite, Keeps.upd, Keeps.send, State.onReq_keeps,
      State.complete_keeps, State.emit_keeps, State.event_keeps, State.slewTime_keeps, State.stageRtc_keeps,
      State.stepTime_keeps, State.timeValid_keeps]

theorem execSlewEnd_keeps {past : State} (t : Nat) (s : State)
    (h : execSlewEnd t s = .next past) : Keeps (s.tick t) past := by
  unfold execSlewEnd at h
  simp only [Host.Outcome.next.injEq] at h
  subst h
  repeat' first
    | (simp (maxDischargeDepth := 40) only [implies_true, Keeps.refl, Keeps.ite, Keeps.upd, Keeps.send]; done)
    | split
    | dsimp only

theorem execRtcSecRead_keeps {past : State} (t : Nat) (s : State)
    (h : execRtcSecRead t s = .next past) : Keeps (s.tick t) past := by
  unfold execRtcSecRead at h
  simp only [Host.Outcome.next.injEq] at h
  subst h
  simp (maxDischargeDepth := 40) only [implies_true, Keeps.refl, Keeps.ite, Keeps.upd, Keeps.send, State.emit_keeps]

theorem execRtcCheck_keeps {past : State} (t : Nat) (drift : Int) (s : State)
    (h : execRtcCheck t drift s = .next past) : Keeps (s.tick t) past := by
  unfold execRtcCheck at h
  simp only [Host.Outcome.next.injEq] at h
  subst h
  simp (maxDischargeDepth := 40) only [implies_true, Keeps.refl, Keeps.ite, Keeps.upd, Keeps.send, State.stageRtc_keeps]

theorem execRtcCommit_keeps {past : State} (t : Nat) (s : State)
    (h : execRtcCommit t s = .next past) : Keeps (s.tick t) past := by
  unfold execRtcCommit at h
  simp only [Host.Outcome.next.injEq] at h
  subst h
  repeat' first
    | (simp (maxDischargeDepth := 40) only [implies_true, Keeps.refl, Keeps.ite, Keeps.upd, Keeps.send,
        State.event_keeps]; done)
    | split
    | dsimp only

theorem execBackupLost_keeps {past : State} (t : Nat) (millivolt durNs : Nat) (s : State)
    (h : execBackupLost t millivolt durNs s = .next past) : Keeps (s.tick t) past := by
  unfold execBackupLost at h
  simp only [Host.Outcome.next.injEq] at h
  subst h
  simp (maxDischargeDepth := 40) only [implies_true, Keeps.refl, Keeps.ite, Keeps.upd, Keeps.send]

theorem execOsf_keeps {past : State} (t : Nat) (gapNs : Nat) (s : State)
    (h : execOsf t gapNs s = .next past) : Keeps (s.tick t) past := by
  unfold execOsf at h
  simp only [Host.Outcome.next.injEq] at h
  subst h
  simp (maxDischargeDepth := 40) only [implies_true, Keeps.refl, Keeps.ite, Keeps.upd, Keeps.send]

theorem execRtcAlarm_keeps {past : State} (rid : Nat) (s : State)
    (h : execRtcAlarm rid s = .next past) : Keeps s past := by
  unfold execRtcAlarm at h
  simp only [Host.Outcome.next.injEq] at h
  subst h
  simp (maxDischargeDepth := 40) only [implies_true, Keeps.refl, Keeps.ite, Keeps.upd, Keeps.send, State.onReq_keeps,
      State.complete_keeps]

theorem execAlarmFire_keeps {past : State} (t : Nat) (s : State)
    (h : execAlarmFire t s = .next past) : Keeps (s.tick t) past := by
  unfold execAlarmFire at h
  simp only [Host.Outcome.next.injEq] at h
  subst h
  simp (maxDischargeDepth := 40) only [implies_true, Keeps.refl, Keeps.ite, Keeps.upd, Keeps.send, State.event_keeps,
      State.wake_keeps]

theorem execWakeTimeout_keeps {past : State} (t : Nat) (s : State)
    (h : execWakeTimeout t s = .next past) : Keeps (s.tick t) past := by
  unfold execWakeTimeout at h
  simp only [Host.Outcome.next.injEq] at h
  subst h
  repeat' first
    | (simp (maxDischargeDepth := 40) only [implies_true, Keeps.refl, Keeps.ite, Keeps.upd, Keeps.send]; done)
    | split
    | dsimp only

theorem execAdd_keeps {past : State} (task : Fin 64) (f : FmtA) (s : State) (h : execAdd task f s = .next past) : Keeps s
    past := by
  cases h; exact State.core_keeps _ _ _ _ (.refl _)

theorem execSub_keeps {past : State} (task : Fin 64) (f : FmtA) (s : State) (h : execSub task f s = .next past) : Keeps s
    past := by
  cases h; exact State.core_keeps _ _ _ _ (.refl _)

theorem execMul_keeps {past : State} (task : Fin 64) (f : FmtA) (s : State) (h : execMul task f s = .next past) : Keeps s
    past := by
  cases h; exact State.core_keeps _ _ _ _ (.refl _)

theorem execMulh_keeps {past : State} (task : Fin 64) (f : FmtA) (s : State) (h : execMulh task f s = .next past) : Keeps
    s past := by
  cases h; exact State.core_keeps _ _ _ _ (.refl _)

theorem execMulhu_keeps {past : State} (task : Fin 64) (f : FmtA) (s : State) (h : execMulhu task f s = .next past) :
    Keeps s past := by
  cases h; exact State.core_keeps _ _ _ _ (.refl _)

theorem execDiv_keeps {past : State} (task : Fin 64) (f : FmtA) (s : State) (h : execDiv task f s = .next past) : Keeps s
    past := by
  cases h; exact State.core_keeps _ _ _ _ (.refl _)

theorem execDivu_keeps {past : State} (task : Fin 64) (f : FmtA) (s : State) (h : execDivu task f s = .next past) : Keeps
    s past := by
  cases h; exact State.core_keeps _ _ _ _ (.refl _)

theorem execRem_keeps {past : State} (task : Fin 64) (f : FmtA) (s : State) (h : execRem task f s = .next past) : Keeps s
    past := by
  cases h; exact State.core_keeps _ _ _ _ (.refl _)

theorem execRemu_keeps {past : State} (task : Fin 64) (f : FmtA) (s : State) (h : execRemu task f s = .next past) : Keeps
    s past := by
  cases h; exact State.core_keeps _ _ _ _ (.refl _)

theorem execMin_keeps {past : State} (task : Fin 64) (f : FmtA) (s : State) (h : execMin task f s = .next past) : Keeps s
    past := by
  cases h; exact State.core_keeps _ _ _ _ (.refl _)

theorem execMax_keeps {past : State} (task : Fin 64) (f : FmtA) (s : State) (h : execMax task f s = .next past) : Keeps s
    past := by
  cases h; exact State.core_keeps _ _ _ _ (.refl _)

theorem execAnd_keeps {past : State} (task : Fin 64) (f : FmtA) (s : State) (h : execAnd task f s = .next past) : Keeps s
    past := by
  cases h; exact State.core_keeps _ _ _ _ (.refl _)

theorem execOr_keeps {past : State} (task : Fin 64) (f : FmtA) (s : State) (h : execOr task f s = .next past) : Keeps s
    past := by
  cases h; exact State.core_keeps _ _ _ _ (.refl _)

theorem execXor_keeps {past : State} (task : Fin 64) (f : FmtA) (s : State) (h : execXor task f s = .next past) : Keeps s
    past := by
  cases h; exact State.core_keeps _ _ _ _ (.refl _)

theorem execAndn_keeps {past : State} (task : Fin 64) (f : FmtA) (s : State) (h : execAndn task f s = .next past) : Keeps
    s past := by
  cases h; exact State.core_keeps _ _ _ _ (.refl _)

theorem execShl_keeps {past : State} (task : Fin 64) (f : FmtA) (s : State) (h : execShl task f s = .next past) : Keeps s
    past := by
  cases h; exact State.core_keeps _ _ _ _ (.refl _)

theorem execShr_keeps {past : State} (task : Fin 64) (f : FmtA) (s : State) (h : execShr task f s = .next past) : Keeps s
    past := by
  cases h; exact State.core_keeps _ _ _ _ (.refl _)

theorem execSar_keeps {past : State} (task : Fin 64) (f : FmtA) (s : State) (h : execSar task f s = .next past) : Keeps s
    past := by
  cases h; exact State.core_keeps _ _ _ _ (.refl _)

theorem execBfx_keeps {past : State} (task : Fin 64) (f : FmtA) (s : State) (h : execBfx task f s = .next past) : Keeps s
    past := by
  cases h; exact State.core_keeps _ _ _ _ (.refl _)

theorem execBfxs_keeps {past : State} (task : Fin 64) (f : FmtA) (s : State) (h : execBfxs task f s = .next past) : Keeps
    s past := by
  cases h; exact State.core_keeps _ _ _ _ (.refl _)

theorem execBfi_keeps {past : State} (task : Fin 64) (f : FmtA) (s : State) (h : execBfi task f s = .next past) : Keeps s
    past := by
  cases h; exact State.core_keeps _ _ _ _ (.refl _)

theorem execCeq_keeps {past : State} (task : Fin 64) (f : FmtA) (s : State) (h : execCeq task f s = .next past) : Keeps s
    past := by
  cases h; exact State.core_keeps _ _ _ _ (.refl _)

theorem execCne_keeps {past : State} (task : Fin 64) (f : FmtA) (s : State) (h : execCne task f s = .next past) : Keeps s
    past := by
  cases h; exact State.core_keeps _ _ _ _ (.refl _)

theorem execClt_keeps {past : State} (task : Fin 64) (f : FmtA) (s : State) (h : execClt task f s = .next past) : Keeps s
    past := by
  cases h; exact State.core_keeps _ _ _ _ (.refl _)

theorem execCle_keeps {past : State} (task : Fin 64) (f : FmtA) (s : State) (h : execCle task f s = .next past) : Keeps s
    past := by
  cases h; exact State.core_keeps _ _ _ _ (.refl _)

theorem execCltu_keeps {past : State} (task : Fin 64) (f : FmtA) (s : State) (h : execCltu task f s = .next past) : Keeps
    s past := by
  cases h; exact State.core_keeps _ _ _ _ (.refl _)

theorem execCleu_keeps {past : State} (task : Fin 64) (f : FmtA) (s : State) (h : execCleu task f s = .next past) : Keeps
    s past := by
  cases h; exact State.core_keeps _ _ _ _ (.refl _)

theorem execBtst_keeps {past : State} (task : Fin 64) (f : FmtA) (s : State) (h : execBtst task f s = .next past) : Keeps
    s past := by
  cases h; exact State.core_keeps _ _ _ _ (.refl _)

theorem execPand_keeps {past : State} (task : Fin 64) (f : FmtA) (s : State) (h : execPand task f s = .next past) : Keeps
    s past := by
  cases h; exact State.core_keeps _ _ _ _ (.refl _)

theorem execPor_keeps {past : State} (task : Fin 64) (f : FmtA) (s : State) (h : execPor task f s = .next past) : Keeps s
    past := by
  cases h; exact State.core_keeps _ _ _ _ (.refl _)

theorem execPxor_keeps {past : State} (task : Fin 64) (f : FmtA) (s : State) (h : execPxor task f s = .next past) : Keeps
    s past := by
  cases h; exact State.core_keeps _ _ _ _ (.refl _)

theorem execPandn_keeps {past : State} (task : Fin 64) (f : FmtA) (s : State) (h : execPandn task f s = .next past) :
    Keeps s past := by
  cases h; exact State.core_keeps _ _ _ _ (.refl _)

theorem execPget_keeps {past : State} (task : Fin 64) (f : FmtA) (s : State) (h : execPget task f s = .next past) : Keeps
    s past := by
  cases h; exact State.core_keeps _ _ _ _ (.refl _)

theorem execPset_keeps {past : State} (task : Fin 64) (f : FmtA) (s : State) (h : execPset task f s = .next past) : Keeps
    s past := by
  cases h; exact State.core_keeps _ _ _ _ (.refl _)

theorem execFadd_keeps {past : State} (task : Fin 64) (d : Bool) (f : FmtA) (s : State) (h : execFadd task d f s = .next
    past) : Keeps s past := by
  cases h; exact State.core_keeps _ _ _ _ (.refl _)

theorem execFsub_keeps {past : State} (task : Fin 64) (d : Bool) (f : FmtA) (s : State) (h : execFsub task d f s = .next
    past) : Keeps s past := by
  cases h; exact State.core_keeps _ _ _ _ (.refl _)

theorem execFmul_keeps {past : State} (task : Fin 64) (d : Bool) (f : FmtA) (s : State) (h : execFmul task d f s = .next
    past) : Keeps s past := by
  cases h; exact State.core_keeps _ _ _ _ (.refl _)

theorem execFdiv_keeps {past : State} (task : Fin 64) (d : Bool) (f : FmtA) (s : State) (h : execFdiv task d f s = .next
    past) : Keeps s past := by
  cases h; exact State.core_keeps _ _ _ _ (.refl _)

theorem execFsqrt_keeps {past : State} (task : Fin 64) (d : Bool) (f : FmtA) (s : State) (h : execFsqrt task d f s = .next
    past) : Keeps s past := by
  cases h; exact State.core_keeps _ _ _ _ (.refl _)

theorem execFma_keeps {past : State} (task : Fin 64) (d : Bool) (f : FmtA) (s : State) (h : execFma task d f s = .next
    past) : Keeps s past := by
  cases h; exact State.core_keeps _ _ _ _ (.refl _)

theorem execFmin_keeps {past : State} (task : Fin 64) (d : Bool) (f : FmtA) (s : State) (h : execFmin task d f s = .next
    past) : Keeps s past := by
  cases h; exact State.core_keeps _ _ _ _ (.refl _)

theorem execFmax_keeps {past : State} (task : Fin 64) (d : Bool) (f : FmtA) (s : State) (h : execFmax task d f s = .next
    past) : Keeps s past := by
  cases h; exact State.core_keeps _ _ _ _ (.refl _)

theorem execFneg_keeps {past : State} (task : Fin 64) (d : Bool) (f : FmtA) (s : State) (h : execFneg task d f s = .next
    past) : Keeps s past := by
  cases h; exact State.core_keeps _ _ _ _ (.refl _)

theorem execFabs_keeps {past : State} (task : Fin 64) (d : Bool) (f : FmtA) (s : State) (h : execFabs task d f s = .next
    past) : Keeps s past := by
  cases h; exact State.core_keeps _ _ _ _ (.refl _)

theorem execFceq_keeps {past : State} (task : Fin 64) (d : Bool) (f : FmtA) (s : State) (h : execFceq task d f s = .next
    past) : Keeps s past := by
  cases h; exact State.core_keeps _ _ _ _ (.refl _)

theorem execFclt_keeps {past : State} (task : Fin 64) (d : Bool) (f : FmtA) (s : State) (h : execFclt task d f s = .next
    past) : Keeps s past := by
  cases h; exact State.core_keeps _ _ _ _ (.refl _)

theorem execFcle_keeps {past : State} (task : Fin 64) (d : Bool) (f : FmtA) (s : State) (h : execFcle task d f s = .next
    past) : Keeps s past := by
  cases h; exact State.core_keeps _ _ _ _ (.refl _)

theorem execFcun_keeps {past : State} (task : Fin 64) (d : Bool) (f : FmtA) (s : State) (h : execFcun task d f s = .next
    past) : Keeps s past := by
  cases h; exact State.core_keeps _ _ _ _ (.refl _)

theorem execFtoi_keeps {past : State} (task : Fin 64) (d : Bool) (f : FmtA) (s : State) (h : execFtoi task d f s = .next
    past) : Keeps s past := by
  cases h; exact State.core_keeps _ _ _ _ (.refl _)

theorem execFtrunc_keeps {past : State} (task : Fin 64) (d : Bool) (f : FmtA) (s : State) (h : execFtrunc task d f s =
    .next past) : Keeps s past := by
  cases h; exact State.core_keeps _ _ _ _ (.refl _)

theorem execItof_keeps {past : State} (task : Fin 64) (d : Bool) (f : FmtA) (s : State) (h : execItof task d f s = .next
    past) : Keeps s past := by
  cases h; exact State.core_keeps _ _ _ _ (.refl _)

theorem execFcvt_keeps {past : State} (task : Fin 64) (d : Bool) (f : FmtA) (s : State) (h : execFcvt task d f s = .next
    past) : Keeps s past := by
  cases h; exact State.core_keeps _ _ _ _ (.refl _)

theorem execLi_keeps {past : State} (task : Fin 64) (f : FmtI) (s : State) (h : execLi task f s = .next past) : Keeps s
    past := by
  cases h; exact State.core_keeps _ _ _ _ (.refl _)

theorem execLih1_keeps {past : State} (task : Fin 64) (f : FmtI) (s : State) (h : execLih1 task f s = .next past) : Keeps
    s past := by
  cases h; exact State.core_keeps _ _ _ _ (.refl _)

theorem execLih2_keeps {past : State} (task : Fin 64) (f : FmtI) (s : State) (h : execLih2 task f s = .next past) : Keeps
    s past := by
  cases h; exact State.core_keeps _ _ _ _ (.refl _)

theorem execLih3_keeps {past : State} (task : Fin 64) (f : FmtI) (s : State) (h : execLih3 task f s = .next past) : Keeps
    s past := by
  cases h; exact State.core_keeps _ _ _ _ (.refl _)

theorem execAddi_keeps {past : State} (task : Fin 64) (f : FmtI) (s : State) (h : execAddi task f s = .next past) : Keeps
    s past := by
  cases h; exact State.core_keeps _ _ _ _ (.refl _)

theorem execAndi_keeps {past : State} (task : Fin 64) (f : FmtI) (s : State) (h : execAndi task f s = .next past) : Keeps
    s past := by
  cases h; exact State.core_keeps _ _ _ _ (.refl _)

theorem execOri_keeps {past : State} (task : Fin 64) (f : FmtI) (s : State) (h : execOri task f s = .next past) : Keeps s
    past := by
  cases h; exact State.core_keeps _ _ _ _ (.refl _)

theorem execXori_keeps {past : State} (task : Fin 64) (f : FmtI) (s : State) (h : execXori task f s = .next past) : Keeps
    s past := by
  cases h; exact State.core_keeps _ _ _ _ (.refl _)

theorem execShli_keeps {past : State} (task : Fin 64) (f : FmtI) (s : State) (h : execShli task f s = .next past) : Keeps
    s past := by
  cases h; exact State.core_keeps _ _ _ _ (.refl _)

theorem execShri_keeps {past : State} (task : Fin 64) (f : FmtI) (s : State) (h : execShri task f s = .next past) : Keeps
    s past := by
  cases h; exact State.core_keeps _ _ _ _ (.refl _)

theorem execSari_keeps {past : State} (task : Fin 64) (f : FmtI) (s : State) (h : execSari task f s = .next past) : Keeps
    s past := by
  cases h; exact State.core_keeps _ _ _ _ (.refl _)

theorem execBr_keeps {past : State} (task : Fin 64) (f : FmtB) (s : State) (h : execBr task f s = .next past) : Keeps s
    past := by
  cases h; exact State.core_keeps _ _ _ _ (.refl _)

theorem execCall_keeps {past : State} (task : Fin 64) (f : FmtB) (s : State) (h : execCall task f s = .next past) : Keeps
    s past := by
  cases h; exact State.core_keeps _ _ _ _ (.refl _)

theorem execRet_keeps {past : State} (task : Fin 64) (f : FmtA) (s : State) (h : execRet task f s = .next past) : Keeps s
    past := by
  cases h; exact State.core_keeps _ _ _ _ (.refl _)

theorem execEndCycle_keeps {past : State} (task : Fin 64) (f : FmtA) (s : State) (h : execEndCycle task f s = .next past)
    : Keeps s past := by
  cases h; exact State.core_keeps _ _ _ _ (.refl _)

theorem execFence_keeps {past : State} (task : Fin 64) (f : FmtA) (s : State) (h : execFence task f s = .next past) :
    Keeps s past := by
  cases h; exact State.core_keeps _ _ _ _ (.refl _)

theorem execTsr_keeps {past : State} (task : Fin 64) (f : FmtA) (s : State) (h : execTsr task f s = .next past) : Keeps s
    past := by
  cases h; exact State.core_keeps _ _ _ _ (.refl _)

theorem execTon_keeps {past : State} (task : Fin 64) (f : FmtT) (s : State) (h : execTon task f s = .next past) : Keeps s
    past := by
  cases h; exact State.core_keeps _ _ _ _ (.refl _)

theorem execTof_keeps {past : State} (task : Fin 64) (f : FmtT) (s : State) (h : execTof task f s = .next past) : Keeps s
    past := by
  cases h; exact State.core_keeps _ _ _ _ (.refl _)

theorem execTp_keeps {past : State} (task : Fin 64) (f : FmtT) (s : State) (h : execTp task f s = .next past) : Keeps s
    past := by
  cases h; exact State.core_keeps _ _ _ _ (.refl _)

theorem execRtrig_keeps {past : State} (task : Fin 64) (f : FmtT) (s : State) (h : execRtrig task f s = .next past) :
    Keeps s past := by
  cases h; exact State.core_keeps _ _ _ _ (.refl _)

theorem execFtrig_keeps {past : State} (task : Fin 64) (f : FmtT) (s : State) (h : execFtrig task f s = .next past) :
    Keeps s past := by
  cases h; exact State.core_keeps _ _ _ _ (.refl _)

theorem execTet_keeps {past : State} (task : Fin 64) (f : FmtT) (s : State) (h : execTet task f s = .next past) : Keeps s
    past := by
  cases h; exact State.core_keeps _ _ _ _ (.refl _)

theorem execLdu_keeps {past : State} (task : Fin 64) (f : FmtM) (s : State) (h : execLdu task f s = .next past) : Keeps s
    past := by
  cases h; exact State.core_keeps _ _ _ _ (.refl _)

theorem execLds_keeps {past : State} (task : Fin 64) (f : FmtM) (s : State) (h : execLds task f s = .next past) : Keeps s
    past := by
  cases h; exact State.core_keeps _ _ _ _ (.refl _)

theorem execSt_keeps {past : State} (task : Fin 64) (f : FmtM) (s : State) (h : execSt task f s = .next past) : Keeps s
    past := by
  cases h; exact State.core_keeps _ _ _ _ (.refl _)

end Sys2Proof.Machine
end

