-- ==== Sys2Proof/Laws/KeepsStart.lean ====
section
/-! SUPPORT. Laws/KeepsStart.lean: what `Keeps` says of the operations and commands of
start, swap and security. -/

set_option linter.unusedSimpArgs false

set_option linter.unusedTactic false
set_option linter.unreachableTactic false

namespace Sys2Proof.Machine

theorem State.moduleReset_keeps (s : State) (cause : Nat) {past : State} (h0 : Keeps past s) :
    Keeps past (State.moduleReset s cause) := by
  unfold State.moduleReset
  simp (maxDischargeDepth := 40) only [implies_true, Keeps.refl, Keeps.ite, Keeps.upd, Keeps.send, h0, State.cause_keeps]

theorem execModuleReset_keeps {past : State} (t : Nat) (s : State)
    (h : execModuleReset t s = .next past) : Keeps (s.tick t) past := by
  unfold execModuleReset at h
  simp only [Host.Outcome.next.injEq] at h
  subst h
  simp (maxDischargeDepth := 40) only [implies_true, Keeps.refl, Keeps.ite, Keeps.upd, Keeps.send,
      State.moduleReset_keeps]

theorem execWinterLoss_keeps {past : State} (t : Nat) (gapNs : Nat) (s : State)
    (h : execWinterLoss t gapNs s = .next past) : Keeps (s.tick t) past := by
  unfold execWinterLoss at h
  simp only [Host.Outcome.next.injEq] at h
  subst h
  simp (maxDischargeDepth := 40) only [implies_true, Keeps.refl, Keeps.ite, Keeps.upd, Keeps.send,
      State.moduleReset_keeps]

theorem execWinterRecovered_keeps {past : State} (t : Nat) (goodCycles : Nat) (s : State)
    (h : execWinterRecovered t goodCycles s = .next past) : Keeps (s.tick t) past := by
  unfold execWinterRecovered at h
  simp only [Host.Outcome.next.injEq] at h
  subst h
  simp (maxDischargeDepth := 40) only [implies_true, Keeps.refl, Keeps.ite, Keeps.upd, Keeps.send]

theorem execPowerDownReset_keeps {past : State} (t : Nat) (s : State)
    (h : execPowerDownReset t s = .next past) : Keeps (s.tick t) past := by
  unfold execPowerDownReset at h
  simp only [Host.Outcome.next.injEq] at h
  subst h
  repeat' first
    | (simp (maxDischargeDepth := 40) only [implies_true, Keeps.refl, Keeps.ite, Keeps.upd, Keeps.send,
        State.moduleReset_keeps]; done)
    | split
    | dsimp only

theorem State.inRecovery_keeps (s : State) (partner : Bool) {past : State} (h0 : Keeps past s) :
    Keeps past (State.inRecovery s partner) := h0.upd

theorem State.enterRecovery_keeps (s : State) (cause : Nat) {past : State} (h0 : Keeps past s) :
    Keeps past (State.enterRecovery s cause) := by
  unfold State.enterRecovery
  simp (maxDischargeDepth := 40) only [implies_true, Keeps.refl, Keeps.ite, Keeps.upd, Keeps.send, h0, State.cause_keeps,
      State.inRecovery_keeps, State.setMode_keeps]

theorem State.loadTrip_keeps (s : State) (tripOk safetyOk : Bool) {past : State} (h0 : Keeps past s) :
    Keeps past (State.loadTrip s tripOk safetyOk) := by
  unfold State.loadTrip
  simp (maxDischargeDepth := 40) only [implies_true, Keeps.refl, Keeps.ite, Keeps.upd, Keeps.send, h0, State.event_keeps,
      State.judgeAll_keeps, State.latch_keeps, State.loadStrings_keeps, State.tripEval_keeps]

theorem execRecoveryReset_keeps {past : State} (t : Nat) (s : State)
    (h : execRecoveryReset t s = .next past) : Keeps (s.tick t) past := by
  unfold execRecoveryReset at h
  simp only [Host.Outcome.next.injEq] at h
  subst h
  repeat' first
    | (simp (maxDischargeDepth := 40) only [implies_true, Keeps.refl, Keeps.ite, Keeps.upd, Keeps.send, State.cause_keeps,
        State.inRecovery_keeps, State.loadTrip_keeps, State.moduleReset_keeps]; done)
    | split
    | dsimp only

theorem execActivateReset_keeps {past : State} (t : Nat) (s : State)
    (h : execActivateReset t s = .next past) : Keeps (s.tick t) past := by
  unfold execActivateReset at h
  simp only [Host.Outcome.next.injEq] at h
  subst h
  repeat' first
    | (simp (maxDischargeDepth := 40) only [implies_true, Keeps.refl, Keeps.ite, Keeps.upd, Keeps.send,
        State.moduleReset_keeps]; done)
    | split
    | dsimp only

theorem execLeaveRecovery_keeps {past : State} (t : Nat) (s : State)
    (h : execLeaveRecovery t s = .next past) : Keeps (s.tick t) past := by
  unfold execLeaveRecovery at h
  simp only [Host.Outcome.next.injEq] at h
  subst h
  repeat' first
    | (simp (maxDischargeDepth := 40) only [implies_true, Keeps.refl, Keeps.ite, Keeps.upd, Keeps.send,
        State.moduleReset_keeps]; done)
    | split
    | dsimp only

theorem State.bootFirmware_keeps (s : State) {past : State} (h0 : Keeps past s) :
    Keeps past (State.bootFirmware s) := by
  unfold State.bootFirmware
  simp (maxDischargeDepth := 40) only [implies_true, Keeps.refl, Keeps.ite, Keeps.upd, Keeps.send, h0,
      State.enterRecovery_keeps, State.event_keeps]

theorem State.powerUp_keeps (s : State) (b : BootCheck) {past : State} (h0 : Keeps past s) : Keeps past (s.powerUp b) :=
    by
  unfold State.powerUp
  have e : ∀ (t : State) (c : Prop) [Decidable c] (k : Nat) (l : List Nat), Keeps past t →
      Keeps past (if c then t.event k l else t) := fun t c _ k l h => .ite (State.event_keeps _ _ _ h) h
  have f : ∀ (t : State) (c : Prop) [Decidable c] (k : Nat) (l : List Nat), Keeps past t →
      Keeps past (if c then t else t.event k l) := fun t c _ k l h => .ite h (State.event_keeps _ _ _ h)
  have g : ∀ (t : State) (c : Prop) [Decidable c] (k : Nat) (l : List Nat), Keeps past t →
      Keeps past (if c then t else t.fresh.2.event k l) :=
    fun t c _ k l h => .ite h (State.event_keeps _ _ _ (State.fresh_keeps _ h))
  have b : ∀ (t : State) (c : Prop) [Decidable c], Keeps past t → Keeps past (if c then t else t.bootFirmware) :=
    fun t c _ h => .ite h (State.bootFirmware_keeps _ h)
  refine b _ _ (State.loadTrip_keeps _ _ _ (State.cause_keeps _ _ (State.event_keeps _ _ _
    (e _ _ _ _ (e _ _ _ _ (f _ _ _ _ (f _ _ _ _ (e _ _ _ _ (g _ _ _ _ ?_)))))))))
  exact ⟨h0.pending, h0.now, h0.cfg, h0.sent⟩

theorem State.keysMoved_keeps (s : State) {past : State} (h0 : Keeps past s) :
    Keeps past (State.keysMoved s) := by
  unfold State.keysMoved
  repeat' first
    | (simp (maxDischargeDepth := 40) only [implies_true, Keeps.refl, Keeps.ite, Keeps.upd, Keeps.send, h0,
        State.bootFirmware_keeps]; done)
    | split
    | dsimp only

theorem execSupplyGood_keeps {past : State} (t : Nat) (b : BootCheck) (s : State)
    (h : execSupplyGood t b s = .next past) : Keeps (s.tick t) past := by
  unfold execSupplyGood at h
  simp only [Host.Outcome.next.injEq] at h
  subst h
  simp (maxDischargeDepth := 40) only [implies_true, Keeps.refl, Keeps.ite, Keeps.upd, Keeps.send, State.powerUp_keeps]

theorem execRecoveryKeySequence_keeps {past : State} (t : Nat) (s : State)
    (h : execRecoveryKeySequence t s = .next past) : Keeps (s.tick t) past := by
  unfold execRecoveryKeySequence at h
  simp only [Host.Outcome.next.injEq] at h
  subst h
  simp (maxDischargeDepth := 40) only [implies_true, Keeps.refl, Keeps.ite, Keeps.upd, Keeps.send,
      State.enterRecovery_keeps]

theorem execKeelBroughtUp_keeps {past : State} (t : Nat) (s : State)
    (h : execKeelBroughtUp t s = .next past) : Keeps (s.tick t) past := by
  unfold execKeelBroughtUp at h
  simp only [Host.Outcome.next.injEq] at h
  subst h
  simp (maxDischargeDepth := 40) only [implies_true, Keeps.refl, Keeps.ite, Keeps.upd, Keeps.send,
      State.safetyFollow_keeps]

theorem State.toRole_keeps (s : State) (r : Role) {past : State} (h0 : Keeps past s) :
    Keeps past (State.toRole s r) := by
  unfold State.toRole
  simp (maxDischargeDepth := 40) only [implies_true, Keeps.refl, Keeps.ite, Keeps.upd, Keeps.send, h0,
      State.setRole_keeps]

theorem State.toHoldMode_keeps (s : State) {past : State} (h0 : Keeps past s) :
    Keeps past (State.toHoldMode s) := by
  unfold State.toHoldMode
  simp (maxDischargeDepth := 40) only [implies_true, Keeps.refl, Keeps.ite, Keeps.upd, Keeps.send, h0,
      State.holdNow_keeps]

theorem State.syncRefused_keeps (s : State) (k : Nat) {past : State} (h0 : Keeps past s) :
    Keeps past (State.syncRefused s k) := by
  unfold State.syncRefused
  simp (maxDischargeDepth := 40) only [implies_true, Keeps.refl, Keeps.ite, Keeps.upd, Keeps.send, h0,
      State.toHoldMode_keeps, State.toRole_keeps]

theorem State.trySyncing_keeps (s : State) {past : State} (h0 : Keeps past s) :
    Keeps past (State.trySyncing s) := by
  unfold State.trySyncing
  simp (maxDischargeDepth := 40) only [implies_true, Keeps.refl, Keeps.ite, Keeps.upd, Keeps.send, h0,
      State.syncRefused_keeps, State.toRole_keeps]

theorem execLeadAliveReadEnd_keeps {past : State} (t : Nat) (asserted : Bool) (s : State)
    (h : execLeadAliveReadEnd t asserted s = .next past) : Keeps (s.tick t) past := by
  unfold execLeadAliveReadEnd at h
  simp only [Host.Outcome.next.injEq] at h
  subst h
  repeat' first
    | (simp (maxDischargeDepth := 40) only [implies_true, Keeps.refl, Keeps.ite, Keeps.upd, Keeps.send,
        State.settleDone_keeps, State.trySyncing_keeps]; done)
    | split
    | dsimp only

theorem State.loadProgram_keeps (s : State) (i : Image) (warm : Bool) {past : State} (h0 : Keeps past s) :
    Keeps past (State.loadProgram s i warm) := by
  unfold State.loadProgram
  simp (maxDischargeDepth := 40) only [implies_true, Keeps.refl, Keeps.ite, Keeps.upd, Keeps.send, h0, Keeps.foldl,
      State.running_keeps, State.showOuts_keeps, State.startLoops_keeps]

theorem State.startFails_keeps (s : State) (status cause : Nat) {past : State} (h0 : Keeps past s) :
    Keeps past (State.startFails s status cause) := by
  unfold State.startFails
  repeat' first
    | (simp (maxDischargeDepth := 40) only [implies_true, Keeps.refl, Keeps.ite, Keeps.upd, Keeps.send, h0,
        State.cause_keeps, State.complete_keeps, State.enterHold_keeps]; done)
    | split
    | dsimp only

theorem State.admission_keeps (s : State) (i : Image) {past t : State} (h0 : Keeps past s) (h : s.admission i = some t) :
    Keeps past t := by
  unfold State.admission at h
  repeat' split at h
  · cases h; exact State.event_keeps _ _ _ h0
  · cases h; exact State.event_keeps _ _ _ h0
  · cases h; exact State.event_keeps _ _ _ h0
  · simp only [Option.map_eq_some_iff] at h
    obtain ⟨_, _, h⟩ := h; exact h ▸ h0

theorem State.notAdmitted_keeps (s : State) {past : State} (h0 : Keeps past s) :
    Keeps past (State.notAdmitted s) := by
  unfold State.notAdmitted
  repeat' first
    | (simp (maxDischargeDepth := 40) only [implies_true, Keeps.refl, Keeps.ite, Keeps.upd, Keeps.send, h0,
        State.startFails_keeps]; done)
    | split
    | dsimp only

theorem State.admitted_keeps (s : State) {past : State} (h0 : Keeps past s) :
    Keeps past (State.admitted s) := by
  unfold State.admitted
  repeat' first
    | (simp (maxDischargeDepth := 40) only [implies_true, Keeps.refl, Keeps.ite, Keeps.upd, Keeps.send, h0,
        State.event_keeps]; done)
    | split
    | dsimp only

theorem State.planRestart_keeps (s : State) (warm fall : Bool) (at_ : Nat) {past : State} (h0 : Keeps past s) :
    Keeps past (State.planRestart s warm fall at_) := by
  unfold State.planRestart
  simp (maxDischargeDepth := 40) only [implies_true, Keeps.refl, Keeps.ite, Keeps.upd, Keeps.send, h0, State.emit_keeps]

theorem execStartSequenceComplete_keeps {past : State} (t : Nat) (imageOk : Bool) (restartAt : Nat) (s : State)
    (h : execStartSequenceComplete t imageOk restartAt s = .next past) : Keeps (s.tick t) past := by
  unfold execStartSequenceComplete at h
  simp only [Host.Outcome.next.injEq] at h
  subst h
  generalize s.tick t = s0
  split
  · exact .refl _
  split
  · exact State.startFails_keeps _ _ _ (.refl _)
  refine .ite (State.startFails_keeps _ _ _ (.refl _)) ?_
  rename_i run warm _ _ i _
  have h1 : Keeps s0 ((if (run && warm && !s0.warmOk i) = true then s0.event 0x0004 else s0).loadProgram i
      ((warm || !run) && s0.warmOk i)) :=
    State.loadProgram_keeps _ _ _ (.ite (State.event_keeps _ _ _ (.refl _)) (.refl _))
  split
  · rename_i h; exact State.notAdmitted_keeps _ (State.admission_keeps _ _ h1 h)
  · refine .ite (State.enterHold_keeps _ _ _ (State.admitted_keeps _ h1)) ?_
    split
    · exact .refl _
    · exact State.planRestart_keeps _ _ _ _ (State.admitted_keeps _ h1)

theorem State.freshOutputs_keeps (s : State) {past : State} (h0 : Keeps past s) :
    Keeps past (State.freshOutputs s) := by
  unfold State.freshOutputs
  simp (maxDischargeDepth := 40) only [implies_true, Keeps.refl, Keeps.ite, Keeps.upd, Keeps.send, h0]

theorem execRestartInstant_keeps {past : State} (t : Nat) (s : State)
    (h : execRestartInstant t s = .next past) : Keeps (s.tick t) past := by
  unfold execRestartInstant at h
  simp only [Host.Outcome.next.injEq] at h
  subst h
  repeat' first
    | (simp (maxDischargeDepth := 40) only [implies_true, Keeps.refl, Keeps.ite, Keeps.upd, Keeps.send,
        State.complete_keeps, State.contRestart_keeps, State.event_keeps, State.freshOutputs_keeps, State.setMode_keeps,
        State.tripSettle_keeps]; done)
    | split
    | dsimp only

theorem State.enterDormant_keeps (s : State) (cause : Nat) {past : State} (h0 : Keeps past s) :
    Keeps past (State.enterDormant s cause) := by
  unfold State.enterDormant
  simp (maxDischargeDepth := 40) only [implies_true, Keeps.refl, Keeps.ite, Keeps.upd, Keeps.send, h0, Keeps.foldl,
      State.cause_keeps, State.commitUnits_keeps, State.setMode_keeps, State.stageRtc_keeps, State.startAutumn_keeps]

theorem State.modeTo_keeps (s : State) (r : Req) {past : State} (h0 : Keeps past s) :
    Keeps past (State.modeTo s r) := by
  unfold State.modeTo
  repeat' first
    | (simp (maxDischargeDepth := 40) only [implies_true, Keeps.refl, Keeps.ite, Keeps.upd, Keeps.send, h0,
        State.beginHold_keeps, State.complete_keeps, State.enterDormant_keeps, State.enterHold_keeps, State.event_keeps,
        State.running_keeps, State.setMode_keeps, State.startRestart_keeps, State.toRole_keeps]; done)
    | split
    | dsimp only

theorem execModeSet_keeps {past : State} (rid : Nat) (s : State)
    (h : execModeSet rid s = .next past) : Keeps s past := by
  unfold execModeSet at h
  simp only [Host.Outcome.next.injEq] at h
  subst h
  simp (maxDischargeDepth := 40) only [implies_true, Keeps.refl, Keeps.ite, Keeps.upd, Keeps.send, State.onReq_keeps,
      State.complete_keeps, State.modeTo_keeps]

theorem execRestart_keeps {past : State} (rid : Nat) (s : State)
    (h : execRestart rid s = .next past) : Keeps s past := by
  unfold execRestart at h
  simp only [Host.Outcome.next.injEq] at h
  subst h
  simp (maxDischargeDepth := 40) only [implies_true, Keeps.refl, Keeps.ite, Keeps.upd, Keeps.send, State.onReq_keeps,
      State.complete_keeps, State.running_keeps, State.startRestart_keeps]

theorem execModeStatus_keeps {past : State} (rid : Nat) (s : State)
    (h : execModeStatus rid s = .next past) : Keeps s past := by
  unfold execModeStatus at h
  simp only [Host.Outcome.next.injEq] at h
  subst h
  simp (maxDischargeDepth := 40) only [implies_true, Keeps.refl, Keeps.ite, Keeps.upd, Keeps.send, State.onReq_keeps,
      State.complete_keeps]

theorem State.planEquinox_keeps (s : State) (trigger cause : Nat) (rid : Option Nat) {past : State} (h0 : Keeps past s) :
    Keeps past (State.planEquinox s trigger cause rid) := by
  unfold State.planEquinox
  simp (maxDischargeDepth := 40) only [implies_true, Keeps.refl, Keeps.ite, Keeps.upd, Keeps.send, h0, State.cause_keeps]

theorem State.selfEquinox_keeps (s : State) (cause : Nat) {past : State} (h0 : Keeps past s) :
    Keeps past (State.selfEquinox s cause) := by
  unfold State.selfEquinox
  simp (maxDischargeDepth := 40) only [implies_true, Keeps.refl, Keeps.ite, Keeps.upd, Keeps.send, h0, State.cause_keeps,
      State.emit_keeps, State.planEquinox_keeps]

theorem execEquinox_keeps {past : State} (rid : Nat) (s : State)
    (h : execEquinox rid s = .next past) : Keeps s past := by
  unfold execEquinox at h
  simp only [Host.Outcome.next.injEq] at h
  subst h
  simp (maxDischargeDepth := 40) only [implies_true, Keeps.refl, Keeps.ite, Keeps.upd, Keeps.send, State.onReq_keeps,
      State.complete_keeps, State.planEquinox_keeps, State.running_keeps]

theorem State.drillOutcome_keeps (s : State) (res : Nat) {past : State} (h0 : Keeps past s) :
    Keeps past (State.drillOutcome s res) := by
  unfold State.drillOutcome
  simp (maxDischargeDepth := 40) only [implies_true, Keeps.refl, Keeps.ite, Keeps.upd, Keeps.send, h0,
      State.setMark_keeps]

theorem execDrillNow_keeps {past : State} (rid : Nat) (s : State)
    (h : execDrillNow rid s = .next past) : Keeps s past := by
  unfold execDrillNow at h
  simp only [Host.Outcome.next.injEq] at h
  subst h
  simp (maxDischargeDepth := 40) only [implies_true, Keeps.refl, Keeps.ite, Keeps.upd, Keeps.send, State.onReq_keeps,
      State.complete_keeps, State.drillOutcome_keeps, State.planEquinox_keeps, State.running_keeps]

theorem State.startNewProgram_keeps (s : State) (x : Exchange) {past : State} (h0 : Keeps past s) :
    Keeps past (State.startNewProgram s x) := by
  unfold State.startNewProgram
  simp (maxDischargeDepth := 40) only [implies_true, Keeps.refl, Keeps.ite, Keeps.upd, Keeps.send, h0,
      State.admitted_keeps, State.running_keeps, State.showOuts_keeps]

theorem execEquinoxInstant_keeps {past : State} (t : Nat) (s : State)
    (h : execEquinoxInstant t s = .next past) : Keeps (s.tick t) past := by
  unfold execEquinoxInstant at h
  simp only [Host.Outcome.next.injEq] at h
  subst h
  repeat' first
    | (simp (maxDischargeDepth := 40) only [implies_true, Keeps.refl, Keeps.ite, Keeps.upd, Keeps.send, State.cause_keeps,
        State.event_keeps, State.holdOuts_keeps, State.startNewProgram_keeps]; done)
    | split
    | dsimp only

theorem State.windowClaim_keeps (s : State) {past : State} (h0 : Keeps past s) :
    Keeps past (State.windowClaim s) := by
  unfold State.windowClaim
  simp (maxDischargeDepth := 40) only [implies_true, Keeps.refl, Keeps.ite, Keeps.upd, Keeps.send, h0,
      State.loadStages_keeps]

theorem execEquinoxClaim_keeps {past : State} (t : Nat) (s : State)
    (h : execEquinoxClaim t s = .next past) : Keeps (s.tick t) past := by
  unfold execEquinoxClaim at h
  simp only [Host.Outcome.next.injEq] at h
  subst h
  repeat' first
    | (simp (maxDischargeDepth := 40) only [implies_true, Keeps.refl, Keeps.ite, Keeps.upd, Keeps.send,
        State.windowClaim_keeps]; done)
    | split
    | dsimp only

theorem State.swapDone_keeps (s : State) (q : Equinox) {past : State} (h0 : Keeps past s) :
    Keeps past (State.swapDone s q) := by
  unfold State.swapDone
  simp (maxDischargeDepth := 40) only [implies_true, Keeps.refl, Keeps.ite, Keeps.upd, Keeps.send, h0, State.cause_keeps,
      State.event_keeps]

theorem State.oldLead_keeps (s : State) (q : Equinox) {past : State} (h0 : Keeps past s) :
    Keeps past (State.oldLead s q) := by
  unfold State.oldLead
  repeat' first
    | (simp (maxDischargeDepth := 40) only [implies_true, Keeps.refl, Keeps.ite, Keeps.upd, Keeps.send, h0,
        State.cause_keeps, State.endReq_keeps, State.event_keeps, State.holdNow_keeps, State.setRole_keeps,
        State.swapDone_keeps]; done)
    | split
    | dsimp only

theorem State.newLead_keeps (s : State) (q : Equinox) {past : State} (h0 : Keeps past s) :
    Keeps past (State.newLead s q) := by
  unfold State.newLead
  simp (maxDischargeDepth := 40) only [implies_true, Keeps.refl, Keeps.ite, Keeps.upd, Keeps.send, h0, State.cause_keeps,
      State.endReq_keeps, State.event_keeps, State.setRole_keeps, State.swapDone_keeps, State.takeChains_keeps,
      State.windowClaim_keeps]

theorem execEquinoxWindowEnd_keeps {past : State} (t : Nat) (s : State)
    (h : execEquinoxWindowEnd t s = .next past) : Keeps (s.tick t) past := by
  unfold execEquinoxWindowEnd at h
  simp only [Host.Outcome.next.injEq] at h
  subst h
  repeat' first
    | (simp (maxDischargeDepth := 40) only [implies_true, Keeps.refl, Keeps.ite, Keeps.upd, Keeps.send,
        State.newLead_keeps, State.oldLead_keeps]; done)
    | split
    | dsimp only

theorem execDrillDue_keeps {past : State} (t : Nat) (s : State)
    (h : execDrillDue t s = .next past) : Keeps (s.tick t) past := by
  unfold execDrillDue at h
  simp only [Host.Outcome.next.injEq] at h
  subst h
  repeat' first
    | (simp (maxDischargeDepth := 40) only [implies_true, Keeps.refl, Keeps.ite, Keeps.upd, Keeps.send, State.event_keeps,
        State.selfEquinox_keeps]; done)
    | split
    | dsimp only

theorem execDrillPostponed_keeps {past : State} (t : Nat) (s : State)
    (h : execDrillPostponed t s = .next past) : Keeps (s.tick t) past := by
  unfold execDrillPostponed at h
  simp only [Host.Outcome.next.injEq] at h
  subst h
  repeat' first
    | (simp (maxDischargeDepth := 40) only [implies_true, Keeps.refl, Keeps.ite, Keeps.upd, Keeps.send,
        State.event_keeps]; done)
    | split
    | dsimp only

theorem State.drillEnds_keeps (s : State) (res check : Nat) {past : State} (h0 : Keeps past s) :
    Keeps past (State.drillEnds s res check) := by
  unfold State.drillEnds
  repeat' first
    | (simp (maxDischargeDepth := 40) only [implies_true, Keeps.refl, Keeps.ite, Keeps.upd, Keeps.send, h0,
        State.emit_keeps, State.event_keeps]; done)
    | split
    | dsimp only

theorem execDrillCheck_keeps {past : State} (t : Nat) (terminal : Bool) (s : State)
    (h : execDrillCheck t terminal s = .next past) : Keeps (s.tick t) past := by
  unfold execDrillCheck at h
  simp only [Host.Outcome.next.injEq] at h
  subst h
  repeat' first
    | (simp (maxDischargeDepth := 40) only [implies_true, Keeps.refl, Keeps.ite, Keeps.upd, Keeps.send,
        State.drillEnds_keeps, State.selfEquinox_keeps]; done)
    | split
    | dsimp only

theorem execDetach_keeps {past : State} (rid : Nat) (s : State)
    (h : execDetach rid s = .next past) : Keeps s past := by
  unfold execDetach at h
  simp only [Host.Outcome.next.injEq] at h
  subst h
  simp (maxDischargeDepth := 40) only [implies_true, Keeps.refl, Keeps.ite, Keeps.upd, Keeps.send, State.onReq_keeps,
      State.complete_keeps, State.dropSwap_keeps, State.mirrorReq_keeps, State.setMark_keeps, State.setRole_keeps,
      State.takeChains_keeps, State.toHoldMode_keeps]

theorem State.trySync_keeps (s : State) {past : State} (h0 : Keeps past s) :
    Keeps past (State.trySync s) := by
  unfold State.trySync
  simp (maxDischargeDepth := 40) only [implies_true, Keeps.refl, Keeps.ite, Keeps.upd, Keeps.send, h0, State.emit_keeps,
      State.event_keeps]

theorem execRejoin_keeps {past : State} (rid : Nat) (s : State)
    (h : execRejoin rid s = .next past) : Keeps s past := by
  unfold execRejoin at h
  simp only [Host.Outcome.next.injEq] at h
  subst h
  simp (maxDischargeDepth := 40) only [implies_true, Keeps.refl, Keeps.ite, Keeps.upd, Keeps.send, State.onReq_keeps,
      State.complete_keeps, State.setMark_keeps, State.trySync_keeps]

theorem State.joinPlanned_keeps (s : State) (j : Nat) {past : State} (h0 : Keeps past s) :
    Keeps past (State.joinPlanned s j) := h0.upd

theorem execSyncTransferDone_keeps {past : State} (t : Nat) (ok : Bool) (j : Nat) (s : State)
    (h : execSyncTransferDone t ok j s = .next past) : Keeps (s.tick t) past := by
  unfold execSyncTransferDone at h
  simp only [Host.Outcome.next.injEq] at h
  subst h
  simp (maxDischargeDepth := 40) only [implies_true, Keeps.refl, Keeps.ite, Keeps.upd, Keeps.send, State.dropSwap_keeps,
      State.emit_keeps, State.event_keeps, State.joinPlanned_keeps, State.syncRefused_keeps]

theorem State.joinTasks_keeps (s : State) (j : Nat) {past : State} (h0 : Keeps past s) :
    Keeps past (State.joinTasks s j) := by
  unfold State.joinTasks
  repeat' first
    | (simp (maxDischargeDepth := 40) only [implies_true, Keeps.refl, Keeps.ite, Keeps.upd, Keeps.send, h0, Keeps.foldl,
        State.setTask_keeps]; done)
    | with_reducible refine Keeps.foldl (fun _ _ => ?_) ?_
    | split
    | dsimp only

theorem State.joinFollow_keeps (s : State) (j : Nat) {past : State} (h0 : Keeps past s) :
    Keeps past (State.joinFollow s j) := by
  unfold State.joinFollow
  repeat' first
    | (simp (maxDischargeDepth := 40) only [implies_true, Keeps.refl, Keeps.ite, Keeps.upd, Keeps.send, h0,
        State.endReq_keeps, State.event_keeps, State.joinTasks_keeps, State.running_keeps, State.setMode_keeps,
        State.setRole_keeps]; done)
    | split
    | dsimp only

theorem State.hostLinkFrom_keeps (s : State) (was : Bool) {past : State} (h0 : Keeps past s) :
    Keeps past (State.hostLinkFrom s was) := by
  unfold State.hostLinkFrom
  repeat' first
    | (simp (maxDischargeDepth := 40) only [implies_true, Keeps.refl, Keeps.ite, Keeps.upd, Keeps.send, h0,
        State.setHelm_keeps]; done)
    | split
    | dsimp only

theorem State.joinLead_keeps (s : State) (j : Nat) {past : State} (h0 : Keeps past s) :
    Keeps past (State.joinLead s j) := by
  unfold State.joinLead
  simp (maxDischargeDepth := 40) only [implies_true, Keeps.refl, Keeps.ite, Keeps.upd, Keeps.send, h0, State.emit_keeps,
      State.event_keeps, State.hostLinkFrom_keeps, State.toRole_keeps]

theorem execJoinInstant_keeps {past : State} (t : Nat) (s : State)
    (h : execJoinInstant t s = .next past) : Keeps (s.tick t) past := by
  unfold execJoinInstant at h
  simp only [Host.Outcome.next.injEq] at h
  subst h
  repeat' first
    | (simp (maxDischargeDepth := 40) only [implies_true, Keeps.refl, Keeps.ite, Keeps.upd, Keeps.send,
        State.joinFollow_keeps, State.joinLead_keeps]; done)
    | split
    | dsimp only

theorem State.partnerHost_keeps (s : State) (up : Bool) {past : State} (h0 : Keeps past s) :
    Keeps past (State.partnerHost s up) := by
  unfold State.partnerHost
  simp (maxDischargeDepth := 40) only [implies_true, Keeps.refl, Keeps.ite, Keeps.upd, Keeps.send, h0,
      State.hostLinkFrom_keeps]

theorem State.meetPartner_keeps (s : State) {past : State} (h0 : Keeps past s) :
    Keeps past (State.meetPartner s) := by
  unfold State.meetPartner
  repeat' first
    | (simp (maxDischargeDepth := 40) only [implies_true, Keeps.refl, Keeps.ite, Keeps.upd, Keeps.send, h0,
        State.trySync_keeps]; done)
    | split
    | dsimp only

theorem State.partnerGone_keeps (s : State) {past : State} (h0 : Keeps past s) :
    Keeps past (State.partnerGone s) := by
  unfold State.partnerGone
  repeat' first
    | (simp (maxDischargeDepth := 40) only [implies_true, Keeps.refl, Keeps.ite, Keeps.upd, Keeps.send, h0]; done)
    | split
    | dsimp only

theorem execHeartbeatReceive_keeps {past : State} (t : Nat) (p : Partner) (s : State)
    (h : execHeartbeatReceive t p s = .next past) : Keeps (s.tick t) past := by
  unfold execHeartbeatReceive at h
  simp only [Host.Outcome.next.injEq] at h
  subst h
  simp (maxDischargeDepth := 40) only [implies_true, Keeps.refl, Keeps.ite, Keeps.upd, Keeps.send, State.markLost_keeps,
      State.meetPartner_keeps, State.partnerGone_keeps, State.partnerHost_keeps]

theorem State.lanesTo_keeps (s : State) (lanes : BitVec 4) {past : State} (h0 : Keeps past s) :
    Keeps past (State.lanesTo s lanes) := by
  unfold State.lanesTo
  repeat' first
    | (simp (maxDischargeDepth := 40) only [implies_true, Keeps.refl, Keeps.ite, Keeps.upd, Keeps.send, h0, Keeps.foldl,
        State.event_keeps]; done)
    | with_reducible refine Keeps.foldl (fun _ _ => ?_) ?_
    | split
    | dsimp only

theorem execTwinLinkUp_keeps {past : State} (t : Nat) (lanes : BitVec 4) (p : Partner) (s : State)
    (h : execTwinLinkUp t lanes p s = .next past) : Keeps (s.tick t) past := by
  unfold execTwinLinkUp at h
  simp only [Host.Outcome.next.injEq] at h
  subst h
  repeat' first
    | (simp (maxDischargeDepth := 40) only [implies_true, Keeps.refl, Keeps.ite, Keeps.upd, Keeps.send, State.event_keeps,
        State.hostLinkFrom_keeps, State.lanesTo_keeps, State.meetPartner_keeps, State.partnerHost_keeps,
        State.trySyncing_keeps]; done)
    | split
    | dsimp only

theorem execProgExchange_keeps {past : State} (rid : Nat) (s : State)
    (h : execProgExchange rid s = .next past) : Keeps s past := by
  unfold execProgExchange at h
  simp only [Host.Outcome.next.injEq] at h
  subst h
  repeat' first
    | (simp (maxDischargeDepth := 40) only [implies_true, Keeps.refl, Keeps.ite, Keeps.upd, Keeps.send, State.onReq_keeps,
        State.complete_keeps, State.event_keeps, State.running_keeps]; done)
    | (with_reducible refine State.onReq_keeps _ _ _ _ (Keeps.refl _) (fun _ => ?_))
    | split
    | dsimp only

theorem State.exchangeAt_keeps (s : State) (x : Nat) {past : State} (h0 : Keeps past s) :
    Keeps past (State.exchangeAt s x) := by
  unfold State.exchangeAt
  repeat' first
    | (simp (maxDischargeDepth := 40) only [implies_true, Keeps.refl, Keeps.ite, Keeps.upd, Keeps.send, h0,
        State.cause_keeps, State.event_keeps]; done)
    | split
    | dsimp only

theorem execExchangeImageStored_keeps {past : State} (t : Nat) (x : Nat) (s : State)
    (h : execExchangeImageStored t x s = .next past) : Keeps (s.tick t) past := by
  unfold execExchangeImageStored at h
  simp only [Host.Outcome.next.injEq] at h
  subst h
  repeat' first
    | (simp (maxDischargeDepth := 40) only [implies_true, Keeps.refl, Keeps.ite, Keeps.upd, Keeps.send, State.emit_keeps,
        State.exchangeAt_keeps]; done)
    | split
    | dsimp only

theorem execMappingInstant_keeps {past : State} (t : Nat) (s : State)
    (h : execMappingInstant t s = .next past) : Keeps (s.tick t) past := by
  unfold execMappingInstant at h
  simp only [Host.Outcome.next.injEq] at h
  subst h
  repeat' first
    | (simp (maxDischargeDepth := 40) only [implies_true, Keeps.refl, Keeps.ite, Keeps.upd, Keeps.send, Keeps.foldl,
        State.event_keeps, State.harvestDue_keeps]; done)
    | with_reducible refine Keeps.foldl (fun _ _ => ?_) ?_
    | split
    | dsimp only

theorem execHelmStatus_keeps {past : State} (rid : Nat) (s : State)
    (h : execHelmStatus rid s = .next past) : Keeps s past := by
  unfold execHelmStatus at h
  simp only [Host.Outcome.next.injEq] at h
  subst h
  simp (maxDischargeDepth := 40) only [implies_true, Keeps.refl, Keeps.ite, Keeps.upd, Keeps.send, State.onReq_keeps,
      State.complete_keeps]

theorem execHelmRelease_keeps {past : State} (rid : Nat) (s : State)
    (h : execHelmRelease rid s = .next past) : Keeps s past := by
  unfold execHelmRelease at h
  simp only [Host.Outcome.next.injEq] at h
  subst h
  simp (maxDischargeDepth := 40) only [implies_true, Keeps.refl, Keeps.ite, Keeps.upd, Keeps.send, State.onReq_keeps,
      State.complete_keeps, State.freeHelm_keeps]

theorem execHelmTake_keeps {past : State} (rid : Nat) (s : State)
    (h : execHelmTake rid s = .next past) : Keeps s past := by
  unfold execHelmTake at h
  simp only [Host.Outcome.next.injEq] at h
  subst h
  simp (maxDischargeDepth := 40) only [implies_true, Keeps.refl, Keeps.ite, Keeps.upd, Keeps.send, State.onReq_keeps,
      State.complete_keeps, State.setHelm_keeps]

theorem State.hostFirst_keeps (s : State) {past : State} (h0 : Keeps past s) :
    Keeps past (State.hostFirst s) := by
  unfold State.hostFirst
  repeat' first
    | (simp (maxDischargeDepth := 40) only [implies_true, Keeps.refl, Keeps.ite, Keeps.upd, Keeps.send, h0,
        State.setHelm_keeps]; done)
    | split
    | dsimp only

theorem State.seizeHelm_keeps (s : State) {past : State} (h0 : Keeps past s) :
    Keeps past (State.seizeHelm s) := by
  unfold State.seizeHelm
  repeat' first
    | (simp (maxDischargeDepth := 40) only [implies_true, Keeps.refl, Keeps.ite, Keeps.upd, Keeps.send, h0,
        State.setHelm_keeps]; done)
    | split
    | dsimp only

theorem execHelmSeize_keeps {past : State} (rid : Nat) (s : State)
    (h : execHelmSeize rid s = .next past) : Keeps s past := by
  unfold execHelmSeize at h
  simp only [Host.Outcome.next.injEq] at h
  subst h
  simp (maxDischargeDepth := 40) only [implies_true, Keeps.refl, Keeps.ite, Keeps.upd, Keeps.send, State.onReq_keeps,
      State.complete_keeps, State.hostFirst_keeps, State.seizeHelm_keeps]

theorem execHelmTimeout_keeps {past : State} (t : Nat) (s : State)
    (h : execHelmTimeout t s = .next past) : Keeps (s.tick t) past := by
  unfold execHelmTimeout at h
  simp only [Host.Outcome.next.injEq] at h
  subst h
  repeat' first
    | (simp (maxDischargeDepth := 40) only [implies_true, Keeps.refl, Keeps.ite, Keeps.upd, Keeps.send,
        State.freeHelm_keeps]; done)
    | split
    | dsimp only

theorem execSbIdle_keeps {past : State} (t : Nat) (s : State)
    (h : execSbIdle t s = .next past) : Keeps (s.tick t) past := by
  unfold execSbIdle at h
  simp only [Host.Outcome.next.injEq] at h
  subst h
  simp (maxDischargeDepth := 40) only [implies_true, Keeps.refl, Keeps.ite, Keeps.upd, Keeps.send, State.freeHelm_keeps]

theorem execKeyLoad_keeps {past : State} (rid : Nat) (s : State)
    (h : execKeyLoad rid s = .next past) : Keeps s past := by
  unfold execKeyLoad at h
  simp only [Host.Outcome.next.injEq] at h
  subst h
  simp (maxDischargeDepth := 40) only [implies_true, Keeps.refl, Keeps.ite, Keeps.upd, Keeps.send, State.onReq_keeps,
      State.complete_keeps, State.logChange_keeps, State.setKeySlot_keeps]

theorem execKeyErase_keeps {past : State} (rid : Nat) (s : State)
    (h : execKeyErase rid s = .next past) : Keeps s past := by
  unfold execKeyErase at h
  simp only [Host.Outcome.next.injEq] at h
  subst h
  simp (maxDischargeDepth := 40) only [implies_true, Keeps.refl, Keeps.ite, Keeps.upd, Keeps.send, State.onReq_keeps,
      State.complete_keeps, State.logChange_keeps]

theorem execCounterRead_keeps {past : State} (rid : Nat) (s : State)
    (h : execCounterRead rid s = .next past) : Keeps s past := by
  unfold execCounterRead at h
  simp only [Host.Outcome.next.injEq] at h
  subst h
  simp (maxDischargeDepth := 40) only [implies_true, Keeps.refl, Keeps.ite, Keeps.upd, Keeps.send, State.onReq_keeps,
      State.complete_keeps]

theorem execPresenceWindow_keeps {past : State} (t : Nat) (s : State)
    (h : execPresenceWindow t s = .next past) : Keeps (s.tick t) past := by
  unfold execPresenceWindow at h
  simp only [Host.Outcome.next.injEq] at h
  subst h
  repeat' first
    | (simp (maxDischargeDepth := 40) only [implies_true, Keeps.refl, Keeps.ite, Keeps.upd, Keeps.send,
        State.event_keeps]; done)
    | split
    | dsimp only

theorem execPresenceWindowEnd_keeps {past : State} (t : Nat) (s : State)
    (h : execPresenceWindowEnd t s = .next past) : Keeps (s.tick t) past := by
  unfold execPresenceWindowEnd at h
  simp only [Host.Outcome.next.injEq] at h
  subst h
  repeat' first
    | (simp (maxDischargeDepth := 40) only [implies_true, Keeps.refl, Keeps.ite, Keeps.upd, Keeps.send]; done)
    | split
    | dsimp only

theorem execPwdLogin_keeps {past : State} (rid : Nat) (s : State)
    (h : execPwdLogin rid s = .next past) : Keeps s past := by
  unfold execPwdLogin at h
  simp only [Host.Outcome.next.injEq] at h
  subst h
  simp (maxDischargeDepth := 40) only [implies_true, Keeps.refl, Keeps.ite, Keeps.upd, Keeps.send, State.onReq_keeps,
      State.complete_keeps, State.endSession_keeps, State.running_keeps]

theorem State.pwdFailed_keeps (s : State) {past : State} (h0 : Keeps past s) :
    Keeps past (State.pwdFailed s) := by
  unfold State.pwdFailed
  simp (maxDischargeDepth := 40) only [implies_true, Keeps.refl, Keeps.ite, Keeps.upd, Keeps.send, h0, State.event_keeps]

theorem execPasswordCheckDone_keeps {past : State} (t : Nat) (s : State)
    (h : execPasswordCheckDone t s = .next past) : Keeps (s.tick t) past := by
  unfold execPasswordCheckDone at h
  simp only [Host.Outcome.next.injEq] at h
  subst h
  repeat' first
    | (simp (maxDischargeDepth := 40) only [implies_true, Keeps.refl, Keeps.ite, Keeps.upd, Keeps.send,
        State.complete_keeps, State.event_keeps, State.pwdFailed_keeps]; done)
    | split
    | dsimp only

theorem execPwdLogout_keeps {past : State} (rid : Nat) (s : State)
    (h : execPwdLogout rid s = .next past) : Keeps s past := by
  unfold execPwdLogout at h
  simp only [Host.Outcome.next.injEq] at h
  subst h
  simp (maxDischargeDepth := 40) only [implies_true, Keeps.refl, Keeps.ite, Keeps.upd, Keeps.send, State.onReq_keeps,
      State.complete_keeps, State.endSession_keeps]

theorem execPwdSet_keeps {past : State} (rid : Nat) (s : State)
    (h : execPwdSet rid s = .next past) : Keeps s past := by
  unfold execPwdSet at h
  simp only [Host.Outcome.next.injEq] at h
  subst h
  simp (maxDischargeDepth := 40) only [implies_true, Keeps.refl, Keeps.ite, Keeps.upd, Keeps.send, State.onReq_keeps,
      State.complete_keeps, State.logChange_keeps]

theorem execSessionTimeout_keeps {past : State} (t : Nat) (s : State)
    (h : execSessionTimeout t s = .next past) : Keeps (s.tick t) past := by
  unfold execSessionTimeout at h
  simp only [Host.Outcome.next.injEq] at h
  subst h
  repeat' first
    | (simp (maxDischargeDepth := 40) only [implies_true, Keeps.refl, Keeps.ite, Keeps.upd, Keeps.send,
        State.endSession_keeps]; done)
    | split
    | dsimp only

theorem execLockoutEnd_keeps {past : State} (t : Nat) (s : State)
    (h : execLockoutEnd t s = .next past) : Keeps (s.tick t) past := by
  unfold execLockoutEnd at h
  simp only [Host.Outcome.next.injEq] at h
  subst h
  repeat' first
    | (simp (maxDischargeDepth := 40) only [implies_true, Keeps.refl, Keeps.ite, Keeps.upd, Keeps.send]; done)
    | split
    | dsimp only

theorem execFwInfo_keeps {past : State} (rid : Nat) (s : State)
    (h : execFwInfo rid s = .next past) : Keeps s past := by
  unfold execFwInfo at h
  simp only [Host.Outcome.next.injEq] at h
  subst h
  simp (maxDischargeDepth := 40) only [implies_true, Keeps.refl, Keeps.ite, Keeps.upd, Keeps.send, State.onReq_keeps,
      State.complete_keeps]

theorem State.fwBegin_keeps (s : State) (rid : Nat) (image : List Byte) {past : State} (h0 : Keeps past s) :
    Keeps past (State.fwBegin s rid image) := by
  unfold State.fwBegin
  simp (maxDischargeDepth := 40) only [implies_true, Keeps.refl, Keeps.ite, Keeps.upd, Keeps.send, h0,
      State.running_keeps]

theorem execFwWrite_keeps {past : State} (rid : Nat) (s : State)
    (h : execFwWrite rid s = .next past) : Keeps s past := by
  unfold execFwWrite at h
  simp only [Host.Outcome.next.injEq] at h
  subst h
  simp (maxDischargeDepth := 40) only [implies_true, Keeps.refl, Keeps.ite, Keeps.upd, Keeps.send, State.onReq_keeps,
      State.complete_keeps, State.fwBegin_keeps]

theorem State.fwDone_keeps (s : State) (rid : Nat) (slotB : Bool) (b : List Byte) (ok : Bool) {past : State} (h0 : Keeps
    past s) :
    Keeps past (State.fwDone s rid slotB b ok) := by
  unfold State.fwDone
  simp (maxDischargeDepth := 40) only [implies_true, Keeps.refl, Keeps.ite, Keeps.upd, Keeps.send, h0, State.endReq_keeps,
      State.event_keeps]

theorem execFwActivate_keeps {past : State} (rid : Nat) (s : State)
    (h : execFwActivate rid s = .next past) : Keeps s past := by
  unfold execFwActivate at h
  simp only [Host.Outcome.next.injEq] at h
  subst h
  simp (maxDischargeDepth := 40) only [implies_true, Keeps.refl, Keeps.ite, Keeps.upd, Keeps.send, State.onReq_keeps,
      State.complete_keeps]

theorem State.progStored_keeps (s : State) (rid : Nat) (i : Image) (ok : Bool) {past : State} (h0 : Keeps past s) :
    Keeps past (State.progStored s rid i ok) := by
  unfold State.progStored
  simp (maxDischargeDepth := 40) only [implies_true, Keeps.refl, Keeps.ite, Keeps.upd, Keeps.send, h0,
      State.dropSwap_keeps, State.endReq_keeps, State.event_keeps]

theorem execFlashStoreDone_keeps {past : State} (t : Nat) (ok : Bool) (s : State)
    (h : execFlashStoreDone t ok s = .next past) : Keeps (s.tick t) past := by
  unfold execFlashStoreDone at h
  simp only [Host.Outcome.next.injEq] at h
  subst h
  repeat' first
    | (simp (maxDischargeDepth := 40) only [implies_true, Keeps.refl, Keeps.ite, Keeps.upd, Keeps.send,
        State.fwDone_keeps, State.progStored_keeps, State.trimDone_keeps]; done)
    | split
    | dsimp only

end Sys2Proof.Machine
end

