-- ==== Sys2Proof/Laws/KeepsPanel.lean ====
section
/-! SUPPORT. Laws/KeepsPanel.lean: what `Keeps` says of the operations and commands of
the recorder, the panel and the request queue. -/

set_option linter.unusedSimpArgs false

set_option linter.unusedTactic false
set_option linter.unreachableTactic false

namespace Sys2Proof.Machine

theorem State.afterWrite_keeps (s : State) {past : State} (h0 : Keeps past s) :
    Keeps past (State.afterWrite s) := by
  unfold State.afterWrite
  simp (maxDischargeDepth := 40) only [implies_true, Keeps.refl, Keeps.ite, Keeps.upd, Keeps.send, h0, State.event_keeps]

theorem State.logWritten_keeps (s : State) (seq : Nat) {past : State} (h0 : Keeps past s) :
    Keeps past (State.logWritten s seq) := by
  unfold State.logWritten
  simp (maxDischargeDepth := 40) only [implies_true, Keeps.refl, Keeps.ite, Keeps.upd, Keeps.send, h0, Keeps.foldl,
      State.release_keeps]

theorem State.deliverRec_keeps (s : State) (x : Rec) {past : State} (h0 : Keeps past s) :
    Keeps past (State.deliverRec s x) := by
  unfold State.deliverRec
  simp (maxDischargeDepth := 40) only [implies_true, Keeps.refl, Keeps.ite, Keeps.upd, Keeps.send, h0, Keeps.foldl,
      State.deliver_keeps]

theorem execRecordWrite_keeps {past : State} (t : Nat) (verified : Bool) (s : State)
    (h : execRecordWrite t verified s = .next past) : Keeps (s.tick t) past := by
  unfold execRecordWrite at h
  simp only [Host.Outcome.next.injEq] at h
  subst h
  repeat' first
    | (simp (maxDischargeDepth := 40) only [implies_true, Keeps.refl, Keeps.ite, Keeps.upd, Keeps.send,
        State.afterWrite_keeps, State.deliverRec_keeps, State.logWritten_keeps]; done)
    | split
    | dsimp only

theorem execSummaryRecord_keeps {past : State} (t : Nat) (code : BitVec 12) (s : State)
    (h : execSummaryRecord t code s = .next past) : Keeps (s.tick t) past := by
  unfold execSummaryRecord at h
  simp only [Host.Outcome.next.injEq] at h
  subst h
  simp (maxDischargeDepth := 40) only [implies_true, Keeps.refl, Keeps.ite, Keeps.upd, Keeps.send]

theorem execRecRead_keeps {past : State} (rid : Nat) (s : State) (h : execRecRead rid s = .next past) : Keeps s past := by
  cases h
  refine State.onReq_keeps _ _ _ _ (.refl _) (fun r => State.complete_keeps _ _ _ _ _ _ ?_)
  refine Keeps.foldlOn (fun a => a.2.2) (b := (([] : List Byte), 0, s)) (fun a i h => ?_) (.refl _)
  exact h.upd

theorem execRecSubscribe_keeps {past : State} (rid : Nat) (handle : BitVec 32) (s : State)
    (h : execRecSubscribe rid handle s = .next past) : Keeps s past := by
  unfold execRecSubscribe at h
  simp only [Host.Outcome.next.injEq] at h
  subst h
  simp (maxDischargeDepth := 40) only [implies_true, Keeps.refl, Keeps.ite, Keeps.upd, Keeps.send, State.onReq_keeps,
      State.subscribe_keeps]

theorem execRecConfig_keeps {past : State} (rid : Nat) (s : State)
    (h : execRecConfig rid s = .next past) : Keeps s past := by
  unfold execRecConfig at h
  simp only [Host.Outcome.next.injEq] at h
  subst h
  simp (maxDischargeDepth := 40) only [implies_true, Keeps.refl, Keeps.ite, Keeps.upd, Keeps.send, Keeps.foldl,
      State.onReq_keeps, State.complete_keeps, State.event_keeps]

theorem execDspWrite_keeps {past : State} (rid : Nat) (s : State)
    (h : execDspWrite rid s = .next past) : Keeps s past := by
  unfold execDspWrite at h
  simp only [Host.Outcome.next.injEq] at h
  subst h
  repeat' first
    | (simp (maxDischargeDepth := 40) only [implies_true, Keeps.refl, Keeps.ite, Keeps.upd, Keeps.send, State.onReq_keeps,
        State.complete_keeps, State.endReq_keeps, State.running_keeps]; done)
    | (with_reducible refine State.onReq_keeps _ _ _ _ (Keeps.refl _) (fun _ => ?_))
    | split
    | dsimp only

theorem execDspStatus_keeps {past : State} (rid : Nat) (s : State)
    (h : execDspStatus rid s = .next past) : Keeps s past := by
  unfold execDspStatus at h
  simp only [Host.Outcome.next.injEq] at h
  subst h
  simp (maxDischargeDepth := 40) only [implies_true, Keeps.refl, Keeps.ite, Keeps.upd, Keeps.send, State.onReq_keeps,
      State.complete_keeps]

theorem State.swapFrame_keeps (s : State) {past : State} (h0 : Keeps past s) :
    Keeps past (State.swapFrame s) := by
  unfold State.swapFrame
  simp (maxDischargeDepth := 40) only [implies_true, Keeps.refl, Keeps.ite, Keeps.upd, Keeps.send, h0, Keeps.foldl,
      State.endReq_keeps, State.running_keeps]

theorem execFrameStart_keeps {past : State} (t : Nat) (temp : BitVec 16) (s : State)
    (h : execFrameStart t temp s = .next past) : Keeps (s.tick t) past := by
  unfold execFrameStart at h
  simp only [Host.Outcome.next.injEq] at h
  subst h
  simp (maxDischargeDepth := 40) only [implies_true, Keeps.refl, Keeps.ite, Keeps.upd, Keeps.send, State.event_keeps,
      State.swapFrame_keeps]

theorem State.frameFault_keeps (s : State) (scan : BitVec 32) {past : State} (h0 : Keeps past s) :
    Keeps past (State.frameFault s scan) := by
  unfold State.frameFault
  simp (maxDischargeDepth := 40) only [implies_true, Keeps.refl, Keeps.ite, Keeps.upd, Keeps.send, h0, State.event_keeps]

theorem execFrameCheck_keeps {past : State} (t : Nat) (scan : BitVec 32) (s : State)
    (h : execFrameCheck t scan s = .next past) : Keeps (s.tick t) past := by
  unfold execFrameCheck at h
  simp only [Host.Outcome.next.injEq] at h
  subst h
  simp (maxDischargeDepth := 40) only [implies_true, Keeps.refl, Keeps.ite, Keeps.upd, Keeps.send, State.frameFault_keeps]

theorem State.menuStep_keeps (s : State) (up : Bool) {past : State} (h0 : Keeps past s) :
    Keeps past (State.menuStep s up) := by
  unfold State.menuStep
  repeat' first
    | (simp (maxDischargeDepth := 40) only [implies_true, Keeps.refl, Keeps.ite, Keeps.upd, Keeps.send, h0]; done)
    | split
    | dsimp only

theorem State.menuSelect_keeps (s : State) {past : State} (h0 : Keeps past s) :
    Keeps past (State.menuSelect s) := by
  unfold State.menuSelect
  simp (maxDischargeDepth := 40) only [implies_true, Keeps.refl, Keeps.ite, Keeps.upd, Keeps.send, h0]

theorem State.menuNext_keeps (s : State) {past : State} (h0 : Keeps past s) :
    Keeps past (State.menuNext s) := by
  unfold State.menuNext
  simp (maxDischargeDepth := 40) only [implies_true, Keeps.refl, Keeps.ite, Keeps.upd, Keeps.send, h0]

theorem State.menuKey_keeps (s : State) (k : Key) {past : State} (h0 : Keeps past s) :
    Keeps past (State.menuKey s k) := by
  unfold State.menuKey
  repeat' first
    | (simp (maxDischargeDepth := 40) only [implies_true, Keeps.refl, Keeps.ite, Keeps.upd, Keeps.send, h0,
        State.menuNext_keeps, State.menuSelect_keeps, State.menuStep_keeps]; done)
    | split
    | dsimp only

theorem execKeyPress_keeps {past : State} (t : Nat) (key : Key) (pressed : Bool) (s : State)
    (h : execKeyPress t key pressed s = .next past) : Keeps (s.tick t) past := by
  unfold execKeyPress at h
  simp only [Host.Outcome.next.injEq] at h
  subst h
  simp (maxDischargeDepth := 40) only [implies_true, Keeps.refl, Keeps.ite, Keeps.upd, Keeps.send, State.keysMoved_keeps,
      State.menuKey_keeps]

theorem execMenuTimeout_keeps {past : State} (t : Nat) (s : State)
    (h : execMenuTimeout t s = .next past) : Keeps (s.tick t) past := by
  unfold execMenuTimeout at h
  simp only [Host.Outcome.next.injEq] at h
  subst h
  simp (maxDischargeDepth := 40) only [implies_true, Keeps.refl, Keeps.ite, Keeps.upd, Keeps.send]

theorem execTripPageReset_keeps {past : State} (t : Nat) (high low : Bool) (s : State)
    (h : execTripPageReset t high low s = .next past) : Keeps (s.tick t) past := by
  unfold execTripPageReset at h
  simp only [Host.Outcome.next.injEq] at h
  subst h
  repeat' first
    | (simp (maxDischargeDepth := 40) only [implies_true, Keeps.refl, Keeps.ite, Keeps.upd, Keeps.send,
        State.changeLog_keeps, State.resetOut_keeps]; done)
    | split
    | dsimp only

theorem State.trimHold_keeps (s : State) (up : Bool) {past : State} (h0 : Keeps past s) :
    Keeps past (State.trimHold s up) := by
  unfold State.trimHold
  repeat' first
    | (simp (maxDischargeDepth := 40) only [implies_true, Keeps.refl, Keeps.ite, Keeps.upd, Keeps.send, h0]; done)
    | split
    | dsimp only

theorem execClTrimHold_keeps {past : State} (t : Nat) (n : Fin 8) (select up : Bool) (s : State)
    (h : execClTrimHold t n select up s = .next past) : Keeps (s.tick t) past := by
  unfold execClTrimHold at h
  simp only [Host.Outcome.next.injEq] at h
  subst h
  repeat' first
    | (simp (maxDischargeDepth := 40) only [implies_true, Keeps.refl, Keeps.ite, Keeps.upd, Keeps.send,
        State.trimHold_keeps]; done)
    | split
    | dsimp only

theorem State.ejectTry_keeps (s : State) (since : Nat) {past : State} (h0 : Keeps past s) :
    Keeps past (State.ejectTry s since) := by
  unfold State.ejectTry
  simp (maxDischargeDepth := 40) only [implies_true, Keeps.refl, Keeps.ite, Keeps.upd, Keeps.send, h0,
      State.selfEquinox_keeps]

theorem execEjectLeverPulled_keeps {past : State} (t : Nat) (s : State)
    (h : execEjectLeverPulled t s = .next past) : Keeps (s.tick t) past := by
  unfold execEjectLeverPulled at h
  simp only [Host.Outcome.next.injEq] at h
  subst h
  simp (maxDischargeDepth := 40) only [implies_true, Keeps.refl, Keeps.ite, Keeps.upd, Keeps.send, State.ejectSafe_keeps,
      State.ejectTry_keeps, State.event_keeps]

theorem execEjectRetry_keeps {past : State} (t : Nat) (s : State)
    (h : execEjectRetry t s = .next past) : Keeps (s.tick t) past := by
  unfold execEjectRetry at h
  simp only [Host.Outcome.next.injEq] at h
  subst h
  repeat' first
    | (simp (maxDischargeDepth := 40) only [implies_true, Keeps.refl, Keeps.ite, Keeps.upd, Keeps.send,
        State.ejectTry_keeps]; done)
    | split
    | dsimp only

theorem execEjectCancel_keeps {past : State} (t : Nat) (s : State)
    (h : execEjectCancel t s = .next past) : Keeps (s.tick t) past := by
  unfold execEjectCancel at h
  simp only [Host.Outcome.next.injEq] at h
  subst h
  simp (maxDischargeDepth := 40) only [implies_true, Keeps.refl, Keeps.ite, Keeps.upd, Keeps.send, State.event_keeps]

theorem execEjectHold_keeps {past : State} (t : Nat) (s : State)
    (h : execEjectHold t s = .next past) : Keeps (s.tick t) past := by
  unfold execEjectHold at h
  simp only [Host.Outcome.next.injEq] at h
  subst h
  repeat' first
    | (simp (maxDischargeDepth := 40) only [implies_true, Keeps.refl, Keeps.ite, Keeps.upd, Keeps.send]; done)
    | split
    | dsimp only

theorem State.refuse_keeps (s : State) (r : Req) (status : Nat) (result : Nat := 0) {past : State} (h0 : Keeps past s) :
    Keeps past (State.refuse s r status result) := by
  unfold State.refuse
  repeat' first
    | (simp (maxDischargeDepth := 40) only [implies_true, Keeps.refl, Keeps.ite, Keeps.upd, Keeps.send, h0,
        State.finish_keeps, State.respond_keeps]; done)
    | split
    | dsimp only

theorem State.checkTarget_keeps (s : State) (r : Req) (p : Probe) (row : OpRow) {past : State} (h0 : Keeps past s) :
    Keeps past (State.checkTarget s r p row) := by
  unfold State.checkTarget
  simp (maxDischargeDepth := 40) only [implies_true, Keeps.refl, Keeps.ite, Keeps.upd, Keeps.send, h0,
      State.complete_keeps, State.updReq_keeps]

theorem State.checkCounter_keeps (s : State) (r : Req) (p : Probe) (row : OpRow) {past : State} (h0 : Keeps past s) :
    Keeps past (State.checkCounter s r p row) := by
  unfold State.checkCounter
  simp (maxDischargeDepth := 40) only [implies_true, Keeps.refl, Keeps.ite, Keeps.upd, Keeps.send, h0,
      State.checkTarget_keeps, State.emit_keeps, State.event_keeps, State.finish_keeps, State.setKeySlot_keeps]

theorem State.checkAuth_keeps (s : State) (r : Req) (p : Probe) (row : OpRow) {past : State} (h0 : Keeps past s) :
    Keeps past (State.checkAuth s r p row) := by
  unfold State.checkAuth
  repeat' first
    | (simp (maxDischargeDepth := 40) only [implies_true, Keeps.refl, Keeps.ite, Keeps.upd, Keeps.send, h0,
        State.checkCounter_keeps, State.event_keeps, State.refuse_keeps]; done)
    | split
    | dsimp only

theorem State.check_keeps (s : State) (r : Req) (p : Probe) {past : State} (h0 : Keeps past s) :
    Keeps past (State.check s r p) := by
  unfold State.check
  repeat' first
    | (simp (maxDischargeDepth := 40) only [implies_true, Keeps.refl, Keeps.ite, Keeps.upd, Keeps.send, h0,
        State.checkAuth_keeps, State.checkTarget_keeps, State.refuse_keeps]; done)
    | split
    | dsimp only

theorem execCtxEnable_keeps {past : State} (t : Nat) (n : Fin 256) (w : BitVec 32) (memFailAt : Option Nat) (s : State)
    (h : execCtxEnable t n w memFailAt s = .next past) : Keeps (s.tick t) past := by
  unfold execCtxEnable at h
  simp only [Host.Outcome.next.injEq] at h
  subst h
  repeat' first
    | (simp (maxDischargeDepth := 40) only [implies_true, Keeps.refl, Keeps.ite, Keeps.upd, Keeps.send,
        State.ctxError_keeps, State.setCtx_keeps]; done)
    | split
    | dsimp only

theorem State.orphan_keeps (s : State) (n : Nat) {past : State} (h0 : Keeps past s) :
    Keeps past (State.orphan s n) := by
  unfold State.orphan
  simp (maxDischargeDepth := 40) only [implies_true, Keeps.refl, Keeps.ite, Keeps.upd, Keeps.send, h0]

theorem execCtxDisable_keeps {past : State} (t : Nat) (n : Fin 256) (w : BitVec 32) (s : State)
    (h : execCtxDisable t n w s = .next past) : Keeps (s.tick t) past := by
  unfold execCtxDisable at h
  simp only [Host.Outcome.next.injEq] at h
  subst h
  repeat' first
    | (simp (maxDischargeDepth := 40) only [implies_true, Keeps.refl, Keeps.ite, Keeps.upd, Keeps.send,
        State.orphan_keeps, State.setCtx_keeps]; done)
    | split
    | dsimp only

theorem State.wakeEngine_keeps (s : State) {past : State} (h0 : Keeps past s) :
    Keeps past (State.wakeEngine s) := h0.upd

theorem State.dropDoorbell_keeps (s : State) {past : State} (h0 : Keeps past s) :
    Keeps past (State.dropDoorbell s) := h0.upd

theorem State.doorbell_keeps (s : State) (completion : Bool) (off size : Nat) (v : BitVec 32) {past : State} (h0 : Keeps
    past s) :
    Keeps past (State.doorbell s completion off size v) := by
  unfold State.doorbell
  repeat' first
    | (simp (maxDischargeDepth := 40) only [implies_true, Keeps.refl, Keeps.ite, Keeps.upd, Keeps.send, h0,
        State.ctxError_keeps, State.dropDoorbell_keeps, State.setCtx_keeps]; done)
    | split
    | dsimp only

theorem execSubmissionDoorbell_keeps {past : State} (t : Nat) (off size : Nat) (v : BitVec 32) (s : State)
    (h : execSubmissionDoorbell t off size v s = .next past) : Keeps (s.tick t) past := by
  unfold execSubmissionDoorbell at h
  simp only [Host.Outcome.next.injEq] at h
  subst h
  simp (maxDischargeDepth := 40) only [implies_true, Keeps.refl, Keeps.ite, Keeps.upd, Keeps.send, State.doorbell_keeps,
      State.wakeEngine_keeps]

theorem execCompletionDoorbell_keeps {past : State} (t : Nat) (off size : Nat) (v : BitVec 32) (s : State)
    (h : execCompletionDoorbell t off size v s = .next past) : Keeps (s.tick t) past := by
  unfold execCompletionDoorbell at h
  simp only [Host.Outcome.next.injEq] at h
  subst h
  simp (maxDischargeDepth := 40) only [implies_true, Keeps.refl, Keeps.ite, Keeps.upd, Keeps.send, State.doorbell_keeps,
      State.wakeEngine_keeps]

theorem State.takeRid_keeps (s : State) {past : State} (h0 : Keeps past s) :
    Keeps past (State.takeRid s).2 := h0.upd

theorem State.fetchDesc_keeps (s : State) (n : Nat) (d : Desc) (buf : Option (List Byte)) (bufWriteOk : Bool) {past :
    State} (h0 : Keeps past s) :
    Keeps past (State.fetchDesc s n d buf bufWriteOk) := by
  unfold State.fetchDesc
  simp (maxDischargeDepth := 40) only [implies_true, Keeps.refl, Keeps.ite, Keeps.upd, Keeps.send, h0, State.check_keeps,
      State.setCtx_keeps, State.takeRid_keeps]

theorem execDescriptorFetch_keeps {past : State} (t : Nat) (n : Fin 256) (desc : Option Desc) (buf : Option (List Byte))
    (bufWriteOk : Bool) (s : State)
    (h : execDescriptorFetch t n desc buf bufWriteOk s = .next past) : Keeps (s.tick t) past := by
  unfold execDescriptorFetch at h
  simp only [Host.Outcome.next.injEq] at h
  subst h
  repeat' first
    | (simp (maxDischargeDepth := 40) only [implies_true, Keeps.refl, Keeps.ite, Keeps.upd, Keeps.send,
        State.ctxError_keeps, State.fetchDesc_keeps]; done)
    | split
    | dsimp only

theorem execDescriptorRelease_keeps {past : State} (t : Nat) (rid : Nat) (s : State)
    (h : execDescriptorRelease t rid s = .next past) : Keeps (s.tick t) past := by
  unfold execDescriptorRelease at h
  simp only [Host.Outcome.next.injEq] at h
  subst h
  repeat' first
    | (simp (maxDischargeDepth := 40) only [implies_true, Keeps.refl, Keeps.ite, Keeps.upd, Keeps.send,
        State.updReq_keeps]; done)
    | split
    | dsimp only

theorem execIrqHoldoffExpiry_keeps {past : State} (t : Nat) (vec : Fin 64) (s : State)
    (h : execIrqHoldoffExpiry t vec s = .next past) : Keeps (s.tick t) past := by
  unfold execIrqHoldoffExpiry at h
  simp only [Host.Outcome.next.injEq] at h
  subst h
  simp (maxDischargeDepth := 40) only [implies_true, Keeps.refl, Keeps.ite, Keeps.upd, Keeps.send, State.msix_keeps]

theorem execPcieLinkDown_keeps {past : State} (t : Nat) (s : State)
    (h : execPcieLinkDown t s = .next past) : Keeps (s.tick t) past := by
  unfold execPcieLinkDown at h
  simp only [Host.Outcome.next.injEq] at h
  subst h
  simp (maxDischargeDepth := 40) only [implies_true, Keeps.refl, Keeps.ite, Keeps.upd, Keeps.send]

theorem execPcieLinkUp_keeps {past : State} (t : Nat) (gen width : Nat) (s : State)
    (h : execPcieLinkUp t gen width s = .next past) : Keeps (s.tick t) past := by
  unfold execPcieLinkUp at h
  simp only [Host.Outcome.next.injEq] at h
  subst h
  simp (maxDischargeDepth := 40) only [implies_true, Keeps.refl, Keeps.ite, Keeps.upd, Keeps.send, State.cause_keeps,
      State.setHelm_keeps]

theorem State.serve_keeps (s : State) (peer : Peer) (b : List Byte) {past : State} (h0 : Keeps past s) :
    Keeps past (State.serve s peer b) := by
  unfold State.serve
  repeat' first
    | (simp (maxDischargeDepth := 40) only [implies_true, Keeps.refl, Keeps.ite, Keeps.upd, Keeps.send, h0,
        State.check_keeps, State.emit_keeps, State.respond_keeps, State.takeRid_keeps]; done)
    | split
    | dsimp only

theorem State.dropDatagram_keeps (s : State) {past : State} (h0 : Keeps past s) :
    Keeps past (State.dropDatagram s) := h0.upd

theorem State.datagram_keeps (s : State) (peer : Peer) (bytes : List Byte) {past : State} (h0 : Keeps past s) :
    Keeps past (State.datagram s peer bytes) := by
  unfold State.datagram
  repeat' first
    | (simp (maxDischargeDepth := 40) only [implies_true, Keeps.refl, Keeps.ite, Keeps.upd, Keeps.send, h0,
        State.dropDatagram_keeps, State.emit_keeps, State.serve_keeps]; done)
    | split
    | dsimp only

theorem execSidebandDatagram_keeps {past : State} (t : Nat) (peer : Peer) (packet : SbPacket) (s : State)
    (h : execSidebandDatagram t peer packet s = .next past) : Keeps (s.tick t) past := by
  unfold execSidebandDatagram at h
  simp only [Host.Outcome.next.injEq] at h
  subst h
  repeat' first
    | (simp (maxDischargeDepth := 40) only [implies_true, Keeps.refl, Keeps.ite, Keeps.upd, Keeps.send,
        State.datagram_keeps, State.echoReply_keeps, State.emit_keeps]; done)
    | split
    | dsimp only

theorem execSidebandDequeue_keeps {past : State} (t : Nat) (s : State)
    (h : execSidebandDequeue t s = .next past) : Keeps (s.tick t) past := by
  unfold execSidebandDequeue at h
  simp only [Host.Outcome.next.injEq] at h
  subst h
  repeat' first
    | (simp (maxDischargeDepth := 40) only [implies_true, Keeps.refl, Keeps.ite, Keeps.upd, Keeps.send,
        State.serve_keeps]; done)
    | split
    | dsimp only

theorem execSbLinkChange_keeps {past : State} (t : Nat) (ok lowAmpl : Bool) (s : State)
    (h : execSbLinkChange t ok lowAmpl s = .next past) : Keeps (s.tick t) past := by
  unfold execSbLinkChange at h
  simp only [Host.Outcome.next.injEq] at h
  subst h
  simp (maxDischargeDepth := 40) only [implies_true, Keeps.refl, Keeps.ite, Keeps.upd, Keeps.send]

theorem execSbConfigWrite_keeps {past : State} (t : Nat) (w : BitVec 32) (s : State)
    (h : execSbConfigWrite t w s = .next past) : Keeps (s.tick t) past := by
  unfold execSbConfigWrite at h
  simp only [Host.Outcome.next.injEq] at h
  subst h
  simp (maxDischargeDepth := 40) only [implies_true, Keeps.refl, Keeps.ite, Keeps.upd, Keeps.send,
      State.ignoreWrite_keeps]

end Sys2Proof.Machine
end

