-- ==== Sys2Proof/Laws/KeepsRegs.lean ====
section
/-! SUPPORT. Laws/KeepsRegs.lean: what `Keeps` says of the operations and commands of
registers and mirroring. -/

set_option linter.unusedSimpArgs false

set_option linter.unusedTactic false
set_option linter.unreachableTactic false

namespace Sys2Proof.Machine

theorem State.clearCounter_keeps (s : State) (off : Nat) {past : State} (h0 : Keeps past s) :
    Keeps past (State.clearCounter s off) := by
  unfold State.clearCounter
  simp (maxDischargeDepth := 40) only [implies_true, Keeps.refl, Keeps.ite, Keeps.upd, Keeps.send, h0,
      State.setChan_keeps, State.setCtx_keeps, State.setPort_keeps, State.setTile_keeps]

theorem execCounterClear_keeps {past : State} (t : Nat) (off : Nat) (v : BitVec 32) (s : State)
    (h : execCounterClear t off v s = .next past) : Keeps (s.tick t) past := by
  unfold execCounterClear at h
  simp only [Host.Outcome.next.injEq] at h
  subst h
  simp (maxDischargeDepth := 40) only [implies_true, Keeps.refl, Keeps.ite, Keeps.upd, Keeps.send,
      State.clearCounter_keeps]

theorem execBkupWrite_keeps {past : State} (t : Nat) (n : Fin 32) (v : BitVec 32) (s : State)
    (h : execBkupWrite t n v s = .next past) : Keeps (s.tick t) past := by
  unfold execBkupWrite at h
  simp only [Host.Outcome.next.injEq] at h
  subst h
  simp (maxDischargeDepth := 40) only [implies_true, Keeps.refl, Keeps.ite, Keeps.upd, Keeps.send]

theorem execRegionWrite_keeps {past : State} (t : Nat) (n : Fin 16) (v : BitVec 64) (s : State)
    (h : execRegionWrite t n v s = .next past) : Keeps (s.tick t) past := by
  unfold execRegionWrite at h
  simp only [Host.Outcome.next.injEq] at h
  subst h
  simp (maxDischargeDepth := 40) only [implies_true, Keeps.refl, Keeps.ite, Keeps.upd, Keeps.send,
      State.ignoreWrite_keeps]

theorem State.ranged_keeps (s : State) (ok : Bool) (x : State) {past : State} (h0 : Keeps past s) (h : Keeps past x) :
    Keeps past (s.ranged ok x) := .ite h (State.ignoreWrite_keeps _ h0)

theorem State.writeMode_keeps (s : State) (o : Nat) (w : BitVec 32) {past : State} (h0 : Keeps past s) :
    Keeps past (State.writeMode s o w) := by
  unfold State.writeMode
  repeat' first
    | (simp (maxDischargeDepth := 40) only [implies_true, Keeps.refl, Keeps.ite, Keeps.upd, Keeps.send, h0,
        State.mirrorWrite_keeps, State.ranged_keeps]; done)
    | split
    | dsimp only

theorem State.writeClk_keeps (s : State) (o : Nat) (w c : BitVec 32) {past : State} (h0 : Keeps past s) :
    Keeps past (State.writeClk s o w c) := by
  unfold State.writeClk
  repeat' first
    | (simp (maxDischargeDepth := 40) only [implies_true, Keeps.refl, Keeps.ite, Keeps.upd, Keeps.send, h0,
        State.mirrorWrite_keeps, State.ranged_keeps]; done)
    | split
    | dsimp only

theorem State.writeRing_keeps (s : State) (o : Nat) (w : BitVec 32) {past : State} (h0 : Keeps past s) :
    Keeps past (State.writeRing s o w) := by
  unfold State.writeRing
  repeat' first
    | (simp (maxDischargeDepth := 40) only [implies_true, Keeps.refl, Keeps.ite, Keeps.upd, Keeps.send, h0,
        State.mirrorWrite_keeps, State.ringApply_keeps]; done)
    | split
    | dsimp only

theorem State.writeMgmt_keeps (s : State) (o : Nat) (w : BitVec 32) {past : State} (h0 : Keeps past s) :
    Keeps past (State.writeMgmt s o w) := by
  unfold State.writeMgmt
  repeat' first
    | (simp (maxDischargeDepth := 40) only [implies_true, Keeps.refl, Keeps.ite, Keeps.upd, Keeps.send, h0,
        State.ranged_keeps]; done)
    | split
    | dsimp only

theorem State.writeStr_keeps (s : State) (n o : Nat) (w : BitVec 32) {past : State} (h0 : Keeps past s) :
    Keeps past (State.writeStr s n o w) := by
  unfold State.writeStr
  simp (maxDischargeDepth := 40) only [implies_true, Keeps.refl, Keeps.ite, Keeps.upd, Keeps.send, h0, State.ranged_keeps,
      State.setPort_keeps]

theorem State.writeTile_keeps (s : State) (n o : Nat) (w : BitVec 32) {past : State} (h0 : Keeps past s) :
    Keeps past (State.writeTile s n o w) := by
  unfold State.writeTile
  simp (maxDischargeDepth := 40) only [implies_true, Keeps.refl, Keeps.ite, Keeps.upd, Keeps.send, h0, State.ranged_keeps,
      State.setTile_keeps]

theorem State.writeCan_keeps (s : State) (n o : Nat) (w : BitVec 32) {past : State} (h0 : Keeps past s) :
    Keeps past (State.writeCan s n o w) := by
  unfold State.writeCan
  repeat' first
    | (simp (maxDischargeDepth := 40) only [implies_true, Keeps.refl, Keeps.ite, Keeps.upd, Keeps.send, h0,
        State.canCtrl_keeps, State.event_keeps, State.mirrorWrite_keeps, State.setChan_keeps]; done)
    | split
    | dsimp only

theorem inRange_keeps {past : State} {ok : Bool} {x t : State} (h : inRange ok x = some t) (h0 : Keeps past x) : Keeps
    past t := by
  unfold inRange at h
  split at h
  · cases h; exact h0
  · cases h

theorem State.clReg_keeps (s : State) (n o : Nat) (w : BitVec 32) {past t : State} (h0 : Keeps past s)
    (h : s.clReg n o w = some t) : Keeps past t := by
  unfold State.clReg at h
  dsimp only at h
  split at h
  · exact inRange_keeps h (State.setCl_keeps _ _ _ (State.holdOuts_keeps _ h0))
  · cases h; exact h0.upd
  · cases h; exact h0.upd
  · exact inRange_keeps h h0.upd

theorem State.fioReg_keeps (s : State) (o : Nat) (w : BitVec 32) {past t : State} (h0 : Keeps past s)
    (h : s.fioReg o w = some t) : Keeps past t := by
  unfold State.fioReg at h
  have k := State.holdOuts_keeps s h0
  split at h
  · exact inRange_keeps h h0.upd
  split at h
  · exact inRange_keeps h (State.setDo_keeps _ _ _ k)
  split at h
  · exact State.clReg_keeps _ _ _ _ h0 h
  split at h
  · dsimp only at h
    split at h
    · exact inRange_keeps h (State.setFao_keeps _ _ _ k)
    · cases h; exact State.setFao_keeps _ _ _ k
  split at h
  · dsimp only at h
    split at h
    · exact inRange_keeps h h0.upd
    · exact inRange_keeps h h0.upd
  split at h
  · cases h; exact h0.upd
  · cases h; exact h0.upd

theorem State.writeFio_keeps (s : State) (o : Nat) (w : BitVec 32) {past : State} (h0 : Keeps past s) : Keeps past
    (s.writeFio o w) := by
  unfold State.writeFio
  split
  · exact h0
  · split
    · rename_i h; exact State.mirrorWrite_keeps _ _ _ (State.fioReg_keeps _ _ _ h0 h)
    · exact State.ignoreWrite_keeps _ h0

theorem State.writeWord_keeps (s : State) (off : Nat) (w c : BitVec 32) {past : State} (h0 : Keeps past s) :
    Keeps past (State.writeWord s off w c) := by
  unfold State.writeWord
  simp (maxDischargeDepth := 40) only [implies_true, Keeps.refl, Keeps.ite, Keeps.upd, Keeps.send, h0, State.setCtx_keeps,
      State.writeCan_keeps, State.writeClk_keeps, State.writeFio_keeps, State.writeMgmt_keeps, State.writeMode_keeps,
      State.writeRing_keeps, State.writeStr_keeps, State.writeTile_keeps]

theorem State.writeLimits_keeps (s : State) (ws : List (Nat × BitVec 32 × BitVec 32)) {past : State} (h0 : Keeps past s) :
    Keeps past (State.writeLimits s ws) := by
  unfold State.writeLimits
  repeat' first
    | (simp (maxDischargeDepth := 40) only [implies_true, Keeps.refl, Keeps.ite, Keeps.upd, Keeps.send, h0,
        State.ignoreWrite_keeps]; done)
    | split
    | dsimp only

theorem State.writeBar_keeps (s : State) (off size : Nat) (v : BitVec 64) {past : State} (h0 : Keeps past s) :
    Keeps past (State.writeBar s off size v) := by
  unfold State.writeBar
  simp (maxDischargeDepth := 40) only [implies_true, Keeps.refl, Keeps.ite, Keeps.upd, Keeps.send, h0, Keeps.foldl,
      State.clearCounter_keeps, State.ignoreWrite_keeps, State.writeLimits_keeps, State.writeWord_keeps]

theorem execRegisterWrite_keeps {past : State} (t : Nat) (off size : Nat) (v : BitVec 64) (s : State)
    (h : execRegisterWrite t off size v s = .next past) : Keeps (s.tick t) past := by
  unfold execRegisterWrite at h
  simp only [Host.Outcome.next.injEq] at h
  subst h
  simp (maxDischargeDepth := 40) only [implies_true, Keeps.refl, Keeps.ite, Keeps.upd, Keeps.send, State.writeBar_keeps]

theorem State.mirrorSample_keeps (s : State) (h mt : Nat) (y s2 sp : F) (lost spLost sat : Bool) {past : State} (h0 :
    Keeps past s) :
    Keeps past (State.mirrorSample s h mt y s2 sp lost spLost sat) := by
  unfold State.mirrorSample
  repeat' first
    | (simp (maxDischargeDepth := 40) only [implies_true, Keeps.refl, Keeps.ite, Keeps.upd, Keeps.send, h0,
        State.takeSample_keeps]; done)
    | split
    | dsimp only

theorem State.mirrorFrame_keeps (s : State) (f : RingFrame) {past : State} (h0 : Keeps past s) :
    Keeps past (State.mirrorFrame s f) := by
  unfold State.mirrorFrame
  repeat' first
    | (simp (maxDischargeDepth := 40) only [implies_true, Keeps.refl, Keeps.ite, Keeps.upd, Keeps.send, h0,
        State.hearMaster_keeps, State.useBlock_keeps, State.useData_keeps, State.useDrop_keeps, State.useTrip_keeps];
        done)
    | split
    | dsimp only

theorem State.mirrorSent_keeps (s : State) (ch : Nat) {past : State} (h0 : Keeps past s) :
    Keeps past (State.mirrorSent s ch) := by
  unfold State.mirrorSent
  repeat' first
    | (simp (maxDischargeDepth := 40) only [implies_true, Keeps.refl, Keeps.ite, Keeps.upd, Keeps.send, h0,
        State.complete_keeps, State.setChan_keeps]; done)
    | split
    | dsimp only

theorem stateOf_keeps {past : State} {o : Host.Outcome State Fault Refusal} {s : State} (h0 : Keeps past s)
    (h : ∀ t, o = .next t → Keeps past t) : Keeps past (stateOf o s) := by
  unfold stateOf
  split
  · exact h _ rfl
  · exact h0

theorem State.carryOut_keeps (s : State) (op rid : Nat) {past : State} (h0 : Keeps past s) : Keeps past (s.carryOut op
    rid) := by
  unfold State.carryOut
  refine stateOf_keeps h0 (fun t h => h0.trans ?_)
  split at h
  · exact execModeSet_keeps _ _ h
  · exact execRestart_keeps _ _ h
  · exact execEquinox_keeps _ _ h
  · exact execDrillNow_keeps _ _ h
  · exact execDetach_keeps _ _ h
  · exact execProgLoad_keeps _ _ h
  · exact execProgExchange_keeps _ _ h
  · exact execOnlineChange_keeps _ _ h
  · exact execForceSet_keeps _ _ h
  · exact execForceRelease_keeps _ _ h
  · exact execLoopAdmit_keeps _ _ h
  · exact execLoopParam_keeps _ _ h
  · exact execLoopMode_keeps _ _ h
  · exact execCellPlan_keeps _ _ h
  · exact execChemLoad_keeps _ _ h
  · exact execStrEnum_keeps _ _ h
  · exact execBalPlan_keeps _ _ h
  · exact execContactorPlan_keeps _ _ h
  · exact execProbeSweep_keeps _ _ h
  · exact execCanSchedule_keeps _ _ h
  · exact execCanSend_keeps _ _ h
  · exact execTimeSet_keeps _ _ h
  · exact execRtcAlarm_keeps _ _ h
  · exact execKeyLoad_keeps _ _ h
  · cases h; exact .refl s

theorem State.mirrorCommand_keeps (s : State) (op mt : Nat) (target : BitVec 64) (aux : BitVec 32) (buf : List Byte) {past
    : State} (h0 : Keeps past s) :
    Keeps past (State.mirrorCommand s op mt target aux buf) := by
  unfold State.mirrorCommand
  simp (maxDischargeDepth := 40) only [implies_true, Keeps.refl, Keeps.ite, Keeps.upd, Keeps.send, h0,
      State.carryOut_keeps, State.takeRid_keeps]

theorem State.mirrorMode_keeps (s : State) (mode cause task : Nat) {past : State} (h0 : Keeps past s) :
    Keeps past (State.mirrorMode s mode cause task) := by
  unfold State.mirrorMode
  simp (maxDischargeDepth := 40) only [implies_true, Keeps.refl, Keeps.ite, Keeps.upd, Keeps.send, h0, State.cause_keeps,
      State.enterHold_keeps, State.faultHold_keeps, State.startRestart_keeps, State.wake_keeps]

theorem State.install_keeps (s : State) (image : StateImage) {past : State} (h0 : Keeps past s) :
    Keeps past (State.install s image) := by
  unfold State.install
  repeat' first
    | (simp (maxDischargeDepth := 40) only [implies_true, Keeps.refl, Keeps.ite, Keeps.upd, Keeps.send, h0,
        State.judgeAll_keeps]; done)
    | split
    | dsimp only

theorem State.mirrorState_keeps (s : State) (x : StateImage) {past : State} (h0 : Keeps past s) :
    Keeps past (State.mirrorState s x) := by
  unfold State.mirrorState
  simp (maxDischargeDepth := 40) only [implies_true, Keeps.refl, Keeps.ite, Keeps.upd, Keeps.send, h0,
      State.install_keeps, State.joinTasks_keeps, State.toHoldMode_keeps, State.toRole_keeps]

theorem State.mirrorTime_keeps (s : State) (mt : Nat) {past : State} (h0 : Keeps past s) :
    Keeps past (State.mirrorTime s mt) := by
  unfold State.mirrorTime
  simp (maxDischargeDepth := 40) only [implies_true, Keeps.refl, Keeps.ite, Keeps.upd, Keeps.send, h0,
      State.stepSweeps_keeps, State.timeValid_keeps]

theorem State.mirrorInstant_keeps (s : State) (op mt : Nat) {past : State} (h0 : Keeps past s) :
    Keeps past (s.mirrorInstant op mt) := by
  unfold State.mirrorInstant
  split
  · exact h0.upd
  · exact h0.upd
  · exact .ite (State.joinPlanned_keeps _ _ h0) h0
  · exact State.exchangeAt_keeps _ _ h0
  · exact h0.upd
  · exact h0

theorem State.mirrorUse_keeps (s : State) (m : Mirror) {past : State} (h0 : Keeps past s) :
    Keeps past (State.mirrorUse s m) := by
  unfold State.mirrorUse
  repeat' first
    | (simp (maxDischargeDepth := 40) only [implies_true, Keeps.refl, Keeps.ite, Keeps.upd, Keeps.send, h0,
        State.canDeliver_keeps, State.cause_keeps, State.chainIn_keeps, State.contTold_keeps, State.emit_keeps,
        State.followPort_keeps, State.helmHere_keeps, State.latchCurrent_keeps, State.mirrorCommand_keeps,
        State.mirrorFrame_keeps, State.mirrorInstant_keeps, State.mirrorMode_keeps, State.mirrorSample_keeps,
        State.mirrorSent_keeps, State.mirrorState_keeps, State.mirrorTime_keeps, State.sendTold_keeps,
        State.setKeySlot_keeps, State.setTask_keeps, State.toldConts_keeps, State.useChainBlock_keeps,
        State.writeWord_keeps]; done)
    | split
    | dsimp only

theorem execMirrorReceive_keeps {past : State} (t : Nat) (m : Mirror) (latency : Nat) (s : State)
    (h : execMirrorReceive t m latency s = .next past) : Keeps (s.tick t) past := by
  unfold execMirrorReceive at h
  simp only [Host.Outcome.next.injEq] at h
  subst h
  simp (maxDischargeDepth := 40) only [implies_true, Keeps.refl, Keeps.ite, Keeps.upd, Keeps.send, State.emit_keeps,
      State.goodFrame_keeps, State.mirrorUse_keeps]

end Sys2Proof.Machine
end

