-- ==== Sys2Proof/Laws/Memory.lean ====
section
/-! SUPPORT. Laws/Memory.lean: every memory operation keeps the canonical form; a read after a write gives what was
written, and a write leaves every other address alone. -/

namespace Sys2Proof.Machine

/-- Every address of a memory lies above a bound. -/
def Memory.above (a : Nat) (m : Mem) : Prop := ∀ c ∈ m, a < c.1

theorem Memory.wf_cons (c : Nat × Byte) (m : Mem) :
    Memory.wf (c :: m) = true ↔ c.2 ≠ 0 ∧ Memory.above c.1 m ∧ Memory.wf m = true := by
  induction m generalizing c with
  | nil => simp [Memory.wf, Memory.above]
  | cons d r ih =>
    simp only [Memory.wf, Bool.and_eq_true, bne_iff_ne, decide_eq_true_eq, Memory.above, List.mem_cons, forall_eq_or_imp]
    constructor
    · rintro ⟨⟨h1, h2⟩, h3⟩
      refine ⟨h1, ⟨h2, fun x hx => ?_⟩, h3⟩
      exact Nat.lt_trans h2 (((ih d).1 h3).2.1 x hx)
    · rintro ⟨h1, ⟨h2, _⟩, h3⟩
      exact ⟨⟨h1, h2⟩, h3⟩

theorem Memory.above_mset (b : Nat) (m : Mem) (a : Nat) (v : Byte) (h : Memory.above b m) (hb : b < a) :
    Memory.above b (mset m a v) := by
  induction m with
  | nil => intro c hc; simp only [mset] at hc; split at hc <;> simp_all
  | cons d r ih =>
    have hd : b < d.1 := h d (by simp)
    have hr : Memory.above b r := fun c hc => h c (by simp [hc])
    intro c hc
    simp only [mset] at hc
    split at hc
    · split at hc
      · exact h c hc
      · rcases List.mem_cons.1 hc with rfl | hc
        · exact hb
        · exact h c hc
    · split at hc
      · split at hc
        · exact hr c hc
        · rcases List.mem_cons.1 hc with rfl | hc
          · exact hb
          · exact hr c hc
      · rcases List.mem_cons.1 hc with rfl | hc
        · exact hd
        · exact ih hr c hc

/-- Storing a byte keeps the canonical form. -/
theorem Memory.wf_mset (m : Mem) (a : Nat) (v : Byte) (h : Memory.wf m = true) : Memory.wf (mset m a v) = true := by
  induction m with
  | nil => simp only [mset]; split <;> simp_all [Memory.wf]
  | cons d r ih =>
    obtain ⟨h1, h2, h3⟩ := (Memory.wf_cons d r).1 h
    simp only [mset]
    split
    · rename_i ha
      split
      · exact h
      · rename_i hv
        refine (Memory.wf_cons _ _).2 ⟨hv, fun c hc => ?_, h⟩
        rcases List.mem_cons.1 hc with rfl | hc
        · exact ha
        · exact Nat.lt_trans ha (h2 c hc)
    · split
      · rename_i ha
        split
        · exact h3
        · rename_i hv
          exact (Memory.wf_cons _ _).2 ⟨hv, ha ▸ h2, h3⟩
      · rename_i h4 h5
        exact (Memory.wf_cons _ _).2 ⟨h1, Memory.above_mset _ _ _ _ h2 (by omega), ih h3⟩

/-- Storing bytes keeps the canonical form. -/
theorem Memory.wf_mwrite (m : Mem) (a : Nat) (b : List Byte) (h : Memory.wf m = true) :
    Memory.wf (mwrite m a b) = true := by
  induction b generalizing m a with
  | nil => exact h
  | cons v r ih => exact ih _ _ (Memory.wf_mset m a v h)

theorem mget_above (m : Mem) (a : Nat) (h : Memory.above a m) : mget m a = 0 := by
  induction m with
  | nil => rfl
  | cons d r ih =>
    have hd : a < d.1 := h d (by simp)
    have : ¬ d.1 = a := by omega
    simpa [mget, tget, this] using ih (fun c hc => h c (by simp [hc]))

/-- A read of one byte after a store: the stored byte at its address, every other address as before. -/
theorem mget_mset (m : Mem) (a b : Nat) (v : Byte) (h : Memory.wf m = true) :
    mget (mset m a v) b = if b = a then v else mget m b := by
  induction m with
  | nil =>
    by_cases hv : v = 0
    · simp [mset, hv, mget, tget]
    · rw [mset, if_neg hv]
      by_cases hb : b = a
      · subst hb; simp [mget, tget]
      · have : ¬ a = b := fun q => hb q.symm
        simp [mget, tget, hb, this]
  | cons d r ih =>
    obtain ⟨h1, h2, h3⟩ := (Memory.wf_cons d r).1 h
    simp only [mset]
    split
    · rename_i ha
      have habove : Memory.above a (d :: r) := by
        intro c hc
        rcases List.mem_cons.1 hc with rfl | hc
        · exact ha
        · exact Nat.lt_trans ha (h2 c hc)
      split
      · rename_i hv
        by_cases hb : b = a
        · subst hb; simp [hv, mget_above _ _ habove]
        · simp [hb]
      · by_cases hb : b = a
        · subst hb; simp [mget, tget]
        · have : ¬ a = b := fun q => hb q.symm
          simp [mget, tget, hb, this]
    · split
      · rename_i ha
        subst ha
        split
        · rename_i hv
          by_cases hb : b = d.1
          · subst hb; simp [hv, mget_above _ _ h2]
          · have : ¬ d.1 = b := fun q => hb q.symm
            simp [mget, tget, hb, this]
        · by_cases hb : b = d.1
          · subst hb; simp [mget, tget]
          · have : ¬ d.1 = b := fun q => hb q.symm
            simp [mget, tget, hb, this]
      · rename_i h4 h5
        by_cases hb : d.1 = b
        · subst hb; simp [mget, tget, h5]
        · have hi := ih h3
          simp only [mget] at hi
          simp only [mget, tget, hb, if_false]
          exact hi

/-- A store of bytes leaves every address outside them alone. -/
theorem mget_mwrite_outside (m : Mem) (a b : Nat) (l : List Byte) (h : Memory.wf m = true)
    (hb : b < a ∨ a + l.length ≤ b) : mget (mwrite m a l) b = mget m b := by
  induction l generalizing m a with
  | nil => rfl
  | cons v r ih =>
    simp only [List.length_cons] at hb
    rw [mwrite, ih _ _ (Memory.wf_mset m a v h) (by omega), mget_mset m a b v h, if_neg (by omega)]

/-- Bytes read back as they were stored. -/
theorem mread_mwrite (m : Mem) (a : Nat) (l : List Byte) (h : Memory.wf m = true) :
    mread (mwrite m a l) a l.length = l := by
  induction l generalizing m a with
  | nil => rfl
  | cons v r ih =>
    have hw := Memory.wf_mset m a v h
    simp only [List.length_cons, mread, mwrite]
    rw [mget_mwrite_outside _ _ _ _ hw (by omega), mget_mset m a a v h, if_pos rfl, ih _ _ hw]

end Sys2Proof.Machine
end

