-- ==== Sys2Proof/Tests/Slice0.lean ====
section
/-! SUPPORT. Tests/Slice0.lean: the model's own tests: ill-formed terms, words, single steps, and for every obligation with
hypotheses a witness: one state and operands for each of its clauses that meet that clause's hypotheses together. -/

namespace Sys2Proof.Tests

set_option Elab.async false

open Sys2Proof Sys2Proof.Machine

/-! ### One ill-formed term for each check of WellFormed.lean, with a well-formed neighbour -/

theorem test_wf_doorbell_size : (Instr.submissionDoorbell 0 0 3 0).wf = false := by decide
theorem test_wf_doorbell_window :
    (Instr.completionDoorbell 0 0x8000 4 0).wf = false ∧ (Instr.completionDoorbell 0 0x7FFC 4 0).wf = true := by decide
theorem test_wf_buffer_length :
    (Instr.descriptorFetch 0 0 (some { bufLen := 2 }) (some [0]) true).wf = false ∧
    (Instr.descriptorFetch 0 0 (some { bufLen := 1 }) (some [0]) true).wf = true := by decide
theorem test_wf_buffer_without_descriptor : (Instr.descriptorFetch 0 0 none (some []) true).wf = false := by decide
theorem test_wf_link :
    (Instr.pcieLinkUp 0 5 4).wf = false ∧ (Instr.pcieLinkUp 0 4 3).wf = false ∧ (Instr.pcieLinkUp 0 4 4).wf = true := by decide
theorem test_wf_can_dlc : (Instr.canFrameReceive 0 0 0 { dlc := 16 } 0 0).wf = false := by decide
theorem test_wf_can_data : (Instr.canFrameReceive 0 0 0 { data := List.replicate 65 0 } 0 0).wf = false := by decide
theorem test_wf_can_error_code :
    (Instr.canFrameReceive 0 0 0 {} 7 0).wf = false ∧ (Instr.canFrameReceive 0 0 0 {} 0 256).wf = false ∧
    (Instr.canFrameReceive 0 0 0 {} 6 255).wf = true := by decide
theorem test_wf_can_counter : (Instr.canFrameSent 0 0 0 .acked 264 none).wf = false ∧ (Instr.canFrameSent 0 0 0 (.error 1) 263 none).wf = true := by decide
theorem test_wf_frame :
    (Instr.dataFrameReceive 0 true { version := 16 }).wf = false ∧ (Instr.dataFrameReceive 0 true { kind := 16 }).wf = false ∧
    (Instr.dataFrameReceive 0 true { cls := 4 }).wf = false ∧ (Instr.dataFrameReceive 0 true { hops := 256 }).wf = false ∧
    (Instr.dataFrameReceive 0 true { src := 255, station := 255 }).wf = true := by decide
theorem test_wf_aperture : (Instr.faiAperture 0 []).wf = false := by decide
theorem test_wf_monitor : (Instr.clockMonitorWindow 0 65536 0 0).wf = false := by decide
theorem test_wf_rail : (Instr.railFault 0 16 0).wf = false ∧ (Instr.railFault 0 15 0).wf = true := by decide
theorem test_wf_counter_clear : (Instr.counterClear 0 2 0).wf = false ∧ (Instr.counterClear 0 0x100000 0).wf = false := by decide
theorem test_wf_register_write :
    (Instr.registerWrite 0 0 5 0).wf = false ∧ (Instr.registerWrite 0 0x100000 4 0).wf = false ∧
    (Instr.registerWrite 0 0xFFFF8 8 0).wf = true := by decide

/-! ### Words -/

/-- The opcode table gives no row bits, so no word spells a command. -/
theorem test_decode_none : decodeTableWord 8 0 = none := by decide

/-- Table 6-14's words, read back: a load, an immediate, a store, a timer, an end of cycle. -/
theorem test_fragment_words :
    coreInstr 2 0x081C0002#32 = some (.ldu 2 ⟨0, 1, 3, 0, 0, 2⟩) ∧ coreInstr 2 0x02400003#32 = some (.li 2 ⟨0, 4, 3⟩) ∧
    coreInstr 2 0x0C203000#32 = some (.st 2 ⟨0, 2, 0, 0, 3, 0⟩) ∧ coreInstr 2 0x06486002#32 = some (.ton 2 ⟨0, 4, 3, 0, 2⟩) ∧
    coreInstr 2 0x00000101#32 = some (.endCycle 2 ⟨0, 0, 0, 0⟩) := by decide +kernel

/-- Format 7 is reserved (R198). -/
theorem test_reserved_format : coreInstr 2 0x0E000000#32 = none := by decide +kernel

/-! ### Check values of the CRCs: the string "123456789" (R187, R276, R361 name the polynomials) -/

def digits19 : List Byte := [0x31, 0x32, 0x33, 0x34, 0x35, 0x36, 0x37, 0x38, 0x39]

theorem test_crc32 : crc32 digits19 = 0xCBF43926#32 := by decide +kernel
theorem test_crc16 : crc16 digits19 = 0x29B1#16 := by decide +kernel
theorem test_crc64 : crc64 digits19 = 0x995DC9BBDF1939FA#64 := by decide +kernel

/-! ### States of the witnesses -/

/-- A module alone in RUN: the start of every witness. -/
def b0 : State :=
  { State.reset with modes := { State.reset.modes with mode := .run, puStep := 6, settle := .settled } }

/-- Every tile up. -/
def tilesOn : Tab Tile := (List.range 8).map (fun n => (n, { state := .on }))

/-- A late instant. -/
def T : Nat := 1000000000000000000

/-- A request in hand. -/
def withReq (s : State) (r : Req) : State := { s with host := { s.host with reqs := [r] } }

/-- Task 63, with 64 bytes in each space. -/
def tdef : TaskDef :=
  { task := 63, period := 20, harvest := 8, budget := 1000, inSize := 64, outSize := 64, varSize := 64, retSize := 64, conSize := 64,
    instSize := 64, stkSize := 64 }

/-- A program of one word. -/
def img1 (w : BitVec 32) : Image := { code := [w], tasks := [tdef] }

/-- The task's cycle at word `w`. -/
def coreState (w : BitVec 32) (c : Cyc) : State :=
  { b0 with prog := { b0.prog with loaded := some (img1 w), tasks := [(63, { cyc := some c })] } }

/-- A cycle with a stack pointer in the middle of the stack and a TON record at byte 0 of INST. -/
def cyc1 : Cyc := { regs := [(30, 32#64)], sp := { inst := [⟨0x19, 1⟩] } }

/-- A chain acknowledgement of 12 bytes with its check value. -/
def ack12 : List Byte :=
  let b : List Byte := [0x82, 0, 0, 0, 0, 0, 0, 0]
  b ++ leBytes 4 (crc32 b).toNat

/-- A block frame of 74 bytes with its check value. -/
def blk74 : List Byte :=
  let b : List Byte := List.replicate 72 0
  b ++ leBytes 2 (crc16 b).toNat

/-- A SAFETY_CONFIG request with one function whose PST is 0. -/
def reqSafe : Req := { rid := 7, opcode := 0x0881, phase := .ready, buf := [0, 0, 0, 0, 1, 0] ++ List.replicate 90 0 }


/-- The header of an image of 240 bytes for XKP-02, its PART bits, its six sections and one task: only the task section is not empty. -/
def imgBody (part : Nat) : List Byte :=
  let tab : List Byte := [63, 1, 0, 0xFF, 0xFF, 0, 0, 0] ++ leBytes 4 20 ++ leBytes 4 8 ++ leBytes 4 500 ++ List.replicate 44 0
  let sect (t n : Nat) (d : List Byte) : List Byte := leBytes 4 t ++ leBytes 4 0xA0 ++ leBytes 4 n ++ leBytes 4 (crc32 d).toNat
  leBytes 4 0x50524B58 ++ leBytes 2 1 ++ leBytes 2 6 ++ leBytes 4 240 ++ leBytes 4 part ++ List.replicate 12 0 ++
  [1, 0, 0, 0] ++ List.replicate 8 0 ++ leBytes 2 1 ++ List.replicate 22 0 ++
  sect 1 0 [] ++ sect 2 0 [] ++ sect 3 0 [] ++ sect 4 0 [] ++ sect 5 0 [] ++ sect 6 64 tab ++ tab

/-- The image with its CMAC under a key of zeros. -/
def imgSigned (part : Nat) : List Byte := imgBody part ++ cmac 0 (imgBody part)

/-- A program key of zeros in slot 1. -/
def keyed : State := b0.setKeySlot 1 { present := true, mask := 2 }

theorem imgSigned_auth (p : Nat) (hp : p = 3 ∨ p = 7) : keyed.imageAuth (imgSigned p) = true := by
  have hc : (cmac 0 (imgBody p)).length = 16 := by rcases hp with rfl | rfl <;> decide +kernel
  have hL : (imgSigned p).length - 16 = (imgBody p).length := by rw [imgSigned, List.length_append, hc, Nat.add_sub_cancel]
  have h1 : rd (imgSigned p) 0x1C 1 = 1 := by rcases hp with rfl | rfl <;> decide +kernel
  have hk : keyed.keySlot 1 = { present := true, mask := 2 } := by decide +kernel
  have hs : slice (imgSigned p) (imgBody p).length 16 = cmac 0 (imgBody p) := by
    rw [slice, imgSigned, List.drop_left, ← hc, List.take_length]
  have ht : (imgSigned p).take (imgBody p).length = imgBody p := List.take_left
  simp only [State.imageAuth, h1, hL, hs, ht, hk, beq_self_eq_true]
  decide

theorem image_of_any (s : State) (h : s.imageAuth (imgSigned 7) = true) :
    ∀ o : Option Image, (o.any fun i => s.imagePresent i && (s.admitTasks i).isNone) = true →
      ∃ i, o = some i ∧ s.imageStatus (imgSigned 7) i = stOk ∧ s.imagePresent i = true ∧ s.admitTasks i = none
  | some i, hi => by
    simp only [Option.any_some, Bool.and_eq_true] at hi
    exact ⟨i, rfl, by simp [State.imageStatus, h, hi.1], hi.1, Option.isNone_iff_eq_none.mp hi.2⟩

/-- For ProgramAndVariables and JoinAndExchange: an image that the structure check and its CMAC pass, and that is admitted. -/
theorem witness_parseImage : ∃ i, parseImage (imgSigned 7) = some i ∧ keyed.imageStatus (imgSigned 7) i = stOk ∧
    keyed.imagePresent i = true ∧ keyed.admitTasks i = none :=
  image_of_any keyed (imgSigned_auth 7 (.inr rfl)) (parseImage (imgSigned 7)) (by decide +kernel)

/-- The two requests that carry it: stored, refused for want of its key, of its part; sent by the lead, and admitted. -/
theorem witness_image_requests :
    (∃ (s : State) (r : Req) (i : Image), s.ready 7 0x0201 r ∧ s.prog.storing = none ∧ parseImage r.buf = some i ∧
      s.imageAuth r.buf = true ∧ s.imagePresent i = true) ∧
    (∃ (s : State) (r : Req) (i : Image), s.ready 7 0x0201 r ∧ s.prog.storing = none ∧ parseImage r.buf = some i ∧
      s.imageAuth r.buf = false) ∧
    (∃ (s : State) (r : Req) (i : Image), s.ready 7 0x0201 r ∧ s.prog.storing = none ∧ parseImage r.buf = some i ∧
      s.imageAuth r.buf = true ∧ s.imagePresent i = false) ∧
    (∃ (s : State) (r : Req) (i : Image), s.ready 7 0x0202 r ∧ r.fromLead ∧ parseImage r.buf = some i) ∧
    (∃ (s : State) (r : Req) (i : Image), s.ready 7 0x0202 r ∧ r.fromLead = false ∧ s.swapRuns = false ∧ s.twin.mark ≠ 2 ∧
      parseImage r.buf = some i ∧ s.imageStatus r.buf i = stOk ∧ s.admitTasks i = none ∧ s.loops.stored.recs = []) := by
  obtain ⟨i, hi, hs, hp, ha⟩ := witness_parseImage
  obtain ⟨j, hj, hn⟩ : ∃ j, parseImage (imgSigned 3) = some j ∧ keyed.imagePresent j = false := by
    have h : ((parseImage (imgSigned 3)).any fun j => !(keyed.imagePresent j)) = true := by decide +kernel
    cases hq : parseImage (imgSigned 3) with
    | none => rw [hq] at h; cases h
    | some j => rw [hq] at h; exact ⟨j, rfl, by simpa using h⟩
  let q : Req := { rid := 7, opcode := 0x0201, phase := .ready, buf := imgSigned 7 }
  let q2 : Req := { rid := 7, src := .host 256, opcode := 0x0202, phase := .ready, buf := imgSigned 7 }
  let q3 : Req := { rid := 7, opcode := 0x0202, phase := .ready, buf := imgSigned 7 }
  let q4 : Req := { rid := 7, opcode := 0x0201, phase := .ready, buf := imgSigned 3 }
  exact ⟨⟨withReq keyed q, q, i, ⟨rfl, rfl, rfl, by decide +kernel⟩, rfl, hi, imgSigned_auth 7 (.inr rfl), hp⟩,
    ⟨withReq b0 q, q, i, ⟨rfl, rfl, rfl, by decide +kernel⟩, rfl, hi, by decide +kernel⟩,
    ⟨withReq keyed q4, q4, j, ⟨rfl, rfl, rfl, by decide +kernel⟩, rfl, hj, imgSigned_auth 3 (.inl rfl), hn⟩,
    ⟨withReq keyed q2, q2, i, ⟨rfl, rfl, rfl, by decide +kernel⟩, rfl, hi⟩,
    ⟨withReq keyed q3, q3, i, ⟨rfl, rfl, rfl, by decide +kernel⟩, rfl, by decide +kernel, by decide +kernel, hi, hs, ha, rfl⟩⟩

/-! ### Witnesses: the cycle core -/

theorem runs_core (w : BitVec 32) (c : Cyc) (h : c.pc = 0 ∧ c.done = false ∧ c.held = false ∧ c.trap = none) :
    (coreState w c).runs 63 w tdef c := by
  obtain ⟨h0, h1, h2, h3⟩ := h
  exact ⟨rfl, ⟨img1 w, rfl, by rw [h0]; rfl, rfl⟩, rfl, rfl, h1, h2, h3⟩

theorem runs_cyc1 (w : BitVec 32) : (coreState w cyc1).runs 63 w tdef cyc1 := runs_core w cyc1 (by decide)

/-- For IntegerResults, BitFields, CompareAndPredicateResults, FloatingPointResults and SpecialOperandsOfR210. -/
theorem witness_format_A (func : BitVec 10) :
    ∃ (s : State) (f : FmtA) (c : Cyc), s.runs 63 (encA f func) tdef c ∧ c.pred f.pred.toNat = true ∧ f.rs2 = 0 ∧
      f.rs1.toNat < 16 ∧ f.rd.toNat < 16 :=
  ⟨_, ⟨0, 15, 15, 0⟩, _, runs_cyc1 _, by decide⟩

/-- For Divisions: a divisor of 0 and another one. -/
theorem witness_Divisions (func : BitVec 10) :
    (∃ (s : State) (f : FmtA) (c : Cyc), s.runs 63 (encA f func) tdef c ∧ c.pred f.pred.toNat = true ∧ c.reg f.rs2 = 0) ∧
    (∃ (s : State) (f : FmtA) (c : Cyc), s.runs 63 (encA f func) tdef c ∧ c.pred f.pred.toNat = true ∧ c.reg f.rs2 ≠ 0) :=
  ⟨⟨_, ⟨0, 1, 1, 0⟩, _, runs_cyc1 _, by decide⟩, ⟨_, ⟨0, 1, 1, 30⟩, _, runs_cyc1 _, by decide⟩⟩

theorem witness_IllegalWordsOfR198 : bits (0x0E000000#32).toNat 25 3 = 7 ∧ 4 ≤ (6#3).toNat ∧ (6#3).toNat ≤ 6 := by decide

theorem witness_RegistersAndPredicates : (31#5) ≠ 0 ∧ (15 : Nat) ≠ 0 ∧ (15 : Nat) < 16 := by decide

/-- The operands of SpecialOperandsOfR210: a finite value by zero, a value below zero, a NaN, both ends of the range. -/
theorem witness_SpecialOperandsOfR210 (d : Bool) :
    let t := Fmt.ofD d
    (∃ s₁ m₁ e₁ s₂ e₂, t.decode (t.ofInt 1) = .fin s₁ m₁ e₁ ∧ t.decode 0 = .fin s₂ 0 e₂) ∧ t.lt (t.ofInt (-1)) 0 = true ∧
    t.nan t.nanBits = true ∧ t.le (t.ofInt (2 ^ 63)) (t.ofInt (2 ^ 63)) = true ∧
    t.le (t.ofInt (-(2 ^ 63))) (t.ofInt (-(2 ^ 63))) = true := by
  cases d
  · exact ⟨⟨_, _, _, _, _, rfl, rfl⟩, by decide +kernel⟩
  · exact ⟨⟨_, _, _, _, _, rfl, rfl⟩, by decide +kernel⟩

theorem witness_NansAreCanonical (d : Bool) :
    let t := Fmt.ofD d
    t.nan (t.add t.nanBits 0) = true ∧ t.nan t.nanBits = true ∧ (Fmt.ofD (!d)).nan (t.cvt (Fmt.ofD (!d)) t.nanBits) = true := by
  cases d <;> decide +kernel

theorem witness_ImmediateResults (sub : BitVec 4) :
    ∃ (s : State) (f : FmtI) (c : Cyc), s.runs 63 (encI f sub) tdef c ∧ c.pred f.pred.toNat = true ∧
      (8 ≤ sub.toNat → f.imm.toNat < 64) :=
  ⟨_, ⟨0, 31, 63⟩, _, runs_cyc1 _, rfl, fun _ => by decide⟩

theorem witness_BranchAndControlResults :
    (∀ op : BitVec 5, ∃ (s : State) (f : FmtB) (c : Cyc), s.runs 63 (encB f op) tdef c ∧ c.pred f.pred.toNat = true ∧
      8 ≤ (c.reg 30).toNat ∧ (c.reg 30).toNat % 8 = 0 ∧ (c.reg 30).toNat ≤ tdef.stkSize) ∧
    (∀ func : BitVec 10, ∃ (s : State) (f : FmtA) (c : Cyc), s.runs 63 (encA f func) tdef c ∧ c.pred f.pred.toNat = true ∧
      f.rd = 0 ∧ f.rs1 = 0 ∧ f.rs2 = 0 ∧ (c.reg 30).toNat % 8 = 0 ∧ (c.reg 30).toNat + 8 ≤ tdef.stkSize) ∧
    (∀ func : BitVec 10, ∃ (s : State) (f : FmtA) (c : Cyc), s.runs 63 (encA f func) tdef c ∧ c.pred f.pred.toNat = true ∧
      f.rs1 = 0 ∧ f.rs2 = 7) :=
  ⟨fun _ => ⟨_, ⟨0, 1⟩, _, runs_cyc1 _, by decide⟩, fun _ => ⟨_, ⟨0, 0, 0, 0⟩, _, runs_cyc1 _, by decide⟩,
   fun _ => ⟨_, ⟨0, 1, 0, 7⟩, _, runs_cyc1 _, by decide⟩⟩

/-- The last 8-byte word of each space: loads of every space but 7, the first word recorded, and stores but to IN and CON. -/
theorem witness_LoadAndStoreResults (sp : BitVec 3) (h : sp ≠ 7) (major : BitVec 3) :
    ∃ (s : State) (f : FmtM) (c : Cyc), s.runs 63 (encM f major) tdef c ∧ f.space = sp ∧
      ((c.reg (f.base.setWidth 5)).toNat + f.off.toNat * 2 ^ f.w.toNat) % 2 ^ 64 % 2 ^ f.w.toNat = 0 ∧
      ((c.reg (f.base.setWidth 5)).toNat + f.off.toNat * 2 ^ f.w.toNat) % 2 ^ 64 + 2 ^ f.w.toNat ≤ tdef.size f.space.toNat ∧
      f.space ≠ 7 ∧ c.pred f.pred.toNat = true ∧ c.readSet.length < 4096 := by
  refine ⟨_, ⟨0, 1, 3, 0, sp, 7⟩, _, runs_cyc1 _, ?_⟩
  revert h sp
  decide

theorem witness_TimerAndEdgeResults (k : BitVec 3) (h : 1 ≤ k.toNat ∧ k.toNat ≤ 5) :
    (∃ (s : State) (f : FmtT) (c : Cyc), s.runs 63 (encT f k) tdef c ∧ c.pred f.pred.toNat = true ∧ f.dst.toNat < 16 ∧
      ((c.reg (f.ibase.setWidth 5)).toNat + 32 * f.index.toNat) % 2 ^ 64 % 32 = 0 ∧
      ((c.reg (f.ibase.setWidth 5)).toNat + 32 * f.index.toNat) % 2 ^ 64 + 32 ≤ tdef.instSize ∧
      (TRec.read (mread c.sp.inst (((c.reg (f.ibase.setWidth 5)).toNat + 32 * f.index.toNat) % 2 ^ 64) 32)).kind = k.toNat) ∧
    (∃ (s : State) (f : FmtT) (c : Cyc), s.runs 63 (encT f 6) tdef c ∧ c.pred f.pred.toNat = true ∧ f.ps = 0 ∧
      (TRec.read (mread c.sp.inst (((c.reg (f.ibase.setWidth 5)).toNat + 32 * f.index.toNat) % 2 ^ 64) 32)).kind = 1) := by
  refine ⟨⟨_, ⟨0, 15, 0, 0, 1⟩, { cyc1 with sp := { inst := [⟨0x39, k.setWidth 8⟩] } }, runs_core _ _ ⟨rfl, rfl, rfl, rfl⟩, ?_⟩, ⟨_, ⟨0, 1, 0, 0, 0⟩, _, runs_cyc1 _, by decide⟩⟩
  revert h k
  decide

theorem witness_FalsePredicateOnlySteps :
    ∃ (i : Instr) (w : BitVec 32) (s : State) (c : Cyc), coreWord i = some w ∧ coreTask i = some 63 ∧ s.runs 63 w tdef c ∧
      c.pred (bits w.toNat 28 4) = false :=
  ⟨.add 63 ⟨15, 1, 1, 1⟩, _, _, _, rfl, rfl, runs_cyc1 _, by decide⟩

theorem witness_OtherWordsDoNothing :
    ∃ (i : Instr) (w v : BitVec 32) (s : State) (c : Cyc), coreWord i = some w ∧ coreTask i = some 63 ∧ s.runs 63 v tdef c ∧
      v ≠ w ∧ legalWord v = true :=
  ⟨.add 63 ⟨0, 1, 1, 1⟩, _, encA ⟨0, 1, 1, 1⟩ 1, _, _, rfl, rfl, runs_cyc1 _, by decide⟩

theorem witness_CoreWordsDecodeAndEncodeAgree : legalWord 0x081C0002#32 = true ∧ ∃ i, coreInstr 2 0x081C0002#32 = some i :=
  ⟨by decide, .ldu 2 ⟨0, 1, 3, 0, 0, 2⟩, by decide⟩

theorem witness_TrapsOfTheCore :
    (∃ (s : State) (c : Cyc) (g : Image), s.modes.mode = .run ∧ s.taskDef 63 = some tdef ∧ (s.task 63).cyc = some c ∧
      c.done = false ∧ c.held = false ∧ c.trap = none ∧ s.prog.loaded = some g ∧ fetchWord g c.pc = none) ∧
    (∃ (s : State) (c : Cyc) (w : BitVec 32), s.runs 63 w tdef c ∧ legalWord w = false ∧ c.pred (bits w.toNat 28 4) = true) ∧
    (∀ major : BitVec 3, ∃ (s : State) (c : Cyc) (f : FmtM), c.pred f.pred.toNat = true ∧ f.space ≠ 7 ∧
      mOk ⟨s, {}, tdef, s.task 63, 63⟩ c f = false ∧ s.runs 63 (encM f major) tdef c) ∧
    (∃ (s : State) (c : Cyc) (f : FmtB), c.pred f.pred.toNat = true ∧ s.runs 63 (encB f 1) tdef c ∧ (c.reg 30).toNat < 8) ∧
    (∃ (s : State) (c : Cyc) (f : FmtT), c.pred f.pred.toNat = true ∧ s.runs 63 (encT f 6) tdef c ∧ f.ps = 0 ∧
      tdef.instSize < tAddr c f + 32) :=
  ⟨⟨coreState 0 { pc := 2 }, { pc := 2 }, img1 0, by decide⟩, ⟨_, _, 0x0E000000#32, runs_cyc1 _, by decide⟩,
   fun _ => ⟨_, _, ⟨0, 1, 3, 0, 6, 8⟩, by decide, by decide, rfl, runs_cyc1 _⟩,
   ⟨_, _, ⟨0, 1⟩, by decide, runs_core _ {} (by decide), by decide⟩, ⟨_, _, ⟨0, 1, 0, 0, 2⟩, by decide, runs_cyc1 _, by decide⟩⟩

/-! ### Witnesses: the commands, one clause after another -/

theorem witness_ContextsAndLink :
    (∃ (s : State) (t : Nat), (s.tick t).live ∧ (0xAC000000#32).getLsbD 31 ∧ ((s.tick t).ctx (255 : Fin 256).val).state = .disabled ∧ (((s.tick t).ctx (255 : Fin 256).val).withConfig (0xAC000000#32)).badEntry = none) ∧
    (∃ (s : State) (t : Nat), (s.tick t).live ∧ (0xA3000000#32).getLsbD 31 ∧ ((s.tick t).ctx (255 : Fin 256).val).state = .disabled ∧ (((s.tick t).ctx (255 : Fin 256).val).withConfig (0xA3000000#32)).badEntry = some 2) ∧
    (∃ (s : State) (t : Nat), (s.tick t).live ∧ ((s.tick t).ctx (255 : Fin 256).val).state = .active) ∧
    (∃ (s : State) (t : Nat), (s.tick t).live ∧ (((s.tick t).ctx (255 : Fin 256).val).state = .stopped ∨ ((s.tick t).ctx (255 : Fin 256).val).state = .error)) ∧
    (∃ (s : State) (t : Nat), (tget (s.tick t).host.vecs (63 : Fin 64).val {}).deferred ∧ (tget (s.tick t).host.vecs (63 : Fin 64).val {}).last.getD 0 + (s.tick t).host.irqHoldoff * 1000 ≤ (s.tick t).now) ∧
    (∃ (s : State) (t : Nat), s.host.link = true) ∧
    (∃ (s : State) (t : Nat), s.live = true ∧ s.host.link = false ∧ 1 ≤ 4 ∧ 4 ≤ 4 ∧ 4 ∈ [1, 2, 4]) :=
  ⟨⟨((b0 : State).setCtx 255 { state := .disabled }), T, by decide +kernel⟩,
   ⟨((b0 : State).setCtx 255 { state := .disabled }), T, by decide +kernel⟩,
   ⟨((b0 : State).setCtx 255 { state := .active }), T, by decide +kernel⟩,
   ⟨((b0 : State).setCtx 255 { state := .error }), T, by decide +kernel⟩,
   ⟨{ b0 with host := { b0.host with vecs := [(63, { last := some 1, deferred := true })], irqHoldoff := 1023 } }, T, by decide +kernel⟩,
   ⟨{ b0 with host := { b0.host with link := true } }, T, by decide +kernel⟩,
   ⟨{ b0 with host := { b0.host with link := false } }, T, by decide +kernel⟩⟩

theorem witness_Doorbells :
    (∃ (s : State) (t : Nat), (s.tick t).live ∧ ((s.tick t).ctx (255 : Fin 256).val).state = .active ∧ ((s.tick t).ctx (255 : Fin 256).val).stream = false ∧ (4095#32).toNat < ((s.tick t).ctx (255 : Fin 256).val).depth) ∧
    (∃ (s : State) (t : Nat), (s.tick t).live ∧ ((s.tick t).ctx (255 : Fin 256).val).state = .active ∧ (4095#32).toNat < ((s.tick t).ctx (255 : Fin 256).val).depth) ∧
    (∃ (s : State) (t : Nat), (s.tick t).live ∧ ((s.tick t).ctx (255 : Fin 256).val).state = .active ∧ ((s.tick t).ctx (255 : Fin 256).val).stream = false ∧ ((s.tick t).ctx (255 : Fin 256).val).depth ≤ (4096#32).toNat) ∧
    (∃ (s : State) (t : Nat), (s.tick t).live ∧ ((4 ≠ 4 ∨ 32767 % 64 ≠ 0 ∨ 32768 ≤ 32767))) ∧
    (∃ (s : State) (t : Nat), (s.tick t).live ∧ ((4 ≠ 4 ∨ 32768 % 64 ≠ 0 ∨ 32768 ≤ 32768))) :=
  ⟨⟨((b0 : State).setCtx 255 { enable := true, state := .active, depthLog := 12, stream := false }), T, by decide +kernel⟩,
   ⟨((b0 : State).setCtx 255 { enable := true, state := .active, depthLog := 12 }), T, by decide +kernel⟩,
   ⟨((b0 : State).setCtx 255 { enable := true, state := .active, depthLog := 12, stream := false }), T, by decide +kernel⟩,
   ⟨b0, T, by decide +kernel⟩,
   ⟨b0, T, by decide +kernel⟩⟩

theorem witness_RequestsEnter :
    (∃ (s : State) (t : Nat), (s.tick t).live ∧ (s.tick t).host.link ∧ (s.tick t).host.engine ∧ ((s.tick t).ctx (255 : Fin 256).val).mayFetch ∧ (s.tick t).engineGrants (255 : Fin 256).val) ∧
    (∃ (s : State) (t : Nat), (s.tick t).live ∧ (s.tick t).host.link ∧ (s.tick t).host.engine ∧ ((s.tick t).ctx (255 : Fin 256).val).mayFetch ∧ (s.tick t).engineGrants (255 : Fin 256).val) ∧
    (∃ (s : State) (t : Nat), (s.tick t).findReq 7 = some ({ rid := 7 } : Req) ∧ ({ rid := 7 } : Req).phase = .waiting ∧ (s.tick t).heldBack ({ rid := 7 } : Req) = false) ∧
    (∃ (s : State) (t : Nat), (s.tick t).sentryUp ∧ (s.tick t).ownAddr (b0.linkLocal) ∧ sbAccepts ([0x58, 0x4C, 1, 0] ++ List.replicate 60 0) ∧ (s.tick t).replayOf ({ port := 9 } : Peer) ([0x58, 0x4C, 1, 0] ++ List.replicate 60 0) = none ∧ (s.tick t).mgmt.sbInHand = none ∧ (s.tick t).mgmt.sbQueue = []) ∧
    (∃ (s : State) (t : Nat), (s.tick t).sentryUp ∧ (s.tick t).ownAddr (b0.linkLocal) ∧ sbAccepts ([0x58, 0x4C, 1, 0] ++ List.replicate 60 0) ∧ (s.tick t).replayOf ({ port := 9 } : Peer) ([0x58, 0x4C, 1, 0] ++ List.replicate 60 0) = some [1]) ∧
    (∃ (s : State) (t : Nat), (s.tick t).sentryUp ∧ (s.tick t).ownAddr (b0.linkLocal) ∧ sbAccepts (List.replicate 63 0) = false) ∧
    (∃ (s : State) (t : Nat), (s.tick t).sentryUp ∧ (s.tick t).ownAddr (b0.linkLocal) ∧ sbAccepts ([0x58, 0x4C, 1, 0] ++ List.replicate 60 0) ∧ (s.tick t).replayOf ({ port := 9 } : Peer) ([0x58, 0x4C, 1, 0] ++ List.replicate 60 0) = none ∧ (s.tick t).mgmt.sbInHand.isSome ∧ 4 ≤ (s.tick t).mgmt.sbQueue.length) ∧
    (∃ (s : State) (t : Nat), (s.tick t).sentryUp ∧ (s.tick t).ownAddr (b0.linkLocal) ∧ sbAccepts ([0x58, 0x4C, 1, 0] ++ List.replicate 60 0) ∧ (s.tick t).replayOf ({ port := 9 } : Peer) ([0x58, 0x4C, 1, 0] ++ List.replicate 60 0) = none ∧ (s.tick t).mgmt.sbInHand.isSome ∧ (s.tick t).mgmt.sbQueue.length < 4) ∧
    (∃ (s : State) (t : Nat), (s.tick t).sentryUp ∧ (s.tick t).ownAddr (b0.linkLocal)) ∧
    (∃ (s : State) (t : Nat), True) ∧
    (∃ (s : State) (t : Nat), (s.tick t).sentryUp ∧ (s.tick t).mgmt.sbInHand = none ∧ (s.tick t).mgmt.sbQueue = (({ port := 9 } : Peer), ([0x58, 0x4C, 1, 0] ++ List.replicate 60 0)) :: []) ∧
    (∃ (s : State) (t : Nat), (s.tick t).live) ∧
    (∃ (s : State) , s.live = true ∧ s.modes.mode ≠ .run) ∧
    (∃ (s : State) (t : Nat), (s.tick t).live ∧ (s.tick t).modes.mode = .run) :=
  ⟨⟨(({ b0 with host := { b0.host with link := true, engine := true } } : State).setCtx 255 { enable := true, state := .active, depthLog := 12, sqTail := 1 }), T, by decide +kernel⟩,
   ⟨(({ b0 with host := { b0.host with link := true, engine := true } } : State).setCtx 255 { enable := true, state := .active, depthLog := 12, sqTail := 1 }), T, by decide +kernel⟩,
   ⟨{ b0 with host := { b0.host with reqs := [{ rid := 7 }] } }, T, by decide +kernel⟩,
   ⟨{ b0 with mgmt := { b0.mgmt with sbInHand := none, sbQueue := [] } }, T, by decide +kernel⟩,
   ⟨{ b0 with mgmt := { b0.mgmt with replay := [(({ port := 9 } : Peer), ([0x58, 0x4C, 1, 0] ++ List.replicate 60 0), [1])] } }, T, by decide +kernel⟩,
   ⟨b0, T, by decide +kernel⟩,
   ⟨{ b0 with mgmt := { b0.mgmt with sbInHand := some 3, sbQueue := List.replicate 4 (({ port := 9 } : Peer), []) } }, T, by decide +kernel⟩,
   ⟨{ b0 with mgmt := { b0.mgmt with sbInHand := some 3, sbQueue := List.replicate 3 (({ port := 9 } : Peer), []) } }, T, by decide +kernel⟩,
   ⟨b0, T, by decide +kernel⟩,
   ⟨b0, T, by decide +kernel⟩,
   ⟨{ b0 with mgmt := { b0.mgmt with sbInHand := none, sbQueue := (({ port := 9 } : Peer), ([0x58, 0x4C, 1, 0] ++ List.replicate 60 0)) :: [] } }, T, by decide +kernel⟩,
   ⟨b0, T, by decide +kernel⟩,
   ⟨{ b0 with modes := { b0.modes with mode := .hold } }, by decide +kernel⟩,
   ⟨{ b0 with modes := { b0.modes with mode := .run } }, T, by decide +kernel⟩⟩

theorem witness_OpcodesNeedReadyRequests :
    (b0.findReq 7 = none) ∧ (∃ (s : State) (r : Req), s.findReq 7 = some r ∧ (r.phase ≠ .ready ∨ r.opcode ≠ 0x0100)) ∧ (∃ (s : State) (r : Req), s.findReq 7 = some r ∧ r.phase = .ready ∧ r.opcode = 0x0107 ∧ (s.reqDies r).any s.fenced = true) :=
  ⟨by decide, ⟨withReq b0 { rid := 7 }, { rid := 7 }, by decide⟩, ⟨withReq (b0.setTile 1 { state := .fenced }) { rid := 7, opcode := 0x0107, phase := .ready, target := 0x700000000000001#64 }, { rid := 7, opcode := 0x0107, phase := .ready, target := 0x700000000000001#64 }, by decide +kernel⟩⟩

theorem witness_Helm :
    (∃ (s : State) (r : Req), s.ready r.rid 0x0800 r ∧ (True)) ∧
    (∃ (s : State) (r : Req), s.ready r.rid 0x0801 r ∧ (s.mgmt.holder = r.party)) ∧
    (∃ (s : State) (r : Req), s.ready r.rid 0x0801 r ∧ (s.mgmt.holder ≠ r.party)) ∧
    (∃ (s : State) (r : Req), s.ready r.rid 0x0802 r ∧ (s.mgmt.holder = .free)) ∧
    (∃ (s : State) (r : Req), s.ready r.rid 0x0802 r ∧ (s.mgmt.holder ≠ .free ∧ s.mgmt.granted ≠ some r.rid)) ∧
    (∃ (s : State) (r : Req), s.ready r.rid 0x0808 r ∧ (s.mgmt.holder = .host ∧ bit (s.keySlot r.keySlot).mask.toNat 11 ∨ s.mgmt.holder = .free ∧ (∀ c ∈ s.tickMates, s.hostClaim c = false) ∧ (bit (s.keySlot r.keySlot).mask.toNat 10 ∨ bit (s.keySlot r.keySlot).mask.toNat 11))) ∧
    (∃ (s : State) (r : Req), s.ready 7 0x0808 r ∧ s.mgmt.holder = .free ∧ (∃ c ∈ s.tickMates, s.hostClaim c = true) ∧ bit (s.hostFirst.keySlot r.keySlot).mask.toNat 11 = false) ∧
    (∃ s : State, s.mgmt.holder = .free ∧ ∃ c ∈ s.tickMates, s.hostClaim c = true) ∧
    (∃ (s : State) (r : Req), s.ready r.rid 0x0808 r ∧ (s.mgmt.holder = .sideband ∨ bit (s.keySlot r.keySlot).mask.toNat 11 = false ∧ s.mgmt.holder = .host)) ∧
    (∃ (s : State) (t : Nat), (s.tick t).mgmt.hostDownAt = some 0 ∧ (s.tick t).mgmt.holder = .host ∧ (s.tick t).hostLinkUp = false ∧ (s.tick t).keepsHelm ∧ 0 + (s.tick t).mgmt.helmTimeout * 100000000 ≤ (s.tick t).now) ∧
    (∃ (s : State) (t : Nat), (s.tick t).mgmt.holder = .sideband ∧ (s.tick t).keepsHelm ∧ (s.tick t).mgmt.lastSbAuth + (s.tick t).mgmt.sbIdle * 1000000000 ≤ (s.tick t).now) :=
  ⟨⟨withReq (b0) { rid := 7, opcode := 0x0800, phase := .ready }, { rid := 7, opcode := 0x0800, phase := .ready }, ⟨by decide +kernel, by decide +kernel, by decide +kernel, by decide +kernel⟩, by decide +kernel⟩,
   ⟨withReq ({ b0 with mgmt := { b0.mgmt with holder := .sideband } }) { rid := 7, opcode := 0x0801, phase := .ready, src := .side {} }, { rid := 7, opcode := 0x0801, phase := .ready, src := .side {} }, ⟨by decide +kernel, by decide +kernel, by decide +kernel, by decide +kernel⟩, by decide +kernel⟩,
   ⟨withReq ({ b0 with mgmt := { b0.mgmt with holder := .sideband } }) { rid := 7, opcode := 0x0801, phase := .ready }, { rid := 7, opcode := 0x0801, phase := .ready }, ⟨by decide +kernel, by decide +kernel, by decide +kernel, by decide +kernel⟩, by decide +kernel⟩,
   ⟨withReq ({ b0 with mgmt := { b0.mgmt with holder := .free } }) { rid := 7, opcode := 0x0802, phase := .ready }, { rid := 7, opcode := 0x0802, phase := .ready }, ⟨by decide +kernel, by decide +kernel, by decide +kernel, by decide +kernel⟩, by decide +kernel⟩,
   ⟨withReq ({ b0 with mgmt := { b0.mgmt with holder := .sideband } }) { rid := 7, opcode := 0x0802, phase := .ready }, { rid := 7, opcode := 0x0802, phase := .ready }, ⟨by decide +kernel, by decide +kernel, by decide +kernel, by decide +kernel⟩, by decide +kernel⟩,
   ⟨withReq ({ b0 with mgmt := { b0.mgmt with holder := .host }, sec := { b0.sec with slots := [(15, { present := true, mask := 0x0800 })] } }) { rid := 7, opcode := 0x0808, phase := .ready, keySlot := 15 }, { rid := 7, opcode := 0x0808, phase := .ready, keySlot := 15 }, ⟨by decide +kernel, by decide +kernel, by decide +kernel, by decide +kernel⟩, by decide +kernel⟩,
   ⟨{ b0 with host := { b0.host with reqs := [{ rid := 7, opcode := 0x0808, phase := .ready }, { rid := 8, opcode := 0x0802, phase := .ready }] }, mgmt := { b0.mgmt with holder := .free }, pending := [.helmTake 8] }, { rid := 7, opcode := 0x0808, phase := .ready }, ⟨rfl, rfl, rfl, by decide +kernel⟩, rfl, ⟨.helmTake 8, by decide +kernel, by decide +kernel⟩, by decide +kernel⟩,
   ⟨{ b0 with host := { b0.host with reqs := [{ rid := 7, opcode := 0x0808, phase := .ready }, { rid := 8, opcode := 0x0802, phase := .ready }] }, mgmt := { b0.mgmt with holder := .free }, pending := [.helmTake 8] }, rfl, ⟨.helmTake 8, by decide +kernel, by decide +kernel⟩⟩,
   ⟨withReq ({ b0 with mgmt := { b0.mgmt with holder := .sideband } }) { rid := 7, opcode := 0x0808, phase := .ready }, { rid := 7, opcode := 0x0808, phase := .ready }, ⟨by decide +kernel, by decide +kernel, by decide +kernel, by decide +kernel⟩, by decide +kernel⟩,
   ⟨{ b0 with mgmt := { b0.mgmt with hostDownAt := some 0, holder := .host } }, T, by decide +kernel⟩,
   ⟨{ b0 with mgmt := { b0.mgmt with holder := .sideband } }, T, by decide +kernel⟩⟩

theorem witness_KeysAndPresence :
    (∃ (s : State) (r : Req), s.ready r.rid 0x0803 r ∧ (bit (rd r.buf 0x1A 2) 0 = false)) ∧
    (∃ (s : State) (r : Req), s.ready r.rid 0x0803 r ∧ (bit (rd r.buf 0x1A 2) 0)) ∧
    (∃ (s : State) (r : Req), s.ready r.rid 0x0809 r ∧ (s.mgmt.presenceEnd = none)) ∧
    (∃ (s : State) (r : Req), s.ready r.rid 0x0809 r ∧ (s.mgmt.presenceEnd.isSome)) ∧
    (∃ (s : State) (r : Req), s.ready r.rid 0x0804 r ∧ (True)) ∧
    (∃ (s : State) (t : Nat), (s.tick t).dsp.held [.mode, .select] .recovery = some (T - 3000000000) ∧ (s.tick t).modes.mode = .recovery ∧ (s.tick t).mgmt.presenceEnd = none ∧ (T - 3000000000) + 3000000000 ≤ (s.tick t).now) ∧
    (∃ (s : State) (t : Nat), (s.tick t).mgmt.presenceEnd = some T ∧ T ≤ (s.tick t).now) :=
  ⟨⟨withReq (b0) { rid := 7, opcode := 0x0803, phase := .ready }, { rid := 7, opcode := 0x0803, phase := .ready }, ⟨by decide +kernel, by decide +kernel, by decide +kernel, by decide +kernel⟩, by decide +kernel⟩,
   ⟨withReq (b0) { rid := 7, opcode := 0x0803, phase := .ready, buf := List.replicate 26 0 ++ [1, 0] }, { rid := 7, opcode := 0x0803, phase := .ready, buf := List.replicate 26 0 ++ [1, 0] }, ⟨by decide +kernel, by decide +kernel, by decide +kernel, by decide +kernel⟩, by decide +kernel⟩,
   ⟨withReq ({ b0 with mgmt := { b0.mgmt with presenceEnd := none } }) { rid := 7, opcode := 0x0809, phase := .ready }, { rid := 7, opcode := 0x0809, phase := .ready }, ⟨by decide +kernel, by decide +kernel, by decide +kernel, by decide +kernel⟩, by decide +kernel⟩,
   ⟨withReq ({ b0 with mgmt := { b0.mgmt with presenceEnd := some 5 } }) { rid := 7, opcode := 0x0809, phase := .ready }, { rid := 7, opcode := 0x0809, phase := .ready }, ⟨by decide +kernel, by decide +kernel, by decide +kernel, by decide +kernel⟩, by decide +kernel⟩,
   ⟨withReq (b0) { rid := 7, opcode := 0x0804, phase := .ready }, { rid := 7, opcode := 0x0804, phase := .ready }, ⟨by decide +kernel, by decide +kernel, by decide +kernel, by decide +kernel⟩, by decide +kernel⟩,
   ⟨{ b0 with dsp := { b0.dsp with hold := some ([.mode, .select], T - 3000000000, .recovery) }, modes := { b0.modes with mode := .recovery }, mgmt := { b0.mgmt with presenceEnd := none } }, T, by decide +kernel⟩,
   ⟨{ b0 with mgmt := { b0.mgmt with presenceEnd := some T } }, T, by decide +kernel⟩⟩

theorem witness_PasswordSessions :
    (∃ (s : State) (r : Req), s.ready r.rid 0x0805 r ∧ (s.sec.verifier.isSome ∧ s.sec.lockEnd = none ∧ s.sec.pwdCheck = none)) ∧
    (∃ (s : State) (r : Req), s.ready r.rid 0x0805 r ∧ (s.sec.verifier = none)) ∧
    (∃ (s : State) (r : Req), s.ready r.rid 0x0805 r ∧ (s.sec.verifier.isSome ∧ s.sec.lockEnd.isSome)) ∧
    (∃ (s : State) (t : Nat), (s.tick t).sec.pwdCheck = some 7 ∧ (s.tick t).findReq 7 = some ({ rid := 7 } : Req) ∧ (s.tick t).sec.verifier = some ({ iterations := 1, derived := pbkdf2 [] [] 1 } : Verifier) ∧ ({ iterations := 1, derived := pbkdf2 [] [] 1 } : Verifier).accepts ({ rid := 7 } : Req).buf) ∧
    (∃ (s : State) (t : Nat), (s.tick t).sec.pwdCheck = some 7 ∧ (s.tick t).findReq 7 = some ({ rid := 7 } : Req) ∧ (s.tick t).sec.verifier = some ({ iterations := 1 } : Verifier) ∧ ({ iterations := 1 } : Verifier).accepts ({ rid := 7 } : Req).buf = false) ∧
    (∃ s : State, 5 ≤ s.sec.fails + 1) ∧
    (∃ (s : State) (r : Req), s.ready r.rid 0x0806 r ∧ (True)) ∧
    (∃ (s : State) (r : Req), s.ready r.rid 0x0807 r ∧ (True)) ∧
    (∃ (s : State) (t : Nat), (s.tick t).sec.session = some ({ last := T - 1800000000000 } : Session) ∧ ({ last := T - 1800000000000 } : Session).last + 1800000000000 ≤ (s.tick t).now) ∧
    (∃ (s : State) (t : Nat), (s.tick t).sec.lockEnd = some T ∧ T ≤ (s.tick t).now ∧ (s.tick t).modes.powered) :=
  ⟨⟨withReq ({ b0 with sec := { b0.sec with verifier := some {}, lockEnd := none, pwdCheck := none } }) { rid := 7, opcode := 0x0805, phase := .ready }, { rid := 7, opcode := 0x0805, phase := .ready }, ⟨by decide +kernel, by decide +kernel, by decide +kernel, by decide +kernel⟩, by decide +kernel⟩,
   ⟨withReq ({ b0 with sec := { b0.sec with verifier := none } }) { rid := 7, opcode := 0x0805, phase := .ready }, { rid := 7, opcode := 0x0805, phase := .ready }, ⟨by decide +kernel, by decide +kernel, by decide +kernel, by decide +kernel⟩, by decide +kernel⟩,
   ⟨withReq ({ b0 with sec := { b0.sec with verifier := some {}, lockEnd := some 1 } }) { rid := 7, opcode := 0x0805, phase := .ready }, { rid := 7, opcode := 0x0805, phase := .ready }, ⟨by decide +kernel, by decide +kernel, by decide +kernel, by decide +kernel⟩, by decide +kernel⟩,
   ⟨{ b0 with host := { b0.host with reqs := [{ rid := 7 }] }, sec := { b0.sec with pwdCheck := some 7, verifier := some ({ iterations := 1, derived := pbkdf2 [] [] 1 } : Verifier) } }, T, by decide +kernel⟩,
   ⟨{ b0 with host := { b0.host with reqs := [{ rid := 7 }] }, sec := { b0.sec with pwdCheck := some 7, verifier := some ({ iterations := 1 } : Verifier) } }, T, by decide +kernel⟩,
   ⟨{ b0 with sec := { b0.sec with fails := 4 } }, by decide⟩,
   ⟨withReq (b0) { rid := 7, opcode := 0x0806, phase := .ready }, { rid := 7, opcode := 0x0806, phase := .ready }, ⟨by decide +kernel, by decide +kernel, by decide +kernel, by decide +kernel⟩, by decide +kernel⟩,
   ⟨withReq (b0) { rid := 7, opcode := 0x0807, phase := .ready }, { rid := 7, opcode := 0x0807, phase := .ready }, ⟨by decide +kernel, by decide +kernel, by decide +kernel, by decide +kernel⟩, by decide +kernel⟩,
   ⟨{ b0 with sec := { b0.sec with session := some ({ last := T - 1800000000000 } : Session) } }, T, by decide +kernel⟩,
   ⟨{ b0 with sec := { b0.sec with lockEnd := some T }, modes := { b0.modes with powered := true } }, T, by decide +kernel⟩⟩

theorem witness_FirmwareAndStores :
    (∃ (s : State) (r : Req), s.ready r.rid 0x0900 r ∧ (True)) ∧
    (∃ (s : State) (r : Req), s.ready r.rid 0x0901 r ∧ (s.sec.fwStore = none ∧ r.actor = 0)) ∧
    (∃ (s : State) (r : Req), s.ready r.rid 0x0901 r ∧ (s.sec.fwStore.isSome)) ∧
    (∃ (s : State) (r : Req), s.ready r.rid 0x0902 r ∧ (True)) ∧
    (∃ (s : State) (t : Nat), (s.tick t).prog.storing = some (7, ({} : Image))) ∧
    (∃ (s : State) (t : Nat), (s.tick t).prog.storing = none ∧ (s.tick t).sec.fwStore = some (7, true, [])) ∧
    (∃ (s : State) , s.twin.exActive = false) :=
  ⟨⟨withReq (b0) { rid := 7, opcode := 0x0900, phase := .ready }, { rid := 7, opcode := 0x0900, phase := .ready }, ⟨by decide +kernel, by decide +kernel, by decide +kernel, by decide +kernel⟩, by decide +kernel⟩,
   ⟨withReq ({ b0 with sec := { b0.sec with fwStore := none } }) { rid := 7, opcode := 0x0901, phase := .ready }, { rid := 7, opcode := 0x0901, phase := .ready }, ⟨by decide +kernel, by decide +kernel, by decide +kernel, by decide +kernel⟩, by decide +kernel⟩,
   ⟨withReq ({ b0 with sec := { b0.sec with fwStore := some (1, true, []) } }) { rid := 7, opcode := 0x0901, phase := .ready }, { rid := 7, opcode := 0x0901, phase := .ready }, ⟨by decide +kernel, by decide +kernel, by decide +kernel, by decide +kernel⟩, by decide +kernel⟩,
   ⟨withReq (b0) { rid := 7, opcode := 0x0902, phase := .ready }, { rid := 7, opcode := 0x0902, phase := .ready }, ⟨by decide +kernel, by decide +kernel, by decide +kernel, by decide +kernel⟩, by decide +kernel⟩,
   ⟨{ b0 with prog := { b0.prog with storing := some (7, ({} : Image)) } }, T, by decide +kernel⟩,
   ⟨{ b0 with sec := { b0.sec with fwStore := some (7, true, []) }, prog := { b0.prog with storing := none } }, T, by decide +kernel⟩,
   ⟨{ b0 with twin := { b0.twin with exActive := false } }, by decide +kernel⟩⟩

theorem witness_ModeCommands :
    (∃ (s : State) (r : Req), s.ready r.rid 0x0100 r ∧ (True)) ∧
    (∃ (s : State) (r : Req), s.ready r.rid 0x0101 r ∧ (s.modes.mode = .run ∧ r.aux = 4 ∧ s.modes.trans = none ∧ s.modes.detached = false ∧ s.commands r ∧ s.faultInTick = false)) ∧
    (∃ (s : State) (r : Req), s.ready r.rid 0x0101 r ∧ ((s.modes.mode = .hold ∨ s.modes.mode = .dormant) ∧ r.aux = 3 ∧ s.modes.trans = none ∧ s.modes.detached = false ∧ s.commands r ∧ s.faultInTick = false)) ∧
    (∃ (s : State) (r : Req), s.ready r.rid 0x0101 r ∧ (s.modes.mode = .hold ∧ r.aux = 1 ∧ s.modes.trans = none ∧ s.modes.detached = false ∧ s.commands r ∧ s.faultInTick = false)) ∧
    (∃ (s : State) (r : Req), s.ready r.rid 0x0101 r ∧ (s.modes.mode = .hold ∧ r.aux = 5 ∧ s.modes.trans = none ∧ s.modes.role = .simplex ∧ s.faultInTick = false)) ∧
    (∃ (s : State) (r : Req), s.ready r.rid 0x0101 r ∧ (s.modes.detached ∧ (r.aux = 1 ∨ r.aux = 3 ∨ r.aux = 4))) ∧
    (∃ (s : State) (r : Req), s.ready r.rid 0x0101 r ∧ (s.modes.detached = false ∧ s.commands r ∧ (s.modes.trans.isSome ∨ s.faultInTick) ∧ r.aux = 4)) ∧
    (∃ (s : State) (r : Req), s.ready r.rid 0x0102 r ∧ (s.modes.detached = false ∧ s.modes.trans = none ∧ s.commands r ∧ s.faultInTick = false)) ∧
    (∃ (s : State) , s.modes.role = .simplex ∨ s.modes.role = .lead) :=
  ⟨⟨withReq (b0) { rid := 7, opcode := 0x0100, phase := .ready }, { rid := 7, opcode := 0x0100, phase := .ready }, ⟨by decide +kernel, by decide +kernel, by decide +kernel, by decide +kernel⟩, by decide +kernel⟩,
   ⟨withReq ({ b0 with modes := { b0.modes with mode := .run, trans := none, detached := false } }) { rid := 7, opcode := 0x0101, phase := .ready, aux := 4 }, { rid := 7, opcode := 0x0101, phase := .ready, aux := 4 }, ⟨by decide +kernel, by decide +kernel, by decide +kernel, by decide +kernel⟩, by decide +kernel⟩,
   ⟨withReq ({ b0 with modes := { b0.modes with mode := .dormant, trans := none, detached := false } }) { rid := 7, opcode := 0x0101, phase := .ready, aux := 3 }, { rid := 7, opcode := 0x0101, phase := .ready, aux := 3 }, ⟨by decide +kernel, by decide +kernel, by decide +kernel, by decide +kernel⟩, by decide +kernel⟩,
   ⟨withReq ({ b0 with modes := { b0.modes with mode := .hold, trans := none, detached := false } }) { rid := 7, opcode := 0x0101, phase := .ready, aux := 1 }, { rid := 7, opcode := 0x0101, phase := .ready, aux := 1 }, ⟨by decide +kernel, by decide +kernel, by decide +kernel, by decide +kernel⟩, by decide +kernel⟩,
   ⟨withReq ({ b0 with modes := { b0.modes with mode := .hold, trans := none, role := .simplex } }) { rid := 7, opcode := 0x0101, phase := .ready, aux := 5 }, { rid := 7, opcode := 0x0101, phase := .ready, aux := 5 }, ⟨by decide +kernel, by decide +kernel, by decide +kernel, by decide +kernel⟩, by decide +kernel⟩,
   ⟨withReq ({ b0 with modes := { b0.modes with detached := true } }) { rid := 7, opcode := 0x0101, phase := .ready, aux := 4 }, { rid := 7, opcode := 0x0101, phase := .ready, aux := 4 }, ⟨by decide +kernel, by decide +kernel, by decide +kernel, by decide +kernel⟩, by decide +kernel⟩,
   ⟨withReq ({ b0 with modes := { b0.modes with trans := some (.toHold 0 0 none none), detached := false } }) { rid := 7, opcode := 0x0101, phase := .ready, aux := 4 }, { rid := 7, opcode := 0x0101, phase := .ready, aux := 4 }, ⟨by decide +kernel, by decide +kernel, by decide +kernel, by decide +kernel⟩, by decide +kernel⟩,
   ⟨withReq ({ b0 with modes := { b0.modes with detached := false, trans := none } }) { rid := 7, opcode := 0x0102, phase := .ready }, { rid := 7, opcode := 0x0102, phase := .ready }, ⟨by decide +kernel, by decide +kernel, by decide +kernel, by decide +kernel⟩, by decide +kernel⟩,
   ⟨b0, by decide +kernel⟩⟩

theorem witness_ModuleResets :
    (∃ (s : State) (t : Nat), (s.tick t).modes.powered) ∧
    (∃ (gap : Nat) (s : State), 1000 ≤ gap ∧ s.modes.powered = true) ∧
    (∃ (s : State) (t : Nat), (s.tick t).modes.inReset) ∧
    (∃ (s : State) (t : Nat), s.pwr.warn = some (T - 4500000) ∧ (T - 4500000) + 4500000 ≤ (s.tick t).now) ∧
    (∃ (s : State) (t : Nat), (s.tick t).sec.activateAt = some (T - 100000000) ∧ (s.tick t).modes.mode = .recovery ∧ (T - 100000000) + 100000000 ≤ (s.tick t).now) ∧
    (∃ (s : State) (t : Nat), (s.tick t).dsp.held [.mode, .down] .recovery = some (T - 5000000000) ∧ (s.tick t).modes.mode = .recovery ∧ (T - 5000000000) + 5000000000 ≤ (s.tick t).now) ∧
    (∃ (s : State) (t : Nat), s.modes.trans = some (.toRecovery (T - 10000000) 5 0) ∧ (T - 10000000) + 10000000 ≤ (s.tick t).now ∧ 0 ≤ s.recd.seq) :=
  ⟨⟨{ b0 with modes := { b0.modes with powered := true } }, T, by decide +kernel⟩,
   ⟨1000, b0, by decide⟩,
   ⟨{ b0 with modes := { b0.modes with inReset := true } }, T, by decide +kernel⟩,
   ⟨{ b0 with pwr := { b0.pwr with warn := some (T - 4500000) } }, T, by decide +kernel⟩,
   ⟨{ b0 with sec := { b0.sec with activateAt := some (T - 100000000) }, modes := { b0.modes with mode := .recovery } }, T, by decide +kernel⟩,
   ⟨{ b0 with dsp := { b0.dsp with hold := some ([.down, .mode], T - 5000000000, .recovery) }, modes := { b0.modes with mode := .recovery } }, T, by decide +kernel⟩,
   ⟨{ b0 with modes := { b0.modes with trans := some (.toRecovery (T - 10000000) 5 0) } }, T, by decide +kernel⟩⟩

theorem witness_PowerUpAndRole :
    (∃ (s : State) (t : Nat), (s.tick t).modes.powered = false ∧ (s.tick t).modes.inReset = false ∧ ((s.tick t).pwr.feedA ∨ (s.tick t).pwr.feedB) ∧ (s.tick t).pwr.warn = none) ∧
    (∃ (s : State) (t : Nat), (s.tick t).modes.mode = .startup ∧ (s.tick t).modes.puStep = 2 ∧ (s.tick t).dsp.supplyHeld ∧ (s.tick t).modes.supplyAt + 2000000000 ≤ (s.tick t).now) ∧
    (∃ (s : State) (t : Nat), s.modes.powered = true ∧ s.modes.mode = .startup ∧ s.modes.puStep = 3) ∧
    (∃ (s : State) (t : Nat), (s.tick t).modes.settle = .readAlive (T - 100000) ∧ (T - 100000) + 100000 ≤ (s.tick t).now) ∧
    (∃ (s : State) (t : Nat), (s.tick t).modes.settle = .readAlive (T - 100000) ∧ (T - 100000) + 100000 ≤ (s.tick t).now) ∧
    (∃ (s : State) (t : Nat), (s.tick t).modes.settle = .waitLink (T - 50000000) ∧ (s.tick t).twinUp = false ∧ (T - 50000000) + 50000000 ≤ (s.tick t).now ∧ (s.tick t).twin.claimSeen = none ∧ (s.tick t).slotB = false) ∧
    (∃ (s : State) (t : Nat), (s.tick t).modes.settle = .waitLink (T - 50000000) ∧ (s.tick t).twinUp = false ∧ (T - 50000000) + 50000000 ≤ (s.tick t).now ∧ (s.tick t).twin.claimSeen = none ∧ (s.tick t).slotB) ∧
    (∃ (s : State) (t : Nat), (s.tick t).modes.settle = .claimDelay (T - 200000) ∧ (T - 200000) + 200000 ≤ (s.tick t).now ∧ (s.tick t).twin.claimSeen = none) ∧
    (∃ (s : State) (t : Nat), (s.tick t).modes.settle = .claimDelay (T)) ∧
    (∃ (s : State) (t : Nat), (s.tick t).twin.claimDrive ∧ (s.tick t).twin.claimAt + 1000000 ≤ (s.tick t).now) :=
  ⟨⟨{ b0 with pwr := { b0.pwr with feedB := true, warn := none }, modes := { b0.modes with powered := false, inReset := false } }, T, by decide +kernel⟩,
   ⟨{ b0 with modes := { b0.modes with mode := .startup, puStep := 2 }, dsp := { b0.dsp with supplyHeld := true } }, T, by decide +kernel⟩,
   ⟨{ b0 with modes := { b0.modes with powered := true, mode := .startup, puStep := 3 } }, T, by decide +kernel⟩,
   ⟨{ b0 with modes := { b0.modes with settle := .readAlive (T - 100000) } }, T, by decide +kernel⟩,
   ⟨{ b0 with modes := { b0.modes with settle := .readAlive (T - 100000) } }, T, by decide +kernel⟩,
   ⟨{ b0 with modes := { b0.modes with settle := .waitLink (T - 50000000) }, twin := { b0.twin with claimSeen := none } }, T, by decide +kernel⟩,
   ⟨{ b0 with cfg := { b0.cfg with slotId := 1 }, modes := { b0.modes with settle := .waitLink (T - 50000000) }, twin := { b0.twin with claimSeen := none } }, T, by decide +kernel⟩,
   ⟨{ b0 with modes := { b0.modes with settle := .claimDelay (T - 200000) }, twin := { b0.twin with claimSeen := none } }, T, by decide +kernel⟩,
   ⟨{ b0 with modes := { b0.modes with settle := .claimDelay (T) } }, T, by decide +kernel⟩,
   ⟨{ b0 with twin := { b0.twin with claimDrive := true } }, T, by decide +kernel⟩⟩

theorem witness_RestartAndHoldInstants :
    (∃ (s : State) , s.modes.mode = .startup ∧ s.modes.rstPlanned = none ∧ s.tilesUp = true ∧ s.modes.trans = some (.restart true (none : Option Nat) 3)) ∧
    (∃ (s : State) (t : Nat), (s.tick t).starting.isSome ∧ (s.tick t).prog.stored = none) ∧
    (∃ (s : State) (t : Nat), (s.tick t).starting = some (true, true) ∧ (s.tick t).prog.stored = some ({} : Image) ∧ (s.tick t).warmOk ({} : Image) ∧ (((s.tick t).loadProgram ({} : Image) true).admission ({} : Image)) = none ∧ (s.tick t).modes.role ≠ .follow ∧ (s.tick t).mt + 50000 ≤ (946684800000000000 + T + 50000)) ∧
    (∃ (s : State) (t : Nat), (s.tick t).starting = some (true, true) ∧ (s.tick t).prog.stored = some (img1 0) ∧ (s.tick t).warmOk (img1 0) ∧ (((s.tick t).loadProgram (img1 0) true).admission (img1 0)).isSome) ∧
    (∃ (s : State) (t : Nat), s.modes.rstPlanned = some (946684800000000000 + T) ∧ s.prog.loaded = some ({} : Image) ∧ s.modes.mode = .startup ∧ s.modes.trans = none ∧ (946684800000000000 + T) ≤ (s.tick t).mt) ∧
    (∃ (s : State) (t : Nat), (s.tick t).modes.trans = some (.toHold 4 63 none (none : Option Nat)) ∧ (s.tick t).holdReady (none : Option Nat) ∧ (s.tick t).modes.mode = .run) ∧
    (∃ (s : State) (t : Nat), (s.tick t).modes.trans = some (.toHold 4 63 (some 7) (none : Option Nat)) ∧ (s.tick t).holdReady (none : Option Nat) ∧ (s.tick t).modes.mode ≠ .run ∧ ((s.tick t).enterHold 4 63).findReq 7 = some ({ rid := 7 } : Req)) :=
  ⟨⟨{ b0 with tiles := tilesOn, modes := { b0.modes with mode := .startup, rstPlanned := none, trans := some (.restart true (none : Option Nat) 3) } }, by decide +kernel⟩,
   ⟨{ b0 with tiles := tilesOn, modes := { b0.modes with mode := .startup, trans := some (.restart true none 3) }, prog := { b0.prog with stored := none } }, T, by decide +kernel⟩,
   ⟨{ b0 with tiles := tilesOn, modes := { b0.modes with mode := .startup, trans := some (.restart true none 3) }, prog := { b0.prog with stored := some ({} : Image) } }, T, by decide +kernel⟩,
   ⟨{ b0 with tiles := tilesOn, modes := { b0.modes with mode := .startup, trans := some (.restart true none 3) }, prog := { b0.prog with units := [(63, {})], stored := some (img1 0) } }, T, by decide +kernel⟩,
   ⟨{ b0 with modes := { b0.modes with rstPlanned := some (946684800000000000 + T), mode := .startup, trans := none }, prog := { b0.prog with loaded := some ({} : Image) } }, T, by decide +kernel⟩,
   ⟨{ b0 with modes := { b0.modes with trans := some (.toHold 4 63 none (none : Option Nat)), mode := .run } }, T, by decide +kernel⟩,
   ⟨{ b0 with host := { b0.host with reqs := [{ rid := 7 }] }, modes := { b0.modes with mode := .hold, trans := some (.toHold 4 63 (some 7) (none : Option Nat)) } }, T, by decide +kernel⟩⟩

theorem witness_DiagnosisAndYield :
    (∃ (s : State) (t : Nat), (s.tick t).modes.mode ≠ .recovery ∧ (s.tick t).diePresent (1 : Fin 8).val) ∧
    (∃ (s : State) (t : Nat), (s.tick t).trip.lockstep = false ∧ (s.tick t).trip.safetyRun) ∧
    (∃ (s : State) (t : Nat), s.modes.mode ≠ .recovery ∧ s.twin.aliveLatched = false) ∧
    (∃ (s : State) (t : Nat), (s.tick t).twin.yieldedAt = some (T - 5000000) ∧ (T - 5000000) + 5000000 ≤ (s.tick t).now ∧ (s.tick t).modes.role = .yielded) ∧
    (∃ (s : State) , s.modes.mode ≠ .recovery ∧ ((s.modes.role = .lead ∨ s.modes.role = .follow ∨ s.modes.role = .syncing))) ∧
    (∃ (s : State) , s.modes.mode ≠ .recovery ∧ s.modes.role = .simplex ∧ (Check.dieLink = .ecc ∨ Check.dieLink = .lockstep ∨ Check.dieLink = .dieLink)) :=
  ⟨⟨b0, T, by decide +kernel⟩,
   ⟨{ b0 with trip := { b0.trip with lockstep := false, safetyRun := true } }, T, by decide +kernel⟩,
   ⟨{ b0 with twin := { b0.twin with aliveLatched := false } }, T, by decide +kernel⟩,
   ⟨{ b0 with twin := { b0.twin with yieldedAt := some (T - 5000000) }, modes := { b0.modes with role := .yielded } }, T, by decide +kernel⟩,
   ⟨{ b0 with modes := { b0.modes with role := .syncing } }, by decide +kernel⟩,
   ⟨{ b0 with modes := { b0.modes with role := .simplex } }, by decide +kernel⟩⟩

theorem witness_LossAndTakeover :
    (∃ (s : State) (t : Nat), (s.tick t).host.reqs.any (fun r => r.needAck && r.mirrorAt + 100000 ≤ (s.tick t).now) ∧ (s.tick t).modes.role = .lead) ∧
    (∃ (s : State) (t : Nat), True) ∧
    (∃ (s : State) (t : Nat), s.twin.dead = some (1, 3) ∧ s.twin.frost = true) ∧
    (∃ (s : State) (t : Nat), (s.tick t).twin.yieldSeen = false ∧ (s.tick t).modes.settle = .settled ∧ (s.tick t).modes.role = .follow) ∧
    (∃ (s : State) (t : Nat), (s.tick t).twin.yieldSeen = false ∧ (s.tick t).modes.settle = .settled ∧ (s.tick t).modes.role = .lead) ∧
    (∃ (s : State) (t : Nat), (s.tick t).modes.settle = .settled ∧ (s.tick t).modes.role = .follow ∧ (s.tick t).claimed = false ∧ (s.tick t).twin.hbLossAt = none) ∧
    (∃ (s : State) (t : Nat), (s.tick t).twinUp ∧ (s.tick t).mt % 10000 = 0) ∧
    (∃ (s : State) (t : Nat), (s.tick t).modes.partner ∧ (s.tick t).mt % 10000 = 0 ∧ (s.tick t).twin.hbLastRx + 10000 ≤ (s.tick t).now ∧ (s.tick t).twin.hbRun + 1 ≠ 3) ∧
    (∃ (s : State) (t : Nat), (s.tick t).modes.partner ∧ (s.tick t).mt % 10000 = 0 ∧ (s.tick t).twin.hbLastRx + 10000 ≤ (s.tick t).now ∧ (s.tick t).twin.lost = false ∧ (s.tick t).twin.hbRun = 2 ∧ (s.tick t).modes.role = .lead) ∧
    (∃ (s : State) (t : Nat), (s.tick t).twin.hbLossAt = some (T - 20000) ∧ (s.tick t).modes.role = .follow ∧ (T - 20000) + 20000 ≤ (s.tick t).now) ∧
    (∃ (s : State) , s.modes.role = .follow ∧ s.modes.detached = false ∧ s.twin.frost = false ∧ s.twin.exActive = false) :=
  ⟨⟨{ b0 with host := { b0.host with reqs := [{ needAck := true }] }, modes := { b0.modes with role := .lead } }, T, by decide +kernel⟩,
   ⟨b0, T, by decide +kernel⟩,
   ⟨{ b0 with twin := { b0.twin with dead := some (1, 3), frost := true } }, T, by decide +kernel⟩,
   ⟨{ b0 with twin := { b0.twin with yieldSeen := false }, modes := { b0.modes with settle := .settled, role := .follow } }, T, by decide +kernel⟩,
   ⟨{ b0 with twin := { b0.twin with yieldSeen := false }, modes := { b0.modes with settle := .settled, role := .lead } }, T, by decide +kernel⟩,
   ⟨{ b0 with modes := { b0.modes with settle := .settled, role := .follow }, twin := { b0.twin with hbLossAt := none } }, T, by decide +kernel⟩,
   ⟨{ b0 with twin := { b0.twin with lanes := 6 } }, T, by decide +kernel⟩,
   ⟨{ b0 with modes := { b0.modes with partner := true } }, T, by decide +kernel⟩,
   ⟨{ b0 with modes := { b0.modes with partner := true, role := .lead }, twin := { b0.twin with lost := false, hbRun := 2 } }, T, by decide +kernel⟩,
   ⟨{ b0 with twin := { b0.twin with hbLossAt := some (T - 20000) }, modes := { b0.modes with role := .follow } }, T, by decide +kernel⟩,
   ⟨{ b0 with modes := { b0.modes with role := .follow, detached := false }, twin := { b0.twin with frost := false, exActive := false } }, by decide +kernel⟩⟩

theorem witness_PairInStep :
    (∃ (s : State) (t : Nat), s.twin.digests.find? (fun d => kindCode d.1 == kindCode DigestKind.harvest && d.2.1 == 3) = some ((DigestKind.harvest, 3, 2#64) : DigestKind × Nat × BitVec 64) ∧ s.modes.role = .follow ∧ s.twin.inStep = true ∧ ((DigestKind.harvest, 3, 2#64) : DigestKind × Nat × BitVec 64).2.2 ≠ (1 : BitVec 64) ∧ s.twin.exActive = false) ∧
    (∃ (s : State) (t : Nat), (∃ a, (s.tick t).twin.selfTest = some a ∧ a + 50000 ≤ (s.tick t).now) ∧ (s.tick t).modes.role = .follow) ∧
    (∃ (s : State) (t : Nat), (s.tick t).modes.role = .follow ∧ (s.tick t).modes.detached = false) ∧
    (∃ (s : State) (t : Nat), (s.tick t).twin.lanes.getLsbD (3 : Fin 4).val) ∧
    (∃ (s : State) (t : Nat), (s.tick t).twinUp ∧ (s.tick t).twin.partnerRole = ({ role := 1 } : Partner).role ∧ ({ role := 1 } : Partner).role ≠ 3 ∧ ({ role := 1 } : Partner).role ≠ 4 ∧ ({ role := 1 } : Partner).mode ≠ 6) ∧
    (∃ (s : State) (t : Nat), s.twinUp = false ∧ ({ s with twin := { s.twin with lanes := 3#4 } } : State).twinUp = true ∧ s.modes.powered = true ∧ s.modes.mode = .recovery) ∧
    (∃ (s : State) (t : Nat), (s.tick t).live ∧ (s.tick t).twinUp) :=
  ⟨⟨{ b0 with twin := { b0.twin with digests := [(.harvest, 3, 2)], inStep := true, exActive := false }, modes := { b0.modes with role := .follow } }, T, by decide +kernel⟩,
   ⟨{ b0 with twin := { b0.twin with selfTest := some 0 }, modes := { b0.modes with role := .follow } }, T, ⟨⟨0, by decide +kernel, by decide +kernel⟩, by decide +kernel⟩⟩,
   ⟨{ b0 with modes := { b0.modes with role := .follow, detached := false } }, T, by decide +kernel⟩,
   ⟨{ b0 with twin := { b0.twin with lanes := 8 } }, T, by decide +kernel⟩,
   ⟨{ b0 with twin := { b0.twin with lanes := 6, partnerRole := ({ role := 1 } : Partner).role } }, T, by decide +kernel⟩,
   ⟨{ b0 with modes := { b0.modes with powered := true, mode := .recovery } }, T, by decide +kernel⟩,
   ⟨{ b0 with twin := { b0.twin with lanes := 6 } }, T, by decide +kernel⟩⟩

theorem witness_EquinoxAndDrill :
    (∃ (s : State) (r : Req), s.ready r.rid 0x0103 r ∧ (s.swapBusy = false ∧ r.aux = 0)) ∧
    (∃ (s : State) (r : Req), s.ready r.rid 0x0103 r ∧ (s.swapBusy ∧ r.fromLead = false)) ∧
    (∃ (s : State) (r : Req), s.ready r.rid 0x0104 r ∧ (s.swapBusy = false ∧ r.fromLead = false)) ∧
    (∃ (s : State) (r : Req), s.ready r.rid 0x0104 r ∧ (s.swapBusy ∧ r.fromLead = false)) ∧
    (∃ (s : State) , s.modes.mode ≠ .run) ∧
    (∃ (s : State) (i : Image) (d : TaskDef), s.modes.mode = .run ∧ s.prog.loaded = some i ∧ i.tasks.head? = some d ∧ 0 < d.period) ∧
    (∃ s : State, s.swapBusy = false) ∧
    (∃ (s : State) (t : Nat), (s.tick t).twin.equinox = some ({ e := 946684800000000000 + T } : Equinox) ∧ ({ e := 946684800000000000 + T } : Equinox).windowOpen = false ∧ ({ e := 946684800000000000 + T } : Equinox).e ≤ (s.tick t).mt ∧ (s.tick t).twin.exchange = none) ∧
    (∃ (s : State) (t : Nat), (s.tick t).twin.equinox = some ({ e := 946684800000000000 + T - 40000, windowOpen := true } : Equinox) ∧ ({ e := 946684800000000000 + T - 40000, windowOpen := true } : Equinox).windowOpen ∧ ({ e := 946684800000000000 + T - 40000, windowOpen := true } : Equinox).claimed = false ∧ (s.tick t).modes.role = .follow ∧ ({ e := 946684800000000000 + T - 40000, windowOpen := true } : Equinox).e + 40000 ≤ (s.tick t).mt) ∧
    (∃ (s : State) (t : Nat), (s.tick t).twin.equinox = some ({ e := 946684800000000000 + T - 50000, windowOpen := true } : Equinox) ∧ ({ e := 946684800000000000 + T - 50000, windowOpen := true } : Equinox).windowOpen ∧ ({ e := 946684800000000000 + T - 50000, windowOpen := true } : Equinox).e + 50000 ≤ (s.tick t).mt ∧ (s.tick t).modes.role = .lead) ∧
    (∃ (s : State) (t : Nat), (s.tick t).twin.equinox = some ({ e := 946684800000000000 + T - 50000, windowOpen := true } : Equinox) ∧ ({ e := 946684800000000000 + T - 50000, windowOpen := true } : Equinox).windowOpen ∧ ({ e := 946684800000000000 + T - 50000, windowOpen := true } : Equinox).e + 50000 ≤ (s.tick t).mt ∧ (s.tick t).modes.role = .follow) ∧
    (∃ (s : State) , s.twin.exchange = none ∧ ({} : Equinox).rid = none) ∧
    (∃ (s : State) , ({} : Equinox).cause ≠ 7 ∧ ({} : Equinox).rid = none) ∧
    (∃ (s : State) (t : Nat), (s.tick t).drillIsDue ∧ (s.tick t).drillBlocked = none) ∧
    (∃ (s : State) (t : Nat), (s.tick t).drillIsDue ∧ (s.tick t).drillBlocked = some 2 ∧ (s.tick t).twin.drillPostponed = none) ∧
    (∃ (s : State) (t : Nat), (s.tick t).twin.drillPostponed = some (T - dayNs) ∧ (s.tick t).drillBlocked = some 2 ∧ (T - dayNs) + dayNs ≤ (s.tick t).now) ∧
    (∃ (s : State) (t : Nat), (s.tick t).twin.checking ∧ (s.tick t).modes.role = .lead ∧ (s.tick t).drillFails false = none ∧ (s.tick t).drillOver) ∧
    (∃ (s : State) (t : Nat), (s.tick t).twin.checking ∧ (s.tick t).modes.role = .lead ∧ (s.tick t).drillFails true = some 1) :=
  ⟨⟨withReq (b0) { rid := 7, opcode := 0x0103, phase := .ready, aux := 0 }, { rid := 7, opcode := 0x0103, phase := .ready, aux := 0 }, ⟨by decide +kernel, by decide +kernel, by decide +kernel, by decide +kernel⟩, by decide +kernel⟩,
   ⟨withReq ({ b0 with twin := { b0.twin with drilling := true } }) { rid := 7, opcode := 0x0103, phase := .ready }, { rid := 7, opcode := 0x0103, phase := .ready }, ⟨by decide +kernel, by decide +kernel, by decide +kernel, by decide +kernel⟩, by decide +kernel⟩,
   ⟨withReq (b0) { rid := 7, opcode := 0x0104, phase := .ready }, { rid := 7, opcode := 0x0104, phase := .ready }, ⟨by decide +kernel, by decide +kernel, by decide +kernel, by decide +kernel⟩, by decide +kernel⟩,
   ⟨withReq ({ b0 with twin := { b0.twin with drilling := true } }) { rid := 7, opcode := 0x0104, phase := .ready }, { rid := 7, opcode := 0x0104, phase := .ready }, ⟨by decide +kernel, by decide +kernel, by decide +kernel, by decide +kernel⟩, by decide +kernel⟩,
   ⟨{ b0 with modes := { b0.modes with mode := .hold } }, by decide +kernel⟩,
   ⟨{ b0 with prog := { b0.prog with loaded := some (img1 0) } }, img1 0, tdef, by decide +kernel⟩,
   ⟨b0, by decide +kernel⟩,
   ⟨{ b0 with twin := { b0.twin with equinox := some ({ e := 946684800000000000 + T } : Equinox), exchange := none } }, T, by decide +kernel⟩,
   ⟨{ b0 with twin := { b0.twin with equinox := some ({ e := 946684800000000000 + T - 40000, windowOpen := true } : Equinox) }, modes := { b0.modes with role := .follow } }, T, by decide +kernel⟩,
   ⟨{ b0 with twin := { b0.twin with equinox := some ({ e := 946684800000000000 + T - 50000, windowOpen := true } : Equinox) }, modes := { b0.modes with role := .lead } }, T, by decide +kernel⟩,
   ⟨{ b0 with twin := { b0.twin with equinox := some ({ e := 946684800000000000 + T - 50000, windowOpen := true } : Equinox) }, modes := { b0.modes with role := .follow } }, T, by decide +kernel⟩,
   ⟨{ b0 with twin := { b0.twin with exchange := none } }, by decide +kernel⟩,
   ⟨b0, by decide +kernel⟩,
   ⟨{ b0 with modes := { b0.modes with role := .lead }, twin := { b0.twin with inStep := true } }, T, by decide +kernel⟩,
   ⟨{ b0 with modes := { b0.modes with role := .lead }, twin := { b0.twin with drillPostponed := none } }, T, by decide +kernel⟩,
   ⟨{ b0 with modes := { b0.modes with role := .lead }, twin := { b0.twin with drillPostponed := some (T - dayNs) } }, T, by decide +kernel⟩,
   ⟨{ b0 with twin := { b0.twin with checking := true }, modes := { b0.modes with role := .lead } }, T, by decide +kernel⟩,
   ⟨{ b0 with twin := { b0.twin with checking := true }, modes := { b0.modes with role := .lead } }, T, by decide +kernel⟩⟩

theorem witness_JoinAndExchange :
    (∃ (s : State) (r : Req), s.ready 7 0x0105 r ∧ s.modes.role = .lead ∧ s.twin.exchange = none ∧ s.twin.equinox = none) ∧
    (∃ (s : State) (r : Req), s.ready r.rid 0x0106 r ∧ (True)) ∧
    (∃ s : State, s.twinUp = true ∧ s.modes.role = .simplex ∧ s.modes.detached = false ∧ s.twin.aliveDrive = true ∧ (s.modes.mode = .run ∨ s.modes.mode = .hold)) ∧
    (∃ (s : State) (t : Nat), (s.tick t).twin.syncActive ∧ (s.tick t).twin.joinAt = none ∧ (s.tick t).mt ≤ (946684800000000000 + T) ∧ (s.tick t).modes.role ≠ .syncing ∧ (s.tick t).boundary (946684800000000000 + T) = (946684800000000000 + T)) ∧
    (∃ (s : State) (t : Nat), (s.tick t).twin.syncActive ∧ (s.tick t).twin.joinAt = none ∧ (s.tick t).modes.role ≠ .syncing) ∧
    (∃ (s : State) (t : Nat), (s.tick t).twin.joinAt = some (946684800000000000 + T) ∧ (946684800000000000 + T) ≤ (s.tick t).mt ∧ (s.tick t).modes.role = .syncing ∧ ((s.tick t).twin.p.mode = 3 ∨ (s.tick t).twin.p.mode = 4)) ∧
    (∃ (s : State) (t : Nat), (s.tick t).twin.joinAt = some (946684800000000000 + T) ∧ (946684800000000000 + T) ≤ (s.tick t).mt ∧ (s.tick t).modes.role = .simplex ∧ (s.tick t).modes.detached = false ∧ ((s.tick t).modes.mode = .run ∨ (s.tick t).modes.mode = .hold)) ∧
    (∃ (s : State) , s.modes.mode = .hold ∧ s.twin.exchange = none ∧ s.twin.p.mode = 4) ∧
    (∃ (s : State) (r : Req), s.ready r.rid 0x0202 r ∧ (r.fromLead = false ∧ (s.swapRuns ∨ s.twin.mark = 2))) ∧
    (∃ (s : State) (t : Nat), (s.tick t).twin.exchange = some ({} : Exchange) ∧ ({} : Exchange).x = 0 ∧ (s.tick t).leadsPair ∧ (s.tick t).twin.exPhase = 1 ∧ (s.tick t).twin.equinox = none ∧ (s.tick t).mt + 1000000 ≤ (946684800000000000 + T + 1000000)) ∧
    (∃ (s : State) (t : Nat) (x : Exchange) (i : Image), let u := (s.tick t).harvestDue none; u.twin.exchange = some x ∧ u.prog.loaded = some i ∧ u.twin.exPhase = 1 ∧ u.twin.equinox.isSome = true ∧ x.x ≤ u.mt ∧ u.modes.role ≠ .follow) ∧
    (∃ (s : State) (t : Nat) (x : Exchange) (i : Image), let u := (s.tick t).harvestDue none; u.twin.exchange = some x ∧ u.prog.loaded = some i ∧ u.twin.exPhase = 1 ∧ u.twin.equinox.isSome = true ∧ x.x ≤ u.mt ∧ u.modes.role = .follow) :=
  ⟨⟨withReq { b0 with modes := { b0.modes with role := .lead } } { rid := 7, opcode := 0x0105, phase := .ready }, _, ⟨rfl, rfl, rfl, by decide +kernel⟩, rfl, rfl, rfl⟩,
   ⟨withReq (b0) { rid := 7, opcode := 0x0106, phase := .ready }, { rid := 7, opcode := 0x0106, phase := .ready }, ⟨by decide +kernel, by decide +kernel, by decide +kernel, by decide +kernel⟩, by decide +kernel⟩,
   ⟨{ b0 with twin := { b0.twin with lanes := 6, aliveDrive := true } }, by decide +kernel⟩,
   ⟨{ b0 with twin := { b0.twin with syncActive := true, joinAt := none } }, T, by decide +kernel⟩,
   ⟨{ b0 with twin := { b0.twin with syncActive := true, joinAt := none } }, T, by decide +kernel⟩,
   ⟨{ b0 with modes := { b0.modes with role := .syncing }, twin := { b0.twin with joinAt := some (946684800000000000 + T) } }, T, by decide +kernel⟩,
   ⟨{ b0 with modes := { b0.modes with role := .simplex, detached := false }, twin := { b0.twin with joinAt := some (946684800000000000 + T) } }, T, by decide +kernel⟩,
   ⟨{ b0 with modes := { b0.modes with mode := .hold }, twin := { b0.twin with exchange := none, p := { b0.twin.p with mode := 4 } } }, by decide +kernel⟩,
   ⟨withReq ({ b0 with twin := { b0.twin with mark := 2 } }) { rid := 7, opcode := 0x0202, phase := .ready }, { rid := 7, opcode := 0x0202, phase := .ready }, ⟨by decide +kernel, by decide +kernel, by decide +kernel, by decide +kernel⟩, by decide +kernel⟩,
   ⟨{ b0 with modes := { b0.modes with role := .lead, partner := true }, twin := { b0.twin with exchange := some ({} : Exchange), exPhase := 1, equinox := none } }, T, by decide +kernel⟩,
   ⟨{ b0 with prog := { b0.prog with loaded := some {} }, twin := { b0.twin with exchange := some { x := 946684800000000000 + T }, exPhase := 1, equinox := some {} }, modes := { b0.modes with role := .simplex } }, T, { x := 946684800000000000 + T }, {}, by decide +kernel⟩,
   ⟨{ b0 with prog := { b0.prog with loaded := some {} }, twin := { b0.twin with exchange := some { x := 946684800000000000 + T }, exPhase := 1, equinox := some {} }, modes := { b0.modes with role := .follow } }, T, { x := 946684800000000000 + T }, {}, by decide +kernel⟩⟩

theorem witness_TilePowerAndReset :
    (∃ (s : State) (r : Req), s.ready r.rid 0x0107 r ∧ (s.diePresent r.value ∧ (bits r.aux.toNat 0 2 = 2 → s.tileLoaded r.value = false))) ∧
    (∃ (s : State) (r : Req), s.ready r.rid 0x0107 r ∧ (s.diePresent r.value ∧ bits r.aux.toNat 0 2 = 2 ∧ s.tileLoaded r.value ∧ s.modes.mode = .run)) ∧
    (∃ (s : State) (r : Req), s.ready r.rid 0x0107 r ∧ (s.diePresent r.value = false)) ∧
    (∃ (s : State) (r : Req), s.ready r.rid 0x0108 r ∧ (s.diePresent r.value ∧ (s.modes.mode ≠ .run ∨ s.tileLoaded r.value = false))) ∧
    (∃ (s : State) (r : Req), s.ready r.rid 0x0108 r ∧ (s.diePresent r.value ∧ s.modes.mode = .run ∧ s.tileLoaded r.value)) ∧
    (∃ (s : State) (t : Nat), (1 : Fin 8) ≠ 0 ∧ s.diePresent (1 : Fin 8).val = true ∧ (s.tile (1 : Fin 8).val).fencedAt = some (T - 10000) ∧ (((1 = 0 ∧ s.atDie (1 : Fin 8).val = []) ∨ (T - 10000) + 10000 ≤ (s.tick t).now))) ∧
    (∃ (s : State) (t : Nat), (s.tick t).diePresent (1 : Fin 8).val ∧ (1 : BitVec 8).toNat ≠ ((s.tick t).tile (1 : Fin 8).val).epoch) ∧
    (∃ (s : State) (t : Nat), (s.tick t).diePresent (1 : Fin 8).val) :=
  ⟨⟨withReq (b0) { rid := 7, opcode := 0x0107, phase := .ready, target := 0x700000000000001#64, aux := 1 }, { rid := 7, opcode := 0x0107, phase := .ready, target := 0x700000000000001#64, aux := 1 }, ⟨by decide +kernel, by decide +kernel, by decide +kernel, by decide +kernel⟩, by decide +kernel⟩,
   ⟨withReq ({ b0 with prog := { b0.prog with loaded := some { code := [0], tasks := [{ tdef with die := 1 }] }, admitted := true }, modes := { b0.modes with mode := .run } }) { rid := 7, opcode := 0x0107, phase := .ready, target := 0x700000000000001#64, aux := 2 }, { rid := 7, opcode := 0x0107, phase := .ready, target := 0x700000000000001#64, aux := 2 }, ⟨by decide +kernel, by decide +kernel, by decide +kernel, by decide +kernel⟩, by decide +kernel⟩,
   ⟨withReq ({ b0 with cfg := { b0.cfg with variant := .xkp02 } }) { rid := 7, opcode := 0x0107, phase := .ready, target := 0x700000000000007#64 }, { rid := 7, opcode := 0x0107, phase := .ready, target := 0x700000000000007#64 }, ⟨by decide +kernel, by decide +kernel, by decide +kernel, by decide +kernel⟩, by decide +kernel⟩,
   ⟨withReq (b0) { rid := 7, opcode := 0x0108, phase := .ready, target := 0x700000000000001#64 }, { rid := 7, opcode := 0x0108, phase := .ready, target := 0x700000000000001#64 }, ⟨by decide +kernel, by decide +kernel, by decide +kernel, by decide +kernel⟩, by decide +kernel⟩,
   ⟨withReq ({ b0 with prog := { b0.prog with loaded := some { code := [0], tasks := [{ tdef with die := 1 }] }, admitted := true }, modes := { b0.modes with mode := .run } }) { rid := 7, opcode := 0x0108, phase := .ready, target := 0x700000000000001#64 }, { rid := 7, opcode := 0x0108, phase := .ready, target := 0x700000000000001#64 }, ⟨by decide +kernel, by decide +kernel, by decide +kernel, by decide +kernel⟩, by decide +kernel⟩,
   ⟨((b0 : State).setTile 1 { fencedAt := some (T - 10000) }), T, by decide +kernel⟩,
   ⟨b0, T, by decide +kernel⟩,
   ⟨b0, T, by decide +kernel⟩⟩

theorem witness_Ramps :
    (∃ (s : State) (t : Nat), (s.tick t).diePresent (1 : Fin 8).val ∧ (s.tick t).tilesRun ∧ ((s.tick t).tile (1 : Fin 8).val).policy = 0 ∧ (s.tick t).nextDue (1 : Fin 8).val = some (946684800000000000 + T) ∧ (946684800000000000 + T) ≤ (s.tick t).mt + (s.tick t).wakeLead ∧ ((s.tick t).tile (1 : Fin 8).val).state = .gated) ∧
    (∃ (s : State) (t : Nat), (s.tick t).diePresent (1 : Fin 8).val ∧ (s.tick t).tilesRun ∧ ((s.tick t).tile (1 : Fin 8).val).policy ≠ 2 ∧ ((s.tick t).tile (1 : Fin 8).val).state = .gated) ∧
    (∃ (s : State) (next : Option Nat), s.diePresent 1 ∧ (s.tile 1).state = .on ∧ s.modes.mode ≠ .startup ∧ s.dieBusy 1 = false ∧ (s.tile 1).policy = 0 ∧ s.nextDue 1 = next ∧ ∀ due, next = some due → s.mt + 2 * s.wakeLead ≤ due) ∧
    (∃ (s : State) (t : Nat), ((s.tick t).tile (1 : Fin 8).val).state = .spring ∧ ((s.tick t).tile (1 : Fin 8).val).pll = false) ∧
    (∃ (s : State) (t : Nat), ((s.tick t).tile (1 : Fin 8).val).stepAt + 250 * ((s.tick t).tile (1 : Fin 8).val).dwell ≤ (s.tick t).now ∧ ((s.tick t).tile (1 : Fin 8).val).state = .spring ∧ (s.tick t).tilesRun ∧ ((s.tick t).tile (1 : Fin 8).val).pll ∧ ((s.tick t).tile (1 : Fin 8).val).div ≤ 2) ∧
    (∃ (s : State) (t : Nat), ((s.tick t).tile (1 : Fin 8).val).stepAt + 250 * ((s.tick t).tile (1 : Fin 8).val).dwell ≤ (s.tick t).now ∧ ((s.tick t).tile (1 : Fin 8).val).state = .spring ∧ (s.tick t).tilesRun ∧ ((s.tick t).tile (1 : Fin 8).val).pll ∧ 2 < ((s.tick t).tile (1 : Fin 8).val).div) ∧
    (∃ (s : State) (t : Nat), ((s.tick t).tile (1 : Fin 8).val).stepAt + 250 * ((s.tick t).tile (1 : Fin 8).val).dwell ≤ (s.tick t).now ∧ ((s.tick t).tile (1 : Fin 8).val).state = .autumn ∧ ((s.tick t).tile (1 : Fin 8).val).div < 16) :=
  ⟨⟨(({ b0 with prog := { b0.prog with loaded := some { code := [0], tasks := [{ tdef with die := 1 }] }, admitted := true, anchor := 946684800000000000 + T } } : State).setTile 1 { policy := 0, state := .gated }), T, by decide +kernel⟩,
   ⟨((b0 : State).setTile 1 { state := .gated }), T, by decide +kernel⟩,
   ⟨b0.setTile 1 { state := .on }, none, ⟨by decide +kernel, by decide +kernel, by decide +kernel, by decide +kernel, by decide +kernel, by decide +kernel, fun _ h => nomatch h⟩⟩,
   ⟨((b0 : State).setTile 1 { state := .spring, pll := false }), T, by decide +kernel⟩,
   ⟨((b0 : State).setTile 1 { stepAt := T - 1000, div := 2, state := .spring, pll := true }), T, by decide +kernel⟩,
   ⟨((b0 : State).setTile 1 { stepAt := T - 1000, div := 4, state := .spring, pll := true }), T, by decide +kernel⟩,
   ⟨((b0 : State).setTile 1 { stepAt := T - 1000, div := 8, state := .autumn }), T, by decide +kernel⟩⟩

theorem witness_ClockMonitor :
    (∃ (s : State) (t : Nat), (s.tick t).modes.powered ∧ (s.tick t).modes.inReset = false ∧ ∀ x ∈ [(0, 774), (1, 310), (2, 3032)], (s.tick t).refInUse x.1 = true → (s.tick t).windowOk x.1 x.2 = true) ∧
    (∃ (s : State) (t : Nat), (s.tick t).modes.powered ∧ (s.tick t).modes.inReset = false ∧ (s.tick t).refInUse 0 ∧ (s.tick t).windowOk 0 773 = false ∧ ∀ x ∈ [(0, 773), (1, 310), (2, 3032)], x.1 ≠ 0 → (s.tick t).refInUse x.1 = true → (s.tick t).windowOk x.1 x.2 = true) ∧
    (∃ (s : State) , 0 < 2 ∧ s.clk.source = 0) ∧
    (∃ (s : State) , s.onInternal = true ∧ s.clk.refCtrl.getLsbD 1 = false) ∧
    (∃ (s : State) , s.onInternal = false ∧ s.clk.source = 0) ∧
    (∃ (s : State) (t : Nat), (s.tick t).modes.powered ∧ (s.tick t).modes.inReset = false ∧ (s.tick t).diePresent 0 ∧ (s.tick t).clk.source = 2) ∧
    (∃ (s : State) (t : Nat), s.modes.powered = true ∧ s.modes.inReset = false ∧ s.diePresent 0 = true ∧ s.clk.source ≠ 2) ∧
    (∃ (s : State) (t : Nat), (1 : Fin 8) ≠ 0 ∧ s.tilesRun = true ∧ s.diePresent (1 : Fin 8).val = true ∧ (s.tile (1 : Fin 8).val).div ≠ 0 ∧ (s.tile (1 : Fin 8).val).src ≠ (s.tile (1 : Fin 8).val).switchTo.getD 2) ∧
    (∃ (s : State) (t : Nat), (s.tick t).modes.powered ∧ (s.tick t).clk.refDelayDone = false ∧ (s.tick t).clk.refJudged = false ∧ (s.tick t).clk.refFailed = false ∧ (s.tick t).cfg.ee.refPresent ∧ (s.tick t).clk.refCtrl.getLsbD 0 ∧ (s.tick t).modes.supplyAt + 250000 * (s.tick t).cfg.ee.refDelay ≤ (s.tick t).now) :=
  ⟨⟨{ b0 with modes := { b0.modes with powered := true, inReset := false } }, T, by decide +kernel⟩,
   ⟨{ b0 with modes := { b0.modes with powered := true, inReset := false } }, T, by decide +kernel⟩,
   ⟨{ b0 with clk := { b0.clk with source := 0 } }, by decide +kernel⟩,
   ⟨{ b0 with clk := { b0.clk with source := 2, refCtrl := 0 } }, by decide +kernel⟩,
   ⟨{ b0 with clk := { b0.clk with source := 0 } }, by decide +kernel⟩,
   ⟨{ b0 with modes := { b0.modes with powered := true, inReset := false }, clk := { b0.clk with source := 2 } }, T, by decide +kernel⟩,
   ⟨{ b0 with modes := { b0.modes with powered := true, inReset := false } }, T, by decide +kernel⟩,
   ⟨((b0 : State).setTile 1 { div := 4, src := 0 }), T, by decide +kernel⟩,
   ⟨{ b0 with modes := { b0.modes with powered := true }, clk := { b0.clk with refDelayDone := false, refJudged := false, refFailed := false }, cfg := { b0.cfg with ee := { b0.cfg.ee with refPresent := true } } }, T, by decide +kernel⟩⟩

theorem witness_Supply :
    (∃ (s : State) (t : Nat), s.pwr.feedA = false ∧ 17000 ≤ 17000 ∧ 10000000 ≤ 10000000) ∧
    (∃ (s : State) (t : Nat), s.pwr.feedA = true ∧ s.pwr.feedB = true ∧ s.modes.powered = true ∧ 15999 < 16000 ∧ 10000 ≤ 10000) ∧
    (∃ (s : State) (t : Nat), (s.tick t).modes.powered) ∧
    (∃ (s : State) (t : Nat), (s.tick t).pwr.prsnt ∧ (s.tick t).modes.powered) ∧
    (∃ (s : State) , s.pwr.warn = none ∧ s.modes.powered = true ∧ s.modes.mode = .recovery) :=
  ⟨⟨{ b0 with pwr := { b0.pwr with feedA := false } }, T, by decide +kernel⟩,
   ⟨{ b0 with pwr := { b0.pwr with feedA := true, feedB := true }, modes := { b0.modes with powered := true } }, T, by decide +kernel⟩,
   ⟨{ b0 with modes := { b0.modes with powered := true } }, T, by decide +kernel⟩,
   ⟨{ b0 with pwr := { b0.pwr with prsnt := true }, modes := { b0.modes with powered := true } }, T, by decide +kernel⟩,
   ⟨{ b0 with pwr := { b0.pwr with warn := none }, modes := { b0.modes with powered := true, mode := .recovery } }, by decide +kernel⟩⟩

theorem witness_ModuleTime :
    (∃ (s : State) (r : Req), s.ready r.rid 0x0700 r ∧ (True)) ∧
    (∃ (s : State) (t : Nat), True) ∧
    (∃ (s : State) (r : Req), s.ready r.rid 0x0701 r ∧ (s.timeRow = 2)) ∧
    (∃ (s : State) (r : Req), s.ready r.rid 0x0701 r ∧ (s.timeRow = 0 ∧ s.leadsPair = false)) ∧
    (∃ (s : State) (t : Nat), (s.tick t).slew = some ({ target := 5, startOff := 5 } : Slew) ∧ (s.tick t).offset = ({ target := 5, startOff := 5 } : Slew).target) :=
  ⟨⟨withReq (b0) { rid := 7, opcode := 0x0700, phase := .ready }, { rid := 7, opcode := 0x0700, phase := .ready }, ⟨by decide +kernel, by decide +kernel, by decide +kernel, by decide +kernel⟩, by decide +kernel⟩,
   ⟨b0, T, by decide +kernel⟩,
   ⟨withReq ({ b0 with ring := { b0.ring with timeState := 2 } }) { rid := 7, opcode := 0x0701, phase := .ready }, { rid := 7, opcode := 0x0701, phase := .ready }, ⟨by decide +kernel, by decide +kernel, by decide +kernel, by decide +kernel⟩, by decide +kernel⟩,
   ⟨withReq ({ b0 with modes := { b0.modes with mode := .hold } }) { rid := 7, opcode := 0x0701, phase := .ready }, { rid := 7, opcode := 0x0701, phase := .ready }, ⟨by decide +kernel, by decide +kernel, by decide +kernel, by decide +kernel⟩, by decide +kernel⟩,
   ⟨{ b0 with slew := some ({ target := 5, startOff := 5 } : Slew) }, T, by decide +kernel⟩⟩

theorem witness_RtcAndAlarm :
    (∃ (s : State) (t : Nat), True) ∧
    (∃ (s : State) (t : Nat), (s.tick t).clk.valid ∧ (s.tick t).rtc.lastCheck + 60000000000 ≤ (s.tick t).now) ∧
    (∃ (s : State) (t : Nat), (s.tick t).rtc.staged = some ({} : Civil) ∧ (s.tick t).mt % 1000000000 < 123) ∧
    (∃ (s : State) (t : Nat), (s.tick t).rtc.staged = some ({} : Civil) ∧ (s.tick t).mt % 1000000000 < 123) ∧
    (∃ (s : State) (t : Nat), 1599 < 1600 ∧ 1000 ≤ 1000) ∧
    (∃ (s : State) (t : Nat), True) ∧
    (∃ (s : State) (r : Req), s.ready r.rid 0x0702 r ∧ (bit (rd r.buf 7 1) 1 = false)) ∧
    (∃ (s : State) (r : Req), s.ready r.rid 0x0702 r ∧ (bit (rd r.buf 7 1) 1 ∧ s.cfg.variant ≠ .xkp08)) ∧
    (∃ (s : State) (t : Nat), let u := s.tick t; bit (rd s.rtc.alarmBuf 7 1) 0 = true ∧ u.rtcSub = 0 ∧ alarmHit s.rtc.alarmBuf u.rtcCivil = true ∧ s.rtc.alarmFired ≠ some (u.rtcNs / 1000000000) ∧ s.modes.powered = false) ∧
    (∃ (s : State) (t : Nat), (s.tick t).rtc.wakeOut = some (T - 10000000000) ∧ (T - 10000000000) + 10000000000 ≤ (s.tick t).now) :=
  ⟨⟨b0, T, by decide +kernel⟩,
   ⟨{ b0 with clk := { b0.clk with valid := true } }, T, by decide +kernel⟩,
   ⟨{ b0 with rtc := { b0.rtc with staged := some ({} : Civil) } }, T, by decide +kernel⟩,
   ⟨{ b0 with rtc := { b0.rtc with staged := some ({} : Civil) } }, T, by decide +kernel⟩,
   ⟨b0, T, by decide +kernel⟩,
   ⟨b0, T, by decide +kernel⟩,
   ⟨withReq (b0) { rid := 7, opcode := 0x0702, phase := .ready }, { rid := 7, opcode := 0x0702, phase := .ready }, ⟨by decide +kernel, by decide +kernel, by decide +kernel, by decide +kernel⟩, by decide +kernel⟩,
   ⟨withReq ({ b0 with cfg := { b0.cfg with variant := .xkp02 } }) { rid := 7, opcode := 0x0702, phase := .ready, buf := List.replicate 7 0 ++ [2] }, { rid := 7, opcode := 0x0702, phase := .ready, buf := List.replicate 7 0 ++ [2] }, ⟨by decide +kernel, by decide +kernel, by decide +kernel, by decide +kernel⟩, by decide +kernel⟩,
   ⟨{ b0 with rtc := { b0.rtc with alarmBuf := List.replicate 7 0 ++ [1] ++ List.replicate 8 0 }, modes := { b0.modes with powered := false } }, T, by decide +kernel⟩,
   ⟨{ b0 with rtc := { b0.rtc with wakeOut := some (T - 10000000000) } }, T, by decide +kernel⟩⟩

theorem witness_CycleEvents :
    (∃ (s : State) (t : Nat), let u := (s.tick t).harvestDue none; u.taskDef (63 : Fin 64).val = some tdef ∧ u.runsTasks = true ∧ u.modes.role = .follow ∧ u.cycleAt tdef (u.task (63 : Fin 64).val).nextN ≤ u.mt ∧ (u.task (63 : Fin 64).val).cyc = none ∧ u.tileWaits tdef.die = false ∧ (u.task (63 : Fin 64).val).mirrored = some ((u.task (63 : Fin 64).val).nextN, [])) ∧
    (∃ (s : State) (t : Nat), let u := (s.tick t).harvestDue none; u.taskDef (63 : Fin 64).val = some tdef ∧ u.runsTasks = true ∧ u.modes.role = .simplex ∧ u.leadsPair = false ∧ u.cycleAt tdef (u.task (63 : Fin 64).val).nextN ≤ u.mt ∧ (u.task (63 : Fin 64).val).cyc = none ∧ u.tileWaits tdef.die = false) ∧
    (∃ (s : State) , ({} : Task).cyc = none) ∧
    (∃ (s : State) (t : Nat), (s.tick t).prog.loaded = some ({ code := [0], tasks := [{ tdef with horizon := 1 }] } : Image) ∧ (s.tick t).taskDef (63 : Fin 64).val = some ({ tdef with horizon := 1 }) ∧ (s.tick t).runsTasks ∧ ({ tdef with horizon := 1 }).horizon ≠ 0 ∧ ((s.tick t).task (63 : Fin 64).val).nextN ≠ 0 ∧ ((s.tick t).task (63 : Fin 64).val).cyc = none ∧ (s.tick t).mt < (s.tick t).cycleAt ({ tdef with horizon := 1 }) ((s.tick t).task (63 : Fin 64).val).nextN ∧ (s.tick t).cycleAt ({ tdef with horizon := 1 }) ((s.tick t).task (63 : Fin 64).val).nextN ≤ (s.tick t).mt + ({ tdef with horizon := 1 }).horizon * ({ tdef with horizon := 1 }).period * 100 ∧ (s.tick t).coreWaits ({ code := [0], tasks := [{ tdef with horizon := 1 }] } : Image) ({ tdef with horizon := 1 }) (freshCycle ({ tdef with horizon := 1 }) ((s.tick t).task (63 : Fin 64).val) ((s.tick t).task (63 : Fin 64).val).nextN ((s.tick t).cycleAt ({ tdef with horizon := 1 }) ((s.tick t).task (63 : Fin 64).val).nextN) ((s.tick t).task (63 : Fin 64).val).img true) = false) ∧
    (∃ (s : State) (t : Nat), (s.tick t).taskDef (63 : Fin 64).val = some tdef ∧ ((s.tick t).task (63 : Fin 64).val).cyc = some ({} : Cyc) ∧ (s.tick t).runsTasks ∧ ({} : Cyc).spec = false ∧ ({} : Cyc).warned = false ∧ ({} : Cyc).done = false ∧ tdef.budget * 80 ≤ 800 * 100) ∧
    (∃ (s : State) (t : Nat), (s.tick t).taskDef (63 : Fin 64).val = some tdef ∧ ((s.tick t).task (63 : Fin 64).val).cyc = some ({} : Cyc) ∧ (s.tick t).runsTasks ∧ ({} : Cyc).spec = false ∧ ({} : Cyc).done = false ∧ tdef.charge ≤ 1200 * 100) ∧
    (∃ (s : State) (t : Nat), (s.tick t).taskDef (63 : Fin 64).val = some tdef ∧ (s.tick t).harvestAt tdef = some 80000) ∧
    (∃ (s : State) , (s.task tdef.task).cyc = some ({} : Cyc) ∧ ({} : Cyc).spec = false ∧ ({} : Cyc).start + tdef.harvestNs ≤ s.mt) ∧
    (∃ (s : State) , s.prog.loaded = some (img1 0) ∧ (img1 0).tasks = [tdef] ∧ (((none : Option Nat) = none ∨ (none : Option Nat) = some tdef.task)) ∧ s.runsTasks = true ∧ (s.task tdef.task).cyc = some ({} : Cyc) ∧ ({} : Cyc).spec = false ∧ ({} : Cyc).start + tdef.harvestNs ≤ s.mt) :=
  ⟨⟨(({ b0 with prog := { b0.prog with loaded := some (img1 0), admitted := true }, modes := { b0.modes with role := .follow } } : State).setTask 63 { mirrored := some (0, []) }), T, by decide +kernel⟩,
   ⟨{ b0 with prog := { b0.prog with loaded := some (img1 0), admitted := true } }, T, by decide +kernel⟩,
   ⟨b0, by decide +kernel⟩,
   ⟨(({ b0 with prog := { b0.prog with loaded := some { code := [0], tasks := [{ tdef with horizon := 1 }] }, admitted := true, anchor := 946684800000000000 + T - 199000 } } : State).setTask 63 { nextN := 1, cyc := none }), T, by decide +kernel⟩,
   ⟨(({ b0 with prog := { b0.prog with loaded := some (img1 0), admitted := true, tasks := [(63, { cyc := some {} })] } } : State).setTask 63 { cyc := some ({} : Cyc) }), T, by decide +kernel⟩,
   ⟨(({ b0 with prog := { b0.prog with loaded := some (img1 0), admitted := true, tasks := [(63, { cyc := some {} })] } } : State).setTask 63 { cyc := some ({} : Cyc) }), T, by decide +kernel⟩,
   ⟨{ b0 with prog := { b0.prog with loaded := some (img1 0), admitted := true, tasks := [(63, { cyc := some { done := true } })] } }, T, by decide +kernel⟩,
   ⟨((b0 : State).setTask tdef.task { cyc := some ({} : Cyc) }), by decide +kernel⟩,
   ⟨(({ b0 with prog := { b0.prog with loaded := some (img1 0), admitted := true } } : State).setTask tdef.task { cyc := some ({} : Cyc) }), by decide +kernel⟩⟩

theorem witness_ProgramAndVariables :
    (∃ (s : State) (r : Req), s.ready r.rid 0x0200 r ∧ (True)) ∧
    (∃ (s : State) (r : Req), s.ready r.rid 0x0201 r ∧ (s.prog.storing = none ∧ parseImage r.buf = none)) ∧
    (∃ (s : State) (r : Req), s.ready r.rid 0x0203 r ∧ (s.badEntry .change (varEntries r.buf) = some 0)) ∧
    (∃ (s : State) (r : Req), s.ready r.rid 0x0203 r ∧ (s.badEntry .change (varEntries r.buf) = none ∧ s.modes.mode ≠ .run)) ∧
    (∃ (s : State) (r : Req), s.ready r.rid 0x0203 r ∧ (s.badEntry .change (varEntries r.buf) = none ∧ s.modes.mode = .run ∧ s.prog.running = [] ∧ s.prog.waiting = [])) ∧
    (∃ (s : State) (r : Req), s.ready r.rid 0x0204 r ∧ (s.badEntry .force (varEntries r.buf) = some 0)) ∧
    (∃ (s : State) (r : Req), s.ready r.rid 0x0204 r ∧ (s.badEntry .force (varEntries r.buf) = none ∧ addForces (s.accMt r) s.prog.forces (varEntries r.buf) = none)) ∧
    (∃ (s : State) (r : Req), s.ready r.rid 0x0204 r ∧ (s.badEntry .force (varEntries r.buf) = none ∧ addForces (s.accMt r) s.prog.forces (varEntries r.buf) = some [])) ∧
    (addForces 0 [] [] = some []) ∧
    (∃ (s : State) (r : Req), s.ready 7 0x0205 r ∧ r.kind = 0) ∧
    (∃ (s : State) (r : Req), s.ready r.rid 0x0205 r ∧ (r.kind ≠ 0 ∧ ∀ f ∈ s.prog.forces, f.handle.toNat ≠ r.value)) ∧
    (∃ (s : State) (r : Req), s.ready r.rid 0x0206 r ∧ (True)) ∧
    (∃ (s : State) (t : Nat), s.modes.mode = .maintenance ∧ s.prog.refreshed + 1000000 ≤ (s.tick t).now) ∧
    (∃ (s : State) (r : Req), s.ready r.rid 0x0207 r ∧ (s.badEntry .read (varEntries r.buf) = none)) ∧
    (∃ (s : State) (r : Req), s.ready r.rid 0x0207 r ∧ (s.badEntry .read (varEntries r.buf) = some 0)) ∧
    (∃ (s : State) (r : Req), s.ready r.rid 0x0208 r ∧ (∀ e ∈ varEntries r.buf, s.varValid .read e.handle e.width = true ∧ handleTask e.handle = bits r.aux.toNat 8 24)) ∧
    (∃ s : State, s.badEntry .read (varEntries ([1, 0] ++ List.replicate 14 0 ++ [0, 0, 0, 0, 1] ++ List.replicate 11 0)) = some 0) ∧
    (∃ (s : State) (r : Req), s.ready r.rid 0x0209 r ∧ (True)) ∧
    (∃ (s : State) (r : Req), s.ready r.rid 0x020A r ∧ (True)) :=
  ⟨⟨withReq (b0) { rid := 7, opcode := 0x0200, phase := .ready }, { rid := 7, opcode := 0x0200, phase := .ready }, ⟨by decide +kernel, by decide +kernel, by decide +kernel, by decide +kernel⟩, by decide +kernel⟩,
   ⟨withReq ({ b0 with prog := { b0.prog with storing := none } }) { rid := 7, opcode := 0x0201, phase := .ready }, { rid := 7, opcode := 0x0201, phase := .ready }, ⟨by decide +kernel, by decide +kernel, by decide +kernel, by decide +kernel⟩, by decide +kernel⟩,
   ⟨withReq (b0) { rid := 7, opcode := 0x0203, phase := .ready, buf := [1, 0] ++ List.replicate 14 0 ++ [0, 0, 0, 0, 1] ++ List.replicate 11 0 }, { rid := 7, opcode := 0x0203, phase := .ready, buf := [1, 0] ++ List.replicate 14 0 ++ [0, 0, 0, 0, 1] ++ List.replicate 11 0 }, ⟨by decide +kernel, by decide +kernel, by decide +kernel, by decide +kernel⟩, by decide +kernel⟩,
   ⟨withReq ({ b0 with modes := { b0.modes with mode := .hold } }) { rid := 7, opcode := 0x0203, phase := .ready }, { rid := 7, opcode := 0x0203, phase := .ready }, ⟨by decide +kernel, by decide +kernel, by decide +kernel, by decide +kernel⟩, by decide +kernel⟩,
   ⟨withReq ({ b0 with modes := { b0.modes with mode := .run }, prog := { b0.prog with running := [], waiting := [] } }) { rid := 7, opcode := 0x0203, phase := .ready }, { rid := 7, opcode := 0x0203, phase := .ready }, ⟨by decide +kernel, by decide +kernel, by decide +kernel, by decide +kernel⟩, by decide +kernel⟩,
   ⟨withReq (b0) { rid := 7, opcode := 0x0204, phase := .ready, buf := [1, 0] ++ List.replicate 14 0 ++ [0, 0, 0, 0, 1] ++ List.replicate 11 0 }, { rid := 7, opcode := 0x0204, phase := .ready, buf := [1, 0] ++ List.replicate 14 0 ++ [0, 0, 0, 0, 1] ++ List.replicate 11 0 }, ⟨by decide +kernel, by decide +kernel, by decide +kernel, by decide +kernel⟩, by decide +kernel⟩,
   ⟨withReq ({ b0 with prog := { b0.prog with loaded := some (img1 0), admitted := true, forces := [{ acc := 0, handle := 0xFC000000, width := 2, value := 0 }] } }) { rid := 7, opcode := 0x0204, phase := .ready, buf := [1, 0] ++ List.replicate 14 0 ++ [0, 0, 0, 0xFC, 1] ++ List.replicate 11 0 }, { rid := 7, opcode := 0x0204, phase := .ready, buf := [1, 0] ++ List.replicate 14 0 ++ [0, 0, 0, 0xFC, 1] ++ List.replicate 11 0 }, ⟨by decide +kernel, by decide +kernel, by decide +kernel, by decide +kernel⟩, by decide +kernel⟩,
   ⟨withReq (b0) { rid := 7, opcode := 0x0204, phase := .ready }, { rid := 7, opcode := 0x0204, phase := .ready }, ⟨by decide +kernel, by decide +kernel, by decide +kernel, by decide +kernel⟩, by decide +kernel⟩,
   by decide +kernel,
   ⟨withReq b0 { rid := 7, opcode := 0x0205, phase := .ready }, _, ⟨rfl, rfl, rfl, by decide +kernel⟩, by decide +kernel⟩,
   ⟨withReq (b0) { rid := 7, opcode := 0x0205, phase := .ready, target := 0x300000000000001#64 }, { rid := 7, opcode := 0x0205, phase := .ready, target := 0x300000000000001#64 }, ⟨by decide +kernel, by decide +kernel, by decide +kernel, by decide +kernel⟩, by decide +kernel⟩,
   ⟨withReq (b0) { rid := 7, opcode := 0x0206, phase := .ready }, { rid := 7, opcode := 0x0206, phase := .ready }, ⟨by decide +kernel, by decide +kernel, by decide +kernel, by decide +kernel⟩, by decide +kernel⟩,
   ⟨{ b0 with modes := { b0.modes with mode := .maintenance } }, T, by decide +kernel⟩,
   ⟨withReq (b0) { rid := 7, opcode := 0x0207, phase := .ready }, { rid := 7, opcode := 0x0207, phase := .ready }, ⟨by decide +kernel, by decide +kernel, by decide +kernel, by decide +kernel⟩, by decide +kernel⟩,
   ⟨withReq (b0) { rid := 7, opcode := 0x0207, phase := .ready, buf := [1, 0] ++ List.replicate 14 0 ++ [0, 0, 0, 0, 1] ++ List.replicate 11 0 }, { rid := 7, opcode := 0x0207, phase := .ready, buf := [1, 0] ++ List.replicate 14 0 ++ [0, 0, 0, 0, 1] ++ List.replicate 11 0 }, ⟨by decide +kernel, by decide +kernel, by decide +kernel, by decide +kernel⟩, by decide +kernel⟩,
   ⟨withReq (b0) { rid := 7, opcode := 0x0208, phase := .ready }, { rid := 7, opcode := 0x0208, phase := .ready }, ⟨by decide +kernel, by decide +kernel, by decide +kernel, by decide +kernel⟩, by decide +kernel⟩,
   ⟨b0, by decide +kernel⟩,
   ⟨withReq (b0) { rid := 7, opcode := 0x0209, phase := .ready }, { rid := 7, opcode := 0x0209, phase := .ready }, ⟨by decide +kernel, by decide +kernel, by decide +kernel, by decide +kernel⟩, by decide +kernel⟩,
   ⟨withReq (b0) { rid := 7, opcode := 0x020A, phase := .ready }, { rid := 7, opcode := 0x020A, phase := .ready }, ⟨by decide +kernel, by decide +kernel, by decide +kernel, by decide +kernel⟩, by decide +kernel⟩⟩

theorem witness_Loops :
    (∃ (s : State) (r : Req), s.ready r.rid 0x0300 r ∧ (s.loopDieAbsent (LoopSet.read r.buf) = false ∧ s.loopFails s.prog.stored (LoopSet.read r.buf) = none)) ∧
    (∃ (s : State) (r : Req), s.ready r.rid 0x0300 r ∧ (s.loopDieAbsent (LoopSet.read r.buf))) ∧
    (∃ (s : State) (r : Req), s.ready r.rid 0x0300 r ∧ (s.loopDieAbsent (LoopSet.read r.buf) = false ∧ s.loopFails s.prog.stored (LoopSet.read r.buf) = some (0, 1))) ∧
    (∃ (s : State) (r : Req), s.ready r.rid 0x0301 r ∧ (s.loop r.value = some ({ lrec := { handle := 1 } } : Loop) ∧ s.modes.mode = .run ∧ ({ lrec := { handle := 1 } } : Loop).parRun = none)) ∧
    (∃ (s : State) (r : Req), s.ready r.rid 0x0301 r ∧ (s.loop r.value = some ({ lrec := { handle := 1 } } : Loop) ∧ s.modes.mode ≠ .run)) ∧
    (∃ (s : State) (r : Req), s.ready r.rid 0x0302 r ∧ (s.loop r.value = some ({ lrec := { handle := 1 } } : Loop) ∧ (r.aux.toNat = 2 → s.outerOf r.value ≠ none) ∧ s.modes.mode = .run)) ∧
    (∃ (s : State) (r : Req), s.ready r.rid 0x0302 r ∧ (s.loop r.value = some ({ lrec := { handle := 1 } } : Loop) ∧ (r.aux.toNat = 2 → s.outerOf r.value ≠ none) ∧ s.modes.mode ≠ .run)) ∧
    (∃ (s : State) (r : Req), s.ready r.rid 0x0303 r ∧ (s.loop r.value = some ({ lrec := { handle := 1 } } : Loop))) ∧
    (∃ (s : State) (r : Req), s.ready r.rid 0x0304 r ∧ (s.loop r.value = some ({ lrec := { handle := 1 } } : Loop))) ∧
    (∃ (s : State) (t : Nat), let u := ((s.tick t).harvestDue none).outerFirst (1 : BitVec 16).toNat; u.loop (1 : BitVec 16).toNat = some ({ lrec := { handle := 1 } } : Loop) ∧ u.modes.mode = .run ∧ u.modes.role ≠ .follow ∧ u.leadsPair = false ∧ ({ lrec := { handle := 1 } } : Loop).smp = none ∧ ({ lrec := { handle := 1 } } : Loop).lrec.isSample u.mt = true ∧ u.modes.rstMt ≤ u.mt) ∧
    (∃ (s : State) (t : Nat), (s.tick t).loop (1 : BitVec 16).toNat = some ({ lrec := { handle := 1 }, smp := some ({ mt := 946684800000000000 + T - 160, lost := false } : LoopSmp) } : Loop) ∧ (s.tick t).commitDue ({ lrec := { handle := 1 }, smp := some ({ mt := 946684800000000000 + T - 160, lost := false } : LoopSmp) } : Loop) = some ({ mt := 946684800000000000 + T - 160, lost := false } : LoopSmp)) ∧
    (∃ (s : State) (l : Loop) (m : LoopSmp), l.smp = some m ∧ s.modes.mode = .run ∧ s.tileWaits (bits l.handle 13 3) = false ∧ s.mt = m.mt + 160) ∧
    (∃ l m : LoopSmp, l.lost = true ∧ m.lost = false) ∧
    (∃ (l : Loop) (m : LoopSmp), m.lost = false ∧ l.srcLost = false ∧ (l.commitNormal m).2 = false ∧ m.dyn = none) ∧
    (∃ l : Loop, l.parRun = none ∧ l.mode ≠ 2) ∧
    (∃ (s : State) (t : Nat), (s.tick t).loop (1 : BitVec 16).toNat = some ({ lrec := { handle := 1 }, pend := some (946684800000000000 + T, some (0, 0)) } : Loop) ∧ ({ lrec := { handle := 1 }, pend := some (946684800000000000 + T, some (0, 0)) } : Loop).pend = some ((946684800000000000 + T), some ((0, 0) : BitVec 32 × BitVec 32)) ∧ ({ lrec := { handle := 1 }, pend := some (946684800000000000 + T, some (0, 0)) } : Loop).ext = none ∧ (s.tick t).modes.mode = .run ∧ (946684800000000000 + T) ≤ (s.tick t).mt ∧ (s.tick t).tileWaits (bits ({ lrec := { handle := 1 }, pend := some (946684800000000000 + T, some (0, 0)) } : Loop).handle 13 3) = false) ∧
    (∃ w : BitVec 32, srcKind w = 1) ∧
    (∃ w : BitVec 32, srcKind w = 2) ∧
    (∃ l : Loop, l.lrec.type = 6) ∧
    (∃ l : Loop, l.lrec.type = 4) ∧
    (∃ l : Loop, l.lrec.type = 1) ∧
    (∃ (l : Loop) (m : LoopSmp), l.mode = 0 ∧ m.dyn = none) ∧
    (∃ (target rate : F) (raw : Bool), fbad target = true ∧ raw = true ∧ flt f0 rate = false) :=
  ⟨⟨withReq (b0) { rid := 7, opcode := 0x0300, phase := .ready }, { rid := 7, opcode := 0x0300, phase := .ready }, ⟨by decide +kernel, by decide +kernel, by decide +kernel, by decide +kernel⟩, by decide +kernel⟩,
   ⟨withReq ({ b0 with cfg := { b0.cfg with variant := .xkp02 } }) { rid := 7, opcode := 0x0300, phase := .ready, buf := [1, 0] ++ List.replicate 15 0 ++ [0xE0] ++ List.replicate 142 0 }, { rid := 7, opcode := 0x0300, phase := .ready, buf := [1, 0] ++ List.replicate 15 0 ++ [0xE0] ++ List.replicate 142 0 }, ⟨by decide +kernel, by decide +kernel, by decide +kernel, by decide +kernel⟩, by decide +kernel⟩,
   ⟨withReq (b0) { rid := 7, opcode := 0x0300, phase := .ready, buf := [1, 0] ++ List.replicate 158 0 }, { rid := 7, opcode := 0x0300, phase := .ready, buf := [1, 0] ++ List.replicate 158 0 }, ⟨by decide +kernel, by decide +kernel, by decide +kernel, by decide +kernel⟩, by decide +kernel⟩,
   ⟨withReq ({ b0 with loops := { b0.loops with loops := [(1, ({ lrec := { handle := 1 } } : Loop))] }, modes := { b0.modes with mode := .run } }) { rid := 7, opcode := 0x0301, phase := .ready, target := 1#64 }, { rid := 7, opcode := 0x0301, phase := .ready, target := 1#64 }, ⟨by decide +kernel, by decide +kernel, by decide +kernel, by decide +kernel⟩, by decide +kernel⟩,
   ⟨withReq ({ b0 with loops := { b0.loops with loops := [(1, ({ lrec := { handle := 1 } } : Loop))] }, modes := { b0.modes with mode := .hold } }) { rid := 7, opcode := 0x0301, phase := .ready, target := 1#64 }, { rid := 7, opcode := 0x0301, phase := .ready, target := 1#64 }, ⟨by decide +kernel, by decide +kernel, by decide +kernel, by decide +kernel⟩, by decide +kernel⟩,
   ⟨withReq ({ b0 with loops := { b0.loops with loops := [(1, ({ lrec := { handle := 1 } } : Loop))] }, modes := { b0.modes with mode := .run } }) { rid := 7, opcode := 0x0302, phase := .ready, aux := 1, target := 1#64 }, { rid := 7, opcode := 0x0302, phase := .ready, aux := 1, target := 1#64 }, ⟨by decide +kernel, by decide +kernel, by decide +kernel, by decide +kernel⟩, by decide +kernel⟩,
   ⟨withReq ({ b0 with loops := { b0.loops with loops := [(1, ({ lrec := { handle := 1 } } : Loop))] }, modes := { b0.modes with mode := .hold } }) { rid := 7, opcode := 0x0302, phase := .ready, target := 1#64, aux := 1 }, { rid := 7, opcode := 0x0302, phase := .ready, target := 1#64, aux := 1 }, ⟨by decide +kernel, by decide +kernel, by decide +kernel, by decide +kernel⟩, by decide +kernel⟩,
   ⟨withReq ({ b0 with loops := { b0.loops with loops := [(1, ({ lrec := { handle := 1 } } : Loop))] } }) { rid := 7, opcode := 0x0303, phase := .ready, target := 1#64 }, { rid := 7, opcode := 0x0303, phase := .ready, target := 1#64 }, ⟨by decide +kernel, by decide +kernel, by decide +kernel, by decide +kernel⟩, by decide +kernel⟩,
   ⟨withReq ({ b0 with loops := { b0.loops with loops := [(1, ({ lrec := { handle := 1 } } : Loop))] } }) { rid := 7, opcode := 0x0304, phase := .ready, target := 1#64 }, { rid := 7, opcode := 0x0304, phase := .ready, target := 1#64 }, ⟨by decide +kernel, by decide +kernel, by decide +kernel, by decide +kernel⟩, by decide +kernel⟩,
   ⟨{ b0 with loops := { b0.loops with loops := [(1, ({ lrec := { handle := 1 } } : Loop))] } }, T, by decide +kernel⟩,
   ⟨{ b0 with loops := { b0.loops with loops := [(1, ({ lrec := { handle := 1 }, smp := some ({ mt := 946684800000000000 + T - 160, lost := false } : LoopSmp) } : Loop))] } }, T, by decide +kernel⟩,
   ⟨b0.tick T, ({ lrec := { handle := 1 }, smp := some ({ mt := 946684800000000000 + T - 160, lost := false } : LoopSmp) } : Loop), ({ mt := 946684800000000000 + T - 160, lost := false } : LoopSmp), by decide +kernel⟩,
   ⟨{ lost := true }, {}, by decide⟩,
   ⟨{}, {}, by decide +kernel⟩,
   ⟨{}, by decide⟩,
   ⟨{ b0 with loops := { b0.loops with loops := [(1, ({ lrec := { handle := 1 }, pend := some (946684800000000000 + T, some (0, 0)) } : Loop))] }, modes := { b0.modes with mode := .run } }, T, by decide +kernel⟩,
   ⟨0x01000000#32, by decide⟩,
   ⟨0x02000000#32, by decide⟩,
   ⟨{ lrec := { type := 6 } }, rfl⟩,
   ⟨{ lrec := { type := 4 } }, rfl⟩,
   ⟨{ lrec := { type := 1 } }, rfl⟩,
   ⟨{}, {}, by decide⟩,
   ⟨0x7FC00000#32, f0, true, by decide +kernel⟩⟩

theorem witness_Chains :
    (∃ (s : State) (r : Req), s.ready r.rid 0x0402 r ∧ ((s.port r.value).enumerating = false)) ∧
    (∃ (s : State) , s.leadsPair = false ∧ (s.port 15).sweeps = [] ∧ s.guarded 15 = none ∧ 15 < 16) ∧
    (∃ (s : State) (r : Req), s.ready r.rid 0x0403 r ∧ (s.portPlan (rd r.buf 0 1) = some ({ port := 15, sats := 2 } : PortPlan) ∧ balBad ({ port := 15, sats := 2 } : PortPlan) r.buf = none ∧ s.modes.mode = .run)) ∧
    (∃ (s : State) (r : Req), s.ready r.rid 0x0403 r ∧ (s.portPlan (rd r.buf 0 1) = some ({ port := 15, sats := 2 } : PortPlan) ∧ balBad ({ port := 15, sats := 2 } : PortPlan) r.buf = none ∧ s.modes.mode ≠ .run)) ∧
    (∃ (s : State) (r : Req), s.ready r.rid 0x0403 r ∧ (s.portPlan (rd r.buf 0 1) = some ({ port := 15, sats := 2 } : PortPlan) ∧ balBad ({ port := 15, sats := 2 } : PortPlan) r.buf = some 0)) ∧
    (∃ (s : State) (r : Req), s.ready r.rid 0x0403 r ∧ (s.portPlan (rd r.buf 0 1) = none)) ∧
    (∃ (s : State) (t : Nat), ((s.tick t).port (15 : Fin 16).val).balPlan = some ({ endMt := 946684800000000000 + T } : BalPlan) ∧ ((s.tick t).port (15 : Fin 16).val).balActive ∧ ({ endMt := 946684800000000000 + T } : BalPlan).endMt ≠ 0 ∧ ({ endMt := 946684800000000000 + T } : BalPlan).endMt ≤ (s.tick t).mt) ∧
    (∃ (s : State) , 15 < 16 ∧ (s.port 15).balActive = true ∧ (s.port 15).balPlan = none) ∧
    (∃ (s : State) (t : Nat), (s.tick t).bonded (15 : Fin 16).val ∧ (s.tick t).drivesChain ∧ (s.tick t).frameMode (.enum 0) ∧ (s.tick t).canSend false ∧ (s.tick t).chainBusy (15 : Fin 16).val = false ∧ (s.tick t).frameSlot (15 : Fin 16).val false (.enum 0) ∧ (s.tick t).frameDue (15 : Fin 16).val false (.enum 0) ∧ (s.tick t).frameWins (15 : Fin 16).val (.enum 0) ∧ (s.tick t).leadsPair = false) ∧
    (∃ (s : State) (t : Nat), (s.tick t).bonded (15 : Fin 16).val ∧ (s.tick t).drivesChain ∧ (s.tick t).sweepMode ∧ (s.tick t).canSend false ∧ (s.tick t).chainBusy (15 : Fin 16).val = false ∧ (s.tick t).frameSlot (15 : Fin 16).val false .balStop ∧ ((s.tick t).port (15 : Fin 16).val).stopEnds.contains false ∧ (s.tick t).frameWins (15 : Fin 16).val .balStop ∧ (s.tick t).leadsPair = false) ∧
    (∃ (s : State) (t : Nat), let u := s.tick t; ((∃ i, (ChainSend.heartbeat 0) = .bal i ∨ ((ChainSend.heartbeat 0) = .heartbeat i ∧ i ≠ 0x3FF))) ∧ u.bonded (15 : Fin 16).val = true ∧ u.drivesChain = true ∧ u.frameMode (ChainSend.heartbeat 0) = true ∧ u.canSend false = true ∧ u.chainBusy (15 : Fin 16).val = false ∧ u.frameSlot (15 : Fin 16).val false (ChainSend.heartbeat 0) = true ∧ u.frameDue (15 : Fin 16).val false (ChainSend.heartbeat 0) = true ∧ u.frameWins (15 : Fin 16).val (ChainSend.heartbeat 0) = true ∧ u.leadsPair = false) ∧
    (∃ (s : State) (t : Nat), (s.tick t).frameDue (15 : Fin 16).val false (.enum 0) = false) ∧
    (∃ (s : State) (t : Nat), (s.tick t).live ∧ (s.tick t).bonded (15 : Fin 16).val ∧ (s.tick t).holdsEnd false ∧ chainGood (List.replicate 11 (0 : Byte)) = false) ∧
    (∃ (s : State) (t : Nat), (s.tick t).live ∧ (s.tick t).bonded (15 : Fin 16).val ∧ (s.tick t).holdsEnd false ∧ chainGood ack12 ∧ (s.tick t).follows = false ∧ (s.tick t).drivesChain ∧ (s.tick t).leadsPair = false ∧ ((s.tick t).port (15 : Fin 16).val).awaiting = some ({ f := .cfg 1 } : ChainWait) ∧ ({ f := .cfg 1 } : ChainWait).endB = false ∧ ({ f := .cfg 1 } : ChainWait).f = .cfg 1 ∧ ack12.length ≠ 28 ∧ rd ack12 0 1 = 0x82 ∧ bit (rd ack12 1 1) 2 = false ∧ bit (rd ack12 1 1) 3 = false ∧ ((s.tick t).port (15 : Fin 16).val).reaches false 1) ∧
    (∃ (s : State) , (s.port 15).enumerating = true ∧ (s.port 15).enumDoneA = true ∧ (s.port 15).enumDoneB = true ∧ (s.port 15).cfgTodo = [] ∧ (s.port 15).enumRid = none ∧ 15 < 16) ∧
    (∃ (s : State) (t : Nat), ((s.tick t).port (15 : Fin 16).val).awaiting = some ({ f := .cfg 1 } : ChainWait) ∧ ackOf ({ f := .cfg 1 } : ChainWait).f = some (1, 48) ∧ ({ f := .cfg 1 } : ChainWait).again = false ∧ (s.tick t).drivesChain ∧ ({ f := .cfg 1 } : ChainWait).sentAt + (s.tick t).chainDur (15 : Fin 16).val ({ f := .cfg 1 } : ChainWait).endB 1 48 0 + 10000 ≤ (s.tick t).now ∧ (s.tick t).frameDue (15 : Fin 16).val ({ f := .cfg 1 } : ChainWait).endB ({ f := .cfg 1 } : ChainWait).f ∧ (s.tick t).frameMode ({ f := .cfg 1 } : ChainWait).f ∧ (s.tick t).frameSlot (15 : Fin 16).val ({ f := .cfg 1 } : ChainWait).endB ({ f := .cfg 1 } : ChainWait).f ∧ (s.tick t).canSend ({ f := .cfg 1 } : ChainWait).endB ∧ (s.tick t).leadsPair = false) ∧
    (∃ (s : State) (t : Nat), ((s.tick t).port (15 : Fin 16).val).awaiting = some ({ f := .cfg 1, again := true } : ChainWait) ∧ ({ f := .cfg 1, again := true } : ChainWait).f = .cfg 1 ∧ ackOf ({ f := .cfg 1, again := true } : ChainWait).f = some (1, 48) ∧ ({ f := .cfg 1, again := true } : ChainWait).again ∧ (s.tick t).drivesChain ∧ ({ f := .cfg 1, again := true } : ChainWait).sentAt + (s.tick t).chainDur (15 : Fin 16).val ({ f := .cfg 1, again := true } : ChainWait).endB 1 48 0 + 10000 ≤ (s.tick t).now ∧ (s.tick t).leadsPair = false) ∧
    (∃ (s : State) (t : Nat), ((s.tick t).port (15 : Fin 16).val).awaiting = some { f := .enum 0, endB := true, sentAt := (T - 200000), again := false } ∧ (T - 200000) + 200000 ≤ (s.tick t).now ∧ ((s.tick t).port (15 : Fin 16).val).enumerating ∧ (s.tick t).leadsPair = false ∧ (if true then ((s.tick t).port (15 : Fin 16).val).enumDoneB else ((s.tick t).port (15 : Fin 16).val).enumDoneA) = false) ∧
    (([] : List Byte).length < 65536) :=
  ⟨⟨withReq (((b0 : State).setPort 0 { enumerating := false })) { rid := 7, opcode := 0x0402, phase := .ready }, { rid := 7, opcode := 0x0402, phase := .ready }, ⟨by decide +kernel, by decide +kernel, by decide +kernel, by decide +kernel⟩, by decide +kernel⟩,
   ⟨((b0 : State).setPort 15 { sweeps := [] }), by decide +kernel⟩,
   ⟨withReq ({ b0 with cells := { b0.cells with plan := some { ports := [({ port := 15, sats := 2 } : PortPlan)] } }, modes := { b0.modes with mode := .run } }) { rid := 7, opcode := 0x0403, phase := .ready, buf := [15, 0, 0, 0] }, { rid := 7, opcode := 0x0403, phase := .ready, buf := [15, 0, 0, 0] }, ⟨by decide +kernel, by decide +kernel, by decide +kernel, by decide +kernel⟩, by decide +kernel⟩,
   ⟨withReq ({ b0 with cells := { b0.cells with plan := some { ports := [({ port := 15, sats := 2 } : PortPlan)] } }, modes := { b0.modes with mode := .hold } }) { rid := 7, opcode := 0x0403, phase := .ready, buf := [15, 0, 0, 0] }, { rid := 7, opcode := 0x0403, phase := .ready, buf := [15, 0, 0, 0] }, ⟨by decide +kernel, by decide +kernel, by decide +kernel, by decide +kernel⟩, by decide +kernel⟩,
   ⟨withReq ({ b0 with cells := { b0.cells with plan := some { ports := [({ port := 15, sats := 2 } : PortPlan)] } } }) { rid := 7, opcode := 0x0403, phase := .ready, buf := [15, 0, 1, 0, 0, 0, 0, 0, 0, 0, 0, 0, 0, 0, 0, 0] ++ [9, 0, 0, 0] }, { rid := 7, opcode := 0x0403, phase := .ready, buf := [15, 0, 1, 0, 0, 0, 0, 0, 0, 0, 0, 0, 0, 0, 0, 0] ++ [9, 0, 0, 0] }, ⟨by decide +kernel, by decide +kernel, by decide +kernel, by decide +kernel⟩, by decide +kernel⟩,
   ⟨withReq (b0) { rid := 7, opcode := 0x0403, phase := .ready, buf := [15, 0, 0, 0] }, { rid := 7, opcode := 0x0403, phase := .ready, buf := [15, 0, 0, 0] }, ⟨by decide +kernel, by decide +kernel, by decide +kernel, by decide +kernel⟩, by decide +kernel⟩,
   ⟨((b0 : State).setPort 15 { balPlan := some ({ endMt := 946684800000000000 + T } : BalPlan), balActive := true }), T, by decide +kernel⟩,
   ⟨((b0 : State).setPort 15 { balActive := true, balPlan := none }), by decide +kernel⟩,
   ⟨(({ b0 with cfg := { b0.cfg with ee := { b0.cfg.ee with slots := 1 } } } : State).setPort 15 { enumerating := true }), T, by decide +kernel⟩,
   ⟨(({ b0 with cfg := { b0.cfg with ee := { b0.cfg.ee with slots := 1 } } } : State).setPort 15 { stopEnds := [false] }), T, by decide +kernel⟩,
   ⟨(({ b0 with cells := { b0.cells with plan := some { ports := [({ port := 15, sats := 2 } : PortPlan)] } }, cfg := { b0.cfg with ee := { b0.cfg.ee with slots := 1 } } } : State).setPort 15 { ready := true, reachA := some 1, sweeps := [{ readSent := true, closed := true, estimated := true }] }), T + 1000000, ⟨⟨0, Or.inr ⟨rfl, by decide⟩⟩, by decide +kernel⟩⟩,
   ⟨b0, T, by decide +kernel⟩,
   ⟨{ b0 with cfg := { b0.cfg with ee := { b0.cfg.ee with slots := 1 } } }, T, by decide +kernel⟩,
   ⟨(({ b0 with cfg := { b0.cfg with ee := { b0.cfg.ee with slots := 1 } } } : State).setPort 15 { awaiting := some { f := .cfg 1 }, reachA := some 1 }), T, by decide +kernel⟩,
   ⟨((b0 : State).setPort 15 { enumerating := true, enumDoneA := true, enumDoneB := true, cfgTodo := [], enumRid := none }), by decide +kernel⟩,
   ⟨(({ b0 with cfg := { b0.cfg with ee := { b0.cfg.ee with slots := 1 } } } : State).setPort 15 { awaiting := some { f := .cfg 1 }, reachA := some 1, cfgTodo := [1] }), T, by decide +kernel⟩,
   ⟨((b0 : State).setPort 15 { awaiting := some ({ f := .cfg 1, again := true } : ChainWait) }), T, by decide +kernel⟩,
   ⟨((b0 : State).setPort 15 { awaiting := some { f := .enum 0, endB := true, sentAt := (T - 200000), again := false }, enumerating := true }), T, by decide +kernel⟩,
   by decide +kernel⟩

theorem witness_SweepsAndTone :
    (∃ (s : State) (r : Req), s.ready r.rid 0x0405 r ∧ (s.portPlan r.value ≠ none ∧ (s.port r.value).probing = false)) ∧
    (∃ (s : State) (r : Req), s.ready r.rid 0x0405 r ∧ (s.portPlan r.value ≠ none ∧ (s.port r.value).probing)) ∧
    (∃ (s : State) (r : Req), s.ready r.rid 0x0405 r ∧ (s.portPlan r.value = none)) ∧
    (∃ (s : State) (t : Nat), let u := s.tick t; u.cells.plan = some ({ ports := [({ port := 15, sats := 2 } : PortPlan)] } : CellPlan) ∧ u.portPlan (15 : Fin 16).val = some ({ port := 15, sats := 2 } : PortPlan) ∧ ({ ports := [({ port := 15, sats := 2 } : PortPlan)] } : CellPlan).isInstant (u.mt + 400000) = true ∧ u.sweepMode = true ∧ (u.port (15 : Fin 16).val).ready = true ∧ (u.port (15 : Fin 16).val).sweeps = [] ∧ (u.port (15 : Fin 16).val).probing = false ∧ (u.port (15 : Fin 16).val).broken = false ∧ u.drivesChain = true ∧ u.leadsPair = false ∧ u.holdsEnd u.cmdEnd = true) ∧
    (∃ (s : State) , s.cells.seqMt ≠ some 5) ∧
    (∃ (s : State) (t : Nat), let u := s.tick t; (u.port (15 : Fin 16).val).sweeps = [({ mt := 946684800000000000 + T - 30000 } : Sweep)] ∧ ({ mt := 946684800000000000 + T - 30000 } : Sweep).skip = false ∧ ({ mt := 946684800000000000 + T - 30000 } : Sweep).dead = false ∧ ({ mt := 946684800000000000 + T - 30000 } : Sweep).readSent = false ∧ ({ mt := 946684800000000000 + T - 30000 } : Sweep).closed = false ∧ ({ mt := 946684800000000000 + T - 30000 } : Sweep).probe = none ∧ ({ mt := 946684800000000000 + T - 30000 } : Sweep).both = false ∧ u.mt = ({ mt := 946684800000000000 + T - 30000 } : Sweep).mt + 30000 ∧ u.sweepMode = true ∧ u.drivesChain = true ∧ u.leadsPair = false ∧ u.holdsEnd u.cmdEnd = true ∧ 0 < u.sats (15 : Fin 16).val) ∧
    (∃ (s : State) (t : Nat), (s.tick t).live ∧ (s.tick t).bonded (15 : Fin 16).val ∧ (s.tick t).holdsEnd false ∧ (List.replicate 75 (0 : Byte)).length ≠ 74 ∧ (List.replicate 75 (0 : Byte)).length ≠ 106) ∧
    (∃ (s : State) (t : Nat), (s.tick t).live ∧ (s.tick t).bonded (15 : Fin 16).val ∧ (s.tick t).holdsEnd false ∧ (List.replicate 73 (0 : Byte) ++ [1]).length = 74 ∧ (crc16 ((List.replicate 73 (0 : Byte) ++ [1]).take 72)).toNat ≠ rd (List.replicate 73 (0 : Byte) ++ [1]) 72 2) ∧
    (∃ (s : State) (t : Nat), (s.tick t).live ∧ (s.tick t).bonded (15 : Fin 16).val ∧ (s.tick t).holdsEnd false ∧ blk74.length = 74 ∧ (crc16 (blk74.take 72)).toNat = rd blk74 72 2 ∧ (s.tick t).follows = false ∧ (s.tick t).leadsPair = false) ∧
    (∃ (s : State) (w : Sweep), (s.port 15).sweeps = [w] ∧ w.skip = false ∧ w.dead = false ∧ w.readSent = true ∧ w.closed = true ∧ tfind w.got 0 = none ∧ satAt (s.sats 15) false (bits (rd blk74 0 2) 0 10) = some 0 ∧ bit (rd blk74 0 2) 10 = false ∧ bit (rd blk74 0x46 2) 14 = false ∧ (s.port 15).enumerating = true) ∧
    (∃ (s : State) (t : Nat), (s.tick t).portPlan (15 : Fin 16).val ≠ none ∧ ((s.tick t).port (15 : Fin 16).val).ready ∧ (s.tick t).sweepMode ∧ (s.tick t).drivesChain ∧ (s.tick t).leadsPair = false ∧ (((s.tick t).port (15 : Fin 16).val).suspect ∨ (s.tick t).lateRead (15 : Fin 16).val false ≠ none ∨ (s.tick t).lateRead (15 : Fin 16).val true ≠ none) ∧ (((s.tick t).locate (15 : Fin 16).val ((s.tick t).reachNow (15 : Fin 16).val false none) ((s.tick t).reachNow (15 : Fin 16).val true none)).port (15 : Fin 16).val).current = none) ∧
    (∃ (s : State) , 15 < 16 ∧ s.guarded 15 = none ∧ s.canSend false = true ∧ s.canSend true = true ∧ 1 ≠ 0 ∧ (s.port 15).broken = false) ∧
    (∃ (s : State) (t : Nat), (s.tick t).live ∧ (s.tick t).bonded (15 : Fin 16).val ∧ (s.tick t).holdsEnd true) ∧
    (∃ (s : State) (t : Nat), (s.tick t).live ∧ (s.tick t).bonded (15 : Fin 16).val ∧ (s.tick t).holdsEnd true = false ∧ (s.tick t).twinUp) ∧
    (∃ (s : State) (t : Nat), (s.tick t).cfg.ee.slots ≠ 1 ∧ ((s.tick t).port (15 : Fin 16).val).toneFarAt + 30000 < (s.tick t).now ∧ (if (s.tick t).slotB then ((s.tick t).port (15 : Fin 16).val).toneA else ((s.tick t).port (15 : Fin 16).val).toneB) ≠ .none) ∧
    (∃ (s : State) , 15 < 16 ∧ s.guarded 15 = none) ∧
    (∃ (s : State) (t : Nat), (s.tick t).live ∧ (s.tick t).bonded (15 : Fin 16).val) ∧
    (∃ (s : State) , 15 < 16 ∧ s.guarded 15 = none) ∧
    (∃ (s : State) , 15 < 16 ∧ s.guarded 15 = some (2, 5) ∧ s.faultTone 15 = true) ∧
    (∃ s : State, s.guarded 15 = some (2, 5) ∧ s.faultTone 15 = false ∧ s.gapNow 15 = true ∧ (s.port 15).gapSince = some 0 ∧ 0 + 5 * 1000000 ≤ s.now) ∧
    (∃ (s : State) , 15 < 16 ∧ s.guarded 15 = some (2, 5) ∧ s.faultTone 15 = false ∧ s.gapNow 15 = false) ∧
    ((0 : BitVec 10) ≠ 0x3FF) :=
  ⟨⟨withReq ((({ b0 with cells := { b0.cells with plan := some { ports := [({ port := 0, sats := 2 } : PortPlan)] } } } : State).setPort 0 { probing := false })) { rid := 7, opcode := 0x0405, phase := .ready }, { rid := 7, opcode := 0x0405, phase := .ready }, ⟨by decide +kernel, by decide +kernel, by decide +kernel, by decide +kernel⟩, by decide +kernel⟩,
   ⟨withReq ((({ b0 with cells := { b0.cells with plan := some { ports := [({ port := 0, sats := 2 } : PortPlan)] } } } : State).setPort 0 { probing := true })) { rid := 7, opcode := 0x0405, phase := .ready }, { rid := 7, opcode := 0x0405, phase := .ready }, ⟨by decide +kernel, by decide +kernel, by decide +kernel, by decide +kernel⟩, by decide +kernel⟩,
   ⟨withReq (b0) { rid := 7, opcode := 0x0405, phase := .ready }, { rid := 7, opcode := 0x0405, phase := .ready }, ⟨by decide +kernel, by decide +kernel, by decide +kernel, by decide +kernel⟩, by decide +kernel⟩,
   ⟨(({ b0 with cells := { b0.cells with plan := some { ports := [({ port := 15, sats := 2 } : PortPlan)] } }, cfg := { b0.cfg with ee := { b0.cfg.ee with slots := 1 } } } : State).setPort 15 { ready := true, sweeps := [], probing := false, broken := false }), T - 400000, by decide +kernel⟩,
   ⟨b0, by decide +kernel⟩,
   ⟨(({ b0 with cells := { b0.cells with plan := some { ports := [({ port := 15, sats := 2 } : PortPlan)] } }, cfg := { b0.cfg with ee := { b0.cfg.ee with slots := 1 } } } : State).setPort 15 { sweeps := [({ mt := 946684800000000000 + T - 30000 } : Sweep)] }), T, by decide +kernel⟩,
   ⟨{ b0 with cfg := { b0.cfg with ee := { b0.cfg.ee with slots := 1 } } }, T, by decide +kernel⟩,
   ⟨{ b0 with cfg := { b0.cfg with ee := { b0.cfg.ee with slots := 1 } } }, T, by decide +kernel⟩,
   ⟨{ b0 with cfg := { b0.cfg with ee := { b0.cfg.ee with slots := 1 } } }, T, by decide +kernel⟩,
   ⟨(({ b0 with cells := { b0.cells with plan := some ({ ports := [({ port := 15, sats := 2 } : PortPlan)] } : CellPlan) } } : State).setPort 15 { sweeps := [{ readSent := true, closed := true }], enumerating := true }), { readSent := true, closed := true }, by decide +kernel⟩,
   ⟨(({ b0 with cells := { b0.cells with plan := some { ports := [({ port := 15, sats := 2 } : PortPlan)] } }, cfg := { b0.cfg with ee := { b0.cfg.ee with slots := 1 } } } : State).setPort 15 { suspect := true, ready := true }), T, by decide +kernel⟩,
   ⟨(({ b0 with cfg := { b0.cfg with ee := { b0.cfg.ee with slots := 1 } } } : State).setPort 15 { broken := false }), by decide +kernel⟩,
   ⟨{ b0 with cfg := { b0.cfg with ee := { b0.cfg.ee with slots := 1 } } }, T, by decide +kernel⟩,
   ⟨{ b0 with twin := { b0.twin with lanes := 6 } }, T, by decide +kernel⟩,
   ⟨(({ b0 with cfg := { b0.cfg with slotId := 1 } } : State).setPort 15 { toneA := .healthy }), T, by decide +kernel⟩,
   ⟨b0, by decide +kernel⟩,
   ⟨b0, T, by decide +kernel⟩,
   ⟨b0, by decide +kernel⟩,
   ⟨(({ b0 with trip := { b0.trip with strs := [(15, (2, 5))] } } : State).setPort 15 { toneA := .fault }), by decide +kernel⟩,
   ⟨(({ b0 with trip := { b0.trip with strs := [(15, (2, 5))] } } : State).tick T).setPort 15 { gapSince := some 0 }, by decide +kernel⟩,
   ⟨(({ b0 with trip := { b0.trip with strs := [(15, (2, 5))] } } : State).setPort 15 { toneA := .healthy, toneB := .healthy, chain := 1 }), by decide +kernel⟩,
   by decide +kernel⟩

theorem witness_CellsAndContactors :
    (∃ (s : State) (r : Req), s.ready r.rid 0x0400 r ∧ (s.planFails (CellPlan.read r.buf) = none)) ∧
    (∃ (s : State) (r : Req), s.ready r.rid 0x0400 r ∧ (s.planFails (CellPlan.read r.buf) = some (stAdmission, 2))) ∧
    (∃ (s : State) (r : Req), s.ready r.rid 0x0401 r ∧ (True)) ∧
    (∃ (s : State) (r : Req), s.ready r.rid 0x0404 r ∧ (s.contFails ((contEntries r.buf).map Contactor.read) = none ∧ s.modes.mode ≠ .run)) ∧
    (∃ (s : State) (r : Req), s.ready r.rid 0x0404 r ∧ (s.contFails ((contEntries r.buf).map Contactor.read) = none ∧ s.modes.mode = .run)) ∧
    (∃ (s : State) (r : Req), s.ready r.rid 0x0404 r ∧ (s.contFails ((contEntries r.buf).map Contactor.read) = some (stNotPresent, 0))) ∧
    (∃ (s : State) (r : Req), s.ready r.rid 0x0406 r ∧ (True)) ∧
    (∃ (s : State) (r : Req), s.ready r.rid 0x0407 r ∧ (r.value < 2 ^ 17 ∧ s.portPlan (r.value / 8192) = some ({ port := 15, sats := 2 } : PortPlan) ∧ r.value % 8192 / 16 < ({ port := 15, sats := 2 } : PortPlan).sats)) ∧
    (∃ (s : State) (r : Req), s.ready r.rid 0x0407 r ∧ (r.value < 2 ^ 17 ∧ s.portPlan (r.value / 8192) = some ({ port := 15, sats := 2 } : PortPlan) ∧ ({ port := 15, sats := 2 } : PortPlan).sats ≤ r.value % 8192 / 16)) ∧
    (∃ (s : State) (t : Nat), (s.tick t).estPlan (15 : Fin 16).val = some ({ port := 15 } : EstPlan) ∧ (s.tick t).cells.plan = some ({ ports := [({ port := 15, sats := 2 } : PortPlan)], ests := [({ port := 15 } : EstPlan)] } : CellPlan) ∧ (s.tick t).modes.role ≠ .follow ∧ (s.tick t).leadsPair = false ∧ (s.tick t).sweepMode ∧ ((s.tick t).mt % 100000 = 0 ∨ ({ ports := [({ port := 15, sats := 2 } : PortPlan)], ests := [({ port := 15 } : EstPlan)] } : CellPlan).isInstant (s.tick t).mt)) ∧
    (∃ (s : State) , s.cells.plan = none ∧ (s.port 15).sweeps = [] ∧ 0 % 100000 = 0) ∧
    (∃ (s : State) (t : Nat), let u := s.tick t; u.cells.plan = some ({ ports := [({ port := 15, sats := 2 } : PortPlan)], ests := [({ port := 15 } : EstPlan)] } : CellPlan) ∧ u.portPlan (15 : Fin 16).val = some ({ port := 15, sats := 2 } : PortPlan) ∧ u.estPlan (15 : Fin 16).val = some ({ port := 15 } : EstPlan) ∧ u.sweepMode = true ∧ u.portWaits ({ port := 15, sats := 2 } : PortPlan) = false ∧ (u.port (15 : Fin 16).val).sweeps = [({ mt := 1, closed := true } : Sweep)] ∧ ({ mt := 1, closed := true } : Sweep).estimated = false ∧ ({ mt := 1, closed := true } : Sweep).mt < u.mt ∧ ({ mt := 1, closed := true } : Sweep).closed = true) ∧
    (∃ (s : State) (t : Nat), (s.tick t).cells.plan = none ∨ (s.tick t).cells.fin = []) ∧
    (∃ (s : State) (t : Nat), let u := s.tick t; u.cells.plan = some ({ ports := [({ port := 15, sats := 2 } : PortPlan)] } : CellPlan) ∧ ({ ports := [({ port := 15, sats := 2 } : PortPlan)] } : CellPlan).ports = [({ port := 15, sats := 2 } : PortPlan)] ∧ u.cells.fin = [({ port := 15, mt := 946684800000000000 + T - 10000000 } : EstDone)] ∧ ({ port := 15, mt := 946684800000000000 + T - 10000000 } : EstDone).port = ({ port := 15, sats := 2 } : PortPlan).port ∧ u.mt = ({ port := 15, mt := 946684800000000000 + T - 10000000 } : EstDone).mt + ({ ports := [({ port := 15, sats := 2 } : PortPlan)] } : CellPlan).sweepPeriod * 1000000 + 500000 ∧ ({ ports := [({ port := 15, sats := 2 } : PortPlan)] } : CellPlan).isInstant ({ port := 15, mt := 946684800000000000 + T - 10000000 } : EstDone).mt = true ∧ u.cells.lastPub ≠ ({ port := 15, mt := 946684800000000000 + T - 10000000 } : EstDone).mt ∧ u.sweepMode = true) ∧
    (∃ (s : State) (t : Nat), (s.tick t).cells.lastCommit + 10000000000 ≤ (s.tick t).now) ∧
    (∃ (s : State) (t : Nat), (s.tick t).now < (s.tick t).cells.lastCommit + 10000000000) ∧
    (∃ (s : State) (t : Nat), ((s.tick t).harvestDue none).modes.mode = .run ∧ ((s.tick t).harvestDue none).mt % 1000000 = 0 ∧ ((s.tick t).harvestDue none).follows = false ∧ (((s.tick t).harvestDue none).contDue ((s.tick t).harvestDue none).mt).leadsPair = false) ∧
    (∃ (s : State) , s.cells.contWait = []) ∧
    (∃ k : ContactorRun, k.leaving = false) ∧
    (∃ (s : State) , 1 ≤ ({ state := 3, plan := { port := 15 } } : ContactorRun).state ∧ ({ state := 3, plan := { port := 15 } } : ContactorRun).state ≤ 4 ∧ (s.port ({ state := 3, plan := { port := 15 } } : ContactorRun).plan.port).tripSrc ≠ 0) ∧
    (∃ (s : State) , (({ state := 1 } : ContactorRun).state = 1 ∨ ({ state := 1 } : ContactorRun).state = 2) ∧ (s.varValue ({ state := 1 } : ContactorRun).plan.req 1).1 = 0) ∧
    (∃ (s : State) , ({ state := 3, plan := { port := 15 } } : ContactorRun).state = 3 ∧ (s.port ({ state := 3, plan := { port := 15 } } : ContactorRun).plan.port).tripSrc = 0) :=
  ⟨⟨withReq (b0) { rid := 7, opcode := 0x0400, phase := .ready, buf := [10, 0, 0, 0, 0, 0, 0, 0, 0, 0, 0, 0, 0, 0, 0, 0, 0, 1, 1, 0] ++ List.replicate 12 0 }, { rid := 7, opcode := 0x0400, phase := .ready, buf := [10, 0, 0, 0, 0, 0, 0, 0, 0, 0, 0, 0, 0, 0, 0, 0, 0, 1, 1, 0] ++ List.replicate 12 0 }, ⟨by decide +kernel, by decide +kernel, by decide +kernel, by decide +kernel⟩, by decide +kernel⟩,
   ⟨withReq (b0) { rid := 7, opcode := 0x0400, phase := .ready }, { rid := 7, opcode := 0x0400, phase := .ready }, ⟨by decide +kernel, by decide +kernel, by decide +kernel, by decide +kernel⟩, by decide +kernel⟩,
   ⟨withReq (b0) { rid := 7, opcode := 0x0401, phase := .ready }, { rid := 7, opcode := 0x0401, phase := .ready }, ⟨by decide +kernel, by decide +kernel, by decide +kernel, by decide +kernel⟩, by decide +kernel⟩,
   ⟨withReq ({ b0 with modes := { b0.modes with mode := .hold } }) { rid := 7, opcode := 0x0404, phase := .ready }, { rid := 7, opcode := 0x0404, phase := .ready }, ⟨by decide +kernel, by decide +kernel, by decide +kernel, by decide +kernel⟩, by decide +kernel⟩,
   ⟨withReq ({ b0 with modes := { b0.modes with mode := .run } }) { rid := 7, opcode := 0x0404, phase := .ready }, { rid := 7, opcode := 0x0404, phase := .ready }, ⟨by decide +kernel, by decide +kernel, by decide +kernel, by decide +kernel⟩, by decide +kernel⟩,
   ⟨withReq (b0) { rid := 7, opcode := 0x0404, phase := .ready, buf := [1, 0] ++ List.replicate 78 0 }, { rid := 7, opcode := 0x0404, phase := .ready, buf := [1, 0] ++ List.replicate 78 0 }, ⟨by decide +kernel, by decide +kernel, by decide +kernel, by decide +kernel⟩, by decide +kernel⟩,
   ⟨withReq (b0) { rid := 7, opcode := 0x0406, phase := .ready }, { rid := 7, opcode := 0x0406, phase := .ready }, ⟨by decide +kernel, by decide +kernel, by decide +kernel, by decide +kernel⟩, by decide +kernel⟩,
   ⟨withReq ({ b0 with cells := { b0.cells with plan := some { ports := [({ port := 15, sats := 2 } : PortPlan)] } } }) { rid := 7, opcode := 0x0407, phase := .ready, target := 122896#64 }, { rid := 7, opcode := 0x0407, phase := .ready, target := 122896#64 }, ⟨by decide +kernel, by decide +kernel, by decide +kernel, by decide +kernel⟩, by decide +kernel⟩,
   ⟨withReq ({ b0 with cells := { b0.cells with plan := some { ports := [({ port := 15, sats := 2 } : PortPlan)] } } }) { rid := 7, opcode := 0x0407, phase := .ready, target := 122912#64 }, { rid := 7, opcode := 0x0407, phase := .ready, target := 122912#64 }, ⟨by decide +kernel, by decide +kernel, by decide +kernel, by decide +kernel⟩, by decide +kernel⟩,
   ⟨{ b0 with cells := { b0.cells with plan := some ({ ports := [({ port := 15, sats := 2 } : PortPlan)], ests := [({ port := 15 } : EstPlan)] } : CellPlan) } }, 0, by decide +kernel⟩,
   ⟨(({ b0 with cells := { b0.cells with plan := none } } : State).setPort 15 { sweeps := [] }), by decide +kernel⟩,
   ⟨(({ b0 with cells := { b0.cells with plan := some ({ ports := [({ port := 15, sats := 2 } : PortPlan)], ests := [({ port := 15 } : EstPlan)] } : CellPlan) } } : State).setPort 15 { sweeps := [({ mt := 1, closed := true } : Sweep)] }), T, by decide +kernel⟩,
   ⟨b0, T, by decide +kernel⟩,
   ⟨{ b0 with cells := { b0.cells with plan := some { ports := [({ port := 15, sats := 2 } : PortPlan)] }, fin := [({ port := 15, mt := 946684800000000000 + T - 10000000 } : EstDone)] } }, T + 500000, by decide +kernel⟩,
   ⟨b0, T, by decide +kernel⟩,
   ⟨{ b0 with cells := { b0.cells with lastCommit := T } }, T, by decide +kernel⟩,
   ⟨b0, 0, by decide +kernel⟩,
   ⟨{ b0 with cells := { b0.cells with contWait := [] } }, by decide +kernel⟩,
   ⟨{}, rfl⟩,
   ⟨((b0 : State).setPort 15 { tripSrc := 1 }), by decide +kernel⟩,
   ⟨b0, by decide +kernel⟩,
   ⟨b0, by decide +kernel⟩⟩

theorem witness_TripNetwork :
    (∃ (s : State) (r : Req), s.ready r.rid 0x0880 r ∧ (s.tripMasksAbsent r.buf)) ∧
    (∃ (s : State) (r : Req), s.ready r.rid 0x0880 r ∧ (s.tripMasksAbsent r.buf = false)) ∧
    (∃ (s : State) (r : Req), s.ready r.rid 0x0882 r ∧ (True)) ∧
    (∃ (s : State) (r : Req), s.ready r.rid 0x0883 r ∧ (True)) ∧
    (∃ (s : State) (t : Nat), True) ∧
    (∃ (s : State) (t : Nat), True) ∧
    (∃ (s : State) (t : Nat), (s.tick t).diePresent (1 : Fin 8).val ∧ 920 < (921#16).toInt ∧ (s.tick t).trip.overTemp ∧ (s.tick t).pwr.temps = []) ∧
    (∃ (s : State) (t : Nat), (s.tick t).coil (7 : Fin 8).val ∧ ((s.tick t).tripOut (7 : Fin 8).val).pulseTest ∧ ((s.tick t).tripOut (7 : Fin 8).val).testAt + ((s.tick t).tripOut (7 : Fin 8).val).testInterval * 1000000000 ≤ (s.tick t).now) ∧
    (∃ (s : State) (t : Nat), (s.tick t).trip.armed ∧ ((s.tick t).tripOut (7 : Fin 8).val).switchFault = false) ∧
    (∃ (s : State) (t : Nat), (s.tick t).overdue (31 : Fin 32).val ∧ tfind (s.tick t).trip.proofAt (31 : Fin 32).val = none) ∧
    (∃ (s : State) , s.trip.loaded = false) ∧
    (∃ (s : State) , s.trip.loaded = true) ∧
    (∃ (s : State) , 8 ≤ 23 ∧ 23 < 24) :=
  ⟨⟨withReq ({ b0 with cfg := { b0.cfg with variant := .xkp02 } }) { rid := 7, opcode := 0x0880, phase := .ready, buf := List.replicate 18 0 ++ [0x80, 0] }, { rid := 7, opcode := 0x0880, phase := .ready, buf := List.replicate 18 0 ++ [0x80, 0] }, ⟨by decide +kernel, by decide +kernel, by decide +kernel, by decide +kernel⟩, by decide +kernel⟩,
   ⟨withReq (b0) { rid := 7, opcode := 0x0880, phase := .ready }, { rid := 7, opcode := 0x0880, phase := .ready }, ⟨by decide +kernel, by decide +kernel, by decide +kernel, by decide +kernel⟩, by decide +kernel⟩,
   ⟨withReq (b0) { rid := 7, opcode := 0x0882, phase := .ready }, { rid := 7, opcode := 0x0882, phase := .ready }, ⟨by decide +kernel, by decide +kernel, by decide +kernel, by decide +kernel⟩, by decide +kernel⟩,
   ⟨withReq (b0) { rid := 7, opcode := 0x0883, phase := .ready }, { rid := 7, opcode := 0x0883, phase := .ready }, ⟨by decide +kernel, by decide +kernel, by decide +kernel, by decide +kernel⟩, by decide +kernel⟩,
   ⟨b0, T, by decide +kernel⟩,
   ⟨b0, T, by decide +kernel⟩,
   ⟨{ b0 with trip := { b0.trip with overTemp := true }, pwr := { b0.pwr with temps := [] } }, T, by decide +kernel⟩,
   ⟨(({ b0 with trip := { b0.trip with loaded := true } } : State).setTripOut 7 { ctrl := 9 }), T, by decide +kernel⟩,
   ⟨(({ b0 with trip := { b0.trip with loaded := true } } : State).setTripOut 7 { switchFault := false }), T, by decide +kernel⟩,
   ⟨{ b0 with trip := { b0.trip with outs := [(7, { ctrl := 1, orMask := 0x80000000 })], proofDays := 1, namedAt := [(31, 0)] } }, T, by decide +kernel⟩,
   ⟨{ b0 with trip := { b0.trip with loaded := false } }, by decide +kernel⟩,
   ⟨{ b0 with trip := { b0.trip with loaded := true } }, by decide +kernel⟩,
   ⟨b0, by decide +kernel⟩⟩

theorem witness_SafetyFunctions :
    (∃ (s : State) (r : Req), s.ready r.rid 0x0881 r ∧ (let fs := (entriesOf 64 (slice r.buf 16 (64 * rd r.buf 4 2))).map SafeFn.read; fs.any (fun f => f.ins.any s.safeInAbsent) = false ∧ fs.find? (fun f => f.pst < s.reactionTime f (rd r.buf 0 4)) = none)) ∧
    (∃ (s : State) (r : Req) (f : SafeFn), s.ready r.rid 0x0881 r ∧ (let fs := (entriesOf 64 (slice r.buf 16 (64 * rd r.buf 4 2))).map SafeFn.read; fs.any (fun f => f.ins.any s.safeInAbsent) = false ∧ fs.find? (fun f => f.pst < s.reactionTime f (rd r.buf 0 4)) = some f)) ∧
    (∃ (s : State) (r : Req), s.ready r.rid 0x0884 r ∧ (True)) ∧
    (∃ (s : State) (t : Nat), (s.tick t).trip.evaluating ∧ (s.tick t).trip.periodAt + (s.tick t).trip.period * 1000 ≤ (s.tick t).now ∧ (s.tick t).trip.newFns = some (10, [])) ∧
    (∃ (s : State) (t : Nat), let u := s.tick t; u.trip.evaluating = true ∧ u.trip.periodAt + u.trip.period * 1000 ≤ u.now ∧ u.trip.newFns = none ∧ u.trip.fns = [({} : SafeFn)]) ∧
    (∃ t : Trip, t.evaluating = false ∨ t.safetyBad = true) ∧
    (∃ t : Trip, t.evaluating = true ∧ t.safetyBad = false ∧ t.wardPeriodDone = true) ∧
    (∃ (s : State) , ({} : SafeIn).kind = 0 ∧ ({} : SafeIn).cond = 0) ∧
    (∃ (s : State) , ({ kind := 2, cond := 2 } : SafeIn).kind = 2 ∧ ({ kind := 2, cond := 2 } : SafeIn).cond = 2) :=
  ⟨⟨withReq (b0) { rid := 7, opcode := 0x0881, phase := .ready }, { rid := 7, opcode := 0x0881, phase := .ready }, ⟨by decide +kernel, by decide +kernel, by decide +kernel, by decide +kernel⟩, by decide +kernel⟩,
   ⟨withReq b0 reqSafe, reqSafe, SafeFn.read (List.replicate 64 0), ⟨by decide +kernel, by decide +kernel, by decide +kernel, by decide +kernel⟩, by decide +kernel⟩,
   ⟨withReq (b0) { rid := 7, opcode := 0x0884, phase := .ready }, { rid := 7, opcode := 0x0884, phase := .ready }, ⟨by decide +kernel, by decide +kernel, by decide +kernel, by decide +kernel⟩, by decide +kernel⟩,
   ⟨{ b0 with trip := { b0.trip with safetyRun := true, newFns := some (10, []) } }, T, by decide +kernel⟩,
   ⟨{ b0 with trip := { b0.trip with safetyRun := true, newFns := none, fns := [({} : SafeFn)] } }, T, by decide +kernel⟩,
   ⟨{}, by decide⟩,
   ⟨{ safetyRun := true, wardPeriodDone := true }, by decide⟩,
   ⟨b0, by decide +kernel⟩,
   ⟨b0, by decide +kernel⟩⟩

theorem witness_RingActions :
    (∃ (s : State) (r : Req), s.ready 7 0x0500 r) ∧
    (∃ (s : State) (r : Req), s.ready r.rid 0x0501 r ∧ (let u := s.setLink true { s.ring.e with forced := r.aux.getLsbD 0 }; let v := u.setLink false { u.ring.w with forced := r.aux.getLsbD 1 }; s.ring.bypassRid = none ∧ v.ring.e.relayClosed ≠ v.relayTarget true)) ∧
    (∃ (s : State) (r : Req), s.ready r.rid 0x0501 r ∧ (let u := s.setLink true { s.ring.e with forced := r.aux.getLsbD 0 }; let v := u.setLink false { u.ring.w with forced := r.aux.getLsbD 1 }; s.ring.bypassRid = none ∧ v.ring.e.relayClosed = v.relayTarget true ∧ v.ring.w.relayClosed = v.relayTarget false)) ∧
    (∃ (s : State) (t : Nat), s.ring.bypassRid = some (7, 0) ∧ s.findReq 7 = some ({ rid := 7 } : Req) ∧ false = s.relayTarget true ∧ false = s.relayTarget false ∧ s.ring.e.relayClosed = false ∧ s.ring.w.relayClosed = false) ∧
    (∃ (s : State) (r : Req), s.ready r.rid 0x0502 r ∧ (s.ring.applied.dropIn (bits r.aux.toNat 8 6) = false)) ∧
    (∃ (s : State) (r : Req), s.ready r.rid 0x0502 r ∧ (s.ring.applied.dropIn (bits r.aux.toNat 8 6))) ∧
    (∃ (s : State) (t : Nat), (s.tick t).ring.written.fails (s.tick t).ownNode = none ∧ (s.tick t).leadsPair = false) ∧
    (∃ (s : State) (t : Nat), (s.tick t).ring.written.fails (s.tick t).ownNode = some (1, 0) ∧ (s.tick t).leadsPair = false) ∧
    (∃ (s : State) (t : Nat), let h := (s.tick t).harvestDue none; h.ringActive ∧ h.mt % h.cycles 1 = 0 ∧ h.ring.pendingApply = none ∧ h.ring.taskVals = []) ∧
    (∃ (s : State) (t : Nat), let h := (s.tick t).harvestDue none; h.ringActive ∧ h.mt % h.cycles 1 = 0 ∧ h.ring.pendingApply = some ((946684800000000000 + T), ({} : RingCfg)) ∧ (946684800000000000 + T) ≤ h.mt ∧ h.ring.taskVals = []) ∧
    (∃ (s : State) , s.ring.master = s.ownNode ∧ s.ownPrio ≠ 255) ∧
    (∃ (s : State) (t : Nat), let v := (s.tick t).outputsDue; v.ring.applied.used.find? (fun e => e.1 == (63 : Fin 64).val) = some (63, ({ offset := 2000, ids := [5] } : RingSlot)) ∧ v.ringEmits ∧ v.mt = v.ring.applied.opening v.ring.cycleNum + ({ offset := 2000, ids := [5] } : RingSlot).offset ∧ 946684800000004000 ≤ v.mt + 2000) ∧
    (∃ (s : State) (t : Nat), (s.tick t).ringActive ∧ (s.tick t).mt % (s.tick t).cycles 1 = 1000) ∧
    (∃ (s : State) (t : Nat), (s.tick t).ringEmits ∧ (s.tick t).ring.tripSentAt = none ∧ (s.tick t).tripPayload ≠ (s.tick t).ring.tripSent) ∧
    (∃ (s : State) (t : Nat), (s.tick t).ring.lastSync = some 0 ∧ (s.tick t).ringActive ∧ 0 + (s.tick t).cycles 4 ≤ (s.tick t).now ∧ (s.tick t).ring.timeState = 2) ∧
    (∃ (s : State) (t : Nat), (s.tick t).ring.lastSync = some 0 ∧ (s.tick t).ringActive ∧ 0 + (s.tick t).cycles 4 ≤ (s.tick t).now ∧ (s.tick t).ring.timeState = 3) ∧
    (∃ (s : State) (t : Nat), let u := s.tick t; u.ringActive = true ∧ (u.link true).up = true) ∧
    (∃ (s : State) (t : Nat), let u := s.tick t; u.ringActive = true ∧ (u.link true).up = true ∧ (u.link true).lastRx + u.cycles 4 ≤ u.mt) ∧
    (∃ (s : State) (t : Nat), (s.tick t).ringActive) ∧
    (∃ (s : State) (t : Nat), True) ∧
    (∃ s : State, (s.link true).unwrapAt = some 0 ∧ s.ring.applied.opening 0 ≤ s.mt ∧ (s.link true).turned = true ∧ (s.link true).whole = true) ∧
    (∃ (s : State) , (s.link true).unwrapAt = none) ∧
    (∃ (s : State) (t : Nat), tfind (s.tick t).ring.vals (0x7FFF : BitVec 16).toNat = some ({} : RingVal) ∧ (0x7FFF : BitVec 16).toNat < 0x8000 ∧ ({} : RingVal).rxAt + (s.tick t).cycles 4 ≤ (s.tick t).now ∧ tfind (s.tick t).ring.vals (echoKey (0x7FFF : BitVec 16).toNat) = none) ∧
    (∃ (s : State) (t : Nat), tfind (s.tick t).ring.vals (0x8000 : BitVec 16).toNat = some ({} : RingVal) ∧ 0x8000 ≤ (0x8000 : BitVec 16).toNat ∧ (0x8000 : BitVec 16).toNat < 0xFF00 ∧ ({} : RingVal).rxAt + (s.tick t).ring.applied.valTimeout * 1000000 ≤ (s.tick t).now) ∧
    (∃ (s : State) (t : Nat), tfind (s.tick t).ring.images (63 : Fin 64).val = some ({} : RingVal) ∧ (s.tick t).ring.applied.dropIn (63 : Fin 64).val ∧ ({} : RingVal).lost = false ∧ ({} : RingVal).rxAt + (s.tick t).cycles ((s.tick t).ring.applied.dropTimeout (63 : Fin 64).val) ≤ (s.tick t).now) :=
  ⟨⟨withReq b0 { rid := 7, opcode := 0x0500, phase := .ready }, _, ⟨rfl, rfl, rfl, by decide +kernel⟩⟩,
   ⟨withReq ({ b0 with ring := { b0.ring with node := 0x00010005, e := { b0.ring.e with relayClosed := true }, bypassRid := none } }) { rid := 7, opcode := 0x0501, phase := .ready }, { rid := 7, opcode := 0x0501, phase := .ready }, ⟨by decide +kernel, by decide +kernel, by decide +kernel, by decide +kernel⟩, by decide +kernel⟩,
   ⟨withReq ({ b0 with ring := { b0.ring with node := 0x00010005, e := { b0.ring.e with relayClosed := false }, w := { b0.ring.w with relayClosed := false }, bypassRid := none } }) { rid := 7, opcode := 0x0501, phase := .ready }, { rid := 7, opcode := 0x0501, phase := .ready }, ⟨by decide +kernel, by decide +kernel, by decide +kernel, by decide +kernel⟩, by decide +kernel⟩,
   ⟨{ b0 with ring := { b0.ring with node := 0x00010005, bypassRid := some (7, 0), e := { b0.ring.e with relayClosed := false }, w := { b0.ring.w with relayClosed := false } }, host := { b0.host with reqs := [{ rid := 7 }] } }, T, by decide +kernel⟩,
   ⟨withReq (b0) { rid := 7, opcode := 0x0502, phase := .ready }, { rid := 7, opcode := 0x0502, phase := .ready }, ⟨by decide +kernel, by decide +kernel, by decide +kernel, by decide +kernel⟩, by decide +kernel⟩,
   ⟨withReq ({ b0 with ring := { b0.ring with applied := { b0.ring.applied with drops := [(0, 0x00041401)] } } }) { rid := 7, opcode := 0x0502, phase := .ready }, { rid := 7, opcode := 0x0502, phase := .ready }, ⟨by decide +kernel, by decide +kernel, by decide +kernel, by decide +kernel⟩, by decide +kernel⟩,
   ⟨{ b0 with ring := { b0.ring with node := 0x00010005 } }, T, by decide +kernel⟩,
   ⟨{ b0 with ring := { b0.ring with node := 0x00010005, written := { b0.ring.written with cycle := 0 } } }, T, by decide +kernel⟩,
   ⟨{ b0 with ring := { b0.ring with node := 0x00010005 } }, T, by decide +kernel⟩,
   ⟨{ b0 with ring := { b0.ring with node := 0x00010005, pendingApply := some (946684800000000000 + T, {}) } }, T, by decide +kernel⟩,
   ⟨{ b0 with ring := { b0.ring with node := 0x00010005, master := 5 } }, by decide +kernel⟩,
   ⟨{ b0 with ring := { b0.ring with node := 0x00010005, applied := { b0.ring.applied with slots := [(63, [2000, 1, 5])] }, cycleNum := 18933696000000 }, twin := { b0.twin with aliveDrive := true } }, 2000, by decide +kernel⟩,
   ⟨{ b0 with ring := { b0.ring with node := 0x00010005 } }, T + 1000, by decide +kernel⟩,
   ⟨{ b0 with ring := { b0.ring with node := 0x00010005, tripSentAt := none }, twin := { b0.twin with aliveDrive := true } }, T, by decide +kernel⟩,
   ⟨{ b0 with ring := { b0.ring with node := 0x00010005, timeState := 2, lastSync := some 0 } }, T, by decide +kernel⟩,
   ⟨{ b0 with ring := { b0.ring with node := 0x00010005, timeState := 3, lastSync := some 0 } }, T, by decide +kernel⟩,
   ⟨(({ b0 with ring := { b0.ring with node := 0x00010005, e := { up := true, turned := false } } } : State).setLink true { up := true }), T, by decide +kernel⟩,
   ⟨(({ b0 with ring := { b0.ring with node := 0x00010005, e := { up := true, turned := false } } } : State).setLink true { up := true }), T, by decide +kernel⟩,
   ⟨{ b0 with ring := { b0.ring with node := 0x00010005 } }, T, by decide +kernel⟩,
   ⟨b0, T, by decide +kernel⟩,
   ⟨b0.setLink true { up := true, goodRun := 16, unwrapAt := some 0 }, by decide +kernel⟩,
   ⟨((b0 : State).setLink true { unwrapAt := none }), by decide +kernel⟩,
   ⟨{ b0 with ring := { b0.ring with vals := [(0x7FFF, {})] } }, T, by decide +kernel⟩,
   ⟨{ b0 with ring := { b0.ring with vals := [(0x8000, {})] } }, T, by decide +kernel⟩,
   ⟨{ b0 with ring := { b0.ring with images := [(63, {})], applied := { b0.ring.applied with drops := [(63, 0x00041401)] } } }, T, by decide +kernel⟩⟩

theorem witness_RingFrames :
    (∃ (s : State) , (s.link true).turned = true ∧ (s.link (!true)).turned = false ∧ ({ kind := 1, src := 3, payload := List.replicate 8 0 } : RingFrame).kind ≠ 7) ∧
    (∃ (s : State) , (s.link true).turned = false ∧ ({ kind := 1, src := 3, payload := List.replicate 8 0 } : RingFrame).kind ≠ 7) ∧
    (∃ (s : State) , (s.link true).turned = true ∧ (s.link (!true)).turned = true) ∧
    (∃ (s : State) (t : Nat), (s.tick t).ringActive ∧ ({ kind := 1, src := 3, payload := List.replicate 8 0 } : RingFrame).kind = 1 ∧ frameGood ({ kind := 1, src := 3, payload := List.replicate 8 0 } : RingFrame) ∧ ({ kind := 1, src := 3, payload := List.replicate 8 0 } : RingFrame).src ≠ (s.tick t).ownNode ∧ ((s.tick t).ringIn true ({ kind := 1, src := 3, payload := List.replicate 8 0 } : RingFrame)).seqNew ({ kind := 1, src := 3, payload := List.replicate 8 0 } : RingFrame) ∧ ((s.tick t).ringIn true ({ kind := 1, src := 3, payload := List.replicate 8 0 } : RingFrame)).modes.role = .simplex) ∧
    (∃ (s : State) (t : Nat), (s.tick t).ringActive ∧ ({ kind := 1, src := 3, payload := List.replicate 7 0 } : RingFrame).kind = 1 ∧ (frameGood ({ kind := 1, src := 3, payload := List.replicate 7 0 } : RingFrame) = false ∨ ({ kind := 1, src := 3, payload := List.replicate 7 0 } : RingFrame).src = (s.tick t).ownNode)) ∧
    (∃ (s : State) (t : Nat), (s.tick t).ringActive = false) ∧
    (∃ (s : State) , frameGood ({ kind := 1, src := 3, payload := List.replicate 8 0, crcOk := false, hops := 1 } : RingFrame) = false ∧ ({ kind := 1, src := 3, payload := List.replicate 8 0, crcOk := false, hops := 1 } : RingFrame).hops ≤ 1 ∧ s.ring.heldC3 = []) ∧
    (∃ (s : State) , ({ src := 5 } : RingFrame).src = s.ownNode ∧ s.ring.heldC3 = []) ∧
    (∃ (s : State) (f : RingFrame), let id := beRd f.payload 0 2; 0x8000 ≤ id ∧ id < 0xFF00 ∧ s.produces id = true) ∧
    (∃ (s : State) (f : RingFrame), let id := beRd f.payload 0 2; 0x8000 ≤ id ∧ id < 0xFF00 ∧ s.produces id = false) ∧
    (∃ (s : State) , beRd [0, 5, 0, 0, 0, 0, 0, 1] 0 2 ≤ 0x7FFF ∧ bit (beRd [0, 5, 0, 0, 0, 0, 0, 1] 2 1) 2 = false ∧ s.produces (beRd [0, 5, 0, 0, 0, 0, 0, 1] 0 2) = false) ∧
    (∃ (s : State) , s.ring.applied.dropIn ({ kind := 3, src := 3, payload := List.replicate 2 0 } : RingFrame).src = false) ∧
    (∃ (s : State) (f : RingFrame), tget s.ring.trips f.src (zeros 8) = f.payload) ∧
    (∃ (s : State) (t : Nat), (s.tick t).ringActive ∧ ({ kind := 6, src := 3, payload := List.replicate 16 0 } : RingFrame).kind = 6 ∧ frameGood ({ kind := 6, src := 3, payload := List.replicate 16 0 } : RingFrame) ∧ ({ kind := 6, src := 3, payload := List.replicate 16 0 } : RingFrame).src ≠ (s.tick t).ownNode ∧ ((s.tick t).ringIn false ({ kind := 6, src := 3, payload := List.replicate 16 0 } : RingFrame)).seqNew ({ kind := 6, src := 3, payload := List.replicate 16 0 } : RingFrame) ∧ ((s.tick t).ringIn false ({ kind := 6, src := 3, payload := List.replicate 16 0 } : RingFrame)).modes.role = .simplex ∧ (s.tick t).ring.seqs.any (fun (x, y, z, q, _) => x == ({ kind := 6, src := 3, payload := List.replicate 16 0 } : RingFrame).src && y == 6 && z == 0 && q == ({ kind := 6, src := 3, payload := List.replicate 16 0 } : RingFrame).seq) = false) ∧
    (∃ (s : State) , s.ownPrio = 255 ∧ s.followsSync ({ kind := 6, src := 3, payload := List.replicate 16 0 } : RingFrame) = true) ∧
    (∃ (s : State) , s.modes.mode ≠ .run ∧ ((1000 < (1001 : Int) ∨ (1001 : Int) < -1000))) ∧
    (∃ (s : State) , s.modes.mode = .run) ∧
    (∃ (s : State) , -20 ≤ (0 : Int) ∧ (0 : Int) ≤ 20) ∧
    (∃ (s : State) (t : Nat), (s.tick t).ringActive ∧ ({ kind := 8, src := 3, payload := List.replicate 8 0, fcsOk := false } : RingFrame).kind = 8 ∧ frameGood ({ kind := 8, src := 3, payload := List.replicate 8 0, fcsOk := false } : RingFrame) = false) ∧
    (∃ (s : State) (t : Nat), let u := s.tick t; u.ringActive = true ∧ ({ kind := 8, src := 3, payload := List.replicate 24 0 } : RingFrame).kind = 8 ∧ frameGood ({ kind := 8, src := 3, payload := List.replicate 24 0 } : RingFrame) = true ∧ ({ kind := 8, src := 3, payload := List.replicate 24 0 } : RingFrame).src ≠ u.ownNode ∧ (u.ringIn true ({ kind := 8, src := 3, payload := List.replicate 24 0 } : RingFrame)).seqNew ({ kind := 8, src := 3, payload := List.replicate 24 0 } : RingFrame) = true) :=
  ⟨⟨(({ b0 with ring := { b0.ring with e := { turned := true }, w := { up := true, turned := false } } } : State).setLink true { turned := true }), by decide +kernel⟩,
   ⟨(({ b0 with ring := { b0.ring with e := { up := true, turned := false } } } : State).setLink true { turned := false }), by decide +kernel⟩,
   ⟨((b0 : State).setLink true { turned := true }), by decide +kernel⟩,
   ⟨{ b0 with ring := { b0.ring with node := 0x00010005 } }, T, by decide +kernel⟩,
   ⟨{ b0 with ring := { b0.ring with node := 0x00010005 } }, T, by decide +kernel⟩,
   ⟨b0, T, by decide +kernel⟩,
   ⟨{ b0 with ring := { b0.ring with heldC3 := [] } }, by decide +kernel⟩,
   ⟨{ b0 with ring := { b0.ring with node := 0x00010005, heldC3 := [] } }, by decide +kernel⟩,
   ⟨{ b0 with ring := { b0.ring with blocks := [(0x8005, [], 0)] } }, { payload := [0x80, 5] }, by decide +kernel⟩,
   ⟨b0, { payload := [0x80, 5] }, by decide +kernel⟩,
   ⟨b0, by decide +kernel⟩,
   ⟨b0, by decide +kernel⟩,
   ⟨b0, { src := 63, payload := zeros 8 }, by decide⟩,
   ⟨{ b0 with ring := { b0.ring with node := 0x00010005 } }, T, by decide +kernel⟩,
   ⟨{ b0 with ring := { b0.ring with node := 0x00010005 }, modes := { b0.modes with role := .follow } }, by decide +kernel⟩,
   ⟨{ b0 with modes := { b0.modes with mode := .hold } }, by decide +kernel⟩,
   ⟨{ b0 with modes := { b0.modes with mode := .run } }, by decide +kernel⟩,
   ⟨b0, by decide +kernel⟩,
   ⟨{ b0 with ring := { b0.ring with node := 0x00010005 } }, T, by decide +kernel⟩,
   ⟨{ b0 with ring := { b0.ring with node := 0x00010005 } }, T, by decide +kernel⟩⟩

theorem witness_CanChannels :
    (∃ (s : State) (r : Req), s.ready r.rid 0x0503 r ∧ ((s.chan r.value).scheduleFails (CanMatrix.read r.buf) = none)) ∧
    (∃ (s : State) (r : Req), s.ready r.rid 0x0503 r ∧ ((s.chan r.value).scheduleFails (CanMatrix.read r.buf) = some (0, 1))) ∧
    (0 < ({} : CanMatrix).ncycles ∧ 0 < ({} : CanMatrix).bcLen) ∧
    (∃ (s : State) (r : Req), s.ready r.rid 0x0504 r ∧ ((s.chan r.value).enabled ∧ (s.chan r.value).matrix = some ({ slots := [{ source := 0 }] } : CanMatrix) ∧ ({ slots := [{ source := 0 }] } : CanMatrix).slots.any (fun e => e.source == 0) ∧ (s.chan r.value).queue.length < 32 ∧ bits r.aux.toNat 0 16 = 0)) ∧
    (∃ (s : State) (r : Req), s.ready r.rid 0x0504 r ∧ ((s.chan r.value).enabled ∧ (s.chan r.value).matrix = some ({ slots := [{ source := 0 }] } : CanMatrix) ∧ ({ slots := [{ source := 0 }] } : CanMatrix).slots.any (fun e => e.source == 0) ∧ 32 ≤ (s.chan r.value).queue.length)) ∧
    (∃ (s : State) (r : Req), s.ready r.rid 0x0504 r ∧ ((s.chan r.value).enabled = false)) ∧
    (∃ (s : State) (r : Req), s.ready r.rid 0x0505 r ∧ (True)) ∧
    (∃ (s : State) (t : Nat), ((s.tick t).chan (7 : Fin 8).val).newMatrix = some ((946684800000000000 + T), ({} : CanMatrix)) ∧ (946684800000000000 + T) ≤ (s.tick t).mt ∧ ({} : CanMatrix).cycleAt (s.tick t).mt % ({} : CanMatrix).ncycles = 0) ∧
    (∃ (s : State) (t : Nat), ((s.tick t).chan (7 : Fin 8).val).newMatrix = none ∧ ((s.tick t).chan (7 : Fin 8).val).matrix = some ({} : CanMatrix)) ∧
    (∃ (s : State) (t : Nat), (s.tick t).modes.mode ≠ .run ∧ ((s.tick t).chan (7 : Fin 8).val).enabled = false ∧ (s.tick t).leadsPair = false ∧ ({ (s.tick t).chan (7 : Fin 8).val with autoRecover := (5#32).getLsbD 2 }).timingOk) ∧
    (∃ (s : State) (t : Nat), (s.tick t).modes.mode ≠ .run ∧ ((s.tick t).chan (7 : Fin 8).val).enabled ∧ (s.tick t).leadsPair = false ∧ ((s.tick t).chan (7 : Fin 8).val).open_ = none) ∧
    (∃ (s : State) (t : Nat), ((s.tick t).chan (7 : Fin 8).val).enabled ∧ ((s.tick t).chan (7 : Fin 8).val).synced = false ∧ (s.tick t).canMode) ∧
    (∃ (s : State) (t : Nat), True) ∧
    (∃ (s : State) (t : Nat), ((s.tick t).chan (7 : Fin 8).val).state = 2 ∧ ((s.tick t).chan (7 : Fin 8).val).recovering) ∧
    (∃ (s : State) (t : Nat), let v := (((s.tick t).harvestDue none).outputsDue).slotClose (7 : Fin 8).val; (v.chan (7 : Fin 8).val).matrix = some ({ bcLen := 100000, slots := [({ slot := 31, source := 1, window := 1000 } : CanSlot)] } : CanMatrix) ∧ (v.chan (7 : Fin 8).val).open_ = none ∧ v.canSends (7 : Fin 8).val ∧ ({ bcLen := 100000, slots := [({ slot := 31, source := 1, window := 1000 } : CanSlot)] } : CanMatrix).slots.find? (fun x => x.cycle == ({ bcLen := 100000, slots := [({ slot := 31, source := 1, window := 1000 } : CanSlot)] } : CanMatrix).cycleAt v.mt % ({ bcLen := 100000, slots := [({ slot := 31, source := 1, window := 1000 } : CanSlot)] } : CanMatrix).ncycles && x.slot == (31 : Fin 32).val) = some ({ slot := 31, source := 1, window := 1000 } : CanSlot) ∧ v.mt = ({ bcLen := 100000, slots := [({ slot := 31, source := 1, window := 1000 } : CanSlot)] } : CanMatrix).phase * 1000 + ({ bcLen := 100000, slots := [({ slot := 31, source := 1, window := 1000 } : CanSlot)] } : CanMatrix).cycleAt v.mt * (({ bcLen := 100000, slots := [({ slot := 31, source := 1, window := 1000 } : CanSlot)] } : CanMatrix).bcLen * 1000) + ({ slot := 31, source := 1, window := 1000 } : CanSlot).offset * 1000 ∧ v.slotFrame (7 : Fin 8).val ({ slot := 31, source := 1, window := 1000 } : CanSlot) = some (({} : CanFrame), none) ∧ (v.chan (7 : Fin 8).val).fits ({} : CanFrame) v.mt (({ bcLen := 100000, slots := [({ slot := 31, source := 1, window := 1000 } : CanSlot)] } : CanMatrix).phase * 1000 + ({ bcLen := 100000, slots := [({ slot := 31, source := 1, window := 1000 } : CanSlot)] } : CanMatrix).cycleAt v.mt * (({ bcLen := 100000, slots := [({ slot := 31, source := 1, window := 1000 } : CanSlot)] } : CanMatrix).bcLen * 1000) + (({ slot := 31, source := 1, window := 1000 } : CanSlot).offset + ({ slot := 31, source := 1, window := 1000 } : CanSlot).window) * 1000)) ∧
    (∃ (s : State) (t : Nat), ((s.tick t).chan (7 : Fin 8).val).open_ = some ({ closeMt := 946684800000000000 + T } : CanOpen) ∧ ({ closeMt := 946684800000000000 + T } : CanOpen).closeMt ≤ (s.tick t).mt ∧ ({ closeMt := 946684800000000000 + T } : CanOpen).sent = false ∧ ({ closeMt := 946684800000000000 + T } : CanOpen).slot.kind = 1) ∧
    (∃ (s : State) (t : Nat), ((s.tick t).chan (7 : Fin 8).val).open_ = some ({ closeMt := 946684800000000000 + T, sent := true } : CanOpen) ∧ ({ closeMt := 946684800000000000 + T, sent := true } : CanOpen).closeMt ≤ (s.tick t).mt ∧ ({ closeMt := 946684800000000000 + T, sent := true } : CanOpen).sent) ∧
    (∃ (s : State) , s.twin.checking = false) ∧
    (∃ (s : State) (t : Nat), ((s.tick t).chan (7 : Fin 8).val).open_ = none) ∧
    (∃ (s : State) (t : Nat), let u := s.tick t; (u.chan (7 : Fin 8).val).open_ = some ({ started := true } : CanOpen) ∧ ({ started := true } : CanOpen).sent = false ∧ ({ started := true } : CanOpen).started = true ∧ u.twin.checking = false) ∧
    (∃ (s : State) (t : Nat), let u := s.tick t; (u.chan (7 : Fin 8).val).open_ = some ({ started := true, slot := { kind := 2 } } : CanOpen) ∧ ({ started := true, slot := { kind := 2 } } : CanOpen).sent = false ∧ ({ started := true, slot := { kind := 2 } } : CanOpen).started = true ∧ ({ started := true, slot := { kind := 2 } } : CanOpen).slot.kind = 2) ∧
    (∃ (s : State) (t : Nat), ((s.tick t).chan (7 : Fin 8).val).enabled ∧ ((s.tick t).chan (7 : Fin 8).val).synced ∧ ((s.tick t).chan (7 : Fin 8).val).state ≠ 2 ∧ (s.tick t).canMode ∧ (s.tick t).modes.role = .simplex ∧ (s.tick t).emits) ∧
    (∃ (s : State) (m : CanMatrix) (x : CanFilter) (f : CanFrame) (own : Bool), (s.chan 7).matrix = some m ∧ m.filters = [x] ∧ x.hits f own = true ∧ s.subsOf 0x0505 = []) ∧
    (∃ (s : State) (t : Nat), ((s.tick t).chan (7 : Fin 8).val).matrix = some ({ filters := [{ timeoutMs := 65535 }] } : CanMatrix) ∧ ({ filters := [{ timeoutMs := 65535 }] } : CanMatrix).filters[0]? = some ({ timeoutMs := 65535 } : CanFilter) ∧ ({ timeoutMs := 65535 } : CanFilter).timeoutMs ≠ 0 ∧ (tget ((s.tick t).chan (7 : Fin 8).val).rx 0 {}).at_ + ({ timeoutMs := 65535 } : CanFilter).timeoutMs * 1000000 ≤ (s.tick t).now) ∧
    (∃ (s : State) (t : Nat), ((s.tick t).chan (7 : Fin 8).val).queue = [({ rid := 7 } : CanJob)] ∧ ((s.tick t).chan (7 : Fin 8).val).open_ = none ∧ ({ rid := 7 } : CanJob).until_ ≤ (s.tick t).now ∧ (s.tick t).findReq ({ rid := 7 } : CanJob).rid = some ({ rid := 7 } : Req)) ∧
    (∃ (s : State) , (s.chan 7).synced = true ∧ (s.chan 7).state ≠ 2 ∧ 256 ≤ 256) ∧
    (∃ (s : State) , (s.chan 7).synced = true ∧ (s.chan 7).state ≠ 2 ∧ 255 < 256) ∧
    ((15 : Nat) < 16) :=
  ⟨⟨withReq (b0) { rid := 7, opcode := 0x0503, phase := .ready }, { rid := 7, opcode := 0x0503, phase := .ready }, ⟨by decide +kernel, by decide +kernel, by decide +kernel, by decide +kernel⟩, by decide +kernel⟩,
   ⟨withReq (b0) { rid := 7, opcode := 0x0503, phase := .ready, buf := [1, 0, 1, 0] ++ List.replicate 44 0 }, { rid := 7, opcode := 0x0503, phase := .ready, buf := [1, 0, 1, 0] ++ List.replicate 44 0 }, ⟨by decide +kernel, by decide +kernel, by decide +kernel, by decide +kernel⟩, by decide +kernel⟩,
   by decide +kernel,
   ⟨withReq (((b0 : State).setChan 0 { enabled := true, matrix := some ({ slots := [{ source := 0 }] } : CanMatrix) })) { rid := 7, opcode := 0x0504, phase := .ready }, { rid := 7, opcode := 0x0504, phase := .ready }, ⟨by decide +kernel, by decide +kernel, by decide +kernel, by decide +kernel⟩, by decide +kernel⟩,
   ⟨withReq (((b0 : State).setChan 0 { enabled := true, matrix := some ({ slots := [{ source := 0 }] } : CanMatrix), queue := List.replicate 32 {} })) { rid := 7, opcode := 0x0504, phase := .ready }, { rid := 7, opcode := 0x0504, phase := .ready }, ⟨by decide +kernel, by decide +kernel, by decide +kernel, by decide +kernel⟩, by decide +kernel⟩,
   ⟨withReq (((b0 : State).setChan 0 { enabled := false })) { rid := 7, opcode := 0x0504, phase := .ready }, { rid := 7, opcode := 0x0504, phase := .ready }, ⟨by decide +kernel, by decide +kernel, by decide +kernel, by decide +kernel⟩, by decide +kernel⟩,
   ⟨withReq (b0) { rid := 7, opcode := 0x0505, phase := .ready }, { rid := 7, opcode := 0x0505, phase := .ready }, ⟨by decide +kernel, by decide +kernel, by decide +kernel, by decide +kernel⟩, by decide +kernel⟩,
   ⟨((b0 : State).setChan 7 { newMatrix := some ((946684800000000000 + T), ({} : CanMatrix)) }), T, by decide +kernel⟩,
   ⟨((b0 : State).setChan 7 { newMatrix := none, matrix := some ({} : CanMatrix) }), T, by decide +kernel⟩,
   ⟨(({ b0 with modes := { b0.modes with mode := .hold } } : State).setChan 7 { nbt := 10302656, dbt := 25392, enabled := false }), T, by decide +kernel⟩,
   ⟨(({ b0 with modes := { b0.modes with mode := .hold } } : State).setChan 7 { enabled := true, open_ := none }), T, by decide +kernel⟩,
   ⟨((b0 : State).setChan 7 { enabled := true, synced := false }), T, by decide +kernel⟩,
   ⟨b0, T, by decide +kernel⟩,
   ⟨((b0 : State).setChan 7 { state := 2, recovering := true }), T, by decide +kernel⟩,
   ⟨(({ b0 with twin := { b0.twin with aliveDrive := true } } : State).setChan 7 { enabled := true, synced := true, state := 0, vals := [(slotKey 0 31, [])], matrix := some ({ bcLen := 100000, slots := [({ slot := 31, source := 1, window := 1000 } : CanSlot)] } : CanMatrix) }), T, by decide +kernel⟩,
   ⟨((b0 : State).setChan 7 { open_ := some ({ closeMt := 946684800000000000 + T } : CanOpen) }), T, by decide +kernel⟩,
   ⟨((b0 : State).setChan 7 { open_ := some ({ closeMt := 946684800000000000 + T, sent := true } : CanOpen) }), T, by decide +kernel⟩,
   ⟨{ b0 with twin := { b0.twin with checking := false } }, by decide +kernel⟩,
   ⟨((b0 : State).setChan 7 { open_ := none }), T, by decide +kernel⟩,
   ⟨(({ b0 with twin := { b0.twin with checking := false } } : State).setChan 7 { open_ := some ({ started := true } : CanOpen) }), T, by decide +kernel⟩,
   ⟨((b0 : State).setChan 7 { open_ := some ({ started := true, slot := { kind := 2 } } : CanOpen) }), T, by decide +kernel⟩,
   ⟨(({ b0 with twin := { b0.twin with aliveDrive := true }, modes := { b0.modes with role := .simplex } } : State).setChan 7 { state := 0, enabled := true, synced := true }), T, by decide +kernel⟩,
   ⟨b0.setChan 7 { matrix := some { filters := [{}] } }, { filters := [{}] }, {}, {}, false, by decide +kernel⟩,
   ⟨((b0 : State).setChan 7 { matrix := some ({ filters := [{ timeoutMs := 65535 }] } : CanMatrix) }), T, by decide +kernel⟩,
   ⟨(({ b0 with host := { b0.host with reqs := [{ rid := 7 }] } } : State).setChan 7 { queue := [({ rid := 7 } : CanJob)], open_ := none }), T, by decide +kernel⟩,
   ⟨((b0 : State).setChan 7 { synced := true, state := 0 }), by decide +kernel⟩,
   ⟨((b0 : State).setChan 7 { synced := true, state := 0 }), by decide +kernel⟩,
   by decide⟩

theorem witness_FieldIo :
    (∃ (s : State) (t : Nat), ((s.tick t).di (31 : Fin 32).val).wb = false ∧ ((s.tick t).di (31 : Fin 32).val).state ≠ true ∧ ((s.tick t).di (31 : Fin 32).val).debounce * 1000 ≤ 1000000) ∧
    (∃ (s : State) (t : Nat), 999999 < ((s.tick t).di (31 : Fin 32).val).debounce * 1000) ∧
    (∃ (s : State) (t : Nat), (s.tick t).fio.wbEn.getLsbD (31 : Fin 32).val ∧ 10000000 ≤ 10000000 ∧ flt (0 : F) fHalf ∧ ((s.tick t).di (31 : Fin 32).val).wb = false) ∧
    (∃ (s : State) (t : Nat), (s.tick t).doDriven (15 : Fin 16).val) ∧
    (∃ (s : State) (t : Nat), ((s.tick t).do_ (15 : Fin 16).val).short ∧ (s.tick t).doTerm (15 : Fin 16).val = some true ∧ ((s.tick t).do_ (15 : Fin 16).val).shortAt + 1000000000 ≤ (s.tick t).now) ∧
    (∃ (s : State) (t : Nat), True) ∧
    (∃ (s : State) (t : Nat), (s.tick t).doTerm (15 : Fin 16).val ≠ none ∧ true ≠ (s.tick t).doDriven (15 : Fin 16).val ∧ ((s.tick t).do_ (15 : Fin 16).val).mismatch = false) ∧
    (∃ (s : State) (t : Nat), let u := s.tick t; let c := u.cl (7 : Fin 8).val; let ma := c.trimmed (0x41400000 : F); c.isIn = true ∧ c.startMt + c.interval * 1000 ≤ u.mt ∧ c.burdenHz = some (u.clHighZ (7 : Fin 8).val) ∧ u.fio.capture = none) ∧
    (∃ (s : State) (t : Nat), (s.tick t).mt < ((s.tick t).cl (7 : Fin 8).val).startMt + ((s.tick t).cl (7 : Fin 8).val).interval * 1000) ∧
    (∃ (s : State) (t : Nat), ((s.tick t).cl (7 : Fin 8).val).miswire = false) ∧
    (∃ (s : State) (t : Nat), ((s.tick t).cl (7 : Fin 8).val).miswire ∧ ((s.tick t).cl (7 : Fin 8).val).miswireAt + 1000000000 ≤ (s.tick t).now) ∧
    (∃ (s : State) (t : Nat), (s.tick t).faiDemand (s.tick t).mt ((s.tick t).mt + 1) ∧ (s.tick t).fio.faiMt + 500 ≤ (s.tick t).mt) ∧
    (∃ (s : State) (t : Nat), (s.tick t).faiDemand (s.tick t).mt ((s.tick t).mt + 1) ∧ (s.tick t).mt < (s.tick t).fio.faiMt + 500) ∧
    (∃ (s : State) (t : Nat), (s.tick t).faiDemand (s.tick t).mt ((s.tick t).mt + 1) = false ∧ (s.tick t).mt % 1000000 = 500 ∧ (s.tick t).fio.faiMt + 500 ≤ (s.tick t).mt ∧ (s.tick t).faiDemand (s.tick t).mt ((s.tick t).mt + 500) = false) ∧
    (∃ (s : State) (t : Nat), True) ∧
    (∃ (s : State) (t : Nat), ((s.tick t).pulse (3 : Fin 4).val).mode ≠ 0) ∧
    (∃ (s : State) (t : Nat), bits ((s.tick t).pulse (3 : Fin 4).val).cfg.toNat 0 2 = 0 ∧ ((s.tick t).pulse (3 : Fin 4).val).lineFault.getLsbD (2 : Fin 3).val = false) ∧
    (∃ (s : State) (t : Nat), ((s.tick t).pulse (3 : Fin 4).val).edges = ((0, true) : Nat × Bool) :: [] ∧ ((0, true) : Nat × Bool).1 + bits ((s.tick t).pulse (3 : Fin 4).val).cfg.toNat 16 16 * 1000000 < (s.tick t).mt) ∧
    (∃ (s : State) (t : Nat), True) ∧
    (∃ (s : State) (t : Nat), (s.tick t).wdOf 1 (15 : Fin 16).val = some (100000000, 0, false) ∧ (s.tick t).highZ = false ∧ 0 + 100000000 ≤ (s.tick t).now) ∧
    (∃ (s : State) (t : Nat), (s.tick t).wdOf 1 (15 : Fin 16).val = some ((100000000, 0, false) : Nat × Nat × Bool) ∧ (s.tick t).highZ = false) ∧
    (∃ (s : State) (r : Req), s.ready r.rid 0x0B00 r ∧ (True)) ∧
    (∃ (s : State) (r : Req), s.ready r.rid 0x0B01 r ∧ (True)) ∧
    (∃ (s : State) (t : Nat), (s.tick t).host.subs.find? (fun y => y.handle == (5#32) && y.opcode == 0x0B01) = some ({ handle := 5, opcode := 0x0B01, param := 1 } : Sub) ∧ ({ handle := 5, opcode := 0x0B01, param := 1 } : Sub).param ≠ 0 ∧ (s.tick t).mt % (({ handle := 5, opcode := 0x0B01, param := 1 } : Sub).param * 10000) = 0) ∧
    (∃ (s : State) (t : Nat), (s.tick t).host.subs.find? (fun y => y.handle == (5#32)) = some ({ handle := 5, opcode := 0x0B01, param := 1, items := [[]], firstAt := T - 1000000 } : Sub) ∧ ({ handle := 5, opcode := 0x0B01, param := 1, items := [[]], firstAt := T - 1000000 } : Sub).items ≠ [] ∧ ({ handle := 5, opcode := 0x0B01, param := 1, items := [[]], firstAt := T - 1000000 } : Sub).firstAt + 1000000 ≤ (s.tick t).now) ∧
    (∃ (s : State) (r : Req), s.ready r.rid 0x0B02 r ∧ (r.fioGroup ≠ 2 ∧ r.aux ≠ testEnd)) ∧
    (∃ (s : State) (r : Req), s.ready r.rid 0x0B02 r ∧ (r.fioGroup = 2 ∧ (s.cl r.fioCh).isOut = false)) ∧
    (∃ (s : State) (t : Nat), (s.tick t).fio.tests = [(7, 1, 0, T)] ∧ T ≤ (s.tick t).now ∧ (s.tick t).findReq 7 = some ({ rid := 7 } : Req)) ∧
    (∃ (s : State) (r : Req), s.ready r.rid 0x0B03 r ∧ (s.fio.trimJob = none ∧ s.fio.capture = none ∧ rd r.buf 0 1 = 0)) ∧
    (fnan (0x7FC00000 : F) = true) ∧
    (fnan (0x41200000 : F) = false) :=
  ⟨⟨((b0 : State).setDi 31 { wb := false }), T, by decide +kernel⟩,
   ⟨b0, T, by decide +kernel⟩,
   ⟨(({ b0 with fio := { b0.fio with wbEn := 0x80000000 } } : State).setDi 31 { wb := false }), T, by decide +kernel⟩,
   ⟨(({ b0 with twin := { b0.twin with aliveDrive := true }, modes := { b0.modes with mode := .maintenance } } : State).setDo 15 { test := some true }), T, by decide +kernel⟩,
   ⟨(({ b0 with twin := { b0.twin with aliveDrive := true }, modes := { b0.modes with mode := .maintenance } } : State).setDo 15 { test := some true, shortAt := T - 1000000000, short := true }), T, by decide +kernel⟩,
   ⟨b0, T, by decide +kernel⟩,
   ⟨(({ b0 with twin := { b0.twin with aliveDrive := true } } : State).setDo 15 { mismatch := false }), T, by decide +kernel⟩,
   ⟨(({ b0 with twin := { b0.twin with aliveDrive := true }, fio := { b0.fio with capture := none } } : State).setCl 7 { ctrl := 1, burdenHz := some false }), T, by decide +kernel⟩,
   ⟨((b0 : State).setCl 7 { startMt := 946684800000000000 + T }), T, by decide +kernel⟩,
   ⟨((b0 : State).setCl 7 { miswire := false }), T, by decide +kernel⟩,
   ⟨((b0 : State).setCl 7 { miswire := true }), T, by decide +kernel⟩,
   ⟨{ b0 with host := { b0.host with subs := [{ handle := 5, opcode := 0x0B01, target := 0x300, param := 1 }] } }, T, by decide +kernel⟩,
   ⟨{ b0 with host := { b0.host with subs := [{ handle := 5, opcode := 0x0B01, target := 0x300, param := 1 }] }, fio := { b0.fio with faiMt := 946684800000000000 + T } }, T, by decide +kernel⟩,
   ⟨b0, T + 500, by decide +kernel⟩,
   ⟨b0, T, by decide +kernel⟩,
   ⟨b0, T, by decide +kernel⟩,
   ⟨b0, T, by decide +kernel⟩,
   ⟨((b0 : State).setPulse 3 { edges := ((0, true) : Nat × Bool) :: [] }), T, by decide +kernel⟩,
   ⟨b0, T, by decide +kernel⟩,
   ⟨{ b0 with twin := { b0.twin with aliveDrive := true } }, T, by decide +kernel⟩,
   ⟨{ b0 with twin := { b0.twin with aliveDrive := true } }, T, by decide +kernel⟩,
   ⟨withReq (b0) { rid := 7, opcode := 0x0B00, phase := .ready }, { rid := 7, opcode := 0x0B00, phase := .ready }, ⟨by decide +kernel, by decide +kernel, by decide +kernel, by decide +kernel⟩, by decide +kernel⟩,
   ⟨withReq (b0) { rid := 7, opcode := 0x0B01, phase := .ready }, { rid := 7, opcode := 0x0B01, phase := .ready }, ⟨by decide +kernel, by decide +kernel, by decide +kernel, by decide +kernel⟩, by decide +kernel⟩,
   ⟨{ b0 with host := { b0.host with subs := [({ handle := 5, opcode := 0x0B01, param := 1 } : Sub)] } }, T, by decide +kernel⟩,
   ⟨{ b0 with host := { b0.host with subs := [({ handle := 5, opcode := 0x0B01, param := 1, items := [[]], firstAt := T - 1000000 } : Sub)] } }, T, by decide +kernel⟩,
   ⟨withReq (b0) { rid := 7, opcode := 0x0B02, phase := .ready }, { rid := 7, opcode := 0x0B02, phase := .ready }, ⟨by decide +kernel, by decide +kernel, by decide +kernel, by decide +kernel⟩, by decide +kernel⟩,
   ⟨withReq (b0) { rid := 7, opcode := 0x0B02, phase := .ready, target := 0x200#64 }, { rid := 7, opcode := 0x0B02, phase := .ready, target := 0x200#64 }, ⟨by decide +kernel, by decide +kernel, by decide +kernel, by decide +kernel⟩, by decide +kernel⟩,
   ⟨{ b0 with host := { b0.host with reqs := [{ rid := 7 }] }, fio := { b0.fio with tests := [(7, 1, 0, T)] } }, T, by decide +kernel⟩,
   ⟨withReq ({ b0 with fio := { b0.fio with trimJob := none, capture := none } }) { rid := 7, opcode := 0x0B03, phase := .ready }, { rid := 7, opcode := 0x0B03, phase := .ready }, ⟨by decide +kernel, by decide +kernel, by decide +kernel, by decide +kernel⟩, by decide +kernel⟩,
   by decide +kernel,
   by decide +kernel⟩

theorem witness_RecorderAndRegisters :
    (∃ (s : State) (r : Req), s.ready r.rid 0x0602 r ∧ (True)) ∧
    (∃ (s : State) (r : Req), s.ready r.rid 0x0601 r ∧ (True)) ∧
    (∃ (s : State) (r : Req), s.ready 7 0x0600 r ∧ r.aux.toNat = 1) ∧
    (∃ (s : State) , tfind s.recd.slots 5 = some ({} : Rec)) ∧
    (∃ (s : State) , tfind s.recd.slots 5 = none ∧ 5 ∉ s.recd.bad) ∧
    (∃ (s : State) (t : Nat), (s.tick t).recd.queue = ({ code := 0x0310 } : Rec) :: [] ∧ (s.tick t).recd.ready ∧ (s.tick t).pwr.warn = none ∧ (s.tick t).recd.toSafety ({ code := 0x0310 } : Rec) = safetyCode ({ code := 0x0310 } : Rec).code) ∧
    (∃ (s : State) (t : Nat), (s.tick t).recd.queue = ({} : Rec) :: [{}] ∧ (s.tick t).recd.ready ∧ (s.tick t).pwr.warn = none) ∧
    (∃ (r : Recorder) (x : Rec), r.toSafety x = true) ∧
    (∃ (s : State) (t : Nat), let c := (s.tick t).code (1 : BitVec 12).toNat; c.suppressed ≠ 0 ∧ c.burst ≠ 0 ∧ c.burst * tokenUnit ≤ c.refill (s.tick t).now ∧ (s.tick t).recd.ready ∧ routineRoom (s.tick t).recd.queue) ∧
    (safetyCode 0x04FF = true) ∧
    (∃ (s : State) , safetyCode 1 = false ∧ (s.code 1).refill s.now < tokenUnit) ∧
    (∃ (s : State) (t : Nat), (s.tick t).live ∧ (1#32) ≠ 0) ∧
    (∃ (s : State) (t : Nat), (s.tick t).live = false ∨ (0#32) = 0) ∧
    (∃ (s : State) (t : Nat), (s.tick t).live ∧ (s.tick t).cfg.variant.hasBkup ∧ (s.tick t).modes.mode ≠ .recovery) ∧
    (∃ (s : State) (t : Nat), (s.tick t).cfg.variant.hasBkup = false) ∧
    (∃ (s : State) (t : Nat), (s.tick t).live ∧ regionOk ((1#64) &&& regionMask) = false) ∧
    (∃ (s : State) (t : Nat), (s.tick t).live ∧ regionOk ((4035234062217019392#64) &&& regionMask) ∧ (s.tick t).dsp.regions = []) ∧
    (∃ (s : State) (t : Nat), (s.tick t).live ∧ 1 ≤ 8 ∧ 8 ≤ 8 ∧ (wordsOf 0x3008 8 (1#64)).any (fun e => ownRow e.1) = false) ∧
    (∃ (s : State) , s.modes.mode = .run ∧ 0x3008 % 4 = 0 ∧ s.rwl 0x3008 = true) ∧
    (∃ (s : State) , s.blockAbsent 0x3008 = false ∧ s.modes.mode ≠ .run ∧ s.leadsPair = false ∧ 32 < 33 ∧ 0 < 32) :=
  ⟨⟨withReq (b0) { rid := 7, opcode := 0x0602, phase := .ready }, { rid := 7, opcode := 0x0602, phase := .ready }, ⟨by decide +kernel, by decide +kernel, by decide +kernel, by decide +kernel⟩, by decide +kernel⟩,
   ⟨withReq (b0) { rid := 7, opcode := 0x0601, phase := .ready }, { rid := 7, opcode := 0x0601, phase := .ready }, ⟨by decide +kernel, by decide +kernel, by decide +kernel, by decide +kernel⟩, by decide +kernel⟩,
   ⟨withReq b0 { rid := 7, opcode := 0x0600, phase := .ready, aux := 1 }, _, ⟨rfl, rfl, rfl, by decide +kernel⟩, rfl⟩,
   ⟨{ b0 with recd := { b0.recd with slots := [(5, {})] } }, by decide +kernel⟩,
   ⟨b0, by decide +kernel⟩,
   ⟨{ b0 with recd := { b0.recd with queue := ({ code := 0x0310 } : Rec) :: [], ready := true }, pwr := { b0.pwr with warn := none } }, T, by decide +kernel⟩,
   ⟨{ b0 with recd := { b0.recd with queue := ({} : Rec) :: [{}], ready := true }, pwr := { b0.pwr with warn := none } }, T, by decide +kernel⟩,
   ⟨{}, { code := 0x0310 }, by decide⟩,
   ⟨{ b0 with recd := { b0.recd with cfg := [(1, { suppressed := 1 })], ready := true } }, T, by decide +kernel⟩,
   by decide,
   ⟨{ b0 with recd := { b0.recd with cfg := [(1, { tokens := 0 })] } }, by decide +kernel⟩,
   ⟨b0, T, by decide +kernel⟩,
   ⟨b0, T, by decide +kernel⟩,
   ⟨{ b0 with cfg := { b0.cfg with variant := .xkp02 } }, T, by decide +kernel⟩,
   ⟨{ b0 with cfg := { b0.cfg with variant := .xkp08 } }, T, by decide +kernel⟩,
   ⟨b0, T, by decide +kernel⟩,
   ⟨{ b0 with dsp := { b0.dsp with regions := [] } }, T, by decide +kernel⟩,
   ⟨b0, T, by decide +kernel⟩,
   ⟨{ b0 with modes := { b0.modes with mode := .run } }, by decide +kernel⟩,
   ⟨{ b0 with modes := { b0.modes with mode := .hold } }, by decide +kernel⟩⟩

theorem witness_PanelCommands :
    (∃ (s : State) (r : Req), s.ready r.rid 0x0A00 r ∧ (regW (tget s.dsp.regions r.value 0) = 0)) ∧
    (∃ (s : State) (r : Req), s.ready r.rid 0x0A00 r ∧ (regW (tget s.dsp.regions r.value 0) ≠ 0 ∧ s.dsp.running = [])) ∧
    (∃ (s : State) (r : Req), s.ready r.rid 0x0A01 r ∧ (True)) ∧
    (∃ (s : State) (t : Nat), (s.tick t).modes.powered ∧ (s.tick t).modes.inReset = false ∧ (s.tick t).pwr.warn = none ∧ (s.tick t).modes.mode ≠ .startup ∧ (s.tick t).dsp.bandOf (0 : BitVec 16) = (s.tick t).dsp.band) ∧
    (∃ (s : State) (t : Nat), (s.tick t).modes.powered ∧ (s.tick t).modes.inReset = false ∧ (s.tick t).pwr.warn = none ∧ (s.tick t).dsp.fault = false ∧ (0 : BitVec 32) = (s.tick t).dsp.expectCrc) ∧
    (∃ (s : State) (t : Nat), (s.tick t).modes.powered ∧ (s.tick t).modes.inReset = false ∧ (s.tick t).pwr.warn = none ∧ (s.tick t).dsp.fault = false ∧ (1 : BitVec 32) ≠ (s.tick t).dsp.expectCrc) ∧
    (∃ (s : State) (t : Nat), (s.tick t).dsp.pressed = [] ∧ (s.tick t).dsp.lever = false ∧ (s.tick t).modes.powered ∧ (s.tick t).modes.inReset = false ∧ (s.tick t).modes.mode ≠ .recovery) ∧
    (∃ (s : State) (t : Nat), Key.up ∈ (s.tick t).dsp.pressed) ∧
    (∃ (s : State) , s.dsp.supplyHeld = false) ∧
    (∃ (s : State) (t : Nat), (s.tick t).dsp.menu ≠ 0 ∧ (s.tick t).dsp.lastKey + 30000000000 ≤ (s.tick t).now) ∧
    (∃ (s : State) (t : Nat), (s.tick t).dsp.held [.select, .down] .maintenance = some (T - 2000000000) ∧ (s.tick t).modes.mode = .maintenance ∧ (s.tick t).dsp.menu = 5 ∧ (T - 2000000000) + 2000000000 ≤ (s.tick t).now) ∧
    (∃ (s : State) (t : Nat), (s.tick t).dsp.held [.select] .maintenance = some (T - 2000000000) ∧ (s.tick t).modes.mode = .maintenance ∧ (s.tick t).dsp.menu = 4 ∧ (s.tick t).fio.trim.ch = (7 : Fin 8).val ∧ (s.tick t).fio.trim.step ≠ 0 ∧ (T - 2000000000) + 2000000000 ≤ (s.tick t).now) ∧
    (∃ (s : State) (t : Nat), (s.tick t).dsp.lever = false ∧ (s.tick t).modes.powered ∧ (s.tick t).modes.role = .follow) ∧
    (∃ (s : State) (t : Nat), let u := s.tick t; u.dsp.lever = false ∧ u.modes.powered = true ∧ u.modes.role = .simplex ∧ u.modes.detached = false ∧ u.modes.mode = .run) ∧
    (∃ (s : State) (t : Nat), (s.tick t).dsp.eject = .wait 0 T ∧ T ≤ (s.tick t).now) ∧
    (∃ (s : State) (t : Nat), (s.tick t).dsp.lever ∧ (s.tick t).modes.powered) ∧
    (∃ (s : State) (t : Nat), (s.tick t).dsp.eject = .prompt ∧ (s.tick t).dsp.selectHeld = some (T - 3000000000) ∧ (s.tick t).modes.role = .simplex ∧ (s.tick t).modes.mode = .run ∧ (s.tick t).modes.trans = none ∧ (T - 3000000000) + 3000000000 ≤ (s.tick t).now) :=
  ⟨⟨withReq (b0) { rid := 7, opcode := 0x0A00, phase := .ready }, { rid := 7, opcode := 0x0A00, phase := .ready }, ⟨by decide +kernel, by decide +kernel, by decide +kernel, by decide +kernel⟩, by decide +kernel⟩,
   ⟨withReq ({ b0 with dsp := { b0.dsp with regions := [(0, 32768)], running := [] } }) { rid := 7, opcode := 0x0A00, phase := .ready }, { rid := 7, opcode := 0x0A00, phase := .ready }, ⟨by decide +kernel, by decide +kernel, by decide +kernel, by decide +kernel⟩, by decide +kernel⟩,
   ⟨withReq (b0) { rid := 7, opcode := 0x0A01, phase := .ready }, { rid := 7, opcode := 0x0A01, phase := .ready }, ⟨by decide +kernel, by decide +kernel, by decide +kernel, by decide +kernel⟩, by decide +kernel⟩,
   ⟨{ b0 with dsp := { b0.dsp with band := 1 }, modes := { b0.modes with powered := true, inReset := false }, pwr := { b0.pwr with warn := none } }, T, by decide +kernel⟩,
   ⟨{ b0 with modes := { b0.modes with powered := true, inReset := false }, pwr := { b0.pwr with warn := none }, dsp := { b0.dsp with fault := false } }, T, by decide +kernel⟩,
   ⟨{ b0 with modes := { b0.modes with powered := true, inReset := false }, pwr := { b0.pwr with warn := none }, dsp := { b0.dsp with fault := false } }, T, by decide +kernel⟩,
   ⟨{ b0 with dsp := { b0.dsp with pressed := [], lever := false }, modes := { b0.modes with powered := true, inReset := false } }, T, by decide +kernel⟩,
   ⟨{ b0 with dsp := { b0.dsp with pressed := [.mode, .up] } }, T, by decide +kernel⟩,
   ⟨{ b0 with dsp := { b0.dsp with supplyHeld := false } }, by decide +kernel⟩,
   ⟨{ b0 with dsp := { b0.dsp with menu := 5 } }, T, by decide +kernel⟩,
   ⟨{ b0 with dsp := { b0.dsp with hold := some ([.select, .down], T - 2000000000, .maintenance), menu := 5 }, modes := { b0.modes with mode := .maintenance } }, T, by decide +kernel⟩,
   ⟨{ b0 with dsp := { b0.dsp with hold := some ([.select], T - 2000000000, .maintenance), menu := 4 }, fio := { b0.fio with trim := { b0.fio.trim with step := 1, ch := (7 : Fin 8).val } }, modes := { b0.modes with mode := .maintenance } }, T, by decide +kernel⟩,
   ⟨{ b0 with dsp := { b0.dsp with lever := false }, modes := { b0.modes with powered := true, role := .follow } }, T, by decide +kernel⟩,
   ⟨{ b0 with dsp := { b0.dsp with lever := false }, modes := { b0.modes with powered := true, role := .simplex, detached := false, mode := .run } }, T, by decide +kernel⟩,
   ⟨{ b0 with dsp := { b0.dsp with eject := .wait 0 T } }, T, by decide +kernel⟩,
   ⟨{ b0 with dsp := { b0.dsp with lever := true }, modes := { b0.modes with powered := true } }, T, by decide +kernel⟩,
   ⟨{ b0 with dsp := { b0.dsp with hold := some ([.select], T - 3000000000, .run), eject := .prompt }, modes := { b0.modes with role := .simplex, mode := .run, trans := none } }, T, by decide +kernel⟩⟩

theorem witness_EveryStepKeepsThePast :
    ∃ s t : State, s.pending ≠ [] ∧ step s = .next t :=
  ⟨{ b0 with pending := [.clkMtRead T] }, _, by decide, rfl⟩

/-! ### Single steps -/

/-- An empty queue idles (log 1). -/
theorem test_idle : step State.reset = .next State.reset := rfl

/-- A step takes the front command and leaves the rest of the queue. -/
theorem test_step_takes_the_front :
    ∀ s, step { b0 with pending := [.clkMtRead T, .clkMtRead T] } = .next s → s.pending = [.clkMtRead T] := by
  intro s h
  cases h
  rfl

/-- ADD wraps at 64 bits (R203). -/
theorem test_add_wraps :
    (match exec (.add 63 ⟨0, 2, 30, 30⟩) (coreState (encA ⟨0, 2, 30, 30⟩ 0) { regs := [(30, 0x8000000000000001#64)] }) with
      | .next s => ((s.task 63).cyc.map (fun c => c.reg 2)) == some 2#64
      | _ => false) = true := by decide +kernel

/-- A predicate that does not hold only steps (R199). -/
theorem test_false_predicate :
    (match exec (.add 63 ⟨1, 2, 30, 30⟩) (coreState (encA ⟨1, 2, 30, 30⟩ 0) { regs := [(30, 5#64)] }) with
      | .next s => ((s.task 63).cyc.map (fun c => (c.reg 2, c.pc))) == some (0#64, 4)
      | _ => false) = true := by decide +kernel

end Sys2Proof.Tests
end

section
/-! PROOFS. The cycle core (06_cycle_instruction_set.md): what a command does whose word stands under its task's program
counter, and the shapes of effect that the statements name. -/

namespace Sys2Proof.Proofs

open Sys2Proof.Machine Sys2Proof.Laws

section
variable {s : State} {task : Fin 64} {w : BitVec 32} {d : TaskDef} {c c' : Cyc} {g : Env → Cyc → CoreRes}

theorem coreReady_of_runs (h : s.runs task w d c) :
    ∃ i, s.coreReady task.val = some (i, d, s.task task.val, c) ∧ fetchWord i c.pc = some w := by
  obtain ⟨hrun, ⟨i, hi, hw, hwait⟩, hd, hc, hdone, hheld, htrap⟩ := h
  exact ⟨i, by simp [State.coreReady, hrun, hi, hd, hc, hdone, hheld, htrap, hwait], hw⟩

/-- A false predicate leaves only the step past the word, whatever the word's effect is (R199). -/
theorem core_of_pred_false (h : s.runs task w d c) (hp : c.pred (bits w.toNat 28 4) = false) :
    s.core task w g = s.putCyc task c.next := by
  obtain ⟨i, hr, hw⟩ := coreReady_of_runs h
  simp [State.core, hr, hw, hp, State.putCyc]

/-- A legal word whose predicate reads 1 and whose effect neither traps nor sets DIV_ZERO replaces the cycle: no event,
no fault, nothing else of the module. -/
theorem core_of_ok (h : s.runs task w d c) (hp : c.pred (bits w.toNat 28 4) = true) (hl : legalWord w = true)
    (hg : ∀ i, g ⟨s, i, d, s.task task.val, task.val⟩ c = .ok c') (hz : c'.divZero = c.divZero) :
    s.core task w g = s.putCyc task c' := by
  obtain ⟨i, hr, hw⟩ := coreReady_of_runs h
  simp [State.core, hr, hw, hp, hl, hg, State.coreKeep, hz, State.putCyc]

/-- Every command that has a word is the core's execution of that word, with some effect: of the commands, `hw` leaves those
of Tables 6-3 to 6-10, and each is so by its definition. -/
theorem exec_eq_core {i : Instr} (hw : coreWord i = some w) (ht : coreTask i = some task) :
    ∃ g, ∀ s, exec i s = .next (s.core task w g) := by
  cases i <;> cases hw <;> cases ht <;> exact ⟨_, fun _ => rfl⟩

end

theorem next_setReg_divZero (c : Cyc) (r : BitVec 5) (v : BitVec 64) : (c.setReg r v).next.divZero = c.divZero := by
  unfold Cyc.setReg; split <;> rfl

theorem next_setPred_divZero (c : Cyc) (p : Nat) (b : Bool) : (c.setPred p b).next.divZero = c.divZero := by
  unfold Cyc.setPred; split <;> rfl

theorem writes_of_alu {i : Fin 64 → FmtA → Instr} {func : BitVec 10} {op : BitVec 64 → BitVec 64 → BitVec 64}
    (hexec : ∀ task f s, exec (i task f) s = .next (s.core task (encA f func) (alu f op)))
    (hl : ∀ rd rs1 rs2, legalA rd rs1 rs2 func.toNat = true) : Writes i func op := by
  intro s task f d c h hp
  rw [hexec, core_of_ok h (by rwa [encA_bits_pred]) (by rw [legalWord_encA, hl]) (fun _ => rfl)
    (next_setReg_divZero ..)]

theorem writes1_of_alu {i : Fin 64 → FmtA → Instr} {func : BitVec 10} {op : BitVec 64 → BitVec 64}
    (hexec : ∀ task f s, exec (i task f) s = .next (s.core task (encA f func) (alu f (fun a _ => op a))))
    (hl : ∀ rd rs1, legalA rd rs1 0 func.toNat = true) : Writes1 i func op := by
  intro s task f d c h hp h2
  rw [hexec, core_of_ok h (by rwa [encA_bits_pred]) (by rw [legalWord_encA, h2]; exact hl _ _) (fun _ => rfl)
    (next_setReg_divZero ..)]

theorem tests_of_cmp {i : Fin 64 → FmtA → Instr} {func : BitVec 10} {op : BitVec 64 → BitVec 64 → Bool}
    (hexec : ∀ task f s, exec (i task f) s = .next (s.core task (encA f func) (cmp f op)))
    (hl : ∀ rd rs1 rs2, rd < 16 → legalA rd rs1 rs2 func.toNat = true) : Tests i func op := by
  intro s task f d c h hp hrd
  rw [hexec, core_of_ok h (by rwa [encA_bits_pred]) (by rw [legalWord_encA, hl _ _ _ hrd]) (fun _ => rfl)
    (next_setPred_divZero ..)]

theorem sets_of_immOp {i : Fin 64 → FmtI → Instr} {sub : BitVec 4} {op : BitVec 64 → BitVec 16 → BitVec 64}
    (hexec : ∀ task f s, exec (i task f) s = .next (s.core task (encI f sub) (immOp f op)))
    (hsub : sub.toNat ≤ 10) : Sets i sub op := by
  intro s task f d c h hp himm
  have hl : legalWord (encI f sub) = true := by
    simp only [legalWord_encI, Bool.and_eq_true, Bool.or_eq_true, decide_eq_true_eq]
    omega
  rw [hexec, core_of_ok h (by rwa [encI_bits_pred]) hl (fun _ => rfl) (next_setReg_divZero ..)]

/-- Settles O19: each core command is one execution of its word, and a false predicate leaves only the step. -/
theorem falsePredicateOnlySteps : Obligations.FalsePredicateOnlySteps := by
  refine ⟨fun _ => rfl, fun i w s task d c hw ht h hp => ?_⟩
  obtain ⟨g, hg⟩ := exec_eq_core hw ht
  rw [hg, core_of_pred_false h hp]

end Sys2Proof.Proofs
end

section
/-! PROOFS. Fields of bits: BFX, BFXS and BFI (R205), and the immediates of Table 6-6 (R211). -/

namespace Sys2Proof.Proofs

open Sys2Proof.Machine Sys2Proof.Laws

/-! ### Bits of a field, and of a number one of whose fields is replaced -/

theorem testBit_bits (x lo n i : Nat) : (bits x lo n).testBit i = (decide (i < n) && x.testBit (lo + i)) := by
  rw [bits, Nat.testBit_mod_two_pow, Nat.testBit_div_two_pow, Nat.add_comm]

theorem bits_lt (x lo n : Nat) : bits x lo n < 2 ^ n := Nat.mod_lt _ (Nat.two_pow_pos n)

/-- A number is the bits above a field, the field and the bits below it. -/
theorem eq_above_field_below (x p l : Nat) :
    x = 2 ^ p * (2 ^ l * (x / 2 ^ (p + l)) + bits x p l) + x % 2 ^ p := by
  rw [bits, pow_add, ← Nat.div_div_eq_div_mul, Nat.div_add_mod, Nat.div_add_mod]

theorem testBit_replaceField (x v p l i : Nat) (hv : v < 2 ^ l) :
    (x - bits x p l * 2 ^ p + v * 2 ^ p).testBit i =
      if p ≤ i ∧ i < p + l then v.testBit (i - p) else x.testBit i := by
  have hx := eq_above_field_below x p l
  have hlow : x % 2 ^ p < 2 ^ p := Nat.mod_lt _ (Nat.two_pow_pos p)
  have hnew : x - bits x p l * 2 ^ p + v * 2 ^ p = 2 ^ p * (2 ^ l * (x / 2 ^ (p + l)) + v) + x % 2 ^ p := by
    generalize x / 2 ^ (p + l) = a at hx ⊢
    generalize x % 2 ^ p = b at hx ⊢
    rw [Nat.mul_add] at hx
    rw [Nat.mul_add, Nat.mul_comm v, Nat.mul_comm (bits x p l)]
    omega
  rw [hnew, Nat.testBit_two_pow_mul_add _ hlow, Nat.testBit_two_pow_mul_add _ hv]
  rcases lt_or_ge i p with hi | hi
  · rw [if_pos hi, if_neg (by omega), Nat.testBit_mod_two_pow, decide_eq_true hi, Bool.true_and]
  · rw [if_neg (by omega)]
    rcases lt_or_ge i (p + l) with hil | hil
    · rw [if_pos (by omega), if_pos ⟨hi, hil⟩]
    · rw [if_neg (by omega), if_neg (by omega), Nat.testBit_div_two_pow]
      congr 1
      omega

/-- The signed reading of the low bits of a number is their sign extension. -/
theorem ofInt_sx (l v : Nat) : BitVec.ofInt 64 (sx l v) = (BitVec.ofNat l v).signExtend 64 := by
  rw [BitVec.signExtend, BitVec.toInt_eq_toNat_cond, sx, BitVec.toNat_ofNat]
  congr 1
  cases l with
  | zero => simp [Nat.mod_one]
  | succ l =>
    have hhalf : 2 * (v % 2 ^ (l + 1)) < 2 ^ (l + 1) ↔ v % 2 ^ (l + 1) < 2 ^ l := by omega
    simp [hhalf]

/-! ### BFX, BFXS and BFI (R205) -/

theorem bfPos_eq (v : BitVec 64) : bfPos v = (v &&& 63#64).toNat := by
  rw [bfPos, bits, BitVec.toNat_and, BitVec.toNat_ofNat]
  simpa using (Nat.and_two_pow_sub_one_eq_mod v.toNat 6).symm

theorem bfLen_eq (v : BitVec 64) : bfLen v = Nat.min ((v >>> 8) &&& 127#64).toNat (64 - bfPos v) := by
  rw [bfLen, bits, BitVec.toNat_and, BitVec.toNat_ushiftRight, Nat.shiftRight_eq_div_pow]
  exact congrArg (min · _) (Nat.and_two_pow_sub_one_eq_mod (v.toNat / 2 ^ 8) 7).symm

theorem getLsbD_bfExtract (a v : BitVec 64) (i : Nat) (hi : i < 64) :
    (bfExtract a v).getLsbD i = (decide (i < bfLen v) && a.getLsbD (bfPos v + i)) := by
  rw [bfExtract, BitVec.getLsbD_ofNat, decide_eq_true hi, Bool.true_and, testBit_bits, BitVec.testBit_toNat]

theorem getLsbD_bfExtractS (a v : BitVec 64) (i : Nat) (hi : i < 64) :
    (bfExtractS a v).getLsbD i =
      if bfLen v = 0 then false else a.getLsbD (bfPos v + Nat.min i (bfLen v - 1)) := by
  by_cases h0 : bfLen v = 0
  · simp [bfExtractS, h0]
  · rw [bfExtractS, if_neg h0, if_neg h0, ofInt_sx, BitVec.getLsbD_signExtend, decide_eq_true hi, Bool.true_and]
    split
    · next hlt =>
      have hmin : Nat.min i (bfLen v - 1) = i := Nat.min_eq_left (by omega)
      rw [hmin, BitVec.getLsbD_ofNat, testBit_bits, BitVec.testBit_toNat, decide_eq_true hlt, Bool.true_and,
        Bool.true_and]
    · next hge =>
      have hmin : Nat.min i (bfLen v - 1) = bfLen v - 1 := Nat.min_eq_right (by omega)
      have hlast : bfLen v - 1 < bfLen v := by omega
      rw [hmin, BitVec.msb_eq_getLsbD_last, BitVec.getLsbD_ofNat, testBit_bits, BitVec.testBit_toNat,
        decide_eq_true hlast, Bool.true_and, Bool.true_and]

theorem getLsbD_bfInsert (r a v : BitVec 64) (i : Nat) (hi : i < 64) :
    (bfInsert r a v).getLsbD i =
      if bfPos v ≤ i ∧ i < bfPos v + bfLen v then a.getLsbD (i - bfPos v) else r.getLsbD i := by
  rw [bfInsert, BitVec.getLsbD_ofNat, decide_eq_true hi, Bool.true_and,
    testBit_replaceField _ _ _ _ _ (bits_lt ..)]
  split
  · next h =>
    rw [testBit_bits, BitVec.testBit_toNat, Nat.zero_add, decide_eq_true (by omega), Bool.true_and]
  · rfl

theorem exec_bfi_of_runs (s : State) (task : Fin 64) (f : FmtA) (d : TaskDef) (c : Cyc)
    (h : s.runs task (encA f 0x01A#10) d c) (hp : c.pred f.pred.toNat = true) :
    exec (.bfi task f) s =
      .next (s.putCyc task (c.setReg f.rd (bfInsert (c.reg f.rd) (c.reg f.rs1) (c.reg f.rs2))).next) := by
  rw [exec_bfi, execBfi, core_of_ok h (by rwa [encA_bits_pred]) (by rw [legalWord_encA]; rfl) (fun _ => rfl)
    (next_setReg_divZero ..)]

/-- Settles O9: the effects by the rule of format A, the results bit by bit. -/
theorem bitFields : Obligations.BitFields :=
  ⟨writes_of_alu (fun _ _ _ => rfl) (fun _ _ _ => rfl), writes_of_alu (fun _ _ _ => rfl) (fun _ _ _ => rfl),
   exec_bfi_of_runs, fun v => ⟨bfPos_eq v, bfLen_eq v⟩,
   fun a v i hi => ⟨getLsbD_bfExtract a v i hi, getLsbD_bfExtractS a v i hi⟩, getLsbD_bfInsert⟩

/-! ### Immediates (R211) -/

/-- Replacing half-word `k` is masking it away with `keep`, which has every other bit, and setting it by a shift. -/
theorem putHalf_eq (k : Nat) (r : BitVec 64) (i : BitVec 16) (keep : BitVec 64)
    (hkeep : ∀ j < 64, keep.getLsbD j = !(decide (16 * k ≤ j) && decide (j < 16 * k + 16))) :
    putHalf k r i = (r &&& keep) ||| (i.setWidth 64 <<< (16 * k)) := by
  refine BitVec.eq_of_getLsbD_eq fun j hj => ?_
  rw [putHalf, BitVec.getLsbD_ofNat, decide_eq_true hj, Bool.true_and, testBit_replaceField _ _ _ _ _ i.isLt,
    BitVec.testBit_toNat, BitVec.testBit_toNat, BitVec.getLsbD_or, BitVec.getLsbD_and, hkeep j hj,
    BitVec.getLsbD_shiftLeft, BitVec.getLsbD_setWidth]
  by_cases hlo : 16 * k ≤ j
  · by_cases hhi : j < 16 * k + 16
    · simp [hlo, hhi, hj, Nat.not_lt.2 hlo, show j - 16 * k < 64 by omega]
    · have habove : i.getLsbD (j - 16 * k) = false := BitVec.getLsbD_of_ge _ _ (by omega)
      simp [hhi, habove]
  · simp [hlo, Nat.lt_of_not_le hlo]

theorem sets_of_putHalf {i : Fin 64 → FmtI → Instr} {sub : BitVec 4} (k : Nat) (keep : BitVec 64)
    (hexec : ∀ task f s, exec (i task f) s = .next (s.core task (encI f sub) (immOp f (putHalf k))))
    (hsub : sub.toNat ≤ 10)
    (hkeep : ∀ j < 64, keep.getLsbD j = !(decide (16 * k ≤ j) && decide (j < 16 * k + 16))) :
    Sets i sub (fun r (i : BitVec 16) => (r &&& keep) ||| (i.setWidth 64 <<< (16 * k))) := by
  have hput : putHalf k = fun r (i : BitVec 16) => (r &&& keep) ||| (i.setWidth 64 <<< (16 * k)) :=
    funext fun r => funext fun i => putHalf_eq k r i keep hkeep
  exact sets_of_immOp (hput ▸ hexec) hsub

/-- Settles O14: the rule of format I for each SUB; LIH1 to LIH3 replace one half-word. -/
theorem immediateResults : Obligations.ImmediateResults :=
  ⟨sets_of_immOp (fun _ _ _ => rfl) (by decide),
   sets_of_putHalf 1 _ (fun _ _ _ => rfl) (by decide) (by decide),
   sets_of_putHalf 2 _ (fun _ _ _ => rfl) (by decide) (by decide),
   sets_of_putHalf 3 _ (fun _ _ _ => rfl) (by decide) (by decide),
   sets_of_immOp (fun _ _ _ => rfl) (by decide), sets_of_immOp (fun _ _ _ => rfl) (by decide),
   sets_of_immOp (fun _ _ _ => rfl) (by decide), sets_of_immOp (fun _ _ _ => rfl) (by decide),
   sets_of_immOp (fun _ _ _ => rfl) (by decide), sets_of_immOp (fun _ _ _ => rfl) (by decide),
   sets_of_immOp (fun _ _ _ => rfl) (by decide)⟩

end Sys2Proof.Proofs
end

section
/-! PROOFS. Timer and edge records (R217 to R220). -/

namespace Sys2Proof.Proofs

open Sys2Proof.Machine Sys2Proof.Laws

/-- The record that a format T command names (R217). -/
def recordAt (c : Cyc) (f : FmtT) : TRec := TRec.read (mread c.sp.inst (tAddr c f) 32)

/-- A store to INST and a write of a predicate, as one change of the cycle. -/
theorem next_setPred_store_inst (c : Cyc) (a : Nat) (b : List Byte) (p : Nat) (v : Bool) :
    ((c.store 5 a b).setPred p v).next =
      { (c.setPred p v).next with
          written := (c.store 5 a b).written, sp := { c.sp with inst := mwrite c.sp.inst a b } } := by
  simp only [Cyc.store, Cyc.setPred, Cyc.next]
  split <;> split <;> rfl

section
variable {s : State} {task : Fin 64} {d : TaskDef} {c : Cyc} {f : FmtT} {e : Env} {stepf : Nat → Bool → TRec → TRec}

theorem not_spaceTrap (ha : tAddr c f % 32 = 0) (hin : tAddr c f + 32 ≤ e.d.instSize) :
    ¬ (tAddr c f % 32 ≠ 0 ∨ e.d.instSize < tAddr c f + 32) := by omega

theorem timerOp_of_kind {k : Nat} (ha : tAddr c f % 32 = 0) (hin : tAddr c f + 32 ≤ e.d.instSize)
    (hk : (recordAt c f).kind = k) :
    let q := stepf c.start (c.pred f.ps.toNat) (recordAt c f)
    timerOp k stepf f e c = .ok ((c.store 5 (tAddr c f + 8) q.bytes).setPred f.dst.toNat q.q).next :=
  (if_neg (not_spaceTrap ha hin)).trans (if_neg (not_not.2 hk))

theorem tetOp_of_timer (ha : tAddr c f % 32 = 0) (hin : tAddr c f + 32 ≤ e.d.instSize)
    (h1 : 1 ≤ (recordAt c f).kind) (h3 : (recordAt c f).kind ≤ 3) :
    tetOp f e c = .ok (c.setReg f.dst (BitVec.ofNat 64 ((recordAt c f).elapsed c.start))).next :=
  (if_neg (not_spaceTrap ha hin)).trans (if_neg (by rw [← recordAt]; omega))

theorem exec_timer_of_runs {i : Fin 64 → FmtT → Instr} {k : BitVec 3}
    (hexec : ∀ task f s, exec (i task f) s = .next (s.core task (encT f k) (timerOp k.toNat stepf f)))
    (hk1 : 1 ≤ k.toNat) (hk5 : k.toNat ≤ 5) (h : s.runs task (encT f k) d c) (hp : c.pred f.pred.toNat = true)
    (ha : tAddr c f % 32 = 0) (hin : tAddr c f + 32 ≤ d.instSize) (hk : (recordAt c f).kind = k.toNat)
    (hdst : f.dst.toNat < 16) :
    ∃ wr, let q := stepf c.start (c.pred f.ps.toNat) (recordAt c f)
      exec (i task f) s = .next (s.putCyc task
        { (c.setPred f.dst.toNat q.q).next with
            written := wr, sp := { c.sp with inst := mwrite c.sp.inst (tAddr c f + 8) q.bytes } }) := by
  have hl : legalWord (encT f k) = true := by simp [legalWord_encT, hk1, hk5, hdst]
  have hok := fun im => timerOp_of_kind (e := ⟨s, im, d, s.task task.val, task.val⟩) (stepf := stepf) ha hin hk
  simp only [next_setPred_store_inst] at hok
  exact ⟨_, by rw [hexec, core_of_ok h (by rwa [encT_bits_pred]) hl hok (next_setPred_divZero ..)]⟩

theorem exec_tet_of_runs (h : s.runs task (encT f 6#3) d c) (hp : c.pred f.pred.toNat = true)
    (ha : tAddr c f % 32 = 0) (hin : tAddr c f + 32 ≤ d.instSize) (h1 : 1 ≤ (recordAt c f).kind)
    (h3 : (recordAt c f).kind ≤ 3) (hps : f.ps = 0) :
    exec (.tet task f) s =
      .next (s.putCyc task (c.setReg f.dst (BitVec.ofNat 64 ((recordAt c f).elapsed c.start))).next) := by
  have hl : legalWord (encT f 6#3) = true := by simp [legalWord_encT, hps]
  rw [exec_tet, execTet, core_of_ok h (by rwa [encT_bits_pred]) hl (fun _ => tetOp_of_timer ha hin h1 h3)
    (next_setReg_divZero ..)]

end

/-- Settles O17: the five steps share one rule; TET has its own. -/
theorem timerAndEdgeResults : Obligations.TimerAndEdgeResults := by
  intro s task f d c a r ha hin hp
  refine ⟨fun i k g hmem h hk hdst => ?_, fun h h1 h3 hps => exec_tet_of_runs h hp ha hin h1 h3 hps⟩
  simp only [List.mem_cons, List.not_mem_nil, or_false, Prod.mk.injEq] at hmem
  obtain ⟨rfl, rfl, rfl⟩ | ⟨rfl, rfl, rfl⟩ | ⟨rfl, rfl, rfl⟩ | ⟨rfl, rfl, rfl⟩ | ⟨rfl, rfl, rfl⟩ := hmem <;>
    exact exec_timer_of_runs (fun _ _ _ => rfl) (by decide) (by decide) h hp ha hin hk hdst

end Sys2Proof.Proofs
end

section
/-! PROOFS. Special floating-point operands (R210): the rules over decoded values hold in every format; a format enters
only by how it writes its zeros and the ends of the signed 64-bit range. -/

namespace Sys2Proof.Proofs

open Sys2Proof.Machine Sys2Proof.Laws

/-! ### Words -/

/-- The .D form of a floating-point instruction is legal where its .S form is (Table 6-5). -/
theorem legalA_fpFunc {base : BitVec 10} (d : Bool) (h : 0x80 ≤ base.toNat ∧ base.toNat ≤ 0x91) (rd rs1 rs2 : Nat) :
    legalA rd rs1 rs2 (fpFunc base d).toNat = legalA rd rs1 rs2 base.toNat := by
  cases d with
  | false => rfl
  | true =>
    have hD : (fpFunc base true).toNat = base.toNat + 0x40 := by
      simp only [fpFunc, if_true, BitVec.toNat_add, BitVec.toNat_ofNat]
      omega
    rw [hD]
    generalize base.toNat = n at h
    obtain ⟨h1, h2⟩ := h
    interval_cases n <;> rfl

/-! ### Bit patterns of the two formats -/

theorem decode_zero (d : Bool) : (Fmt.ofD d).decode 0 = .fin false 0 (Fmt.ofD d).emin := by
  cases d <;> rfl

theorem decode_minusZero (d : Bool) :
    (Fmt.ofD d).decode ((Fmt.ofD d).signBit true) = .fin true 0 (Fmt.ofD d).emin := by
  cases d <;> rfl

theorem decode_twoPow63 (d : Bool) :
    (Fmt.ofD d).decode ((Fmt.ofD d).ofInt (2 ^ 63)) = .fin false (2 ^ (Fmt.ofD d).mb) (63 - (Fmt.ofD d).mb) := by
  cases d <;> decide +kernel

theorem decode_negTwoPow63 (d : Bool) :
    (Fmt.ofD d).decode ((Fmt.ofD d).ofInt (-(2 ^ 63))) = .fin true (2 ^ (Fmt.ofD d).mb) (63 - (Fmt.ofD d).mb) := by
  cases d <;> decide +kernel

theorem exponent_twoPow63_nonneg (d : Bool) : (0 : Int) ≤ 63 - (Fmt.ofD d).mb := by cases d <;> decide

theorem mantissa_mul_twoPow63 (d : Bool) : 2 ^ (Fmt.ofD d).mb * 2 ^ (63 - (Fmt.ofD d).mb : Int).toNat = 2 ^ 63 := by
  cases d <;> rfl

theorem encode_zero (t : Fmt) (s : Bool) (e : Int) : t.encode (.fin s 0 e) = t.signBit s := rfl

/-! ### Signed values and the order of decoded values -/

theorem signedAt_zero (s : Bool) (e k : Int) : signedAt s 0 e k = 0 := by cases s <;> simp [signedAt]

theorem signedAt_false (m : Nat) (e k : Int) : signedAt false m e k = (m * 2 ^ (e - k).toNat : Nat) := by
  simp [signedAt]

theorem signedAt_true (m : Nat) (e k : Int) : signedAt true m e k = -signedAt false m e k := rfl

theorem signedAt_nonneg (m : Nat) (e k : Int) : 0 ≤ signedAt false m e k :=
  signedAt_false m e k ▸ Int.natCast_nonneg _

theorem signedAt_pos {m : Nat} (e k : Int) (hm : 0 < m) : 0 < signedAt false m e k := by
  rw [signedAt_false]; positivity

theorem sign_of_signedAt_pos {s : Bool} {m : Nat} {e k : Int} (h : 0 < signedAt s m e k) : s = false := by
  cases s with
  | false => rfl
  | true =>
    rw [signedAt_true] at h
    exact absurd (signedAt_nonneg m e k) (by omega)

theorem sign_of_signedAt_neg {s : Bool} {m : Nat} {e k : Int} (h : signedAt s m e k < 0) : s = true := by
  cases s with
  | false => exact absurd (signedAt_nonneg m e k) (by omega)
  | true => rfl

theorem fin_le_fin (s z : Bool) (m n : Nat) (e k : Int) :
    (FV.fin s m e).le (.fin z n k) = true ↔ signedAt s m e (min e k) ≤ signedAt z n k (min e k) := by
  simp only [FV.le, FV.lt, FV.eq, Bool.or_eq_true, decide_eq_true_eq, le_iff_lt_or_eq]

theorem sign_and_ne_zero_of_lt_zero {s z : Bool} {m : Nat} {e k : Int}
    (h : (FV.fin s m e).lt (.fin z 0 k) = true) : s = true ∧ m ≠ 0 := by
  simp only [FV.lt, signedAt_zero, decide_eq_true_eq] at h
  exact ⟨sign_of_signedAt_neg h, fun hm => by rw [hm, signedAt_zero] at h; exact lt_irrefl _ h⟩

theorem eq_nan_of_isNan {x : FV} (h : x.isNan = true) : x = .nan := by
  cases x with
  | nan => rfl
  | inf s => cases h
  | fin s m e => cases h

theorem lt_nan_right (x : FV) : x.lt .nan = false := by cases x <;> rfl

theorem eq_nan_right (x : FV) : x.eq .nan = false := by cases x <;> rfl

/-! ### Division, square root, minimum, maximum and compares -/

theorem div_by_zero {t : Fmt} {a b : Nat} {s₁ s₂ : Bool} {m₁ : Nat} {e₁ e₂ : Int} (ha : t.decode a = .fin s₁ m₁ e₁)
    (hb : t.decode b = .fin s₂ 0 e₂) :
    t.div a b = if m₁ = 0 then t.nanBits else t.signBit (s₁ != s₂) + t.infBits := by
  rw [Fmt.div, ha, hb]; rfl

theorem sqrt_minusZero (d : Bool) : (Fmt.ofD d).sqrt ((Fmt.ofD d).signBit true) = (Fmt.ofD d).signBit true := by
  rw [Fmt.sqrt, decode_minusZero]; rfl

theorem sqrtV_of_lt_zero {t : Fmt} {x : FV} {z : Bool} {k : Int} (h : x.lt (.fin z 0 k) = true) :
    t.sqrtV x = t.nanBits := by
  cases x with
  | nan => rfl
  | inf s => rw [show s = true from h]; rfl
  | fin s m e =>
    obtain ⟨rfl, hm⟩ := sign_and_ne_zero_of_lt_zero h
    simp [Fmt.sqrtV, hm]

theorem sqrt_of_lt_zero (d : Bool) (a : Nat) (h : (Fmt.ofD d).lt a 0 = true) :
    (Fmt.ofD d).sqrt a = (Fmt.ofD d).nanBits := by
  rw [Fmt.lt, decode_zero] at h
  exact sqrtV_of_lt_zero h

theorem minmax_and_compares_of_nan {t : Fmt} {a b : Nat} (h : t.nan a = true ∨ t.nan b = true) :
    t.fmin a b = t.nanBits ∧ t.fmax a b = t.nanBits ∧ t.eq a b = false ∧ t.lt a b = false ∧ t.le a b = false := by
  unfold Fmt.fmin Fmt.fmax Fmt.eq Fmt.lt Fmt.le FV.le
  rcases h with h | h
  · rw [eq_nan_of_isNan h]
    simp [FV.isNan, FV.lt, FV.eq]
  · rw [eq_nan_of_isNan h]
    simp [FV.isNan, lt_nan_right, eq_nan_right]

/-- Zeros compare as equal whatever their signs, and minimum and maximum put minus zero below plus zero. -/
theorem minmax_and_compares_of_zeros (d : Bool) :
    let t := Fmt.ofD d
    let n := t.signBit true
    t.fmin n 0 = n ∧ t.fmin 0 n = n ∧ t.fmax n 0 = 0 ∧ t.fmax 0 n = 0 ∧
    t.eq n 0 = true ∧ t.eq 0 n = true ∧ t.lt n 0 = false ∧ t.lt 0 n = false ∧ t.le n 0 = true ∧ t.le 0 n = true := by
  have hplus : (Fmt.ofD d).signBit false = 0 := rfl
  have hlt (s z : Bool) (e k : Int) : (FV.fin s 0 e).lt (.fin z 0 k) = false := by simp [FV.lt, signedAt_zero]
  have heq (s z : Bool) (e k : Int) : (FV.fin s 0 e).eq (.fin z 0 k) = true := by simp [FV.eq, signedAt_zero]
  simp [Fmt.fmin, Fmt.fmax, Fmt.eq, Fmt.lt, Fmt.le, FV.le, FV.below, FV.sign, FV.isNan, decode_zero, decode_minusZero,
    hlt, heq, encode_zero, hplus]

/-! ### Conversion to integers out of range -/

/-- A finite value not below M 2^E, E not negative, has an integer part not below it. -/
theorem mul_le_truncFin {M m : Nat} {E e : Int} (hE : 0 ≤ E)
    (h : signedAt false M E (min E e) ≤ signedAt false m e (min E e)) : M * 2 ^ E.toNat ≤ (truncFin m e).1 := by
  rw [signedAt_false, signedAt_false, Nat.cast_le] at h
  unfold truncFin
  split
  · next he =>
    have hE' : E.toNat = (E - min E e).toNat + (min E e).toNat := by omega
    have he' : e.toNat = (e - min E e).toNat + (min E e).toNat := by omega
    rw [hE', he', pow_add, pow_add, ← mul_assoc, ← mul_assoc]
    exact Nat.mul_le_mul_right _ h
  · next he =>
    have hmin : min E e = e := by omega
    have hsplit : (E - e).toNat = E.toNat + (-e).toNat := by omega
    rw [hmin, sub_self, hsplit, pow_add, ← mul_assoc] at h
    exact (Nat.le_div_iff_mul_le (by positivity)).2 (by simpa using h)

theorem sign_and_truncFin_of_ge {s : Bool} {M m : Nat} {E e : Int} (hM : 0 < M) (hE : 0 ≤ E)
    (h : (FV.fin false M E).le (.fin s m e) = true) : s = false ∧ M * 2 ^ E.toNat ≤ (truncFin m e).1 := by
  rw [fin_le_fin] at h
  obtain rfl := sign_of_signedAt_pos (lt_of_lt_of_le (signedAt_pos _ _ hM) h)
  exact ⟨rfl, mul_le_truncFin hE h⟩

theorem sign_and_truncFin_of_le {s : Bool} {M m : Nat} {E e : Int} (hM : 0 < M) (hE : 0 ≤ E)
    (h : (FV.fin s m e).le (.fin true M E) = true) : s = true ∧ M * 2 ^ E.toNat ≤ (truncFin m e).1 := by
  rw [fin_le_fin, min_comm, signedAt_true] at h
  have hpos := signedAt_pos E (min E e) hM
  obtain rfl := sign_of_signedAt_neg (lt_of_le_of_lt h (by omega))
  rw [signedAt_true] at h
  exact ⟨rfl, mul_le_truncFin hE (by omega)⟩

/-- Either rounding keeps the sign and does not go below the integer part. -/
theorem toIntBy_fin (near s : Bool) (m : Nat) (e : Int) :
    ∃ q, (truncFin m e).1 ≤ q ∧ (FV.fin s m e).toIntBy near = some (if s then -(q : Int) else q) := by
  refine ⟨_, ?_, rfl⟩
  change (truncFin m e).1 ≤ if _ then (truncFin m e).1 + 1 else (truncFin m e).1
  split
  · exact Nat.le_succ _
  · exact Nat.le_refl _

theorem toI64_of_nan {t : Fmt} {a : Nat} (near : Bool) (h : t.nan a = true) : t.toI64 near a = 0 := by
  rw [Fmt.toI64, eq_nan_of_isNan h]; rfl

theorem toI64_of_inf {t : Fmt} {a : Nat} {s : Bool} (near : Bool) (h : t.decode a = .inf s) :
    t.toI64 near a = if s then -(2 ^ 63) else 2 ^ 63 - 1 := by
  rw [Fmt.toI64, h]
  cases s <;> rfl

theorem toI64_of_fin {t : Fmt} {a m : Nat} {s : Bool} {e : Int} (near : Bool) (h : t.decode a = .fin s m e)
    (hm : 2 ^ 63 ≤ (truncFin m e).1) : t.toI64 near a = if s then -(2 ^ 63) else 2 ^ 63 - 1 := by
  obtain ⟨q, hq, hint⟩ := toIntBy_fin near s m e
  rw [Fmt.toI64, h, hint]
  cases s with
  | false => simp; omega
  | true => simp; omega

theorem toI64_of_ge (d near : Bool) (a : Nat) (h : (Fmt.ofD d).le ((Fmt.ofD d).ofInt (2 ^ 63)) a = true) :
    (Fmt.ofD d).toI64 near a = 2 ^ 63 - 1 := by
  rw [Fmt.le, decode_twoPow63] at h
  cases ha : (Fmt.ofD d).decode a with
  | nan => rw [ha] at h; cases h
  | inf s =>
    rw [ha] at h
    cases s with
    | false => exact toI64_of_inf near ha
    | true => cases h
  | fin s m e =>
    rw [ha] at h
    obtain ⟨rfl, hm⟩ := sign_and_truncFin_of_ge (Nat.two_pow_pos _) (exponent_twoPow63_nonneg d) h
    exact toI64_of_fin near ha (mantissa_mul_twoPow63 d ▸ hm)

theorem toI64_of_le (d near : Bool) (a : Nat) (h : (Fmt.ofD d).le a ((Fmt.ofD d).ofInt (-(2 ^ 63))) = true) :
    (Fmt.ofD d).toI64 near a = -(2 ^ 63) := by
  rw [Fmt.le, decode_negTwoPow63] at h
  cases ha : (Fmt.ofD d).decode a with
  | nan => rw [ha] at h; cases h
  | inf s =>
    rw [ha] at h
    cases s with
    | false => cases h
    | true => exact toI64_of_inf near ha
  | fin s m e =>
    rw [ha] at h
    obtain ⟨rfl, hm⟩ := sign_and_truncFin_of_le (Nat.two_pow_pos _) (exponent_twoPow63_nonneg d) h
    exact toI64_of_fin near ha (mantissa_mul_twoPow63 d ▸ hm)

/-! ### The instructions -/

theorem writes_of_fp2 {i : Fin 64 → FmtA → Instr} {base : BitVec 10} {d : Bool} {op : Fmt → Nat → Nat → Nat}
    (hexec : ∀ task f s, exec (i task f) s = .next (s.core task (encA f (fpFunc base d)) (fp2 d f op)))
    (hb : 0x80 ≤ base.toNat ∧ base.toNat ≤ 0x91) (hl : ∀ rd rs1 rs2, legalA rd rs1 rs2 base.toNat = true) :
    Writes i (fpFunc base d) (fun a b => fpRes (op (Fmt.ofD d) (fpArg d a) (fpArg d b))) :=
  writes_of_alu hexec fun rd rs1 rs2 => (legalA_fpFunc d hb rd rs1 rs2).trans (hl rd rs1 rs2)

theorem writes1_of_fpArg {i : Fin 64 → FmtA → Instr} {base : BitVec 10} {d : Bool} {op : Nat → BitVec 64}
    (hexec : ∀ task f s,
      exec (i task f) s = .next (s.core task (encA f (fpFunc base d)) (alu f (fun a _ => op (fpArg d a)))))
    (hb : 0x80 ≤ base.toNat ∧ base.toNat ≤ 0x91) (hl : ∀ rd rs1, legalA rd rs1 0 base.toNat = true) :
    Writes1 i (fpFunc base d) (fun a => op (fpArg d a)) :=
  writes1_of_alu hexec fun rd rs1 => (legalA_fpFunc d hb rd rs1 0).trans (hl rd rs1)

theorem tests_of_fpCmp {i : Fin 64 → FmtA → Instr} {base : BitVec 10} {d : Bool} {op : Fmt → Nat → Nat → Bool}
    (hexec : ∀ task f s, exec (i task f) s = .next (s.core task (encA f (fpFunc base d)) (fpCmp d f op)))
    (hb : 0x80 ≤ base.toNat ∧ base.toNat ≤ 0x91)
    (hl : ∀ rd rs1 rs2, legalA rd rs1 rs2 base.toNat = decide (rd < 16)) :
    Tests i (fpFunc base d) (fun a b => op (Fmt.ofD d) (fpArg d a) (fpArg d b)) :=
  tests_of_cmp hexec fun rd rs1 rs2 hrd => by rw [legalA_fpFunc d hb, hl, decide_eq_true hrd]

/-- Settles O12: the nine instructions by the rules of format A, the operations by cases of the decoded operands. -/
theorem specialOperandsOfR210 : Obligations.SpecialOperandsOfR210 := by
  intro d t
  exact ⟨writes_of_fp2 (op := Fmt.div) (fun _ _ _ => rfl) (by decide) (fun _ _ _ => rfl),
    writes1_of_fpArg (op := fun x => fpRes (t.sqrt x)) (fun _ _ _ => rfl) (by decide) (fun _ _ => rfl),
    writes_of_fp2 (op := Fmt.fmin) (fun _ _ _ => rfl) (by decide) (fun _ _ _ => rfl),
    writes_of_fp2 (op := Fmt.fmax) (fun _ _ _ => rfl) (by decide) (fun _ _ _ => rfl),
    tests_of_fpCmp (op := Fmt.eq) (fun _ _ _ => rfl) (by decide) (fun _ _ _ => rfl),
    tests_of_fpCmp (op := Fmt.lt) (fun _ _ _ => rfl) (by decide) (fun _ _ _ => rfl),
    tests_of_fpCmp (op := Fmt.le) (fun _ _ _ => rfl) (by decide) (fun _ _ _ => rfl),
    writes1_of_fpArg (op := fun x => BitVec.ofInt 64 (t.toI64 true x)) (fun _ _ _ => rfl) (by decide) (fun _ _ => rfl),
    writes1_of_fpArg (op := fun x => BitVec.ofInt 64 (t.toI64 false x)) (fun _ _ _ => rfl) (by decide) (fun _ _ => rfl),
    fun _ _ _ _ _ _ _ => div_by_zero, sqrt_minusZero d, sqrt_of_lt_zero d, fun _ _ => minmax_and_compares_of_nan,
    minmax_and_compares_of_zeros d, fun near a => ⟨toI64_of_nan near, toI64_of_ge d near a, toI64_of_le d near a⟩⟩

end Sys2Proof.Proofs
end

section
/-! PROOFS. One step, the words of Table 6-14, and what a module finds after reset. -/

namespace Sys2Proof.Proofs

open Sys2Proof.Machine

/-- Settles O1: by the definition of a step. -/
theorem stepRunsFrontCommand : Obligations.StepRunsFrontCommand := fun _ _ _ => rfl

/-- Settles O2: a step looks at the queue first. -/
theorem emptyQueueIdles : Obligations.EmptyQueueIdles := fun _ h => by rw [step, h]

/-- Settles O3: twelve closed words. -/
theorem fragmentWords : Obligations.FragmentWords := by
  refine ⟨rfl, rfl, rfl, rfl, rfl, rfl, rfl, rfl, rfl, rfl, rfl, rfl⟩

/-- Settles O59: the register file of the reset state, evaluated. -/
theorem resetLeaves : Obligations.ResetLeaves := by
  refine ⟨?_, rfl, rfl, rfl, rfl, rfl, rfl, rfl, rfl, rfl, rfl⟩
  decide +kernel

end Sys2Proof.Proofs
end

section
/-! PROOFS. Every step keeps the past: the commands of the whole table, each by its own rule of Laws/Keeps*.lean. -/

namespace Sys2Proof.Proofs

open Sys2Proof.Machine

/-- What no command of a module changes: its fittings apart from the EEPROM, its queue and what it sent; its clock does not
go back. -/
structure KeepsPast (s t : State) : Prop where
  cfg : { t.cfg with ee := s.cfg.ee } = s.cfg
  now : s.now ≤ t.now
  sent : s.out <:+ t.out
  pending : t.pending = s.pending

theorem KeepsPast.of_keeps {s t : State} (h : Keeps s t) : KeepsPast s t :=
  ⟨h.cfg, h.now.ge, h.sent, h.pending⟩

/-- An event's command moves the clock on to its instant first. -/
theorem KeepsPast.of_tick {s t : State} {i : Nat} (h : Keeps (s.tick i) t) : KeepsPast s t :=
  ⟨h.cfg, h.now ▸ le_max_left _ _, h.sent, h.pending⟩

theorem exec_keepsPast {i : Instr} {s t : State} (h : exec i s = .next t) : KeepsPast s t := by
  cases i with
  | ctxEnable => exact .of_tick (execCtxEnable_keeps _ _ _ _ _ h)
  | ctxDisable => exact .of_tick (execCtxDisable_keeps _ _ _ _ h)
  | submissionDoorbell => exact .of_tick (execSubmissionDoorbell_keeps _ _ _ _ _ h)
  | completionDoorbell => exact .of_tick (execCompletionDoorbell_keeps _ _ _ _ _ h)
  | descriptorFetch => exact .of_tick (execDescriptorFetch_keeps _ _ _ _ _ _ h)
  | descriptorRelease => exact .of_tick (execDescriptorRelease_keeps _ _ _ h)
  | irqHoldoffExpiry => exact .of_tick (execIrqHoldoffExpiry_keeps _ _ _ h)
  | pcieLinkDown => exact .of_tick (execPcieLinkDown_keeps _ _ h)
  | pcieLinkUp => exact .of_tick (execPcieLinkUp_keeps _ _ _ _ h)
  | modeStatus => exact .of_keeps (execModeStatus_keeps _ _ h)
  | modeSet => exact .of_keeps (execModeSet_keeps _ _ h)
  | restart => exact .of_keeps (execRestart_keeps _ _ h)
  | equinox => exact .of_keeps (execEquinox_keeps _ _ h)
  | drillNow => exact .of_keeps (execDrillNow_keeps _ _ h)
  | detach => exact .of_keeps (execDetach_keeps _ _ h)
  | rejoin => exact .of_keeps (execRejoin_keeps _ _ h)
  | tilePower => exact .of_keeps (execTilePower_keeps _ _ h)
  | tileReset => exact .of_keeps (execTileReset_keeps _ _ h)
  | drainEnd => exact .of_tick (execDrainEnd_keeps _ _ _ _ h)
  | staleReply => exact .of_tick (execStaleReply_keeps _ _ _ _ h)
  | progInfo => exact .of_keeps (execProgInfo_keeps _ _ h)
  | progLoad => exact .of_keeps (execProgLoad_keeps _ _ h)
  | progExchange => exact .of_keeps (execProgExchange_keeps _ _ h)
  | onlineChange => exact .of_keeps (execOnlineChange_keeps _ _ h)
  | forceSet => exact .of_keeps (execForceSet_keeps _ _ h)
  | forceRelease => exact .of_keeps (execForceRelease_keeps _ _ h)
  | forceList => exact .of_keeps (execForceList_keeps _ _ h)
  | varRead => exact .of_keeps (execVarRead_keeps _ _ h)
  | varSubscribe => exact .of_keeps (execVarSubscribe_keeps _ _ _ h)
  | subCancel => exact .of_keeps (execSubCancel_keeps _ _ h)
  | taskStatus => exact .of_keeps (execTaskStatus_keeps _ _ h)
  | loopAdmit => exact .of_keeps (execLoopAdmit_keeps _ _ h)
  | loopParam => exact .of_keeps (execLoopParam_keeps _ _ h)
  | loopMode => exact .of_keeps (execLoopMode_keeps _ _ h)
  | loopRead => exact .of_keeps (execLoopRead_keeps _ _ h)
  | loopSubscribe => exact .of_keeps (execLoopSubscribe_keeps _ _ _ h)
  | cellPlan => exact .of_keeps (execCellPlan_keeps _ _ h)
  | chemLoad => exact .of_keeps (execChemLoad_keeps _ _ h)
  | strEnum => exact .of_keeps (execStrEnum_keeps _ _ h)
  | balPlan => exact .of_keeps (execBalPlan_keeps _ _ h)
  | contactorPlan => exact .of_keeps (execContactorPlan_keeps _ _ h)
  | probeSweep => exact .of_keeps (execProbeSweep_keeps _ _ h)
  | cellSubscribe => exact .of_keeps (execCellSubscribe_keeps _ _ _ h)
  | cellRead => exact .of_keeps (execCellRead_keeps _ _ h)
  | ringStatus => exact .of_keeps (execRingStatus_keeps _ _ h)
  | bypassForce => exact .of_keeps (execBypassForce_keeps _ _ h)
  | dropSubscribe => exact .of_keeps (execDropSubscribe_keeps _ _ _ h)
  | canSchedule => exact .of_keeps (execCanSchedule_keeps _ _ h)
  | canSend => exact .of_keeps (execCanSend_keeps _ _ h)
  | canSubscribe => exact .of_keeps (execCanSubscribe_keeps _ _ _ h)
  | recRead => exact .of_keeps (execRecRead_keeps _ _ h)
  | recSubscribe => exact .of_keeps (execRecSubscribe_keeps _ _ _ h)
  | recConfig => exact .of_keeps (execRecConfig_keeps _ _ h)
  | timeRead => exact .of_keeps (execTimeRead_keeps _ _ h)
  | timeSet => exact .of_keeps (execTimeSet_keeps _ _ h)
  | rtcAlarm => exact .of_keeps (execRtcAlarm_keeps _ _ h)
  | helmStatus => exact .of_keeps (execHelmStatus_keeps _ _ h)
  | helmRelease => exact .of_keeps (execHelmRelease_keeps _ _ h)
  | helmTake => exact .of_keeps (execHelmTake_keeps _ _ h)
  | helmSeize => exact .of_keeps (execHelmSeize_keeps _ _ h)
  | keyLoad => exact .of_keeps (execKeyLoad_keeps _ _ h)
  | keyErase => exact .of_keeps (execKeyErase_keeps _ _ h)
  | counterRead => exact .of_keeps (execCounterRead_keeps _ _ h)
  | pwdLogin => exact .of_keeps (execPwdLogin_keeps _ _ h)
  | pwdLogout => exact .of_keeps (execPwdLogout_keeps _ _ h)
  | pwdSet => exact .of_keeps (execPwdSet_keeps _ _ h)
  | tripConfig => exact .of_keeps (execTripConfig_keeps _ _ h)
  | safetyConfig => exact .of_keeps (execSafetyConfig_keeps _ _ h)
  | tripReset => exact .of_keeps (execTripReset_keeps _ _ _ _ h)
  | tripStatus => exact .of_keeps (execTripStatus_keeps _ _ h)
  | safetyStatus => exact .of_keeps (execSafetyStatus_keeps _ _ h)
  | fwInfo => exact .of_keeps (execFwInfo_keeps _ _ h)
  | fwWrite => exact .of_keeps (execFwWrite_keeps _ _ h)
  | fwActivate => exact .of_keeps (execFwActivate_keeps _ _ h)
  | dspWrite => exact .of_keeps (execDspWrite_keeps _ _ h)
  | dspStatus => exact .of_keeps (execDspStatus_keeps _ _ h)
  | fioRead => exact .of_keeps (execFioRead_keeps _ _ h)
  | fioSubscribe => exact .of_keeps (execFioSubscribe_keeps _ _ _ h)
  | fioTest => exact .of_keeps (execFioTest_keeps _ _ h)
  | fioTrim => exact .of_keeps (execFioTrim_keeps _ _ h)
  | sidebandDatagram => exact .of_tick (execSidebandDatagram_keeps _ _ _ _ h)
  | sidebandDequeue => exact .of_tick (execSidebandDequeue_keeps _ _ h)
  | sbLinkChange => exact .of_tick (execSbLinkChange_keeps _ _ _ _ h)
  | sbConfigWrite => exact .of_tick (execSbConfigWrite_keeps _ _ _ h)
  | helmTimeout => exact .of_tick (execHelmTimeout_keeps _ _ h)
  | sbIdle => exact .of_tick (execSbIdle_keeps _ _ h)
  | mirrorTimeout => exact .of_tick (execMirrorTimeout_keeps _ _ h)
  | presenceWindow => exact .of_tick (execPresenceWindow_keeps _ _ h)
  | presenceWindowEnd => exact .of_tick (execPresenceWindowEnd_keeps _ _ h)
  | sessionTimeout => exact .of_tick (execSessionTimeout_keeps _ _ h)
  | lockoutEnd => exact .of_tick (execLockoutEnd_keeps _ _ h)
  | supplyGood => exact .of_tick (execSupplyGood_keeps _ _ _ h)
  | recoveryKeySequence => exact .of_tick (execRecoveryKeySequence_keeps _ _ h)
  | roleWaitEnd => exact .of_tick (execRoleWaitEnd_keeps _ _ h)
  | claimDrive => exact .of_tick (execClaimDrive_keeps _ _ h)
  | claimSeen => exact .of_tick (execClaimSeen_keeps _ _ h)
  | claimRelease => exact .of_tick (execClaimRelease_keeps _ _ h)
  | restartInstant => exact .of_tick (execRestartInstant_keeps _ _ h)
  | holdInstant => exact .of_tick (execHoldInstant_keeps _ _ h)
  | recoveryReset => exact .of_tick (execRecoveryReset_keeps _ _ h)
  | activateReset => exact .of_tick (execActivateReset_keeps _ _ h)
  | leaveRecovery => exact .of_tick (execLeaveRecovery_keeps _ _ h)
  | moduleReset => exact .of_tick (execModuleReset_keeps _ _ h)
  | cycleStart => exact .of_tick (execCycleStart_keeps _ _ _ h)
  | harvestPoint => exact .of_tick (execHarvestPoint_keeps _ _ _ h)
  | speculationStart => exact .of_tick (execSpeculationStart_keeps _ _ _ h)
  | budgetWarning => exact .of_tick (execBudgetWarning_keeps _ _ _ _ h)
  | watchdogTrip => exact .of_tick (execWatchdogTrip_keeps _ _ _ _ h)
  | add => exact .of_keeps (execAdd_keeps _ _ _ h)
  | sub => exact .of_keeps (execSub_keeps _ _ _ h)
  | mul => exact .of_keeps (execMul_keeps _ _ _ h)
  | mulh => exact .of_keeps (execMulh_keeps _ _ _ h)
  | mulhu => exact .of_keeps (execMulhu_keeps _ _ _ h)
  | div => exact .of_keeps (execDiv_keeps _ _ _ h)
  | divu => exact .of_keeps (execDivu_keeps _ _ _ h)
  | rem => exact .of_keeps (execRem_keeps _ _ _ h)
  | remu => exact .of_keeps (execRemu_keeps _ _ _ h)
  | min => exact .of_keeps (execMin_keeps _ _ _ h)
  | max => exact .of_keeps (execMax_keeps _ _ _ h)
  | and => exact .of_keeps (execAnd_keeps _ _ _ h)
  | or => exact .of_keeps (execOr_keeps _ _ _ h)
  | xor => exact .of_keeps (execXor_keeps _ _ _ h)
  | andn => exact .of_keeps (execAndn_keeps _ _ _ h)
  | shl => exact .of_keeps (execShl_keeps _ _ _ h)
  | shr => exact .of_keeps (execShr_keeps _ _ _ h)
  | sar => exact .of_keeps (execSar_keeps _ _ _ h)
  | bfx => exact .of_keeps (execBfx_keeps _ _ _ h)
  | bfxs => exact .of_keeps (execBfxs_keeps _ _ _ h)
  | bfi => exact .of_keeps (execBfi_keeps _ _ _ h)
  | ceq => exact .of_keeps (execCeq_keeps _ _ _ h)
  | cne => exact .of_keeps (execCne_keeps _ _ _ h)
  | clt => exact .of_keeps (execClt_keeps _ _ _ h)
  | cle => exact .of_keeps (execCle_keeps _ _ _ h)
  | cltu => exact .of_keeps (execCltu_keeps _ _ _ h)
  | cleu => exact .of_keeps (execCleu_keeps _ _ _ h)
  | btst => exact .of_keeps (execBtst_keeps _ _ _ h)
  | pand => exact .of_keeps (execPand_keeps _ _ _ h)
  | por => exact .of_keeps (execPor_keeps _ _ _ h)
  | pxor => exact .of_keeps (execPxor_keeps _ _ _ h)
  | pandn => exact .of_keeps (execPandn_keeps _ _ _ h)
  | pget => exact .of_keeps (execPget_keeps _ _ _ h)
  | pset => exact .of_keeps (execPset_keeps _ _ _ h)
  | fadd => exact .of_keeps (execFadd_keeps _ _ _ _ h)
  | fsub => exact .of_keeps (execFsub_keeps _ _ _ _ h)
  | fmul => exact .of_keeps (execFmul_keeps _ _ _ _ h)
  | fdiv => exact .of_keeps (execFdiv_keeps _ _ _ _ h)
  | fsqrt => exact .of_keeps (execFsqrt_keeps _ _ _ _ h)
  | fma => exact .of_keeps (execFma_keeps _ _ _ _ h)
  | fmin => exact .of_keeps (execFmin_keeps _ _ _ _ h)
  | fmax => exact .of_keeps (execFmax_keeps _ _ _ _ h)
  | fneg => exact .of_keeps (execFneg_keeps _ _ _ _ h)
  | fabs => exact .of_keeps (execFabs_keeps _ _ _ _ h)
  | fceq => exact .of_keeps (execFceq_keeps _ _ _ _ h)
  | fclt => exact .of_keeps (execFclt_keeps _ _ _ _ h)
  | fcle => exact .of_keeps (execFcle_keeps _ _ _ _ h)
  | fcun => exact .of_keeps (execFcun_keeps _ _ _ _ h)
  | ftoi => exact .of_keeps (execFtoi_keeps _ _ _ _ h)
  | ftrunc => exact .of_keeps (execFtrunc_keeps _ _ _ _ h)
  | itof => exact .of_keeps (execItof_keeps _ _ _ _ h)
  | fcvt => exact .of_keeps (execFcvt_keeps _ _ _ _ h)
  | li => exact .of_keeps (execLi_keeps _ _ _ h)
  | lih1 => exact .of_keeps (execLih1_keeps _ _ _ h)
  | lih2 => exact .of_keeps (execLih2_keeps _ _ _ h)
  | lih3 => exact .of_keeps (execLih3_keeps _ _ _ h)
  | addi => exact .of_keeps (execAddi_keeps _ _ _ h)
  | andi => exact .of_keeps (execAndi_keeps _ _ _ h)
  | ori => exact .of_keeps (execOri_keeps _ _ _ h)
  | xori => exact .of_keeps (execXori_keeps _ _ _ h)
  | shli => exact .of_keeps (execShli_keeps _ _ _ h)
  | shri => exact .of_keeps (execShri_keeps _ _ _ h)
  | sari => exact .of_keeps (execSari_keeps _ _ _ h)
  | br => exact .of_keeps (execBr_keeps _ _ _ h)
  | call => exact .of_keeps (execCall_keeps _ _ _ h)
  | ret => exact .of_keeps (execRet_keeps _ _ _ h)
  | endCycle => exact .of_keeps (execEndCycle_keeps _ _ _ h)
  | fence => exact .of_keeps (execFence_keeps _ _ _ h)
  | tsr => exact .of_keeps (execTsr_keeps _ _ _ h)
  | ton => exact .of_keeps (execTon_keeps _ _ _ h)
  | tof => exact .of_keeps (execTof_keeps _ _ _ h)
  | tp => exact .of_keeps (execTp_keeps _ _ _ h)
  | rtrig => exact .of_keeps (execRtrig_keeps _ _ _ h)
  | ftrig => exact .of_keeps (execFtrig_keeps _ _ _ h)
  | tet => exact .of_keeps (execTet_keeps _ _ _ h)
  | ldu => exact .of_keeps (execLdu_keeps _ _ _ h)
  | lds => exact .of_keeps (execLds_keeps _ _ _ h)
  | st => exact .of_keeps (execSt_keeps _ _ _ h)
  | loopSample => exact .of_tick (execLoopSample_keeps _ _ _ h)
  | loopCommit => exact .of_tick (execLoopCommit_keeps _ _ _ h)
  | loopOutput => exact .of_tick (execLoopOutput_keeps _ _ _ h)
  | sampleSend => exact .of_tick (execSampleSend_keeps _ _ _ h)
  | readSend => exact .of_tick (execReadSend_keeps _ _ _ h)
  | blockReceive => exact .of_tick (execBlockReceive_keeps _ _ _ _ _ h)
  | blockMissing => exact .of_tick (execBlockMissing_keeps _ _ _ _ _ h)
  | chainFrameSend => exact .of_tick (execChainFrameSend_keeps _ _ _ _ _ h)
  | chainReply => exact .of_tick (execChainReply_keeps _ _ _ _ _ _ h)
  | replyTimeout => exact .of_tick (execReplyTimeout_keeps _ _ _ h)
  | enumTimeout => exact .of_tick (execEnumTimeout_keeps _ _ _ _ h)
  | balEnd => exact .of_tick (execBalEnd_keeps _ _ _ h)
  | toneStateChange => exact .of_tick (execToneStateChange_keeps _ _ _ _ _ h)
  | toneReport => exact .of_tick (execToneReport_keeps _ _ _ _ _ h)
  | toneReportStale => exact .of_tick (execToneReportStale_keeps _ _ _ h)
  | loopOpen => exact .of_tick (execLoopOpen_keeps _ _ _ h)
  | currentLatch => exact .of_tick (execCurrentLatch_keeps _ _ _ h)
  | estimation => exact .of_tick (execEstimation_keeps _ _ _ h)
  | publication => exact .of_tick (execPublication_keeps _ _ h)
  | cellCommit => exact .of_tick (execCellCommit_keeps _ _ h)
  | contactorTick => exact .of_tick (execContactorTick_keeps _ _ h)
  | tripInputEdge => exact .of_tick (execTripInputEdge_keeps _ _ _ _ _ h)
  | dieTemperature => exact .of_tick (execDieTemperature_keeps _ _ _ _ h)
  | pulseTest => exact .of_tick (execPulseTest_keeps _ _ _ _ _ h)
  | switchFault => exact .of_tick (execSwitchFault_keeps _ _ _ _ _ h)
  | safetyPeriod => exact .of_tick (execSafetyPeriod_keeps _ _ h)
  | lockstepMismatch => exact .of_tick (execLockstepMismatch_keeps _ _ h)
  | proofDue => exact .of_tick (execProofDue_keeps _ _ _ h)
  | ringCycleOpen => exact .of_tick (execRingCycleOpen_keeps _ _ h)
  | c1Slot => exact .of_tick (execC1Slot_keeps _ _ _ _ h)
  | linkFrameSend => exact .of_tick (execLinkFrameSend_keeps _ _ h)
  | dataFrameReceive => exact .of_tick (execDataFrameReceive_keeps _ _ _ _ h)
  | blockFrameReceive => exact .of_tick (execBlockFrameReceive_keeps _ _ _ _ h)
  | dropImageReceive => exact .of_tick (execDropImageReceive_keeps _ _ _ _ h)
  | tripFrameReceive => exact .of_tick (execTripFrameReceive_keeps _ _ _ _ h)
  | syncReceive => exact .of_tick (execSyncReceive_keeps _ _ _ _ h)
  | linkFrameReceive => exact .of_tick (execLinkFrameReceive_keeps _ _ _ _ h)
  | serviceFrameReceive => exact .of_tick (execServiceFrameReceive_keeps _ _ _ _ h)
  | tripFrameSend => exact .of_tick (execTripFrameSend_keeps _ _ h)
  | syncTimeout => exact .of_tick (execSyncTimeout_keeps _ _ h)
  | linkLost => exact .of_tick (execLinkLost_keeps _ _ _ h)
  | unwrap => exact .of_tick (execUnwrap_keeps _ _ h)
  | valueLost => exact .of_tick (execValueLost_keeps _ _ _ h)
  | dropLost => exact .of_tick (execDropLost_keeps _ _ _ h)
  | apply => exact .of_tick (execApply_keeps _ _ _ h)
  | relaySense => exact .of_tick (execRelaySense_keeps _ _ _ _ h)
  | canEnable => exact .of_tick (execCanEnable_keeps _ _ _ _ h)
  | canDisable => exact .of_tick (execCanDisable_keeps _ _ _ _ h)
  | canIntegrated => exact .of_tick (execCanIntegrated_keeps _ _ _ h)
  | recover => exact .of_tick (execRecover_keeps _ _ _ h)
  | canSlotOpen => exact .of_tick (execCanSlotOpen_keeps _ _ _ _ _ h)
  | canSlotClose => exact .of_tick (execCanSlotClose_keeps _ _ _ h)
  | canFrameSent => exact .of_tick (execCanFrameSent_keeps _ _ _ _ _ _ _ h)
  | canFrameReceive => exact .of_tick (execCanFrameReceive_keeps _ _ _ _ _ _ _ h)
  | canSendExpiry => exact .of_tick (execCanSendExpiry_keeps _ _ _ h)
  | canRxTimeout => exact .of_tick (execCanRxTimeout_keeps _ _ _ _ h)
  | streamRecordTimeout => exact .of_tick (execStreamRecordTimeout_keeps _ _ _ h)
  | diDebounce => exact .of_tick (execDiDebounce_keeps _ _ _ _ _ h)
  | wireBreak => exact .of_tick (execWireBreak_keeps _ _ _ _ _ h)
  | doShort => exact .of_tick (execDoShort_keeps _ _ _ _ _ h)
  | doRetry => exact .of_tick (execDoRetry_keeps _ _ _ _ h)
  | mismatch => exact .of_tick (execMismatch_keeps _ _ _ _ _ h)
  | clConversion => exact .of_tick (execClConversion_keeps _ _ _ _ h)
  | miswire => exact .of_tick (execMiswire_keeps _ _ _ _ _ _ h)
  | miswireRetry => exact .of_tick (execMiswireRetry_keeps _ _ _ _ h)
  | faiAperture => exact .of_tick (execFaiAperture_keeps _ _ _ h)
  | pulseEdge => exact .of_tick (execPulseEdge_keeps _ _ _ _ h)
  | lineFault => exact .of_tick (execLineFault_keeps _ _ _ _ _ _ h)
  | stalled => exact .of_tick (execStalled_keeps _ _ _ h)
  | wdExpired => exact .of_tick (execWdExpired_keeps _ _ _ _ h)
  | wdRefresh => exact .of_tick (execWdRefresh_keeps _ _ _ _ h)
  | fioSubscribeSample => exact .of_tick (execFioSubscribeSample_keeps _ _ _ h)
  | springRamp => exact .of_tick (execSpringRamp_keeps _ _ _ _ h)
  | autumnRamp => exact .of_tick (execAutumnRamp_keeps _ _ _ _ h)
  | rampStep => exact .of_tick (execRampStep_keeps _ _ _ _ h)
  | asyncWake => exact .of_tick (execAsyncWake_keeps _ _ _ h)
  | winterLoss => exact .of_tick (execWinterLoss_keeps _ _ _ h)
  | clockMonitorWindow => exact .of_tick (execClockMonitorWindow_keeps _ _ _ _ _ h)
  | stoppedClock => exact .of_tick (execStoppedClock_keeps _ _ _ h)
  | refclkDelayExpiry => exact .of_tick (execRefclkDelayExpiry_keeps _ _ h)
  | feedGood => exact .of_tick (execFeedGood_keeps _ _ _ _ _ _ h)
  | feedLost => exact .of_tick (execFeedLost_keeps _ _ _ _ _ h)
  | railFault => exact .of_tick (execRailFault_keeps _ _ _ _ h)
  | prsntNDeassert => exact .of_tick (execPrsntNDeassert_keeps _ _ h)
  | powerDownReset => exact .of_tick (execPowerDownReset_keeps _ _ h)
  | backupLost => exact .of_tick (execBackupLost_keeps _ _ _ _ h)
  | osf => exact .of_tick (execOsf_keeps _ _ _ h)
  | rtcCheck => exact .of_tick (execRtcCheck_keeps _ _ _ h)
  | rtcCommit => exact .of_tick (execRtcCommit_keeps _ _ h)
  | alarmFire => exact .of_tick (execAlarmFire_keeps _ _ h)
  | wakeTimeout => exact .of_tick (execWakeTimeout_keeps _ _ h)
  | slewEnd => exact .of_tick (execSlewEnd_keeps _ _ h)
  | heartbeatSend => exact .of_tick (execHeartbeatSend_keeps _ _ h)
  | heartbeatMissed => exact .of_tick (execHeartbeatMissed_keeps _ _ h)
  | heartbeatConfirm => exact .of_tick (execHeartbeatConfirm_keeps _ _ _ h)
  | twinLinkUp => exact .of_tick (execTwinLinkUp_keeps _ _ _ _ h)
  | laneDown => exact .of_tick (execLaneDown_keeps _ _ _ h)
  | mirrorReceive => exact .of_tick (execMirrorReceive_keeps _ _ _ _ h)
  | readbackDiff => exact .of_tick (execReadbackDiff_keeps _ _ _ _ _ h)
  | digestCompare => exact .of_tick (execDigestCompare_keeps _ _ _ _ _ h)
  | selfTestDone => exact .of_tick (execSelfTestDone_keeps _ _ _ _ h)
  | eccError => exact .of_tick (execEccError_keeps _ _ _ _ h)
  | leadAliveWatchdog => exact .of_tick (execLeadAliveWatchdog_keeps _ _ h)
  | yieldSafeTimeout => exact .of_tick (execYieldSafeTimeout_keeps _ _ h)
  | yieldNAssert => exact .of_tick (execYieldNAssert_keeps _ _ _ h)
  | leadAliveDeassert => exact .of_tick (execLeadAliveDeassert_keeps _ _ h)
  | thaw => exact .of_tick (execThaw_keeps _ _ h)
  | equinoxInstant => exact .of_tick (execEquinoxInstant_keeps _ _ h)
  | equinoxClaim => exact .of_tick (execEquinoxClaim_keeps _ _ h)
  | equinoxWindowEnd => exact .of_tick (execEquinoxWindowEnd_keeps _ _ h)
  | drillDue => exact .of_tick (execDrillDue_keeps _ _ h)
  | drillPostponed => exact .of_tick (execDrillPostponed_keeps _ _ h)
  | drillCheck => exact .of_tick (execDrillCheck_keeps _ _ _ h)
  | exchangeImageStored => exact .of_tick (execExchangeImageStored_keeps _ _ _ h)
  | mappingInstant => exact .of_tick (execMappingInstant_keeps _ _ h)
  | syncTransferDone => exact .of_tick (execSyncTransferDone_keeps _ _ _ _ h)
  | joinInstant => exact .of_tick (execJoinInstant_keeps _ _ h)
  | recordWrite => exact .of_tick (execRecordWrite_keeps _ _ _ h)
  | summaryRecord => exact .of_tick (execSummaryRecord_keeps _ _ _ h)
  | frameStart => exact .of_tick (execFrameStart_keeps _ _ _ h)
  | frameCheck => exact .of_tick (execFrameCheck_keeps _ _ _ h)
  | keyPress => exact .of_tick (execKeyPress_keeps _ _ _ _ h)
  | tripPageReset => exact .of_tick (execTripPageReset_keeps _ _ _ _ h)
  | ejectHold => exact .of_tick (execEjectHold_keeps _ _ h)
  | menuTimeout => exact .of_tick (execMenuTimeout_keeps _ _ h)
  | ejectLeverPulled => exact .of_tick (execEjectLeverPulled_keeps _ _ h)
  | ejectRetry => exact .of_tick (execEjectRetry_keeps _ _ h)
  | ejectCancel => exact .of_tick (execEjectCancel_keeps _ _ h)
  | counterClear => exact .of_tick (execCounterClear_keeps _ _ _ _ h)
  | rtcSecRead => exact .of_tick (execRtcSecRead_keeps _ _ h)
  | clkMtRead => exact .of_tick (execClkMtRead_keeps _ _ h)
  | piStatusRead => exact .of_tick (execPiStatusRead_keeps _ _ _ h)
  | bkupWrite => exact .of_tick (execBkupWrite_keeps _ _ _ _ h)
  | regionWrite => exact .of_tick (execRegionWrite_keeps _ _ _ _ h)
  | registerWrite => exact .of_tick (execRegisterWrite_keeps _ _ _ _ _ h)
  | keelBroughtUp => exact .of_tick (execKeelBroughtUp_keeps _ _ h)
  | leadAliveReadEnd => exact .of_tick (execLeadAliveReadEnd_keeps _ _ _ h)
  | startSequenceComplete => exact .of_tick (execStartSequenceComplete_keeps _ _ _ _ h)
  | flashStoreDone => exact .of_tick (execFlashStoreDone_keeps _ _ _ h)
  | passwordCheckDone => exact .of_tick (execPasswordCheckDone_keeps _ _ h)
  | mirrorAck => exact .of_tick (execMirrorAck_keeps _ _ _ h)
  | heartbeatReceive => exact .of_tick (execHeartbeatReceive_keeps _ _ _ h)
  | winterRecovered => exact .of_tick (execWinterRecovered_keeps _ _ _ h)
  | pllLocked => exact .of_tick (execPllLocked_keeps _ _ _ h)
  | correctedLinkError => exact .of_tick (execCorrectedLinkError_keeps _ _ _ h)
  | ringLinkUp => exact .of_tick (execRingLinkUp_keeps _ _ _ h)
  | busOffRecovered => exact .of_tick (execBusOffRecovered_keeps _ _ _ h)
  | basicCycleOpen => exact .of_tick (execBasicCycleOpen_keeps _ _ _ h)
  | fioTestSettled => exact .of_tick (execFioTestSettled_keeps _ _ _ h)
  | clTrimHold => exact .of_tick (execClTrimHold_keeps _ _ _ _ _ h)
  | forceRefresh => exact .of_tick (execForceRefresh_keeps _ _ h)

/-- Settles O60: an empty queue idles, and the command at its front keeps the past. -/
theorem everyStepKeepsThePast : Obligations.EveryStepKeepsThePast := by
  intro s t h
  cases hq : s.pending with
  | nil =>
    simp only [step, hq] at h
    cases h
    exact ⟨rfl, le_refl _, List.suffix_refl _, hq⟩
  | cons i rest =>
    simp only [step, hq] at h
    obtain ⟨hcfg, hnow, hsent, hpending⟩ := exec_keepsPast h
    exact ⟨hcfg, hnow, hsent, hpending⟩

end Sys2Proof.Proofs
end

section
/-! PROOFS. Decoding and encoding of cycle-core words agree (R197, R198). -/

namespace Sys2Proof.Proofs

open Sys2Proof.Machine Sys2Proof.Laws

/-! ### A word is its fields, put together again (Table 6-1) -/

theorem extractLsb'_eq_ofNat_bits (w : BitVec 32) (lo n : Nat) : w.extractLsb' lo n = BitVec.ofNat n (bits w.toNat lo n) := by
  rw [bits_extract, BitVec.ofNat_toNat, BitVec.setWidth_eq]

theorem eq_encA {w : BitVec 32} (h : bits w.toNat 25 3 = 0) :
    w = encA (fieldsA w) (BitVec.ofNat 10 (bits w.toNat 0 10)) := by
  have hm : 0#3 = w.extractLsb' 25 3 := by rw [extractLsb'_eq_ofNat_bits, h]
  rw [encA, hm, ← extractLsb'_eq_ofNat_bits]
  simp only [fieldsA, BitVec.extractLsb'_append_extractLsb'_eq_extractLsb', BitVec.extractLsb'_eq_self]

theorem eq_encI {w : BitVec 32} (h : bits w.toNat 25 3 = 1) :
    w = encI (fieldsI w) (BitVec.ofNat 4 (bits w.toNat 16 4)) := by
  have hm : 1#3 = w.extractLsb' 25 3 := by rw [extractLsb'_eq_ofNat_bits, h]
  rw [encI, hm, ← extractLsb'_eq_ofNat_bits]
  simp only [fieldsI, BitVec.extractLsb'_append_extractLsb'_eq_extractLsb', BitVec.extractLsb'_eq_self]

theorem eq_encB {w : BitVec 32} (h : bits w.toNat 25 3 = 2) :
    w = encB (fieldsB w) (BitVec.ofNat 5 (bits w.toNat 20 5)) := by
  have hm : 2#3 = w.extractLsb' 25 3 := by rw [extractLsb'_eq_ofNat_bits, h]
  rw [encB, hm, ← extractLsb'_eq_ofNat_bits]
  simp only [fieldsB, BitVec.extractLsb'_append_extractLsb'_eq_extractLsb', BitVec.extractLsb'_eq_self]

theorem eq_encT {w : BitVec 32} (h : bits w.toNat 25 3 = 3) :
    w = encT (fieldsT w) (BitVec.ofNat 3 (bits w.toNat 22 3)) := by
  have hm : 3#3 = w.extractLsb' 25 3 := by rw [extractLsb'_eq_ofNat_bits, h]
  rw [encT, hm, ← extractLsb'_eq_ofNat_bits]
  simp only [fieldsT, BitVec.extractLsb'_append_extractLsb'_eq_extractLsb', BitVec.extractLsb'_eq_self]

theorem eq_encM (w : BitVec 32) : w = encM (fieldsM w) (BitVec.ofNat 3 (bits w.toNat 25 3)) := by
  rw [encM, ← extractLsb'_eq_ofNat_bits]
  simp only [fieldsM, BitVec.extractLsb'_append_extractLsb'_eq_extractLsb', BitVec.extractLsb'_eq_self]

theorem eq_encM_of_major {w : BitVec 32} {m : Nat} (h : bits w.toNat 25 3 = m) :
    w = encM (fieldsM w) (BitVec.ofNat 3 m) :=
  h ▸ eq_encM w

/-! ### Each format's table names one command for a listed code, and that command has that code's word -/

theorem word_of_coreInstrA {task : Fin 64} {f : FmtA} {k : Nat} {i : Instr} (h : coreInstrA task f k = some i) :
    coreWord i = some (encA f (BitVec.ofNat 10 k)) ∧ coreTask i = some task := by
  unfold coreInstrA at h
  split at h <;> cases h <;> exact ⟨rfl, rfl⟩

theorem word_of_coreInstrI {task : Fin 64} {f : FmtI} {k : Nat} {i : Instr} (h : coreInstrI task f k = some i) :
    coreWord i = some (encI f (BitVec.ofNat 4 k)) ∧ coreTask i = some task := by
  unfold coreInstrI at h
  split at h <;> cases h <;> exact ⟨rfl, rfl⟩

theorem word_of_coreInstrT {task : Fin 64} {f : FmtT} {k : Nat} {i : Instr} (h : coreInstrT task f k = some i) :
    coreWord i = some (encT f (BitVec.ofNat 3 k)) ∧ coreTask i = some task := by
  unfold coreInstrT at h
  split at h <;> cases h <;> exact ⟨rfl, rfl⟩

/-- The FUNCs of Tables 6-3 to 6-5, 6-8 and 6-9. -/
theorem listed_of_legalA {rd rs1 rs2 k : Nat} (h : legalA rd rs1 rs2 k = true) :
    k ≤ 0x00A ∨ (0x010 ≤ k ∧ k ≤ 0x016) ∨ (0x018 ≤ k ∧ k ≤ 0x01A) ∨ (0x040 ≤ k ∧ k ≤ 0x046) ∨
    (0x060 ≤ k ∧ k ≤ 0x065) ∨ (0x080 ≤ k ∧ k ≤ 0x091) ∨ (0x0C0 ≤ k ∧ k ≤ 0x0D1) ∨ (0x100 ≤ k ∧ k ≤ 0x103) := by
  by_contra hk
  have hD : ¬ (0x0C0 ≤ k ∧ k ≤ 0x0D1) := by omega
  simp only [legalA, if_neg hD] at h
  repeat rw [if_neg (by omega)] at h
  exact Bool.false_ne_true h

theorem coreInstrA_of_listed (task : Fin 64) (f : FmtA) {k : Nat}
    (h : k ≤ 0x00A ∨ (0x010 ≤ k ∧ k ≤ 0x016) ∨ (0x018 ≤ k ∧ k ≤ 0x01A) ∨ (0x040 ≤ k ∧ k ≤ 0x046) ∨
      (0x060 ≤ k ∧ k ≤ 0x065) ∨ (0x080 ≤ k ∧ k ≤ 0x091) ∨ (0x0C0 ≤ k ∧ k ≤ 0x0D1) ∨ (0x100 ≤ k ∧ k ≤ 0x103)) :
    ∃ i, coreInstrA task f k = some i := by
  obtain h | ⟨_, _⟩ | ⟨_, _⟩ | ⟨_, _⟩ | ⟨_, _⟩ | ⟨_, _⟩ | ⟨_, _⟩ | ⟨_, _⟩ := h <;>
    interval_cases k <;> exact ⟨_, rfl⟩

theorem coreInstrI_of_le (task : Fin 64) (f : FmtI) {k : Nat} (h : k ≤ 10) : ∃ i, coreInstrI task f k = some i := by
  interval_cases k <;> exact ⟨_, rfl⟩

theorem coreInstrT_of_le (task : Fin 64) (f : FmtT) {k : Nat} (h1 : 1 ≤ k) (h6 : k ≤ 6) :
    ∃ i, coreInstrT task f k = some i := by
  interval_cases k <;> exact ⟨_, rfl⟩

/-! ### Whole words -/

/-- A word that decodes is the word of the command that it decodes to. -/
theorem word_of_coreInstr {task : Fin 64} {w : BitVec 32} {i : Instr} (h : coreInstr task w = some i) :
    legalWord w = true ∧ coreWord i = some w ∧ coreTask i = some task := by
  rw [coreInstr] at h
  split at h
  case isFalse => cases h
  case isTrue hl =>
    refine ⟨hl, ?_⟩
    split at h
    case h_1 hm => rw [eq_encA hm]; exact word_of_coreInstrA h
    case h_2 hm => rw [eq_encI hm]; exact word_of_coreInstrI h
    case h_3 hm =>
      have hop : bits w.toNat 20 5 ≤ 1 := by simpa [legalWord, hm] using hl
      have hw := eq_encB hm
      split at h
      case isTrue h0 => cases h; rw [h0] at hw; exact ⟨congrArg some hw.symm, rfl⟩
      case isFalse h0 =>
        have h1 : bits w.toNat 20 5 = 1 := by omega
        cases h; rw [h1] at hw; exact ⟨congrArg some hw.symm, rfl⟩
    case h_4 hm => rw [eq_encT hm]; exact word_of_coreInstrT h
    case h_5 hm => cases h; exact ⟨congrArg some (eq_encM_of_major hm).symm, rfl⟩
    case h_6 hm => cases h; exact ⟨congrArg some (eq_encM_of_major hm).symm, rfl⟩
    case h_7 hm => cases h; exact ⟨congrArg some (eq_encM_of_major hm).symm, rfl⟩
    case h_8 => cases h

/-- Every legal word is listed in its format's table (R198). -/
theorem coreInstr_isSome (task : Fin 64) {w : BitVec 32} (hl : legalWord w = true) :
    ∃ i, coreInstr task w = some i := by
  have hlt : bits w.toNat 25 3 < 8 := bits_lt ..
  rw [coreInstr, if_pos hl]
  rw [legalWord] at hl
  generalize bits w.toNat 25 3 = m at hl hlt
  interval_cases m
  · exact coreInstrA_of_listed task _ (listed_of_legalA hl)
  · simp only [Bool.and_eq_true, decide_eq_true_eq] at hl
    exact coreInstrI_of_le task _ hl.1
  · exact ⟨_, (apply_ite some _ _ _).symm⟩
  · simp only [Bool.or_eq_true, Bool.and_eq_true, decide_eq_true_eq, beq_iff_eq] at hl
    exact coreInstrT_of_le task _ (by omega) (by omega)
  · exact ⟨_, rfl⟩
  · exact ⟨_, rfl⟩
  · exact ⟨_, rfl⟩
  · cases hl

/-! ### A legal command's own word decodes to it -/

section
variable {task : Fin 64}

theorem coreInstr_encA (f : FmtA) (func : BitVec 10) (hl : legalWord (encA f func) = true) :
    coreInstr task (encA f func) = coreInstrA task f func.toNat := by
  rw [coreInstr, if_pos hl, encA_bits_major, fieldsA_encA, encA_bits_func]
  rfl

theorem coreInstr_encI (f : FmtI) (sub : BitVec 4) (hl : legalWord (encI f sub) = true) :
    coreInstr task (encI f sub) = coreInstrI task f sub.toNat := by
  rw [coreInstr, if_pos hl, encI_bits_major, fieldsI_encI, encI_bits_sub]
  rfl

theorem coreInstr_encB (f : FmtB) (op : BitVec 5) (hl : legalWord (encB f op) = true) :
    coreInstr task (encB f op) = if op.toNat = 0 then some (.br task f) else some (.call task f) := by
  rw [coreInstr, if_pos hl, encB_bits_major, fieldsB_encB, encB_bits_op]
  rfl

theorem coreInstr_encT (f : FmtT) (kind : BitVec 3) (hl : legalWord (encT f kind) = true) :
    coreInstr task (encT f kind) = coreInstrT task f kind.toNat := by
  rw [coreInstr, if_pos hl, encT_bits_major, fieldsT_encT, encT_bits_kind]
  rfl

theorem coreInstr_encM (f : FmtM) :
    (legalWord (encM f 4#3) = true → coreInstr task (encM f 4#3) = some (.ldu task f)) ∧
    (legalWord (encM f 5#3) = true → coreInstr task (encM f 5#3) = some (.lds task f)) ∧
    (legalWord (encM f 6#3) = true → coreInstr task (encM f 6#3) = some (.st task f)) := by
  refine ⟨fun hl => ?_, fun hl => ?_, fun hl => ?_⟩ <;> rw [coreInstr, if_pos hl, encM_bits_major, fieldsM_encM] <;> rfl

end

/-- Of the commands, `hw` leaves those of Tables 6-3 to 6-10; a floating-point one has a FUNC for each format. -/
theorem coreInstr_of_word {task : Fin 64} {w : BitVec 32} {i : Instr} (hl : legalWord w = true)
    (hw : coreWord i = some w) (ht : coreTask i = some task) : coreInstr task w = some i := by
  cases i <;> cases hw <;> cases ht <;>
    simp only [coreInstr_encA, coreInstr_encI, coreInstr_encB, coreInstr_encT, coreInstr_encM, hl]
  any_goals rfl
  all_goals
    rename_i d f
    cases d <;> rfl

/-- Settles O4: the tables are read forwards and backwards, and every legal word is listed. -/
theorem coreWordsDecodeAndEncodeAgree : Obligations.CoreWordsDecodeAndEncodeAgree :=
  ⟨fun _ _ _ => ⟨word_of_coreInstr, fun ⟨hl, hw, ht⟩ => coreInstr_of_word hl hw ht⟩, fun task _ => coreInstr_isSome task⟩

end Sys2Proof.Proofs
end

section
/-! PROOFS. Integer, division, compare and predicate commands (R193, R203, R204, Tables 6-3 and 6-4), and the commands that
are not the word under their task's counter (R196). -/

namespace Sys2Proof.Proofs

open Sys2Proof.Machine Sys2Proof.Laws

/-! ### Registers and predicates (R193) -/

theorem reg_setReg (c : Cyc) {r : BitVec 5} (q : BitVec 5) (v : BitVec 64) (hr : r ≠ 0) :
    (c.setReg r v).reg q = if q = r then v else c.reg q := by
  by_cases hq : q = 0
  · subst hq
    rw [if_neg (Ne.symm hr)]
    rfl
  · have htoNat : q.toNat = r.toNat ↔ q = r := BitVec.toNat_inj
    simp only [Cyc.reg, Cyc.setReg, if_neg hr, if_neg hq, tget_tset, htoNat]

theorem getLsbD_two_pow (p q : Nat) (hq : q < 16) : (BitVec.ofNat 16 (2 ^ p)).getLsbD q = decide (p = q) := by
  rw [BitVec.getLsbD_ofNat, Nat.testBit_two_pow, decide_eq_true hq, Bool.true_and]

theorem getLsbD_setPred (c : Cyc) {p q : Nat} (b : Bool) (hp : p ≠ 0) (hq : q < 16) :
    (c.setPred p b).preds.getLsbD q = if q = p then b else c.preds.getLsbD q := by
  rw [Cyc.setPred, if_neg hp]
  cases b
  · simp only [Bool.false_eq_true, if_false, BitVec.getLsbD_and, BitVec.getLsbD_not, getLsbD_two_pow p q hq, decide_eq_true hq]
    split
    · next h => simp [h]
    · next h => simp [Ne.symm h]
  · simp only [if_true, BitVec.getLsbD_or, getLsbD_two_pow p q hq]
    split
    · next h => simp [h]
    · next h => simp [Ne.symm h]

theorem pred_setPred (c : Cyc) {p q : Nat} (b : Bool) (hp : p ≠ 0) (hq : q < 16) :
    (c.setPred p b).pred q = if q = p then b else c.pred q := by
  by_cases h0 : q = 0
  · subst h0
    rw [if_neg (Ne.symm hp)]
    rfl
  · simp only [Cyc.pred, getLsbD_setPred c b hp hq, beq_false_of_ne h0, Bool.false_or]

/-- Settles O6: the fixed ones by their definitions, the others by the laws of tables and bits. -/
theorem registersAndPredicates : Obligations.RegistersAndPredicates :=
  ⟨fun _ _ => ⟨rfl, rfl⟩, fun _ _ => ⟨rfl, rfl⟩, fun c _ q v hr => reg_setReg c q v hr,
   fun c _ _ b hp _ hq => pred_setPred c b hp hq⟩

/-! ### Integer results (R203) -/

theorem writes_of_alu_eq {i : Fin 64 → FmtA → Instr} {func : BitVec 10} {op op' : BitVec 64 → BitVec 64 → BitVec 64}
    (hop : ∀ a b, op a b = op' a b)
    (hexec : ∀ task f s, exec (i task f) s = .next (s.core task (encA f func) (alu f op)))
    (hl : ∀ rd rs1 rs2, legalA rd rs1 rs2 func.toNat = true) : Writes i func op' :=
  (funext fun a => funext fun b => hop a b : op = op') ▸ writes_of_alu hexec hl

theorem smin_eq (a b : BitVec 64) : smin a b = if a.sle b then a else b := by
  simp only [smin, BitVec.slt_eq_decide, BitVec.sle_eq_decide, decide_eq_true_eq]
  simp only [← not_lt, ite_not]

theorem smax_eq (a b : BitVec 64) : smax a b = if a.sle b then b else a := by
  simp only [smax, BitVec.slt_eq_decide, BitVec.sle_eq_decide, decide_eq_true_eq]
  rcases lt_trichotomy a.toInt b.toInt with h | h | h
  · rw [if_pos h, if_pos h.le]
  · rw [BitVec.eq_of_toInt_eq h, ite_self, ite_self]
  · rw [if_neg h.asymm, if_neg (not_le.2 h)]

theorem shAmt_eq (b : BitVec 64) : shAmt b = (b &&& 63#64).toNat := by
  rw [shAmt, BitVec.toNat_and]
  exact (Nat.and_two_pow_sub_one_eq_mod b.toNat 6).symm

theorem shl_shAmt (a b : BitVec 64) : a <<< shAmt b = a <<< (b &&& 63#64) := congrArg (a <<< ·) (shAmt_eq b)

theorem shr_shAmt (a b : BitVec 64) : a >>> shAmt b = a >>> (b &&& 63#64) := congrArg (a >>> ·) (shAmt_eq b)

theorem sar_shAmt (a b : BitVec 64) : a.sshiftRight (shAmt b) = a.sshiftRight' (b &&& 63#64) :=
  congrArg a.sshiftRight (shAmt_eq b)

theorem mulHighU_eq (a b : BitVec 64) :
    mulHighU a b = ((a.setWidth 128 * b.setWidth 128) >>> 64).setWidth 64 := by
  have hlt : a.toNat * b.toNat < 2 ^ 128 := by
    have := Nat.mul_lt_mul'' a.isLt b.isLt
    simpa [← pow_add] using this
  refine BitVec.eq_of_toNat_eq ?_
  have ha : a.toNat < 2 ^ 128 := lt_trans a.isLt (by decide)
  have hb : b.toNat < 2 ^ 128 := lt_trans b.isLt (by decide)
  simp only [mulHighU, BitVec.toNat_ofNat, BitVec.toNat_setWidth, BitVec.toNat_ushiftRight, BitVec.toNat_mul,
    Nat.shiftRight_eq_div_pow, Nat.mod_eq_of_lt ha, Nat.mod_eq_of_lt hb, Nat.mod_eq_of_lt hlt]

theorem mulHigh_eq (a b : BitVec 64) :
    mulHigh a b = ((a.signExtend 128 * b.signExtend 128) >>> 64).setWidth 64 := by
  have hprod : (a.signExtend 128 * b.signExtend 128).toInt = a.toInt * b.toInt := by
    rw [BitVec.toInt_mul, BitVec.toInt_signExtend_of_le (by decide), BitVec.toInt_signExtend_of_le (by decide)]
    have ha := a.toInt_lt; have ha' := a.le_toInt
    have hb := b.toInt_lt; have hb' := b.le_toInt
    norm_num at ha ha' hb hb'
    exact Int.bmod_eq_of_le (by norm_num; nlinarith) (by norm_num; nlinarith)
  have hcond := BitVec.toInt_eq_toNat_cond (a.signExtend 128 * b.signExtend 128)
  refine BitVec.eq_of_toNat_eq ?_
  rw [mulHigh, ← hprod]
  simp only [BitVec.toNat_ofInt, BitVec.toNat_setWidth, BitVec.toNat_ushiftRight, Nat.shiftRight_eq_div_pow]
  generalize (a.signExtend 128 * b.signExtend 128).toInt = t at hcond ⊢
  have hN := (a.signExtend 128 * b.signExtend 128).isLt
  generalize (a.signExtend 128 * b.signExtend 128).toNat = N at hcond hN ⊢
  split at hcond <;> omega

/-- Settles O7: the rule of format A, with each operation written as Table 6-3 writes it. -/
theorem integerResults : Obligations.IntegerResults :=
  ⟨writes_of_alu (fun _ _ _ => rfl) (fun _ _ _ => rfl),
   writes_of_alu (fun _ _ _ => rfl) (fun _ _ _ => rfl),
   writes_of_alu (fun _ _ _ => rfl) (fun _ _ _ => rfl),
   writes_of_alu_eq mulHigh_eq (fun _ _ _ => rfl) (fun _ _ _ => rfl),
   writes_of_alu_eq mulHighU_eq (fun _ _ _ => rfl) (fun _ _ _ => rfl),
   writes_of_alu_eq smin_eq (fun _ _ _ => rfl) (fun _ _ _ => rfl),
   writes_of_alu_eq smax_eq (fun _ _ _ => rfl) (fun _ _ _ => rfl),
   writes_of_alu (fun _ _ _ => rfl) (fun _ _ _ => rfl),
   writes_of_alu (fun _ _ _ => rfl) (fun _ _ _ => rfl),
   writes_of_alu (fun _ _ _ => rfl) (fun _ _ _ => rfl),
   writes_of_alu (fun _ _ _ => rfl) (fun _ _ _ => rfl),
   writes_of_alu_eq shl_shAmt (fun _ _ _ => rfl) (fun _ _ _ => rfl),
   writes_of_alu_eq shr_shAmt (fun _ _ _ => rfl) (fun _ _ _ => rfl),
   writes_of_alu_eq sar_shAmt (fun _ _ _ => rfl) (fun _ _ _ => rfl)⟩

/-! ### Divisions (R204) -/

theorem divS_eq (a b : BitVec 64) : divS a b = a.sdiv b := by
  refine BitVec.eq_of_toInt_eq ?_
  rw [divS, BitVec.toInt_ofInt, BitVec.toInt_sdiv]

theorem remS_eq (a b : BitVec 64) : remS a b = a.srem b := by
  rw [remS, ← BitVec.toInt_srem, BitVec.ofInt_toInt]

/-- A legal word whose effect does not trap replaces the cycle; a new DIV_ZERO bit may write its event (R165). -/
theorem core_of_ok_keep {s : State} {task : Fin 64} {w : BitVec 32} {d : TaskDef} {c c' : Cyc} {g : Env → Cyc → CoreRes}
    (h : s.runs task w d c) (hp : c.pred (bits w.toNat 28 4) = true) (hl : legalWord w = true)
    (hg : ∀ i, g ⟨s, i, d, s.task task.val, task.val⟩ c = .ok c') :
    s.core task w g = s.coreKeep task.val (s.task task.val) c c' := by
  obtain ⟨i, hr, hw⟩ := coreReady_of_runs h
  simp [State.core, hr, hw, hp, hl, hg]

theorem next_setReg_spec (c : Cyc) (r : BitVec 5) (v : BitVec 64) : (c.setReg r v).next.spec = c.spec := by
  unfold Cyc.setReg; split <;> rfl

theorem divides_of_divOp {i : Fin 64 → FmtA → Instr} {func : BitVec 10} {op op' : BitVec 64 → BitVec 64 → BitVec 64}
    (hexec : ∀ task f s, exec (i task f) s = .next (s.core task (encA f func) (divOp f op)))
    (hl : ∀ rd rs1 rs2, legalA rd rs1 rs2 func.toNat = true) (hop : ∀ a b, op a b = op' a b) :
    Divides i func op' := by
  intro s task f d c h hp
  have hlegal : legalWord (encA f func) = true := by rw [legalWord_encA, hl]
  refine ⟨fun h2 => ?_, fun h2 => ?_⟩
  · rw [hexec, core_of_ok h (by rwa [encA_bits_pred]) hlegal (fun _ => if_neg h2) (next_setReg_divZero ..), hop]
  · rw [hexec, core_of_ok_keep h (by rwa [encA_bits_pred]) hlegal (fun _ => if_pos h2)]
    simp only [State.coreKeep, State.putCyc, next_setReg_spec, Bool.true_and, Bool.and_eq_true, Bool.not_eq_true', and_assoc]
    cases c.divZero <;> simp

/-- Settles O8: the four divisions share one rule; the two corner values are closed facts. -/
theorem divisions : Obligations.Divisions :=
  ⟨divides_of_divOp (fun _ _ _ => rfl) (fun _ _ _ => rfl) divS_eq,
   divides_of_divOp (op := fun a b => a / b) (fun _ _ _ => rfl) (fun _ _ _ => rfl) fun _ _ => rfl,
   divides_of_divOp (fun _ _ _ => rfl) (fun _ _ _ => rfl) remS_eq,
   divides_of_divOp (op := fun a b => a % b) (fun _ _ _ => rfl) (fun _ _ _ => rfl) fun _ _ => rfl,
   by decide, by decide⟩

/-! ### Compares and predicates (Table 6-4) -/

theorem tests_of_cmp_eq {i : Fin 64 → FmtA → Instr} {func : BitVec 10} {op op' : BitVec 64 → BitVec 64 → Bool}
    (hop : ∀ a b, op a b = op' a b)
    (hexec : ∀ task f s, exec (i task f) s = .next (s.core task (encA f func) (cmp f op)))
    (hl : ∀ rd rs1 rs2, legalA rd rs1 rs2 func.toNat = decide (rd < 16)) : Tests i func op' :=
  (funext fun a => funext fun b => hop a b : op = op') ▸
    tests_of_cmp hexec fun rd rs1 rs2 hrd => (hl rd rs1 rs2).trans (decide_eq_true hrd)

theorem joins_of_predOp {i : Fin 64 → FmtA → Instr} {func : BitVec 10} {op : Bool → Bool → Bool}
    (hexec : ∀ task f s, exec (i task f) s = .next (s.core task (encA f func) (predOp f op)))
    (hl : ∀ rd rs1 rs2, legalA rd rs1 rs2 func.toNat = (decide (rd < 16) && decide (rs1 < 16) && decide (rs2 < 16))) :
    Joins i func op := by
  intro s task f d c h hp hrd h1 h2
  rw [hexec, core_of_ok h (by rwa [encA_bits_pred]) (by simp [legalWord_encA, hl, hrd, h1, h2]) (fun _ => rfl)
    (next_setPred_divZero ..)]

section
variable {s : State} {task : Fin 64} {f : FmtA} {d : TaskDef} {c : Cyc}

theorem exec_pget_of_runs (h : s.runs task (encA f 0x064#10) d c) (hp : c.pred f.pred.toNat = true)
    (h1 : f.rs1.toNat < 16) (h2 : f.rs2 = 0) :
    exec (.pget task f) s =
      .next (s.putCyc task (c.setReg f.rd (if c.pred f.rs1.toNat then 1#64 else 0#64)).next) := by
  have hbit : BitVec.ofNat 64 (b2n (c.pred f.rs1.toNat)) = if c.pred f.rs1.toNat then 1#64 else 0#64 := by
    cases c.pred f.rs1.toNat <;> rfl
  have hl : legalWord (encA f 0x064#10) = true := by
    rw [legalWord_encA, h2]
    exact (Bool.and_true _).trans (decide_eq_true h1)
  rw [exec_pget, execPget, core_of_ok h (by rwa [encA_bits_pred]) hl (fun _ => rfl) (next_setReg_divZero ..), hbit]

theorem exec_pset_of_runs (h : s.runs task (encA f 0x065#10) d c) (hp : c.pred f.pred.toNat = true)
    (hrd : f.rd.toNat < 16) (h2 : f.rs2 = 0) :
    exec (.pset task f) s = .next (s.putCyc task (c.setPred f.rd.toNat (c.reg f.rs1 != 0)).next) := by
  have hl : legalWord (encA f 0x065#10) = true := by
    rw [legalWord_encA, h2]
    exact (Bool.and_true _).trans (decide_eq_true hrd)
  rw [exec_pset, execPset, core_of_ok h (by rwa [encA_bits_pred]) hl (fun _ => rfl) (next_setPred_divZero ..)]

end

/-- Settles O10: one rule for the compares, one for the predicates, and PGET and PSET of their own. -/
theorem compareAndPredicateResults : Obligations.CompareAndPredicateResults :=
  ⟨tests_of_cmp_eq (fun _ _ => rfl) (fun _ _ _ => rfl) (fun _ _ _ => rfl),
   tests_of_cmp_eq (fun _ _ => rfl) (fun _ _ _ => rfl) (fun _ _ _ => rfl),
   tests_of_cmp_eq (fun _ _ => rfl) (fun _ _ _ => rfl) (fun _ _ _ => rfl),
   tests_of_cmp_eq (fun _ _ => rfl) (fun _ _ _ => rfl) (fun _ _ _ => rfl),
   tests_of_cmp_eq (fun _ _ => rfl) (fun _ _ _ => rfl) (fun _ _ _ => rfl),
   tests_of_cmp_eq (fun _ _ => rfl) (fun _ _ _ => rfl) (fun _ _ _ => rfl),
   tests_of_cmp_eq (fun a b => congrArg a.getLsbD (shAmt_eq b)) (fun _ _ _ => rfl) (fun _ _ _ => rfl),
   joins_of_predOp (fun _ _ _ => rfl) (fun _ _ _ => rfl), joins_of_predOp (fun _ _ _ => rfl) (fun _ _ _ => rfl),
   joins_of_predOp (fun _ _ _ => rfl) (fun _ _ _ => rfl), joins_of_predOp (fun _ _ _ => rfl) (fun _ _ _ => rfl),
   fun _ _ _ _ _ => exec_pget_of_runs, fun _ _ _ _ _ => exec_pset_of_runs⟩

/-! ### A word of another command (R196) -/

/-- Settles O20: the core takes the word under the counter, and a legal one that is not the command's stops it there. -/
theorem otherWordsDoNothing : Obligations.OtherWordsDoNothing := by
  intro i w v s task d c hw ht h hne hl
  obtain ⟨g, hg⟩ := exec_eq_core hw ht
  obtain ⟨im, hr, hv⟩ := coreReady_of_runs h
  rw [hg]
  simp [State.core, hr, hv, hne, hl]

end Sys2Proof.Proofs
end

section
/-! PROOFS. Floating-point results (R206) and the canonical NaN (R209). -/

namespace Sys2Proof.Proofs

open Sys2Proof.Machine Sys2Proof.Laws

/-! ### The instructions (Table 6-5) -/

theorem exec_fma_of_runs {s : State} {task : Fin 64} {d : Bool} {f : FmtA} {k : TaskDef} {c : Cyc}
    (h : s.runs task (encA f (fpFunc 0x085#10 d)) k c) (hp : c.pred f.pred.toNat = true) :
    exec (.fma task d f) s = .next (s.putCyc task (c.setReg f.rd
      (fpRes ((Fmt.ofD d).fma (fpArg d (c.reg f.rs1)) (fpArg d (c.reg f.rs2)) (fpArg d (c.reg f.rd))))).next) := by
  have hl : legalWord (encA f (fpFunc 0x085#10 d)) = true := by
    rw [legalWord_encA, legalA_fpFunc d (by decide)]
    rfl
  rw [exec_fma, execFma, core_of_ok h (by rwa [encA_bits_pred]) hl (fun _ => rfl) (next_setReg_divZero ..)]

/-- Settles O11: the rules of format A for two operands, one operand and compares; FMA reads its RD too. -/
theorem floatingPointResults : Obligations.FloatingPointResults := by
  intro d t x
  exact ⟨writes_of_fp2 (op := Fmt.add) (fun _ _ _ => rfl) (by decide) (fun _ _ _ => rfl),
    writes_of_fp2 (op := Fmt.sub) (fun _ _ _ => rfl) (by decide) (fun _ _ _ => rfl),
    writes_of_fp2 (op := Fmt.mul) (fun _ _ _ => rfl) (by decide) (fun _ _ _ => rfl),
    writes_of_fp2 (op := Fmt.div) (fun _ _ _ => rfl) (by decide) (fun _ _ _ => rfl),
    writes1_of_fpArg (op := fun y => fpRes (t.sqrt y)) (fun _ _ _ => rfl) (by decide) (fun _ _ => rfl),
    fun _ _ _ _ _ => exec_fma_of_runs,
    writes_of_fp2 (op := Fmt.fmin) (fun _ _ _ => rfl) (by decide) (fun _ _ _ => rfl),
    writes_of_fp2 (op := Fmt.fmax) (fun _ _ _ => rfl) (by decide) (fun _ _ _ => rfl),
    writes1_of_fpArg (op := fun y => fpRes (t.neg y)) (fun _ _ _ => rfl) (by decide) (fun _ _ => rfl),
    writes1_of_fpArg (op := fun y => fpRes (t.abs y)) (fun _ _ _ => rfl) (by decide) (fun _ _ => rfl),
    tests_of_fpCmp (op := Fmt.eq) (fun _ _ _ => rfl) (by decide) (fun _ _ _ => rfl),
    tests_of_fpCmp (op := Fmt.lt) (fun _ _ _ => rfl) (by decide) (fun _ _ _ => rfl),
    tests_of_fpCmp (op := Fmt.le) (fun _ _ _ => rfl) (by decide) (fun _ _ _ => rfl),
    tests_of_fpCmp (op := fun t a b => t.nan a || t.nan b) (fun _ _ _ => rfl) (by decide) (fun _ _ _ => rfl),
    writes1_of_fpArg (op := fun y => BitVec.ofInt 64 (t.toI64 true y)) (fun _ _ _ => rfl) (by decide) (fun _ _ => rfl),
    writes1_of_fpArg (op := fun y => BitVec.ofInt 64 (t.toI64 false y)) (fun _ _ _ => rfl) (by decide) (fun _ _ => rfl),
    writes1_of_alu (fun _ _ _ => rfl) (fun rd rs1 => legalA_fpFunc d (by decide) rd rs1 0),
    writes1_of_fpArg (op := fun y => fpRes (t.cvt (Fmt.ofD (!d)) y)) (fun _ _ _ => rfl) (by decide) (fun _ _ => rfl)⟩

/-! ### The canonical NaN (R209) -/

/-- A result that is a NaN is the canonical one. -/
def Canonical (t : Fmt) (r : Nat) : Prop := t.nan r = true → r = t.nanBits

section
variable {t : Fmt}

theorem nan_iff (x : Nat) : t.nan x = true ↔ bits x t.mb t.eb = 2 ^ t.eb - 1 ∧ bits x 0 t.mb ≠ 0 := by
  simp only [Fmt.nan, Fmt.decode]
  split_ifs <;> simp_all [FV.isNan]

/-- A sign and a magnitude not above infinity's is no NaN. -/
theorem not_nan_of_le_inf {b : Nat} (s : Bool) (hb : b ≤ t.infBits) : t.nan (t.signBit s + b) = false := by
  have hsign : ∃ k, t.signBit s = 2 ^ t.mb * (2 ^ t.eb * k) := by
    cases s
    · exact ⟨0, rfl⟩
    · exact ⟨1, by simp [Fmt.signBit, pow_add, mul_comm]⟩
  obtain ⟨k, hk⟩ := hsign
  have hpos := Nat.two_pow_pos t.mb
  have hexp : bits (t.signBit s + b) t.mb t.eb = b / 2 ^ t.mb := by
    have hlt : b / 2 ^ t.mb < 2 ^ t.eb := by
      have := Nat.two_pow_pos t.eb
      have := (Nat.div_le_div_right hb (c := 2 ^ t.mb)).trans_eq (Nat.mul_div_cancel _ hpos)
      omega
    rw [bits, hk, Nat.mul_add_div hpos, Nat.mul_add_mod, Nat.mod_eq_of_lt hlt]
  have hfrac : bits (t.signBit s + b) 0 t.mb = b % 2 ^ t.mb := by
    rw [bits, hk, pow_zero, Nat.div_one, Nat.mul_add_mod]
  rw [Bool.eq_false_iff, ne_eq, nan_iff, hexp, hfrac]
  rintro ⟨he, hf⟩
  have hsplit := Nat.div_add_mod b (2 ^ t.mb)
  rw [he, mul_comm] at hsplit
  rw [Fmt.infBits] at hb
  omega

theorem canonical_of_le_inf {b : Nat} (s : Bool) (hb : b ≤ t.infBits) : Canonical t (t.signBit s + b) := fun h =>
  absurd h (by simp [not_nan_of_le_inf s hb])

theorem canonical_nanBits : Canonical t t.nanBits := fun _ => rfl

theorem canonical_signBit (s : Bool) : Canonical t (t.signBit s) := canonical_of_le_inf s (Nat.zero_le _)

theorem canonical_infBits : Canonical t t.infBits := by
  have h := canonical_of_le_inf (t := t) false le_rfl
  rwa [show t.signBit false = 0 from rfl, Nat.zero_add] at h

theorem canonical_round (s : Bool) (m : Nat) (e : Int) (sticky : Bool) : Canonical t (t.round s m e sticky) := by
  unfold Fmt.round
  split
  · exact canonical_signBit s
  · exact canonical_of_le_inf s (min_le_right _ _)

theorem canonical_encode (x : FV) : Canonical t (t.encode x) := by
  cases x with
  | nan => exact canonical_nanBits
  | inf s => exact canonical_of_le_inf s le_rfl
  | fin s m e => exact canonical_round s m e false

theorem canonical_divV (x y : FV) : Canonical t (t.divV x y) := by
  unfold Fmt.divV
  split
  · exact canonical_nanBits
  · exact canonical_nanBits
  · exact canonical_nanBits
  · exact canonical_encode _
  · exact canonical_signBit _
  · split_ifs
    · exact canonical_nanBits
    · exact canonical_encode _
    · exact canonical_round _ _ _ _

theorem canonical_sqrtV (x : FV) : Canonical t (t.sqrtV x) := by
  unfold Fmt.sqrtV
  split
  · exact canonical_nanBits
  · split_ifs
    · exact canonical_nanBits
    · exact canonical_infBits
  · split_ifs
    · exact canonical_signBit _
    · exact canonical_nanBits
    · exact canonical_round _ _ _ _

theorem canonical_fmin (a b : Nat) : Canonical t (t.fmin a b) := by
  unfold Fmt.fmin
  dsimp only
  split
  · exact canonical_nanBits
  · exact canonical_encode _

theorem canonical_fmax (a b : Nat) : Canonical t (t.fmax a b) := by
  unfold Fmt.fmax
  dsimp only
  split
  · exact canonical_nanBits
  · exact canonical_encode _

end

/-- Settles O13: a result comes from an encoding or a rounding, which make no other NaN. -/
theorem nansAreCanonical : Obligations.NansAreCanonical := by
  refine ⟨by decide, by decide, ?_⟩
  intro d t u a b c i
  refine ⟨?_, canonical_encode _, fun h => ?_⟩
  · simp only [List.mem_cons, List.not_mem_nil, or_false, forall_eq_or_imp, forall_eq]
    exact ⟨canonical_encode _, canonical_encode _, canonical_encode _, canonical_divV _ _, canonical_sqrtV _,
      canonical_encode _, canonical_fmin a b, canonical_fmax a b, canonical_encode _, canonical_encode _,
      canonical_round _ _ _ _⟩
  · have hnan : t.decode a = .nan := eq_nan_of_isNan h
    simp only [Fmt.neg, Fmt.abs, Fmt.cvt, hnan]
    exact ⟨rfl, rfl, rfl⟩

end Sys2Proof.Proofs
end

section
/-! PROOFS. Loads and stores (R200 to R202), and the selectors of TSR (R216). -/

namespace Sys2Proof.Proofs

open Sys2Proof.Machine Sys2Proof.Laws

/-! ### Bytes of memory -/

theorem length_mread (m : Mem) (a n : Nat) : (mread m a n).length = n := by
  induction n generalizing a with
  | zero => rfl
  | succ n ih => simp [mread, ih]

theorem leNat_lt (b : List Byte) : leNat b < 2 ^ (8 * b.length) := by
  induction b with
  | nil => simp [leNat]
  | cons x r ih =>
    have hx := x.isLt
    simp only [leNat, List.length_cons, Nat.mul_add, Nat.mul_one, pow_add]
    omega

theorem ofNat_leNat_mread (m : Mem) (a n : Nat) :
    BitVec.ofNat 64 (leNat (mread m a n)) = (BitVec.ofNat (8 * n) (leNat (mread m a n))).setWidth 64 := by
  have hlt := leNat_lt (mread m a n)
  rw [length_mread] at hlt
  refine BitVec.eq_of_toNat_eq ?_
  rw [BitVec.toNat_setWidth, BitVec.toNat_ofNat, BitVec.toNat_ofNat, Nat.mod_eq_of_lt hlt]

/-! ### Accesses that pass the tests of R200 -/

section
variable {s : State} {task : Fin 64} {f : FmtM} {d : TaskDef} {c : Cyc} {e : Env}

theorem mOk_of (ha : mAddr c f % 2 ^ f.w.toNat = 0) (hin : mAddr c f + 2 ^ f.w.toNat ≤ e.d.size f.space.toNat) :
    mOk e c f = true := by
  simp [mOk, ha, hin]

/-- The value that a load writes: the bytes zero-extended or sign-extended (R201). -/
theorem load_value (signed : Bool) (m : Mem) (a : Nat) (w : BitVec 2) :
    let n := 2 ^ w.toNat
    let v := BitVec.ofNat (8 * n) (leNat (mread m a n))
    (if signed then BitVec.ofInt 64 (sx (8 * n) (leNat (mread m a n))) else BitVec.ofNat 64 (leNat (mread m a n))) =
      if signed then v.signExtend 64 else v.setWidth 64 := by
  cases signed
  · exact ofNat_leNat_mread m a _
  · exact ofInt_sx _ _

/-- The read set after a load: a load from IN records its 8-byte word (R202). -/
def noteRead (f : FmtM) (c : Cyc) : Cyc :=
  if f.space = 0 then
    { c with readSet := if c.readSet.contains (mAddr c f / 8) then c.readSet else mAddr c f / 8 :: c.readSet }
  else c

/-- A load writes what `m`, its space's memory, holds, zero-extended or sign-extended (R201). -/
def loaded (signed : Bool) (f : FmtM) (c : Cyc) (m : Mem) : BitVec 64 :=
  let n := 2 ^ f.w.toNat
  let v := BitVec.ofNat (8 * n) (leNat (mread m (mAddr c f) n))
  if signed then v.signExtend 64 else v.setWidth 64

theorem loadOp_of_ok (signed : Bool) (hok : mOk e c f = true) (hroom : f.space = 0 → c.readSet.length < 4096) :
    loadOp signed f e c = .ok ((noteRead f c).setReg f.rd (loaded signed f c (e.space c f.space.toNat))).next := by
  have hfull : f.space = 0 → ¬ 4096 ≤ c.readSet.length := fun h0 => not_le.2 (hroom h0)
  simp only [loadOp, hok, load_value signed, noteRead, loaded]
  by_cases h0 : f.space = 0
  · cases hc : c.readSet.contains (mAddr c f / 8) <;> simp only [h0, hroom h0, hfull h0] <;> simp
  · simp only [h0]
    simp

theorem legalWord_encM_of_space {major : BitVec 3} (h4 : 4 ≤ major.toNat) (h6 : major.toNat ≤ 6) (h7 : f.space ≠ 7) :
    legalWord (encM f major) = true := by
  rw [legalWord_encM f major h4 h6, bne_iff_ne]
  exact fun h => h7 (BitVec.eq_of_toNat_eq h)

theorem exec_load_of_runs {i : Fin 64 → FmtM → Instr} {major : BitVec 3} {signed : Bool}
    (hexec : ∀ task f s, exec (i task f) s = .next (s.core task (encM f major) (loadOp signed f)))
    (h4 : 4 ≤ major.toNat) (h6 : major.toNat ≤ 6) (h : s.runs task (encM f major) d c)
    (hp : c.pred f.pred.toNat = true) (h7 : f.space ≠ 7) (ha : mAddr c f % 2 ^ f.w.toNat = 0)
    (hin : mAddr c f + 2 ^ f.w.toNat ≤ d.size f.space.toNat) (hroom : f.space = 0 → c.readSet.length < 4096) {m : Mem}
    (hm : ∀ im, (Env.mk s im d (s.task task.val) task.val).space c f.space.toNat = m) :
    exec (i task f) s = .next (s.putCyc task ((noteRead f c).setReg f.rd (loaded signed f c m)).next) := by
  have hz : (noteRead f c).divZero = c.divZero := by unfold noteRead; split <;> rfl
  have hop := fun im => loadOp_of_ok (e := ⟨s, im, d, s.task task.val, task.val⟩) signed (mOk_of ha hin) hroom
  simp only [hm] at hop
  rw [hexec, core_of_ok h (by rwa [encM_bits_pred]) (legalWord_encM_of_space h4 h6 h7) hop
    ((next_setReg_divZero ..).trans hz)]

/-- The spaces after a store to one of them (Table 6-2). -/
def stored (sp : Spaces) (k a : Nat) (b : List Byte) : Spaces :=
  match k with
  | 1 => { sp with out := mwrite sp.out a b } | 2 => { sp with var := mwrite sp.var a b }
  | 3 => { sp with ret := mwrite sp.ret a b } | 5 => { sp with inst := mwrite sp.inst a b }
  | _ => { sp with stk := mwrite sp.stk a b }

theorem ite_written (x : Cyc) (p : Prop) [Decidable p] (w : List (Nat × Nat)) :
    (if p then x else { x with written := w }).next =
      { x.next with written := (if p then x else { x with written := w }).written } := by
  by_cases h : p
  · simp only [if_pos h]; rfl
  · simp only [if_neg h]; rfl

theorem next_store (c : Cyc) {k : Nat} (a : Nat) (b : List Byte) (h0 : k ≠ 0) (h4 : k ≠ 4) (hk : k < 7) :
    (c.store k a b).next = { c.next with written := (c.store k a b).written, sp := stored c.sp k a b } := by
  unfold Cyc.store
  interval_cases k
  · exact absurd rfl h0
  iterate 3 exact ite_written ..
  · exact absurd rfl h4
  all_goals exact ite_written ..

theorem exec_st_of_runs (h : s.runs task (encM f 6#3) d c) (hp : c.pred f.pred.toNat = true) (h7 : f.space ≠ 7)
    (h0 : f.space ≠ 0) (h4 : f.space ≠ 4) (ha : mAddr c f % 2 ^ f.w.toNat = 0)
    (hin : mAddr c f + 2 ^ f.w.toNat ≤ d.size f.space.toNat) :
    let b := leBytes (2 ^ f.w.toNat) (c.reg f.rd).toNat
    exec (.st task f) s = .next (s.putCyc task { c.next with
      written := (c.store f.space.toNat (mAddr c f) b).written, sp := stored c.sp f.space.toNat (mAddr c f) b }) := by
  intro b
  have hne {k : BitVec 3} (hk : f.space ≠ k) : f.space.toNat ≠ k.toNat := fun h => hk (BitVec.eq_of_toNat_eq h)
  have h7' : f.space.toNat ≠ 7 := hne h7
  have hop (im : Image) : storeOp f ⟨s, im, d, s.task task.val, task.val⟩ c =
      .ok (c.store f.space.toNat (mAddr c f) b).next :=
    if_neg (by simpa [mOk_of (e := ⟨s, im, d, s.task task.val, task.val⟩) ha hin] using ⟨h0, h4⟩)
  rw [next_store c _ b (hne h0) (hne h4) (by omega)] at hop
  rw [exec_st, execSt, core_of_ok h (by rwa [encM_bits_pred]) (legalWord_encM_of_space (by decide) (by decide) h7) hop rfl]

end

/-- Settles O16: a load by its read set and its value, a store by the space that it writes. -/
theorem loadAndStoreResults : Obligations.LoadAndStoreResults := by
  intro s task f d c a n ha hin h7 hp
  refine ⟨?_, fun h h0 h4 => ⟨_, exec_st_of_runs h hp h7 h0 h4 ha hin⟩⟩
  intro m hm v
  have hldu (hroom : f.space = 0 → c.readSet.length < 4096) (h : s.runs task (encM f 4#3) d c) :=
    exec_load_of_runs (i := .ldu) (fun _ _ _ => rfl) (by decide) (by decide) h hp h7 ha hin hroom fun _ => hm.symm
  have hlds (hroom : f.space = 0 → c.readSet.length < 4096) (h : s.runs task (encM f 5#3) d c) :=
    exec_load_of_runs (i := .lds) (fun _ _ _ => rfl) (by decide) (by decide) h hp h7 ha hin hroom fun _ => hm.symm
  refine ⟨fun h0 => ?_, fun h0 hlen => ?_⟩
  · have hnote : noteRead f c = c := if_neg h0
    rw [hnote] at hldu hlds
    exact ⟨hldu fun h => absurd h h0, hlds fun h => absurd h h0⟩
  · intro k
    have hnote : noteRead f c = k := if_pos h0
    rw [hnote] at hldu hlds
    exact ⟨hldu fun _ => hlen, hlds fun _ => hlen⟩

/-! ### TSR (R216) -/

theorem exec_tsr_of_runs {s : State} {task : Fin 64} {f : FmtA} {d : TaskDef} {c : Cyc}
    (h : s.runs task (encA f 0x103#10) d c) (hp : c.pred f.pred.toNat = true) (h1 : f.rs1 = 0) (h2 : f.rs2.toNat < 8) :
    ∃ i, exec (.tsr task f) s = .next (s.putCyc task (c.setReg f.rd
      (BitVec.ofNat 64 (tsrValue ⟨s, i, d, s.task task.val, task.val⟩ c f.rs2.toNat))).next) := by
  obtain ⟨i, hr, hw⟩ := coreReady_of_runs h
  have hl : legalWord (encA f 0x103#10) = true := by
    rw [legalWord_encA, h1]
    exact (Bool.true_and _).trans (decide_eq_true h2)
  refine ⟨i, ?_⟩
  simp [exec_tsr, execTsr, State.core, hr, hw, encA_bits_pred, hp, hl, State.coreKeep, next_setReg_divZero, State.putCyc]

/-- The word TSR g1, 6: the restart instant. -/
def tsrRestart : FmtA := ⟨0, 1, 0, 6⟩

/-- A module in RUN whose program holds another restart instant (0) than the MODE registers (1), with a task at a TSR of
the restart instant. -/
def restartsDiffer : State :=
  { State.reset with
    modes := { State.reset.modes with mode := .run, rstMt := 1 }
    prog := { State.reset.prog with
      loaded := some { code := [encA tsrRestart 0x103#10], tasks := [{}] }, tasks := [(0, { cyc := some {} })] } }

theorem restartsDiffer_runs : restartsDiffer.runs 0 (encA tsrRestart 0x103#10) {} {} :=
  ⟨rfl, ⟨_, rfl, rfl, rfl⟩, rfl, rfl, rfl, rfl, rfl⟩

theorem reg_of_putCyc (s : State) (task : Fin 64) (c : Cyc) (r : BitVec 5) :
    (((s.putCyc task c).task task.val).cyc.map (·.reg r)) = some (c.reg r) := by
  simp [State.putCyc]

/-- Refutes O15: selector 6 of TSR reads the restart instant of the program, which the statement takes from the MODE
registers; nothing in the statement makes the two equal. -/
theorem not_branchAndControlResults : ¬ Obligations.BranchAndControlResults := by
  intro h
  obtain ⟨-, -, -, -, -, htsr⟩ := h restartsDiffer 0 {} {}
  have hclaim := htsr tsrRestart restartsDiffer_runs rfl rfl (by decide)
  obtain ⟨i, hmodel⟩ := exec_tsr_of_runs restartsDiffer_runs rfl rfl (by decide)
  rw [hmodel] at hclaim
  injection hclaim with hstate
  have hreg := congrArg (fun u : State => ((u.task 0).cyc.map (·.reg 1))) hstate
  have hput (c : Cyc) := reg_of_putCyc restartsDiffer 0 c 1
  simp only [Fin.val_zero] at hput hreg
  simp only [hput] at hreg
  have hvalue : tsrValue ⟨restartsDiffer, i, {}, restartsDiffer.task 0, 0⟩ {} tsrRestart.rs2.toNat = 0 := rfl
  exact absurd (hvalue ▸ hreg) (by decide)

end Sys2Proof.Proofs
end

section
/-! PROOFS. Requests and events: how an opcode's command finds its ready request, and an event's command its instant; what
the operations shared by many commands leave alone. -/

namespace Sys2Proof.Proofs

open Sys2Proof.Machine

theorem onReq_of_ready {s : State} {rid op : Nat} {r : Req} (h : s.ready rid op r) (k : Req → State) :
    s.onReq rid op k = k r := by
  obtain ⟨hfind, hphase, hop, hdies⟩ := h
  simp [State.onReq, hfind, hphase, hop, hdies]

theorem rid_of_findReq {s : State} {rid : Nat} {r : Req} (h : s.findReq rid = some r) : r.rid = rid := by
  simpa using List.find?_some h

/-- An opcode's command on its ready request is its meaning for that request. -/
theorem answers_of_onReq {i : Nat → Instr} {op : Nat} {cond : State → Req → Prop} {res : State → Req → State}
    {k : State → Nat → Req → State} (hexec : ∀ rid s, exec (i rid) s = .next (s.onReq rid op (k s rid)))
    (hk : ∀ s r, s.ready r.rid op r → cond s r → k s r.rid r = res s r) : Answers i op cond res := by
  intro s rid r h hc
  obtain rfl := rid_of_findReq h.1
  rw [hexec, onReq_of_ready h, hk s r h hc]

/-- An event's command speaks of the state at its instant alone: `u` stands for that state. -/
theorem after_of {i : Nat → Instr} {cond : State → Prop} {res : State → State}
    (h : ∀ s t u, u = s.tick t → cond u → exec (i t) s = .next (res u)) : After i cond res :=
  fun s t hc => h s t _ rfl hc

/-! ### Tables -/

theorem tget_tmap {α : Type} (f : Nat → α → α) (m : Tab α) (k : Nat) (d : α) (hd : f k d = d) :
    tget (tmap f m) k d = f k (tget m k d) := by
  induction m with
  | nil => exact hd.symm
  | cons e r ih =>
    by_cases h : e.1 = k
    · subst h; simp [tmap, tget]
    · simpa [tmap, tget, h] using ih

/-! ### What choices and folds keep -/

/-- A projection that each step of a fold keeps, the fold keeps. -/
theorem foldl_keeps {α β : Type} {p : State → β} {f : State → α → State} (h : ∀ s a, p (f s a) = p s) (l : List α) (s : State) :
    p (l.foldl f s) = p s := by
  induction l generalizing s with
  | nil => rfl
  | cons a r ih => exact (ih _).trans (h s a)

/-- What both branches of a choice keep, the choice keeps. -/
theorem ite_keeps {β : Type} {p : State → β} {c : Prop} [Decidable c] {u v : State} {b : β} (hu : p u = b) (hv : p v = b) :
    p (if c then u else v) = b := by
  split_ifs <;> assumption

/-- A choice keeps what its one branch keeps of the other. -/
theorem opt_keeps {β : Type} {p : State → β} {c : Prop} [Decidable c] {u v : State} (h : p v = p u) :
    p (if c then v else u) = p u := ite_keeps h rfl

theorem opt_keeps' {β : Type} {p : State → β} {c : Prop} [Decidable c] {u v : State} (h : p v = p u) :
    p (if c then u else v) = p u := ite_keeps rfl h

/-! ### Interrupt causes, the session and the helm -/

/-- An interrupt cause changes the causes and the vectors of the host interface, and may send a message. -/
theorem cause_rest (s : State) (b : Nat) :
    { s.cause b with
      host := { (s.cause b).host with eventCause := s.host.eventCause, vecs := s.host.vecs }, out := s.out } = s := by
  unfold State.cause State.msix
  dsimp only
  split_ifs <;> rfl

/-- A host interface apart from its causes and vectors. -/
def quiet (h : HostIf) : HostIf := { h with eventCause := 0, vecs := [] }

@[simp] theorem cause_quiet (s : State) (b : Nat) : quiet (s.cause b).host = quiet s.host :=
  congrArg (fun u => quiet u.host) (cause_rest s b)

@[simp] theorem cause_mgmt (s : State) (b : Nat) : (s.cause b).mgmt = s.mgmt := congrArg (·.mgmt) (cause_rest s b)

theorem endSession_rest (s : State) : { s.endSession with sec := s.sec, recd := s.recd } = s := by
  unfold State.endSession
  split <;> rfl

@[simp] theorem endSession_host (s : State) : s.endSession.host = s.host := congrArg (·.host) (endSession_rest s)

@[simp] theorem endSession_mgmt (s : State) : s.endSession.mgmt = s.mgmt := congrArg (·.mgmt) (endSession_rest s)

@[simp] theorem endSession_session (s : State) : s.endSession.sec.session = none := by
  unfold State.endSession
  split
  · assumption
  · rfl

@[simp] theorem helmHere_mgmt (s : State) (h : Holder) (k : Nat) :
    (s.helmHere h k).mgmt = { s.mgmt with holder := h, lastCause := k } := by
  simp [State.helmHere]

@[simp] theorem setHelm_quiet (s : State) (h : Holder) (k : Nat) : quiet (s.setHelm h k).host = quiet s.host := by
  unfold State.setHelm State.helmHere
  dsimp only
  split_ifs <;> simp

@[simp] theorem setHelm_mgmt (s : State) (h : Holder) (k : Nat) :
    (s.setHelm h k).mgmt = { s.mgmt with holder := h, lastCause := k } := by
  unfold State.setHelm
  dsimp only
  split_ifs <;> simp

end Sys2Proof.Proofs
end

section
/-! PROOFS. Contexts, the PCIe link and doorbells (R55 to R58, R62, R79, R80). -/

namespace Sys2Proof.Proofs

open Sys2Proof.Machine

/-! ### Enabling and disabling a context -/

section
variable (n : Fin 256) (w : BitVec 32) (memOk : Option Nat)

theorem ctxEnable_of_good : After (.ctxEnable · n w memOk)
    (fun u => u.live ∧ w.getLsbD 31 ∧ (u.ctx n.val).state = .disabled ∧ ((u.ctx n.val).withConfig w).badEntry = none)
    (fun u => u.setCtx n.val (((u.ctx n.val).withConfig w).activate (u.host.linkEpoch % 256) memOk)) :=
  after_of fun s t u hu ⟨hlive, hen, hdis, hbad⟩ => by simp [execCtxEnable, ← hu, hlive, hen, hdis, hbad]

theorem ctxEnable_of_bad (k : Nat) : After (.ctxEnable · n w memOk)
    (fun u => u.live ∧ w.getLsbD 31 ∧ (u.ctx n.val).state = .disabled ∧ ((u.ctx n.val).withConfig w).badEntry = some k)
    (fun u => (u.setCtx n.val ((u.ctx n.val).withConfig w)).ctxError n.val k) :=
  after_of fun s t u hu ⟨hlive, hen, hdis, hbad⟩ => by simp [execCtxEnable, ← hu, hlive, hen, hdis, hbad]

variable {w} (hw : w.getLsbD 31 = false)
include hw

theorem ctxDisable_of_active : After (.ctxDisable · n w) (fun u => u.live ∧ (u.ctx n.val).state = .active)
    (fun u => u.setCtx n.val { u.ctx n.val with
      enable := false, state := if (u.ctx n.val).inflight = 0 then .disabled else .active }) :=
  after_of fun s t u hu ⟨hlive, hact⟩ => by simp_all [execCtxDisable]

theorem ctxDisable_of_stopped : After (.ctxDisable · n w)
    (fun u => u.live ∧ ((u.ctx n.val).state = .stopped ∨ (u.ctx n.val).state = .error))
    (fun u => (u.setCtx n.val { u.ctx n.val with enable := false, state := .disabled, inflight := 0 }).orphan n.val) :=
  after_of fun s t u hu ⟨hlive, hst⟩ => by
    rcases hst with hst | hst <;> simp_all [execCtxDisable]

end

/-! ### The link -/

theorem irqHoldoffExpiry_of_due (v : Fin 64) : After (.irqHoldoffExpiry · v)
    (fun u => (tget u.host.vecs v.val {}).deferred ∧ (tget u.host.vecs v.val {}).last.getD 0 + u.host.irqHoldoff * 1000 ≤ u.now)
    (fun u => u.msix v.val) :=
  after_of fun s t u hu ⟨hdef, hdue⟩ => by
    simp only [exec_irqHoldoffExpiry, execIrqHoldoffExpiry, ← hu, hdef, not_lt.2 hdue]
    rfl

/-- A loss of the link stops every ACTIVE context and no other (R62). -/
theorem pcieLinkDown_of_up (s : State) (t : Nat) (h : s.host.link = true) : ∃ u, exec (.pcieLinkDown t) s = .next u ∧
    u.host.link = false ∧ u.host.speed = 0 ∧ u.host.width = 0 ∧ u.out = s.out ∧
    ∀ n, (u.ctx n).state = if (s.ctx n).state = .active then .stopped else (s.ctx n).state := by
  refine ⟨_, congrArg Host.Outcome.next (if_neg (by simp [h])), ?_⟩
  have hctx (n : Nat) : (tget (tmap (fun _ (c : Ctx) => if c.state == .active then { c with state := .stopped } else c)
      s.host.ctxs) n {}).state = if (s.ctx n).state = .active then .stopped else (s.ctx n).state := by
    rw [tget_tmap _ _ _ _ rfl, ← State.ctx]
    simp only [beq_iff_eq]
    split <;> rfl
  dsimp only
  split_ifs <;> exact ⟨rfl, rfl, rfl, rfl, hctx⟩

theorem pcieLinkUp_of_down (s : State) (t gen width : Nat) (hlive : s.live = true) (hl : s.host.link = false)
    (h1 : 1 ≤ gen) (h4 : gen ≤ 4) (hw : width ∈ [1, 2, 4]) :
    ∃ u, exec (.pcieLinkUp t gen width) s = .next u ∧ u.host.link = true ∧ u.host.speed = gen ∧ u.host.width = width ∧
      u.host.linkEpoch = (s.host.linkEpoch + 1) % 2 ^ 32 ∧ u.mgmt.hostDownAt = none := by
  have hlive' : (s.tick t).live = true := hlive
  have hquiet : ∀ (c : Prop) [Decidable c] (x : State) k h b,
      quiet (if c then (x.cause b).setHelm h k else x.cause b).host = quiet x.host := fun c _ x k h b => by
    split_ifs <;> simp
  refine ⟨_, congrArg Host.Outcome.next (if_neg ?_), congrArg HostIf.link (hquiet ..),
    congrArg HostIf.speed (hquiet ..), congrArg HostIf.width (hquiet ..), congrArg HostIf.linkEpoch (hquiet ..), ?_⟩
  · have hgen : gen ≠ 0 := by omega
    simp only [List.mem_cons, List.not_mem_nil, or_false] at hw
    simp [hlive', hl, hgen, h4]
    omega
  · dsimp only
    split_ifs <;> simp

/-- Settles O22: a lemma for each command; disabling keeps the two halves of its statement. -/
theorem contextsAndLink : Obligations.ContextsAndLink :=
  ⟨ctxEnable_of_good, ctxEnable_of_bad, fun _ _ _ => ⟨rfl, rfl, rfl, rfl, rfl, rfl, rfl, rfl⟩,
   fun n _ hw => ⟨ctxDisable_of_active n hw, ctxDisable_of_stopped n hw⟩, irqHoldoffExpiry_of_due,
   pcieLinkDown_of_up, pcieLinkUp_of_down⟩

/-! ### Doorbells (R58) -/

theorem doorbellOf_submission (n : Fin 256) : doorbellOf false (128 * n.val) 4 = some n.val := by
  obtain ⟨n, hn⟩ := n
  have h64 : 128 * n / 64 % 2 = 0 := by omega
  simp only [doorbellOf, h64]
  simp
  omega

theorem doorbellOf_completion (n : Fin 256) : doorbellOf true (128 * n.val + 64) 4 = some n.val := by
  obtain ⟨n, hn⟩ := n
  simp [doorbellOf]
  omega

theorem doorbellOf_other (completion : Bool) {off size : Nat} (h : size ≠ 4 ∨ off % 64 ≠ 0 ∨ 32768 ≤ off) :
    doorbellOf completion off size = none :=
  if_neg (by simp; omega)

theorem doorbell_of_other (s : State) (completion : Bool) {off size : Nat} (v : BitVec 32)
    (h : size ≠ 4 ∨ off % 64 ≠ 0 ∨ 32768 ≤ off) : s.doorbell completion off size v = s.dropDoorbell := by
  rw [State.doorbell, doorbellOf_other completion h]

section
variable {s : State} {n : Fin 256} {v : BitVec 32} (hact : (s.ctx n.val).state = .active)
include hact

theorem doorbell_submission (hstream : (s.ctx n.val).stream = false) (hv : v.toNat < (s.ctx n.val).depth) :
    s.doorbell false (128 * n.val) 4 v = s.setCtx n.val { s.ctx n.val with sqTail := v.toNat } := by
  simp [State.doorbell, doorbellOf_submission, hact, hstream, hv]

theorem doorbell_completion (hv : v.toNat < (s.ctx n.val).depth) :
    s.doorbell true (128 * n.val + 64) 4 v = s.setCtx n.val { s.ctx n.val with cqHead := v.toNat } := by
  simp [State.doorbell, doorbellOf_completion, hact, hv]

theorem doorbell_outside (hstream : (s.ctx n.val).stream = false) (hv : (s.ctx n.val).depth ≤ v.toNat) :
    s.doorbell false (128 * n.val) 4 v = s.ctxError n.val 5 := by
  simp [State.doorbell, doorbellOf_submission, hact, hstream, hv]

end

theorem submissionDoorbell_of_live {t off size : Nat} {v : BitVec 32} {s : State} (h : (s.tick t).live) :
    exec (.submissionDoorbell t off size v) s = .next ((s.tick t).wakeEngine.doorbell false off size v) :=
  congrArg Host.Outcome.next (if_pos h)

theorem completionDoorbell_of_live {t off size : Nat} {v : BitVec 32} {s : State} (h : (s.tick t).live) :
    exec (.completionDoorbell t off size v) s = .next ((s.tick t).wakeEngine.doorbell true off size v) :=
  congrArg Host.Outcome.next (if_pos h)

/-- Settles O23: the offset names its context; the context's state and the value decide. -/
theorem doorbells : Obligations.Doorbells := by
  refine ⟨fun n v => ⟨fun s t ⟨hlive, hact, hstream, hv⟩ => ?_, fun s t ⟨hlive, hact, hv⟩ => ?_,
    fun s t ⟨hlive, hact, hstream, hv⟩ => ?_⟩, fun off size v h => ⟨fun s t hlive => ?_, fun s t hlive => ?_⟩, fun _ => rfl⟩
  · exact (submissionDoorbell_of_live hlive).trans (congrArg _ (doorbell_submission hact hstream hv))
  · exact (completionDoorbell_of_live hlive).trans (congrArg _ (doorbell_completion hact hv))
  · exact (submissionDoorbell_of_live hlive).trans (congrArg _ (doorbell_outside hact hstream hv))
  · exact (submissionDoorbell_of_live hlive).trans (congrArg _ (doorbell_of_other _ _ _ h))
  · exact (completionDoorbell_of_live hlive).trans (congrArg _ (doorbell_of_other _ _ _ h))

end Sys2Proof.Proofs
end

section
/-! PROOFS. How requests enter (R52, R60, R66, R83 to R88). -/

namespace Sys2Proof.Proofs

open Sys2Proof.Machine

/-! ### Descriptors -/

theorem mayFetch_iff (c : Ctx) : c.mayFetch = true ↔ c.state = .active ∧ c.enable = true ∧ c.stream = false ∧
    c.sqHead ≠ c.sqTail ∧ c.inflight + c.unread + 1 < c.depth := by
  simp [Ctx.mayFetch, and_assoc]

/-- The claims of contexts differ in class and number alone, so the order of R27 is that of these two. -/
theorem beats_claim (c d : Ctx) (m n : Nat) :
    (c.claim m).beats (d.claim n) = true ↔ c.cls < d.cls ∨ (c.cls = d.cls ∧ m < n) := by
  change (decide (c.cls < d.cls) || (c.cls == d.cls && (decide (0 < 0) || (0 == 0 && decide (m < n))))) = true ↔ _
  simp

theorem engineGrants_iff (s : State) (n : Nat) : s.engineGrants n = true ↔ s.host.fetchAt ≠ some s.now ∧
    ∀ e ∈ s.host.ctxs, e.2.mayFetch = true → ¬(e.2.cls < (s.ctx n).cls ∨ (e.2.cls = (s.ctx n).cls ∧ e.1 < n)) := by
  simp only [State.engineGrants, Claim.wins, Bool.and_eq_true, bne_iff_ne, Bool.not_eq_true', List.any_map,
    List.any_filter, List.any_eq_false, Function.comp_apply,
    beats_claim, not_and]

theorem heldBack_iff (s : State) (r : Req) : s.heldBack r = true ↔ ∃ q ∈ s.host.reqs,
    sameContext q.src r.src = true ∧ q.rid < r.rid ∧ (q.target = r.target ∨ r.flags.getLsbD 1 = true) := by
  simp only [State.heldBack, List.any_eq_true, Bool.and_eq_true, Bool.or_eq_true, decide_eq_true_eq, beq_iff_eq, and_assoc]

section
variable (n : Fin 256) (buf : Option (List Byte)) (ok : Bool)

theorem descriptorFetch_of_granted {d : Option Desc} {t : Nat} {s u : State} (hu : u = s.tick t)
    (h : u.live ∧ u.host.link ∧ u.host.engine ∧ (u.ctx n.val).mayFetch ∧ u.engineGrants n.val) :
    exec (.descriptorFetch t n d buf ok) s = .next (match d with
      | none => ({ u with host := { u.host with fetchAt := some u.now } }).ctxError n.val 6
      | some d => ({ u with host := { u.host with fetchAt := some u.now } }).fetchDesc n.val d buf ok) := by
  obtain ⟨hlive, hlink, heng, hmay, hgrant⟩ := h
  cases d <;> simp [execDescriptorFetch, ← hu, hlive, hlink, heng, hmay, hgrant]

end

theorem descriptorRelease_of_free (rid : Nat) (r : Req) : After (.descriptorRelease · rid)
    (fun u => u.findReq rid = some r ∧ r.phase = .waiting ∧ u.heldBack r = false)
    (fun u => u.updReq rid (fun q => { q with phase := .ready })) :=
  after_of fun s t u hu ⟨hfind, hphase, hfree⟩ => by simp [execDescriptorRelease, ← hu, hfind, hphase, hfree]

/-! ### The side-band port -/

section
variable {t : Nat} {peer : Peer} {dst : BitVec 128} {b : List Byte} {s u : State}

theorem sidebandDatagram_of_own (hu : u = s.tick t) (hup : u.sentryUp) (hown : u.ownAddr dst) :
    exec (.sidebandDatagram t peer { dst := dst, content := .udp 47100 b }) s = .next (u.datagram peer b) := by
  simp [execSidebandDatagram, ← hu, hup, hown]

theorem datagram_serve (hacc : sbAccepts b) (hnew : u.replayOf peer b = none) (hhand : u.mgmt.sbInHand = none)
    (hq : u.mgmt.sbQueue = []) : u.datagram peer b = u.serve peer b := by
  simp [State.datagram, hacc, hnew, hhand, hq]

theorem datagram_replay {resp : List Byte} (hacc : sbAccepts b) (hold : u.replayOf peer b = some resp) :
    u.datagram peer b = u.emit (.sbResponse peer resp) := by
  simp [State.datagram, hacc, hold]

theorem datagram_drop (hacc : sbAccepts b = false) : u.datagram peer b = u.dropDatagram := by
  simp [State.datagram, hacc]

theorem datagram_full (hacc : sbAccepts b) (hnew : u.replayOf peer b = none) (hhand : u.mgmt.sbInHand.isSome)
    (hq : 4 ≤ u.mgmt.sbQueue.length) : u.datagram peer b = u.dropDatagram := by
  obtain ⟨x, hx⟩ := Option.isSome_iff_exists.1 hhand
  simp [State.datagram, hacc, hnew, hx, hq]

theorem datagram_queue (hacc : sbAccepts b) (hnew : u.replayOf peer b = none) (hhand : u.mgmt.sbInHand.isSome)
    (hq : u.mgmt.sbQueue.length < 4) :
    u.datagram peer b = { u with mgmt := { u.mgmt with sbQueue := u.mgmt.sbQueue ++ [(peer, b)] } } := by
  obtain ⟨x, hx⟩ := Option.isSome_iff_exists.1 hhand
  simp [State.datagram, hacc, hnew, hx, not_le.2 hq]

end

theorem sbConfigWrite_of_not_run (s : State) (t : Nat) (w : BitVec 32) (hlive : s.live = true) (hmode : s.modes.mode ≠ .run) :
    ∃ u, exec (.sbConfigWrite t w) s = .next u ∧
      u.mgmt.lowAmpl = w.getLsbD 0 ∧ u.mgmt.anOff = w.getLsbD 1 ∧ u.mgmt.sbLink = false := by
  have hlive' : (s.tick t).live = true := hlive
  refine ⟨_, congrArg Host.Outcome.next ((if_neg (by simp [hlive'])).trans (if_neg (by simp [hmode]))), rfl, rfl, rfl⟩

/-- Settles O24: what may fetch and what is granted, then a lemma for each way in. -/
theorem requestsEnter : Obligations.RequestsEnter := by
  refine ⟨fun n d buf ok => ⟨?_, ?_⟩, fun s n => mayFetch_iff _, engineGrants_iff, descriptorRelease_of_free, heldBack_iff,
    ?_, ?_, ?_, ?_, ?_, sbConfigWrite_of_not_run, ?_⟩
  · exact after_of fun s t u hu h => descriptorFetch_of_granted n buf ok hu h
  · exact after_of fun s t u hu h => descriptorFetch_of_granted n buf ok hu h
  · intro peer dst b arrives
    have harrives {s u : State} {t : Nat} (hu : u = s.tick t) (hup : u.sentryUp) (hown : u.ownAddr dst) :
      exec (arrives t) s = .next (u.datagram peer b) := sidebandDatagram_of_own hu hup hown
    refine ⟨?_, fun resp => ?_, ?_, ?_, ?_⟩
    · exact after_of fun s t u hu ⟨hup, hown, hacc, hnew, hhand, hq⟩ =>
        (harrives hu hup hown).trans (congrArg _ (datagram_serve hacc hnew hhand hq))
    · exact after_of fun s t u hu ⟨hup, hown, hacc, hold⟩ =>
        (harrives hu hup hown).trans (congrArg _ (datagram_replay hacc hold))
    · exact after_of fun s t u hu ⟨hup, hown, hacc⟩ => (harrives hu hup hown).trans (congrArg _ (datagram_drop hacc))
    · exact after_of fun s t u hu ⟨hup, hown, hacc, hnew, hhand, hq⟩ =>
        (harrives hu hup hown).trans (congrArg _ (datagram_full hacc hnew hhand hq))
    · exact after_of fun s t u hu ⟨hup, hown, hacc, hnew, hhand, hq⟩ =>
        (harrives hu hup hown).trans (congrArg _ (datagram_queue hacc hnew hhand hq))
  · exact fun peer dst data => after_of fun s t u hu ⟨hup, hown⟩ => by simp [execSidebandDatagram, ← hu, hup, hown]
  · exact fun peer dst p => after_of fun s t u hu _ => by simp [execSidebandDatagram, ← hu]
  · exact fun peer b rest => after_of fun s t u hu ⟨hup, hhand, hq⟩ => by simp [execSidebandDequeue, ← hu, hup, hhand, hq]
  · exact fun ok low => after_of fun s t u hu hlive => by simp [execSbLinkChange, ← hu, hlive]
  · exact fun w => after_of fun s t u hu ⟨hlive, hrun⟩ => by simp [execSbConfigWrite, ← hu, hlive, hrun, State.ignoreWrite]

end Sys2Proof.Proofs
end

section
/-! PROOFS. What completing a request leaves alone: the host interface, the management port, the fabric and what was sent
change, and nothing else. -/

namespace Sys2Proof.Proofs

open Sys2Proof.Machine

@[simp] theorem stOk_eq_zero : stOk = 0 := rfl

/-- A state without the parts that completing a request changes. -/
def settled (s : State) : State := { s with host := {}, mgmt := {}, fabric := [], out := [] }

theorem settled_cause (s : State) (b : Nat) : settled (s.cause b) = settled s := by
  unfold State.cause State.msix
  dsimp only
  split_ifs <;> rfl

theorem settled_msix (s : State) (v : Nat) : settled (s.msix v) = settled s := by
  unfold State.msix
  dsimp only
  split_ifs <;> rfl

theorem settled_postEntry (s : State) (n : Nat) (tag : BitVec 32) (status flags : Nat) (result : BitVec 64) (irq : Bool) :
    settled (s.postEntry n tag status flags result irq) = settled s := by
  unfold State.postEntry State.ctxError
  dsimp only
  split_ifs
  · rfl
  · exact settled_cause ..
  · exact settled_msix ..
  · rfl

theorem settled_finish (s : State) (r : Req) (status flags : Nat) (result : BitVec 64) (data : Option (List Byte)) :
    settled (s.finish r status flags result data) = settled s := by
  have hpost (u : State) (n : Nat) (tag : BitVec 32) (st fl : Nat) (res : BitVec 64) (irq : Bool) :
      settled ((u.postEntry n tag st fl res irq).ctxDone n) = settled u := settled_postEntry ..
  unfold State.finish State.respond
  cases r.src with
  | side peer => rfl
  | host n =>
    by_cases hn : 256 ≤ n
    · simp only [hn, if_true]
      rfl
    · cases data with
      | none => exact (congrArg settled (if_neg hn)).trans (hpost ..)
      | some d => cases r.bufOk <;> exact (congrArg settled (if_neg hn)).trans (hpost ..)

theorem settled_complete (s : State) (r : Req) (status result flags : Nat) (data : Option (List Byte)) :
    settled (s.complete r status result flags data) = settled s := by
  have hmirror : settled (if carriedOut status then (s.answered r.rid).mirrorReq r else s.answered r.rid) = settled s := by
    unfold State.mirrorReq
    split_ifs <;> rfl
  rw [← hmirror]
  exact (apply_ite settled ..).trans ((congrArg _ (settled_finish ..)).trans (ite_self _))

theorem settled_endReq (s : State) (rid : Option Nat) (op status result flags : Nat) :
    settled (s.endReq rid op status result flags) = settled s := by
  unfold State.endReq
  split
  · split
    · exact settled_complete ..
    · rfl
  · rfl

/-! ### Records of a subscription -/

theorem settled_postRecord (s : State) (h : BitVec 32) (stamp frag : Nat) (first last : Bool) (payload : List Byte) :
    settled (s.postRecord h stamp frag first last payload) = settled s := by
  unfold State.postRecord
  split
  · rfl
  · exact ite_keeps (p := settled) rfl (ite_keeps (p := settled) rfl
      (ite_keeps (p := settled) (settled_cause ..) (settled_msix ..)))

/-- The records of a subscription change no more than completing a request does. -/
theorem settled_deliver (s : State) (h : BitVec 32) (stamp : Nat) (items : List (List Byte)) :
    settled (s.deliver h stamp items) = settled s := by
  unfold State.deliver
  split
  · rfl
  · exact foldl_keeps (p := settled) (fun _ _ => settled_postRecord ..) ..

@[simp] theorem complete_prog (s : State) (r : Req) (status result flags : Nat) (data : Option (List Byte)) :
    (s.complete r status result flags data).prog = s.prog :=
  congrArg (·.prog) (settled_complete s r status result flags data)

@[simp] theorem complete_modes (s : State) (r : Req) (status result flags : Nat) (data : Option (List Byte)) :
    (s.complete r status result flags data).modes = s.modes :=
  congrArg (·.modes) (settled_complete s r status result flags data)

@[simp] theorem complete_loops (s : State) (r : Req) (status result flags : Nat) (data : Option (List Byte)) :
    (s.complete r status result flags data).loops = s.loops :=
  congrArg (·.loops) (settled_complete s r status result flags data)

@[simp] theorem endReq_prog (s : State) (rid : Option Nat) (op status result flags : Nat) :
    (s.endReq rid op status result flags).prog = s.prog :=
  congrArg (·.prog) (settled_endReq s rid op status result flags)

/-! ### The session and the helm -/

theorem endSession_slots (s : State) : s.endSession.sec.slots = s.sec.slots := by
  unfold State.endSession
  split <;> rfl

@[simp] theorem setHelm_keySlot (s : State) (h : Holder) (k n : Nat) : (s.setHelm h k).keySlot n = s.keySlot n := by
  have hcause (u : State) (b : Nat) : (u.cause b).sec = u.sec := congrArg (·.sec) (cause_rest u b)
  have hslots : (s.setHelm h k).sec.slots = s.sec.slots := by
    unfold State.setHelm State.helmHere
    dsimp only
    split_ifs <;> simp [endSession_slots, hcause]
  exact congrArg (tget · n {}) hslots

end Sys2Proof.Proofs
end

section
/-! PROOFS. The helm (R90 to R96), keys and presence (R99, R102 to R106), password sessions (R108 to R111), firmware slots
and flash stores (R113 to R116, R190). -/

namespace Sys2Proof.Proofs

open Sys2Proof.Machine

/-! ### The helm -/

theorem hostFirst_of_unclaimed {s : State} (h : ∀ c ∈ s.tickMates, s.hostClaim c = false) : s.hostFirst = s := by
  have hnone : s.tickMates.find? s.hostClaim = none := List.find?_eq_none.2 fun c hc => by simp [h c hc]
  simp [State.hostFirst, hnone]

theorem hostFirst_of_held {s : State} (h : s.mgmt.holder ≠ .free) : s.hostFirst = s := by
  simp [State.hostFirst, h]

/-- A FREE helm that the host claims in the tick is the host's, and the keys stay as they are. -/
theorem hostFirst_of_claimed {s : State} (h : s.mgmt.holder = .free) (hc : ∃ c ∈ s.tickMates, s.hostClaim c = true) :
    s.hostFirst.mgmt.holder = .host ∧ ∀ n, s.hostFirst.keySlot n = s.keySlot n := by
  obtain ⟨c, hfind⟩ := Option.isSome_iff_exists.1 (List.find?_isSome.2 hc)
  unfold State.hostFirst
  simp only [h, hfind]
  cases c <;> simp [State.keySlot] <;> exact setHelm_keySlot s _ _

theorem seizeHelm_mgmt (s : State) :
    s.seizeHelm.mgmt.holder = .sideband ∧ s.seizeHelm.mgmt.lastCause = 2 := by
  unfold State.seizeHelm
  dsimp only
  split_ifs <;> simp

theorem helmSeize_of_may : Answers .helmSeize 0x0808
    (fun s r => s.mgmt.holder = .host ∧ bit (s.keySlot r.keySlot).mask.toNat 11 ∨
      s.mgmt.holder = .free ∧ (∀ c ∈ s.tickMates, s.hostClaim c = false) ∧
        (bit (s.keySlot r.keySlot).mask.toNat 10 ∨ bit (s.keySlot r.keySlot).mask.toNat 11))
    (fun s r => s.seizeHelm.complete r 0) :=
  answers_of_onReq (fun _ _ => rfl) fun s r _ hc => by
    rcases hc with ⟨hhost, hbit⟩ | ⟨hfree, hclaim, hbit⟩
    · simp [hostFirst_of_held, hhost, hbit]
    · simp [hostFirst_of_unclaimed hclaim, hfree, hbit]

theorem helmSeize_of_claimed : Answers .helmSeize 0x0808
    (fun s r => s.mgmt.holder = .free ∧ (∃ c ∈ s.tickMates, s.hostClaim c = true) ∧
      bit (s.hostFirst.keySlot r.keySlot).mask.toNat 11 = false)
    (fun s r => s.hostFirst.complete r stHelmHeld) :=
  answers_of_onReq (fun _ _ => rfl) fun s r _ ⟨hfree, hclaim, hbit⟩ => by
    obtain ⟨hhost, hkeys⟩ := hostFirst_of_claimed hfree hclaim
    simp [hhost, ← hkeys, hbit]

theorem helmSeize_of_held : Answers .helmSeize 0x0808
    (fun s r => s.mgmt.holder = .sideband ∨ bit (s.keySlot r.keySlot).mask.toNat 11 = false ∧ s.mgmt.holder = .host)
    (fun s r => s.complete r stHelmHeld) :=
  answers_of_onReq (fun _ _ => rfl) fun s r _ hc => by
    rcases hc with hside | ⟨hbit, hhost⟩
    · simp [hostFirst_of_held, hside]
    · simp [hostFirst_of_held, hhost, hbit]

theorem helmTimeout_of_due (d : Nat) : After .helmTimeout
    (fun u => u.mgmt.hostDownAt = some d ∧ u.mgmt.holder = .host ∧ u.hostLinkUp = false ∧ u.keepsHelm ∧
      d + u.mgmt.helmTimeout * 100000000 ≤ u.now)
    (fun u => u.freeHelm 1 false) :=
  after_of fun s t u hu ⟨hdown, hholder, hlink, hkeeps, hdue⟩ => by
    simp [execHelmTimeout, ← hu, hdown, hholder, hlink, hkeeps, not_lt.2 hdue]

/-- Settles O26: HELM_SEIZE splits on who holds the helm and whether the host claims it in the same tick. -/
theorem helm : Obligations.Helm :=
  ⟨answers_of_onReq (fun _ _ => rfl) fun s r _ _ => by unfold holderCode; rfl,
   answers_of_onReq (fun _ _ => rfl) fun s r _ h => by simp [h],
   answers_of_onReq (fun _ _ => rfl) fun s r _ h => by simp [h],
   answers_of_onReq (fun _ _ => rfl) fun s r _ h => by simp [h],
   answers_of_onReq (fun _ _ => rfl) fun s r _ ⟨hheld, hgrant⟩ => by simp [hheld, hgrant],
   helmSeize_of_may, helmSeize_of_claimed, fun _ h hc => (hostFirst_of_claimed h hc).1, seizeHelm_mgmt, helmSeize_of_held,
   helmTimeout_of_due,
   after_of fun s t u hu ⟨hholder, hkeeps, hdue⟩ => by simp [execSbIdle, ← hu, hholder, hkeeps, not_lt.2 hdue],
   fun s h c => by simp⟩

/-! ### Keys and the presence window -/

/-- Settles O27: each command's branch is the one its premises name. -/
theorem keysAndPresence : Obligations.KeysAndPresence :=
  ⟨answers_of_onReq (fun _ _ => rfl) fun s r _ h => by simp [h],
   answers_of_onReq (fun _ _ => rfl) fun s r _ h => by simp [h],
   answers_of_onReq (fun _ _ => rfl) fun s r _ h => by simp [h],
   answers_of_onReq (fun _ _ => rfl) fun s r _ h => by simp [Option.isNone_eq_false_iff.2 h],
   answers_of_onReq (fun _ _ => rfl) fun s r _ _ => rfl,
   fun a => after_of fun s t u hu ⟨hheld, hmode, hpres, hdue⟩ => by
     simp [execPresenceWindow, ← hu, hheld, hmode, hpres, not_lt.2 hdue],
   fun e => after_of fun s t u hu ⟨hpres, hdue⟩ => by simp [execPresenceWindowEnd, ← hu, hpres, not_lt.2 hdue]⟩

/-! ### Password sessions -/

theorem passwordCheckDone_of_right (rid : Nat) (r : Req) (v : Verifier) : After .passwordCheckDone
    (fun u => u.sec.pwdCheck = some rid ∧ u.findReq rid = some r ∧ u.sec.verifier = some v ∧ v.accepts r.buf)
    (fun u => (({ u with sec := { u.sec with
      pwdCheck := none, fails := 0, session := some { side := r.actor == 1, slot := r.keySlot, last := u.now } } }).event
      0x0303).complete r 0) :=
  after_of fun s t u hu ⟨hcheck, hfind, hver, hacc⟩ => by
    have hfind' (c : Sec) : ({ u with sec := c } : State).findReq rid = some r := hfind
    simp [execPasswordCheckDone, ← hu, hcheck, hfind', hver, hacc]

theorem passwordCheckDone_of_wrong (rid : Nat) (r : Req) (v : Verifier) : After .passwordCheckDone
    (fun u => u.sec.pwdCheck = some rid ∧ u.findReq rid = some r ∧ u.sec.verifier = some v ∧ v.accepts r.buf = false)
    (fun u => ({ u with sec := { u.sec with pwdCheck := none } }).pwdFailed.complete r stAuthFail) :=
  after_of fun s t u hu ⟨hcheck, hfind, hver, hacc⟩ => by
    have hfind' (c : Sec) : ({ u with sec := c } : State).findReq rid = some r := hfind
    simp [execPasswordCheckDone, ← hu, hcheck, hfind', hver, hacc]

theorem pwdFailed_counts (s : State) : s.pwdFailed.sec.fails = s.sec.fails + 1 ∧
    (5 ≤ s.sec.fails + 1 → s.pwdFailed.sec.lockEnd = some (s.now + 600000000000)) := by
  unfold State.pwdFailed
  dsimp only
  split_ifs with h
  · exact ⟨rfl, fun h5 => absurd h5 (not_le.2 h)⟩
  · exact ⟨rfl, fun _ => rfl⟩

/-- Settles O28: each command's branch is the one its premises name; the check's end splits on the password. -/
theorem passwordSessions : Obligations.PasswordSessions :=
  ⟨answers_of_onReq (fun _ _ => rfl) fun s r _ ⟨hver, hlock, hcheck⟩ => by
     simp [Option.isNone_eq_false_iff.2 hver, hlock, hcheck],
   answers_of_onReq (fun _ _ => rfl) fun s r _ h => by simp [h],
   answers_of_onReq (fun _ _ => rfl) fun s r _ ⟨hver, hlock⟩ => by simp [Option.isNone_eq_false_iff.2 hver, hlock],
   passwordCheckDone_of_right, passwordCheckDone_of_wrong, pwdFailed_counts,
   answers_of_onReq (fun _ _ => rfl) fun s r _ _ => rfl,
   answers_of_onReq (fun _ _ => rfl) fun s r _ _ => rfl,
   fun x => after_of fun s t u hu ⟨hses, hdue⟩ => by simp [execSessionTimeout, ← hu, hses, not_lt.2 hdue],
   fun e => after_of fun s t u hu ⟨hlock, hdue, hpow⟩ => by simp [execLockoutEnd, ← hu, hlock, hpow, not_lt.2 hdue],
   endSession_session⟩

/-! ### Firmware slots and flash stores -/

theorem progStored_stored (s : State) (rid : Nat) (i : Image) (h : s.twin.exActive = false) :
    (s.progStored rid i true).prog.stored = some i ∧ (s.progStored rid i false).prog.stored = s.prog.stored := by
  simp [State.progStored, h]

/-- Settles O29: each command's branch is the one its premises name; ending a request leaves the stored image. -/
theorem firmwareAndStores : Obligations.FirmwareAndStores :=
  ⟨answers_of_onReq (fun _ _ => rfl) fun s r _ _ => rfl,
   answers_of_onReq (fun _ _ => rfl) fun s r _ ⟨hstore, hhost⟩ => by simp [State.fwBegin, hstore, hhost],
   answers_of_onReq (fun _ _ => rfl) fun s r _ h => by simp [h],
   answers_of_onReq (fun _ _ => rfl) fun s r _ _ => rfl,
   fun ok rid i => after_of fun s t u hu h => by simp [execFlashStoreDone, ← hu, h],
   fun ok rid slotB b => after_of fun s t u hu ⟨hprog, hfw⟩ => by simp [execFlashStoreDone, ← hu, hprog, hfw],
   progStored_stored⟩

end Sys2Proof.Proofs
end

section
/-! PROOFS. What a change of mode or of role leaves alone: both run the trip term, end the session and tell the host, so many
parts change; the others do not. -/

namespace Sys2Proof.Proofs

open Sys2Proof.Machine

/-- A state without the parts that the trip term, the session and interrupt causes change. -/
def bare (s : State) : State :=
  { s with
    host := {}, mgmt := {}, sec := {}, fabric := [], fio := {}, dsp := {}, recd := {}, out := []
    trip := { s.trip with
      outs := [], src := 0, srcSeen := 0, lastAssert := [], proofDue := false, ward := 0, safetyRun := false
      wardPeriodDone := false, periodAt := 0, fns := [] } }

theorem bare_of_settled {s t : State} (h : settled s = settled t) : bare s = bare t :=
  (congrArg (fun u => bare u) h :)

theorem bare_recd (s : State) (x : Recorder) : bare { s with recd := x } = bare s := rfl

@[simp] theorem bare_event (s : State) (code : Nat) (data : List Nat) : bare (s.event code data) = bare s := bare_recd s _

@[simp] theorem bare_fwReached (s : State) : bare s.fwReached = bare s := rfl

@[simp] theorem bare_ejectSafe (s : State) : bare s.ejectSafe = bare s := bare_event ..

@[simp] theorem bare_cause (s : State) (b : Nat) : bare (s.cause b) = bare s := bare_of_settled (settled_cause s b)

@[simp] theorem bare_endSession (s : State) : bare s.endSession = bare s := (congrArg (fun u => bare u) (endSession_rest s) :)

theorem bare_setHelm (s : State) (h : Holder) (c : Nat) : bare (s.setHelm h c) = bare s := by
  have hhere : bare (s.helmHere h c) = bare s := (bare_endSession _).trans ((bare_cause ..).trans (bare_event ..))
  exact ite_keeps (p := bare) hhere hhere

@[simp] theorem bare_putOut (s : State) (n : Nat) (o : TripOut) : bare (s.putOut n o) = bare s :=
  ite_keeps (p := bare) (bare_cause ..) (ite_keeps (p := bare) (bare_cause ..) rfl)

@[simp] theorem bare_tripEval (s : State) : bare s.tripEval = bare s :=
  ite_keeps (p := bare) rfl ((foldl_keeps (p := bare) (fun _ _ => bare_putOut ..) ..).trans
    (foldl_keeps (p := bare) (f := State.srcAssert) (fun _ _ => rfl) ..))

@[simp] theorem bare_holdOff (s : State) : bare s.holdOff = bare s := by
  unfold State.holdOff
  refine foldl_keeps (p := bare) (fun u n => ?_) ..
  exact ite_keeps (p := bare) rfl (ite_keeps (p := bare) rfl rfl)

@[simp] theorem bare_wardEval (s : State) : bare s.wardEval = bare s := (bare_tripEval _).trans (bare_holdOff _)

@[simp] theorem bare_safetyFollow (s : State) : bare s.safetyFollow = bare s :=
  ite_keeps (p := bare) rfl (bare_wardEval _)

@[simp] theorem bare_endTests (s : State) : bare s.endTests = bare s := by
  unfold State.endTests
  exact foldl_keeps (p := bare) (fun u e => bare_event ..) ..

@[simp] theorem bare_leavePages (s : State) : bare s.leavePages = bare s := ite_keeps (p := bare) rfl rfl

/-- A change of mode sets MODE and its cause. -/
theorem bare_setMode (s : State) (m : Mode) (c : Nat) :
    bare (s.setMode m c) = bare { s with modes := { s.modes with mode := m, cause := c } } := by
  simp only [State.setMode, apply_ite bare, bare_safetyFollow, bare_ejectSafe, bare_fwReached, bare_leavePages,
    bare_endTests, bare_endSession, ite_self, bare_cause]
  rfl

@[simp] theorem setMode_modes (s : State) (m : Mode) (c : Nat) :
    (s.setMode m c).modes = { s.modes with mode := m, cause := c } :=
  congrArg (·.modes) (bare_setMode s m c)

/-- A change of role sets ROLE; a follower on the link takes module time as valid. -/
theorem setRole_keeps {β : Type} {p : State → β} (hbare : ∀ {u v : State}, bare u = bare v → p u = p v)
    (hclk : ∀ u x, p { u with clk := x } = p u) (s : State) (r : Role) :
    p (s.setRole r) = p { s with modes := { s.modes with role := r } } := by
  have hvalid (u : State) : p u.timeValid = p u := ite_keeps rfl ((hbare (bare_event ..)).trans (hclk ..))
  refine (opt_keeps (hvalid _)).trans ((opt_keeps (hbare (bare_ejectSafe _))).trans (hbare ?_))
  exact (bare_endSession _).trans ((bare_cause ..).trans ((bare_event ..).trans rfl))

@[simp] theorem setRole_modes (s : State) (r : Role) : (s.setRole r).modes = { s.modes with role := r } :=
  setRole_keeps (p := State.modes) (fun h => (congrArg (fun u => u.modes) h :)) (fun _ _ => rfl) s r

@[simp] theorem setRole_twin (s : State) (r : Role) : (s.setRole r).twin = s.twin :=
  setRole_keeps (p := State.twin) (fun h => (congrArg (fun u => u.twin) h :)) (fun _ _ => rfl) s r

/-! ### Starting and stopping tiles -/

/-- Starting the tiles of the module writes tiles alone. -/
theorem springTiles_keeps {β : Type} {p : State → β} (h : ∀ u x, p { u with tiles := x } = p u) (s : State) :
    p s.springTiles = p s := by
  refine foldl_keeps (fun u n => ?_) ..
  unfold State.startSpring
  dsimp only
  split
  · exact h ..
  · exact ite_keeps rfl (h ..)
  · rfl

@[simp] theorem springTiles_modes (s : State) : s.springTiles.modes = s.modes := springTiles_keeps (fun _ _ => rfl) s

@[simp] theorem springTiles_prog (s : State) : s.springTiles.prog = s.prog := springTiles_keeps (fun _ _ => rfl) s

@[simp] theorem springTiles_loops (s : State) : s.springTiles.loops = s.loops := springTiles_keeps (fun _ _ => rfl) s

@[simp] theorem setMode_prog (s : State) (m : Mode) (c : Nat) : (s.setMode m c).prog = s.prog :=
  congrArg (·.prog) (bare_setMode s m c)

@[simp] theorem setMode_loops (s : State) (m : Mode) (c : Nat) : (s.setMode m c).loops = s.loops :=
  congrArg (·.loops) (bare_setMode s m c)

/-! ### Entering HOLD -/

@[simp] theorem enterHold_modes (s : State) (c n : Nat) : (s.enterHold c n).modes = { s.modes with
    mode := .hold, cause := c, holdCause := c, holdTask := n, trans := s.modes.trans.filter Trans.recovery } := by
  unfold State.enterHold
  dsimp only
  split_ifs <;> simp

@[simp] theorem enterHold_prog (s : State) (c n : Nat) : (s.enterHold c n).prog = s.prog := by
  unfold State.enterHold
  dsimp only
  split_ifs <;> simp

@[simp] theorem enterHold_loops (s : State) (c n : Nat) : (s.enterHold c n).loops = s.loops := by
  unfold State.enterHold
  dsimp only
  split_ifs <;> simp

end Sys2Proof.Proofs
end

section
/-! PROOFS. MODE_STATUS, MODE_SET and RESTART (R119 to R125, R133). -/

namespace Sys2Proof.Proofs

open Sys2Proof.Machine

/-- A hold is planned within its bound of a lead, and waits for no instant elsewhere. -/
theorem beginHold_trans (s : State) (c n : Nat) (rid : Option Nat) (b : Nat) :
    (s.leadsPair = false → s.beginHold c n rid b = { s with modes := { s.modes with trans := some (.toHold c n rid none) } }) ∧
    (s.leadsPair = true → 0 < b → ∃ a, s.mt ≤ a ∧ a < s.mt + b ∧
      (s.beginHold c n rid b).modes = { s.modes with trans := some (.toHold c n rid (some a)) }) := by
  refine ⟨fun h => ?_, fun h hb => ⟨s.mt + s.fresh.1.toNat % b, Nat.le_add_right .., ?_, ?_⟩⟩
  · simp [State.beginHold, h]
  · have := Nat.mod_lt s.fresh.1.toNat hb
    omega
  · unfold State.beginHold
    rw [if_pos h]
    rfl

theorem startRestart_modes (s : State) (warm : Bool) (rid : Option Nat) (c : Nat) :
    (s.startRestart warm rid c).modes.mode = .startup ∧
    (s.startRestart warm rid c).modes.trans = some (.restart warm rid c) := by
  simp [State.startRestart]


/-- Settles O30: each answer is the first of MODE_SET's tests that its premises leave. -/
theorem modeCommands : Obligations.ModeCommands :=
  ⟨answers_of_onReq (fun _ _ => rfl) fun s r _ _ => rfl,
   answers_of_onReq (fun _ _ => rfl) fun s r _ ⟨hmode, haux, htrans, hdet, hrole, hfault⟩ => by
     simp [State.modeTo, hmode, haux, htrans, hdet, hrole, hfault, modeCode],
   beginHold_trans,
   answers_of_onReq (fun _ _ => rfl) fun s r _ ⟨hmode, haux, htrans, hdet, hrole, hfault⟩ => by
     rcases hmode with hmode | hmode <;> simp [State.modeTo, hmode, haux, htrans, hdet, hrole, hfault, modeCode],
   answers_of_onReq (fun _ _ => rfl) fun s r _ ⟨hmode, haux, htrans, hdet, hrole, hfault⟩ => by
     simp [State.modeTo, hmode, haux, htrans, hdet, hrole, hfault, modeCode],
   answers_of_onReq (fun _ _ => rfl) fun s r _ ⟨hmode, haux, htrans, hrole, hfault⟩ => by
     simp [State.modeTo, hmode, haux, htrans, hrole, hfault, modeCode, State.commands],
   answers_of_onReq (fun _ _ => rfl) fun s r _ ⟨hdet, haux⟩ => by
     rcases haux with haux | haux | haux <;> simp [hdet, haux],
   answers_of_onReq (fun _ _ => rfl) fun s r _ ⟨hdet, hrole, hbusy, haux⟩ => by
     rcases hbusy with hbusy | hbusy <;> simp [hdet, hrole, hbusy, haux],
   answers_of_onReq (fun _ _ => rfl) fun s r _ ⟨hdet, htrans, hrole, hfault⟩ => by simp [hdet, htrans, hrole, hfault],
   fun s r h => by rcases h with h | h <;> simp [State.commands, h],
   startRestart_modes,
   fun s m c => by simp⟩

end Sys2Proof.Proofs
end

section
/-! PROOFS. What judging the tones and the sweeps of the chains leaves alone. A trip source that asserts may wake the
module (R128), so the mode can change; the role, how far it has settled and the state of the pair cannot. -/

namespace Sys2Proof.Proofs

open Sys2Proof.Machine

/-- Judging a tone writes its port, records events and settles the trip term. -/
theorem judgeTone_keeps {β : Type} {p : State → β} (hport : ∀ u m x, p (State.setPort u m x) = p u)
    (hevent : ∀ u c d, p (State.event u c d) = p u) {s : State} (htrip : ∀ u, p u = p s → p u.tripSettle = p s) (n : Nat) :
    p (s.judgeTone n) = p s := by
  have halarm : p (s.judgeAlarm n) = p s :=
    ite_keeps (ite_keeps rfl ((hevent ..).trans (hport ..))) (hport ..)
  have hopen (u : State) : p (u.loopOpened n) = p u := (hevent ..).trans (hport ..)
  unfold State.judgeTone
  split
  · exact htrip _ (hport ..)
  · dsimp only
    have hs1 (x : Port) : p ((s.judgeAlarm n).setPort n x) = p s := (hport ..).trans halarm
    exact ite_keeps (htrip _ ((hport ..).trans (hs1 _))) (ite_keeps (htrip _ (ite_keeps (hs1 _) ((hopen _).trans (hs1 _))))
      (htrip _ ((hport ..).trans (hs1 _))))

/-- A trip term that settles outside DORMANT wakes nothing. -/
theorem bare_tripSettle {s : State} (h : s.modes.mode ≠ .dormant) : bare s.tripSettle = bare s := by
  have heval := bare_tripEval s
  have hmode : s.tripEval.modes.mode ≠ .dormant := by
    rwa [show s.tripEval.modes = s.modes from (congrArg (fun u => u.modes) heval :)]
  have hwake : s.tripEval.wake 12 = s.tripEval := by simp [State.wake, hmode]
  exact ite_keeps (p := bare) ((congrArg bare hwake).trans heval) heval

/-- A projection that reads nothing which the trip term and a wake-up write. -/
structure Unwoken {β : Type} (p : State → β) : Prop where
  bare : ∀ {s t : State}, bare s = bare t → p s = p t
  tiles : ∀ (s : State) x, p { s with tiles := x } = p s
  modes : ∀ (s : State) m c hc ht tr rp lr, p { s with modes := { s.modes with
    mode := m, cause := c, holdCause := hc, holdTask := ht, trans := tr, rstPlanned := rp, leadRestart := lr } } = p s

section
variable {β : Type} {p : State → β} (hp : Unwoken p) (s : State)
include hp

theorem Unwoken.event (c : Nat) (d : List Nat) : p (s.event c d) = p s := hp.bare (bare_event ..)

theorem Unwoken.emit (o : Output) : p (s.emit o) = p s := hp.bare rfl

theorem Unwoken.complete (r : Req) (status result flags : Nat) (data : Option (List Byte)) :
    p (s.complete r status result flags data) = p s := hp.bare (bare_of_settled (settled_complete ..))

theorem Unwoken.deliver (h : BitVec 32) (stamp : Nat) (items : List (List Byte)) : p (s.deliver h stamp items) = p s :=
  hp.bare (bare_of_settled (settled_deliver ..))

theorem Unwoken.setMode (m : Mode) (c : Nat) : p (s.setMode m c) = p s := (hp.bare (bare_setMode s m c)).trans (hp.modes ..)

theorem Unwoken.startRestart (w : Bool) (rid : Option Nat) (c : Nat) : p (s.startRestart w rid c) = p s :=
  (hp.modes ..).trans ((springTiles_keeps hp.tiles _).trans (hp.setMode ..))

theorem Unwoken.enterHold (c n : Nat) : p (s.enterHold c n) = p s :=
  (hp.event ..).trans ((hp.modes ..).trans ((opt_keeps (springTiles_keeps hp.tiles _)).trans (hp.setMode ..)))

theorem Unwoken.wake (c : Nat) : p (s.wake c) = p s := by
  have htell (b : Prop) [Decidable b] (o : Output) : p (if b then s.emit o else s) = p s := opt_keeps (hp.emit ..)
  exact ite_keeps rfl (ite_keeps (ite_keeps rfl (hp.emit ..))
    (ite_keeps ((hp.startRestart ..).trans (htell ..)) ((hp.enterHold ..).trans (htell ..))))

theorem Unwoken.tripSettle : p s.tripSettle = p s :=
  have h := hp.bare (bare_tripEval s)
  ite_keeps ((hp.wake ..).trans h) h

end

/-- A projection that reads nothing which the chains write either. -/
structure Aside {β : Type} (p : State → β) : Prop extends Unwoken p where
  ports : ∀ (s : State) x, p { s with ports := x } = p s
  drill : ∀ (s : State) x, p { s with twin := { s.twin with drill := x } } = p s

section
variable {β : Type} {p : State → β} (hp : Aside p) (s : State)
include hp

theorem Aside.setPort (n : Nat) (x : Port) : p (s.setPort n x) = p s := hp.ports ..

theorem Aside.judgeTone (n : Nat) : p (s.judgeTone n) = p s :=
  judgeTone_keeps hp.setPort hp.event (fun _ hu => (hp.tripSettle _).trans hu) n

/-! ### Sweeps -/

theorem Aside.probeDone (n : Nat) : p (s.probeDone n) = p s := by
  have hport (x : Port) (d : List Nat) : p ((s.setPort n x).event 0x090B d) = p s := (hp.event ..).trans (hp.setPort ..)
  unfold State.probeDone
  dsimp only
  split
  · exact (hp.complete ..).trans (hport ..)
  · exact hport ..

theorem Aside.continuity (n no : Nat) : p (s.continuity n no) = p s :=
  ite_keeps rfl (ite_keeps (ite_keeps (hp.setPort ..) ((hp.judgeTone ..).trans ((hp.event ..).trans (hp.setPort ..))))
    (hp.setPort ..))

theorem Aside.closeSweep (n : Nat) (w : Sweep) : p (s.closeSweep n w) = p s := by
  refine ite_keeps rfl ((opt_keeps (hp.probeDone ..)).trans
    ((opt_keeps' (hp.continuity ..)).trans ((foldl_keeps (fun u x => ?_) ..).trans
      ((opt_keeps (hp.event ..)).trans ((hp.setPort ..).trans ?_)))))
  · exact opt_keeps (hp.deliver ..)
  · exact opt_keeps (hp.drill ..)

theorem Aside.closeOpen (n : Nat) : p (s.closeOpen n) = p s := by
  unfold State.closeOpen
  split
  · exact hp.closeSweep ..
  · rfl

theorem Aside.startEnum (n : Nat) (rid : Option Nat) : p (s.startEnum n rid) = p s :=
  (opt_keeps (hp.emit ..)).trans ((hp.judgeTone ..).trans ((hp.setPort ..).trans (hp.closeOpen ..)))

theorem Aside.startPorts : p s.startPorts = p s := by
  unfold State.startPorts
  split
  · exact foldl_keeps (fun _ _ => hp.startEnum ..) ..
  · rfl

/-! ### Taking the chains of a port -/

theorem Aside.enumSettle (n : Nat) : p (s.enumSettle n) = p s := by
  refine ite_keeps rfl ?_
  split
  · exact (hp.complete ..).trans (hp.setPort ..)
  · exact hp.setPort ..

theorem Aside.enumCounted (n : Nat) : p (s.enumCounted n) = p s := by
  refine ite_keeps rfl ((hp.enumSettle ..).trans ((hp.judgeTone ..).trans ?_))
  have hev (u : State) (x : Port) (c : Nat) (d : List Nat) : p ((u.setPort n x).event c d) = p u :=
    (hp.event ..).trans (hp.setPort ..)
  split
  · exact (hp.setPort ..).trans (hp.event ..)
  · exact ite_keeps ((hev ..).trans (hp.event ..)) (ite_keeps ((hp.setPort ..).trans (hp.event ..)) ((hev ..).trans (hp.event ..)))

theorem Aside.farLost (n : Nat) : p (s.farLost n) = p s :=
  ite_keeps rfl (ite_keeps ((hp.enumCounted ..).trans (hp.setPort ..)) ((hp.judgeTone ..).trans (hp.setPort ..)))

theorem Aside.sendFrame (n : Nat) (endB : Bool) (dur : Nat) (bytes : List Byte) : p (s.sendFrame n endB dur bytes) = p s :=
  (hp.setPort ..).trans (ite_keeps (hp.emit ..) (ite_keeps (hp.emit ..) rfl))

theorem Aside.readFrom (n : Nat) (endB : Bool) (first count : Nat) : p (s.readFrom n endB first count) = p s := by
  unfold State.readFrom
  split
  · rfl
  · exact ite_keeps rfl ((hp.setPort ..).trans (opt_keeps (hp.sendFrame ..)))

theorem Aside.finishSweep (n : Nat) : p (s.finishSweep n) = p s := by
  unfold State.finishSweep
  split
  · rfl
  · dsimp only
    split
    · exact ite_keeps rfl (hp.readFrom ..)
    · rfl

theorem Aside.takeChains : p s.takeChains = p s := by
  unfold State.takeChains
  refine foldl_keeps (fun u n => ?_) ..
  exact opt_keeps ((hp.finishSweep ..).trans (hp.farLost ..))

end

end Sys2Proof.Proofs
end

section
/-! PROOFS. What resets leave (R18, R127, R143, R502, R523). -/

namespace Sys2Proof.Proofs

open Sys2Proof.Machine

/-! ### The trip term outside DORMANT

A source that asserts wakes a DORMANT module alone (R128): elsewhere judging the strings keeps the mode and the program. -/

/-- The mode and the program. -/
def course (s : State) : Modes × Prog := (s.modes, s.prog)

theorem modes_of_course {s t : State} (h : course s = course t) : s.modes = t.modes := congrArg Prod.fst h

theorem prog_of_course {s t : State} (h : course s = course t) : s.prog = t.prog := congrArg Prod.snd h

/-- A projection that each step of a fold keeps where a test of it holds, the fold keeps there. -/
theorem foldl_keeps_where {α β : Type} {p : State → β} {C : β → Prop} {f : State → α → State}
    (h : ∀ s a, C (p s) → p (f s a) = p s) (l : List α) (s : State) (hs : C (p s)) : p (l.foldl f s) = p s := by
  induction l generalizing s with
  | nil => rfl
  | cons a r ih =>
    have ha := h s a hs
    exact (ih _ (ha ▸ hs)).trans ha

theorem course_tripEval (s : State) : course s.tripEval = course s :=
  (congrArg (fun u => course u) (bare_tripEval s) :)

theorem course_tripSettle {s : State} (h : s.modes.mode ≠ .dormant) : course s.tripSettle = course s :=
  (congrArg (fun u => course u) (bare_tripSettle h) :)

theorem course_judgeTone {s : State} (n : Nat) (h : s.modes.mode ≠ .dormant) : course (s.judgeTone n) = course s :=
  judgeTone_keeps (p := course) (fun _ _ _ => rfl) (fun _ _ _ => rfl)
    (fun _ hu => (course_tripSettle (modes_of_course hu ▸ h)).trans hu) n

theorem course_judgeAll {s : State} (h : s.modes.mode ≠ .dormant) : course s.judgeAll = course s :=
  foldl_keeps_where (C := fun x => x.1.mode ≠ .dormant)
    (fun _ n hu => ite_keeps (p := course) (course_judgeTone n hu) rfl) _ s h

theorem course_loadStrings (s : State) : course s.loadStrings = course s := by
  refine foldl_keeps (p := course) (fun u n => ?_) ..
  dsimp only
  refine ite_keeps (p := course) (foldl_keeps (p := course) (fun v e => ?_) ..) rfl
  exact ite_keeps (p := course) rfl rfl

theorem course_loadTrip {s : State} (a b : Bool) (h : s.modes.mode ≠ .dormant) : course (s.loadTrip a b) = course s := by
  have hev (u : State) (k : Nat) : course (u.event k) = course u := rfl
  have hite (c : Bool) (u : State) (k : Nat) : course (if c then u else u.event k) = course u := ite_keeps (p := course) rfl rfl
  have htrip (u : State) (x : Trip) : course { u with trip := x } = course u := rfl
  have hevs (c d : Bool) (u : State) (k l : Nat) :
      course (if d then (if c then u else u.event k) else (if c then u else u.event k).event l) = course u := by
    rw [apply_ite course, hev, hite, ite_self]
  have hmode {u : State} (hu : course u = course s) : u.modes.mode ≠ .dormant := by
    rwa [show u.modes = s.modes from modes_of_course hu]
  unfold State.loadTrip
  refine (course_tripEval _).trans ((htrip _ _).trans ?_)
  have hload (x : Trip) := (course_loadStrings _).trans ((hevs a b _ 0x0410 0x0411).trans (htrip s x))
  exact (course_judgeAll (hmode (hload _))).trans (hload _)

/-! ### The resets -/

theorem recoveryReset_course (at_ cause seq : Nat) (s : State) (t : Nat) (htrans : s.modes.trans = some (.toRecovery at_ cause seq))
    (hdue : at_ + 10000000 ≤ (s.tick t).now) (hseq : seq ≤ s.recd.seq) :
    ∃ u, exec (.recoveryReset t) s = .next u ∧ u.modes.mode = .recovery ∧ u.modes.role = .simplex ∧ u.modes.trans = none ∧
      u.prog.stored = s.prog.stored ∧ u.prog.loaded = none := by
  have hcause (u : State) (k : Nat) : course (u.cause k) = course u := (congrArg (fun v => course v) (cause_rest u k) :)
  have hcourse (v : State) (k a b : Bool) (h : v.modes.mode = .recovery) :
      course (((v.inRecovery k).loadTrip a b).cause causeMode) = course (v.inRecovery k) :=
    (hcause ..).trans (course_loadTrip a b (by simp [State.inRecovery, h]))
  have hmodes (v : State) (k a b : Bool) (h : v.modes.mode = .recovery) :
      (((v.inRecovery k).loadTrip a b).cause causeMode).modes = (v.inRecovery k).modes :=
    modes_of_course (hcourse v k a b h)
  have hprog (v : State) (k a b : Bool) (h : v.modes.mode = .recovery) :
      (((v.inRecovery k).loadTrip a b).cause causeMode).prog = (v.inRecovery k).prog :=
    prog_of_course (hcourse v k a b h)
  have htrans' : (s.tick t).modes.trans = some (.toRecovery at_ cause seq) := htrans
  have hdue' : ((s.tick t).now < at_ + 10000000 || (s.tick t).recd.seq < seq) = false := by
    simp [not_lt.2 hdue, hseq]
  simp only [exec_recoveryReset, execRecoveryReset, htrans', hdue', Bool.false_eq_true, if_false]
  refine ⟨_, rfl, ?_⟩
  rw [hmodes _ _ _ _ rfl, hprog _ _ _ _ rfl]
  exact ⟨rfl, rfl, rfl, rfl, rfl⟩

theorem powerDownReset_leaves (w : Nat) (s : State) (t : Nat) (hwarn : s.pwr.warn = some w) (hdue : w + 4500000 ≤ (s.tick t).now) :
    ∃ u, exec (.powerDownReset t) s = .next u ∧ u.modes.powered = false ∧ u.pwr.lostRecords = s.recd.queue.length ∧
      u.host.reqs = [] ∧ u.recd.queue = [] ∧ u.prog.stored = s.prog.stored := by
  have hwarn' : (s.tick t).pwr.warn = some w := hwarn
  simp only [exec_powerDownReset, execPowerDownReset, hwarn', if_neg (not_lt.2 hdue)]
  exact ⟨_, rfl, rfl, rfl, rfl, rfl, rfl⟩

/-- Settles O31: each reset's branch is the one its premises name; what a module reset leaves is read off its definition. -/
theorem moduleResets : Obligations.ModuleResets :=
  ⟨after_of fun s t u hu h => by simp [execModuleReset, ← hu, h],
   fun gap hgap s t hpow => by
     exact ⟨_, congrArg Host.Outcome.next (if_neg (by simp [hpow, not_lt.2 hgap])), rfl, rfl⟩,
   fun good hgood => after_of fun s t u hu h => by simp [execWinterRecovered, ← hu, h, not_lt.2 hgood],
   powerDownReset_leaves,
   fun a => after_of fun s t u hu ⟨hat, hmode, hdue⟩ => by simp [execActivateReset, ← hu, hat, hmode, not_lt.2 hdue],
   fun a => after_of fun s t u hu ⟨hheld, hmode, hdue⟩ => by simp [execLeaveRecovery, ← hu, hheld, hmode, hdue],
   recoveryReset_course,
   fun s c => by
     refine ⟨rfl, rfl, rfl, rfl, rfl, rfl, rfl, rfl, rfl, rfl, rfl, rfl, rfl, rfl, rfl, rfl, rfl, rfl, rfl⟩⟩

end Sys2Proof.Proofs
end

section
/-! PROOFS. The power-up sequence and the settling of the role (R127, R355, R585). -/

namespace Sys2Proof.Proofs

open Sys2Proof.Machine

/-- How far the role has settled. -/
def settling (s : State) : Settle := s.modes.settle

theorem settling_aside : Aside settling where
  bare h := (congrArg (fun u => settling u) h :)
  tiles _ _ := rfl
  ports _ _ := rfl
  drill _ _ := rfl
  modes _ _ _ _ _ _ _ _ := rfl

theorem settleDone_settle (s : State) : s.settleDone.modes.settle = .settled :=
  ite_keeps (p := settling) rfl ((springTiles_keeps settling_aside.tiles _).trans (settling_aside.startPorts _))

theorem keelBroughtUp_settles (s : State) (t : Nat) (hpow : s.modes.powered = true) (hmode : s.modes.mode = .startup)
    (hstep : s.modes.puStep = 3) : ∃ u, exec (.keelBroughtUp t) s = .next u ∧ u.modes.puStep = 6 ∧
      u.modes.settle = .readAlive (s.tick t).now := by
  have hfollow (u : State) : u.safetyFollow.modes = u.modes := congrArg (·.modes) (bare_safetyFollow u)
  refine ⟨_, congrArg Host.Outcome.next (if_neg (by simp [hpow, hmode, hstep])), ?_, ?_⟩ <;> rw [hfollow]

/-- Settles O32: the role settles in the branch that the link, CLAIM and the slot choose. -/
theorem powerUpAndRole : Obligations.PowerUpAndRole :=
  ⟨fun b => after_of fun s t u hu ⟨hpow, hreset, hfeed, hwarn⟩ => by
     rcases hfeed with hfeed | hfeed <;> simp [execSupplyGood, ← hu, hpow, hreset, hfeed, hwarn],
   after_of fun s t u hu ⟨hmode, hstep, hheld, hdue⟩ => by
     simp [execRecoveryKeySequence, ← hu, hmode, hstep, hheld, hdue],
   keelBroughtUp_settles,
   fun x => after_of fun s t u hu ⟨hsettle, hdue⟩ => by simp [execLeadAliveReadEnd, ← hu, hsettle, not_lt.2 hdue],
   fun x => after_of fun s t u hu ⟨hsettle, hdue⟩ => by simp [execLeadAliveReadEnd, ← hu, hsettle, not_lt.2 hdue],
   fun x => after_of fun s t u hu ⟨hsettle, hlink, hdue, hclaim, hslot⟩ => by
     simp [execRoleWaitEnd, ← hu, hsettle, hlink, not_lt.2 hdue, hclaim, hslot],
   fun x => after_of fun s t u hu ⟨hsettle, hlink, hdue, hclaim, hslot⟩ => by
     simp [execRoleWaitEnd, ← hu, hsettle, hlink, not_lt.2 hdue, hclaim, hslot],
   fun x => after_of fun s t u hu ⟨hsettle, hdue, hclaim⟩ => by
     simp [execClaimDrive, ← hu, hsettle, not_lt.2 hdue, hclaim],
   fun x => after_of fun s t u hu hsettle => by simp [execClaimSeen, ← hu, hsettle],
   after_of fun s t u hu ⟨hdrive, hdue⟩ => by simp [execClaimRelease, ← hu, hdrive, hdue],
   settleDone_settle⟩

end Sys2Proof.Proofs
end

section
/-! PROOFS. Restart and hold instants (R127, R133, R135). -/

namespace Sys2Proof.Proofs

open Sys2Proof.Machine

/-! ### The end of the work in progress of RUN -/

/-- The contactor coils are outputs of the field I/O. -/
theorem contOut_keeps {β : Type} {p : State → β} (hfio : ∀ (s : State) x, p { s with fio := x } = p s) (s : State) :
    p s.contOut = p s := by
  have hdrive (u : State) (n : Nat) (b : Option Bool) : p (u.contDrive n b) = p u := hfio ..
  have happly (u : State) (k : ContactorRun) : p (u.contApply k) = p u :=
    ite_keeps ((hdrive ..).trans ((hdrive ..).trans (opt_keeps (hdrive ..))))
      ((hdrive ..).trans (opt_keeps (hdrive ..)))
  unfold State.contOut
  refine (foldl_keeps happly ..).trans (foldl_keeps (fun u n => ?_) ..)
  exact opt_keeps' (hdrive ..)

/-- A projection that reads no part which the end of a hold, apart from the tasks' cycles, writes. -/
structure Blind {β : Type} (p : State → β) : Prop where
  settled : ∀ {s t : State}, settled s = settled t → p s = p t
  recd : ∀ (s : State) (x : Recorder), p { s with recd := x } = p s
  loops : ∀ (s : State) (x : Loops), p { s with loops := x } = p s
  ports : ∀ (s : State) (x : Tab Port), p { s with ports := x } = p s
  cells : ∀ (s : State) (x : Cells), p { s with cells := x } = p s
  fio : ∀ (s : State) (x : Fio), p { s with fio := x } = p s

section
variable {β : Type} {p : State → β} (hp : Blind p) (s : State)
include hp

theorem Blind.complete (r : Req) (status result flags : Nat) (data : Option (List Byte)) :
    p (s.complete r status result flags data) = p s := hp.settled (settled_complete ..)

theorem Blind.event (c : Nat) (d : List Nat) : p (s.event c d) = p s := hp.recd s _

theorem Blind.setLoop (l : Loop) : p (s.setLoop l) = p s := hp.loops s _

theorem Blind.applyPar (l : Loop) (rid : Nat) (q : LoopPar) (a : Nat) : p (s.applyPar l rid q a none) = p s := by
  have hpar (l : Loop) (x : LoopPar) (y : List Nat) : p (((s.setLoop l).storePar l.handle x).event 0x0803 y) = p s :=
    (hp.event ..).trans ((hp.loops (s.setLoop l) _).trans (hp.setLoop ..))
  unfold State.applyPar
  dsimp only
  split
  · exact ite_keeps ((hp.complete ..).trans (hpar ..)) (hpar ..)
  · exact hpar ..

theorem Blind.loopModeTo (l : Loop) (m : Nat) : p (s.loopModeTo l m) = p s :=
  (hp.event ..).trans ((hp.loops _ _).trans (hp.setLoop ..))

theorem Blind.holdLoops : p s.holdLoops = p s := by
  have hpars (u : State) (h : Nat) : p (match u.loop h with
      | some l => match l.parRun with | some (rid, q, _) => u.applyPar l rid q u.mt none | none => u
      | none => u) = p u := by
    split
    · split
      · exact hp.applyPar ..
      · rfl
    · rfl
  unfold State.holdLoops
  refine foldl_keeps (fun u e => ?_) ..
  dsimp only
  split
  · exact (hpars ..).trans (hpars ..)
  · refine (foldl_keeps (fun v q => ?_) ..).trans ((hp.setLoop ..).trans ((hpars ..).trans (hpars ..)))
    split
    · rfl
    · split
      · exact ite_keeps ((hp.complete ..).trans (hp.loopModeTo ..)) (hp.loopModeTo ..)
      · exact hp.loopModeTo ..

theorem Blind.balDone (rid result : Nat) : p (s.balDone rid result) = p s := by
  unfold State.balDone
  split
  · exact ite_keeps (hp.complete ..) rfl
  · rfl

theorem Blind.holdStrings : p s.holdStrings = p s := by
  unfold State.holdStrings
  refine foldl_keeps (fun u n => ?_) ..
  exact (foldl_keeps (fun _ _ => hp.balDone ..) ..).trans (hp.ports ..)

theorem Blind.setDo (n : Nat) (x : Do) : p (s.setDo n x) = p s := hp.fio s _

theorem Blind.contOut : p s.contOut = p s := contOut_keeps hp.fio s

theorem Blind.tellConts : p s.tellConts = p s := opt_keeps (hp.settled rfl)

theorem Blind.contRestart : p s.contRestart = p s := by
  unfold State.contRestart
  refine (hp.tellConts _).trans ((hp.contOut _).trans ((hp.cells ..).trans (foldl_keeps (fun u e => ?_) ..)))
  exact opt_keeps' (hp.event ..)

theorem Blind.contTake (cs : List Contactor) (crc : BitVec 32) : p (s.contTake cs crc) = p s :=
  (hp.event ..).trans ((hp.tellConts _).trans ((hp.contOut _).trans (hp.cells ..)))

theorem Blind.contHold : p s.contHold = p s := by
  unfold State.contHold
  refine (foldl_keeps (fun u w => ?_) ..).trans (hp.cells ..)
  dsimp only
  split
  · exact ite_keeps ((hp.complete ..).trans (hp.contTake ..)) (hp.contTake ..)
  · exact hp.contTake ..

end

/-- The cycle that each task has in hand. -/
def cycles (s : State) (n : Nat) : Option Cyc := (s.task n).cyc

theorem cycles_blind : Blind cycles where
  settled h := (congrArg (fun u => cycles u) h :)
  recd _ _ := rfl
  loops _ _ := rfl
  ports _ _ := rfl
  cells _ _ := rfl
  fio _ _ := rfl

theorem cycles_prog (s : State) (x : Prog) (h : x.tasks = s.prog.tasks) : cycles { s with prog := x } = cycles s := by
  funext n
  exact congrArg (fun m => (tget m n {}).cyc) h

theorem put_cyc (t : Task) (h : BitVec 32) (b : List Byte) : (t.put h b).cyc = t.cyc := by
  unfold Task.put
  dsimp only
  split <;> rfl

theorem cycles_applySet (s : State) (o : OcSet) (n a : Nat) : cycles (s.applySet o n a).1 = cycles s := by
  have hput (u : State) (h : BitVec 32) (b : List Byte) : cycles (u.setTask n ((u.task n).put h b)) = cycles u := by
    funext m
    by_cases hm : m = n
    · simp [cycles, hm, put_cyc]
    · simp [cycles, hm]
  exact (cycles_blind.event ..).trans ((foldl_keeps (fun _ _ => cycles_blind.event ..) ..).trans
    (foldl_keeps (fun _ _ => hput ..) ..))

theorem cycles_applyWhole (s : State) (o : OcSet) : cycles (s.applyWhole o) = cycles s := by
  have hsets (l : List Nat) (x : State × OcSet) :
      cycles (l.foldl (fun (x : State × OcSet) n => x.1.applySet x.2 n s.mt) x).1 = cycles x.1 := by
    induction l generalizing x with
    | nil => rfl
    | cons n r ih => exact (ih _).trans (cycles_applySet ..)
  have hcommit (u : State) (ns : List Nat) : cycles (u.commitTasks ns) = cycles u := by
    unfold State.commitTasks
    split
    · rfl
    · refine foldl_keeps (fun u _ => ?_) ..
      exact cycles_prog u _ rfl
  have hdone (u : State) (q : OcSet) : cycles (u.setDone q) = cycles u := by
    unfold State.setDone
    split
    · exact ite_keeps (cycles_blind.complete ..) rfl
    · rfl
  exact (hdone ..).trans ((hcommit ..).trans (hsets o.left (s, o)))

/-- At a hold every set of an online change is applied whole. -/
theorem holdSets_keeps {β : Type} {p : State → β} (happly : ∀ u o, p (State.applyWhole u o) = p u)
    (hsets : ∀ (u : State) x y, p { u with prog := { u.prog with running := x, waiting := y } } = p u) (s : State) :
    p s.holdSets = p s := by
  have hrun (u : State) (x : List OcSet) : p { u with prog := { u.prog with running := x } } = p u := hsets u x u.prog.waiting
  have hwait (u : State) (x : List OcSet) : p { u with prog := { u.prog with waiting := x } } = p u := hsets u u.prog.running x
  unfold State.holdSets
  dsimp only
  rw [foldl_keeps happly, hwait, foldl_keeps happly, hrun]

theorem cycles_holdSets (s : State) : cycles s.holdSets = cycles s :=
  holdSets_keeps cycles_applyWhole (fun u _ _ => cycles_prog u _ rfl) s

/-- The work in progress of RUN is abandoned: no task has a cycle in hand. -/
theorem holdWork_cyc (s : State) (n : Nat) : (s.holdWork.task n).cyc = none := by
  have hkeep (u : State) : cycles u.holdLoops.holdStrings.contHold.holdSets = cycles u := by
    rw [cycles_holdSets, cycles_blind.contHold, cycles_blind.holdStrings, cycles_blind.holdLoops]
  change cycles s.holdWork n = none
  unfold State.holdWork
  rw [hkeep]
  exact congrArg Task.cyc (tget_tmap (fun _ (tk : Task) => { tk with cyc := none }) _ _ _ rfl)

/-! ### The restart instant -/

theorem course_blind : Blind course where
  settled h := (congrArg (fun u => course u) h :)
  recd _ _ := rfl
  loops _ _ := rfl
  ports _ _ := rfl
  cells _ _ := rfl
  fio _ _ := rfl

theorem restartInstant_runs (p : Nat) (i : Image) (s : State) (t : Nat) (hplan : s.modes.rstPlanned = some p)
    (hload : s.prog.loaded = some i) (hmode : s.modes.mode = .startup) (htrans : s.modes.trans = none)
    (hdue : p ≤ (s.tick t).mt) :
    ∃ u, exec (.restartInstant t) s = .next u ∧ u.modes.mode = .run ∧ u.prog.loaded = some i ∧ u.prog.anchor = p ∧
      u.modes.rstMt = p ∧ u.modes.rstPlanned = none ∧ u.modes.rstCount = (s.modes.rstCount + 1) % 65536 ∧
      u.modes.rstKind = (if s.modes.planWarm then 1 else 0) := by
  have hplan' : (s.tick t).modes.rstPlanned = some p := hplan
  have hload' : (s.tick t).prog.loaded = some i := hload
  have hmode' : (s.tick t).modes.mode = .startup := hmode
  have htrans' : (s.tick t).modes.trans = none := htrans
  have hrun (u : State) (c : Nat) (d : List Nat) (h : u.modes.mode = .run) :
      course ((u.contRestart.tripSettle).event c d) = course u := by
    have hcont := course_blind.contRestart u
    rw [course_blind.event, course_tripSettle (by rw [modes_of_course hcont, h]; decide), hcont]
  simp only [exec_restartInstant, execRestartInstant, hplan', hload', hmode', htrans']
  refine ⟨_, congrArg Host.Outcome.next (if_neg (by simp [hdue])), ?_⟩
  dsimp only [Option.bind_none]
  have hset (v : State) : (v.setMode .run 13).modes.mode = .run := by simp
  rw [modes_of_course (hrun ..), prog_of_course (hrun ..)]
  · exact ⟨hset _, (congrArg Prog.loaded (setMode_prog ..)).trans hload, rfl, rfl, rfl, rfl, rfl⟩
  · exact hset _
  · exact hset _

theorem notAdmitted_holds (s : State) : s.notAdmitted.modes.mode = .hold ∧ s.notAdmitted.modes.cause = 7 ∧
    s.notAdmitted.prog.admitted = false ∧ s.notAdmitted.loops.loops = [] := by
  unfold State.notAdmitted State.startFails
  dsimp only
  split <;> simp

theorem planRestart_modes (s : State) (w f : Bool) (x : Nat) :
    (s.planRestart w f x).modes = { s.modes with rstPlanned := some x, planWarm := w, planFallback := f } :=
  ite_keeps (p := State.modes) rfl rfl

/-! ### Starting -/

theorem startSequenceComplete_of_admitted (x : Nat) (w : Bool) (i : Image) : After (.startSequenceComplete · true x)
    (fun u => u.starting = some (true, w) ∧ u.prog.stored = some i ∧ u.warmOk i ∧ ((u.loadProgram i w).admission i) = none ∧
      u.modes.role ≠ .follow ∧ u.mt + 50000 ≤ x)
    (fun u => (u.loadProgram i w).admitted.planRestart w false x) :=
  after_of fun s t u hu ⟨hstart, hstored, hwarm, hadm, hrole, hdue⟩ => by
    simp [execStartSequenceComplete, ← hu, hstart, hstored, hwarm, hadm, State.restartInstant, hrole, not_lt.2 hdue]

theorem startSequenceComplete_of_refused (x : Nat) (w : Bool) (i : Image) : After (.startSequenceComplete · true x)
    (fun u => u.starting = some (true, w) ∧ u.prog.stored = some i ∧ u.warmOk i ∧ ((u.loadProgram i w).admission i).isSome)
    (fun u => (((u.loadProgram i w).admission i).getD u).notAdmitted) :=
  after_of fun s t u hu ⟨hstart, hstored, hwarm, hadm⟩ => by
    obtain ⟨v, hv⟩ := Option.isSome_iff_exists.1 hadm
    simp [execStartSequenceComplete, ← hu, hstart, hstored, hwarm, hv]

/-- Settles O33: a start that runs, one that is refused, and the instants at which RUN and HOLD begin. -/
theorem restartAndHoldInstants : Obligations.RestartAndHoldInstants :=
  ⟨fun s w rid c hmode hplan htiles htrans => by simp [State.starting, hmode, hplan, htiles, htrans],
   fun ok x => after_of fun s t u hu ⟨hstart, hstored⟩ => by
     obtain ⟨⟨run, warm⟩, hst⟩ := Option.isSome_iff_exists.1 hstart
     simp [execStartSequenceComplete, ← hu, hst, hstored],
   startSequenceComplete_of_admitted, startSequenceComplete_of_refused, planRestart_modes, notAdmitted_holds,
   restartInstant_runs,
   fun cause task a => after_of fun s t u hu ⟨htrans, hready, hmode⟩ => by
     simp [execHoldInstant, ← hu, htrans, hready, hmode],
   fun cause task rid r a => after_of fun s t u hu ⟨htrans, hready, hmode, hfind⟩ => by
     simp [execHoldInstant, ← hu, htrans, hready, hmode, hfind],
   fun s a => ⟨by simp [State.holdReady], fun h => by simp [State.holdReady, h]⟩,
   fun s c n => by simp,
   holdWork_cyc⟩

end Sys2Proof.Proofs
end

section
/-! PROOFS. The pair in step (R351, R352, R359 to R363). -/

namespace Sys2Proof.Proofs

open Sys2Proof.Machine

theorem bare_hostLinkFrom (s : State) (was : Bool) : bare (s.hostLinkFrom was) = bare s :=
  ite_keeps (p := bare) rfl (ite_keeps (p := bare) (ite_keeps (p := bare) ((bare_setHelm ..).trans rfl) rfl) rfl)

theorem bare_partnerHost (s : State) (up : Bool) : bare (s.partnerHost up) = bare s := (bare_hostLinkFrom ..).trans rfl

theorem partnerHost_twin (s : State) (up : Bool) : (s.partnerHost up).twin = s.twin :=
  (congrArg (fun u => u.twin) (bare_partnerHost s up) :)

theorem partnerHost_modes (s : State) (up : Bool) : (s.partnerHost up).modes = s.modes :=
  (congrArg (fun u => u.modes) (bare_partnerHost s up) :)

/-- A digest of a follower in step that differs starts a self-test. -/
theorem digestCompare_of_differs (kind : DigestKind) (id : Nat) (lead : BitVec 64) (s : State) (t : Nat)
    (e : DigestKind × Nat × BitVec 64)
    (hfind : s.twin.digests.find? (fun d => kindCode d.1 == kindCode kind && d.2.1 == id) = some e)
    (hrole : s.modes.role = .follow) (hstep : s.twin.inStep = true) (hdiff : e.2.2 ≠ lead) (hex : s.twin.exActive = false) :
    ∃ u, exec (.digestCompare t kind id lead) s = .next u ∧ u.twin.selfTest = some (s.tick t).now ∧
      u.twin.digestMismatch = satInc s.twin.digestMismatch ∧ u.out = .mirror .selfTest :: s.out := by
  have hfind' : (s.tick t).twin.digests.find? (fun d => kindCode d.1 == kindCode kind && d.2.1 == id) = some e := hfind
  simp only [exec_digestCompare, execDigestCompare, hfind']
  exact ⟨_, congrArg Host.Outcome.next (if_neg (by simp [hrole, hstep, hdiff, hex])), rfl, rfl, rfl⟩

theorem selfTestDone_of_follower (own partner : Bool) : After (.selfTestDone · own partner)
    (fun u => (∃ a, u.twin.selfTest = some a ∧ a + 50000 ≤ u.now) ∧ u.modes.role = .follow)
    (fun u =>
      let v := ({ u with twin := { u.twin with selfTest := none } }).event 0x0606 [b2n own, b2n partner]
      if own then (if partner then v.yield 10 else v) else v.yield 5) :=
  after_of fun s t u hu ⟨⟨a, htest, hdue⟩, hrole⟩ => by
    simp [execSelfTestDone, ← hu, htest, hdue, hrole]

/-- In RECOVERY the twin link that comes up shows a partner, and the module stays apart from it. -/
theorem twinLinkUp_of_recovery (lanes : BitVec 4) (p : Partner) (s : State) (t : Nat) (hdown : s.twinUp = false)
    (hup : ({ s with twin := { s.twin with lanes := lanes } } : State).twinUp = true) (hpow : s.modes.powered = true)
    (hmode : s.modes.mode = .recovery) :
    ∃ u, exec (.twinLinkUp t lanes p) s = .next u ∧ u.twin.lanes = lanes ∧ u.twin.partnerSerial = p.serial ∧
      u.twin.everUp = true ∧ u.modes.partner = true ∧ u.modes.detached = true := by
  have hpow' : (!(s.tick t).modes.powered) = false := by simp [hpow]
  have hdown' : ((s.tick t).twinUp || !({ s.tick t with twin := { (s.tick t).twin with lanes := lanes } } : State).twinUp) = false := by
    simpa using ⟨hdown, hup⟩
  have hmode' : (s.tick t).modes.mode = .recovery := hmode
  simp only [exec_twinLinkUp, execTwinLinkUp, hpow', hdown', Bool.false_eq_true, if_false, partnerHost_modes,
    State.event_modes, hmode']
  refine ⟨_, rfl, ?_⟩
  dsimp only
  rw [partnerHost_twin]
  exact ⟨rfl, rfl, rfl, rfl, rfl⟩

/-- Settles O36: each frame or check of the pair takes the branch its premises name. -/
theorem pairInStep : Obligations.PairInStep :=
  ⟨digestCompare_of_differs, selfTestDone_of_follower,
   fun g ch d hd => after_of fun s t u hu ⟨hrole, hdet⟩ => by simp [execReadbackDiff, ← hu, hrole, hdet, hd],
   fun lane => after_of fun s t u hu h => by simp only [exec_laneDown, execLaneDown, ← hu, h, if_true],
   fun p h3 h4 h6 => after_of fun s t u hu ⟨hup, hsame⟩ => by
     simp [execHeartbeatReceive, ← hu, hup, hsame, h3, h4, h6],
   twinLinkUp_of_recovery,
   fun m l => after_of fun s t u hu ⟨hlive, hup⟩ => by simp [execMirrorReceive, ← hu, hlive, hup, State.goodFrame]⟩

end Sys2Proof.Proofs
end

section
/-! PROOFS. Equinox and drills (R366 to R372). -/

namespace Sys2Proof.Proofs

open Sys2Proof.Machine

/-! ### Boundaries -/

theorem le_ceilDiv_mul (a : Nat) {b : Nat} (h : 0 < b) : a ≤ ceilDiv a b * b := by
  have := Nat.div_add_mod (a + (b - 1)) b
  have := Nat.mod_lt (a + (b - 1)) h
  rw [ceilDiv, Nat.mul_comm]
  omega

theorem ceilDiv_mul_lt (a : Nat) {b : Nat} (h : 0 < b) : ceilDiv a b * b < a + b := by
  have := Nat.div_mul_le_self (a + (b - 1)) b
  unfold ceilDiv
  omega

theorem ceilDiv_le {a b k : Nat} (hb : 0 < b) (h : a ≤ k * b) : ceilDiv a b ≤ k := by
  refine Nat.le_of_lt_succ ((Nat.div_lt_iff_lt_mul hb).2 ?_)
  rw [Nat.succ_mul]
  omega

/-- Outside RUN a boundary is a whole millisecond. -/
theorem boundary_of_not_run (s : State) (x : Nat) (h : s.modes.mode ≠ .run) :
    s.boundary x % 1000000 = 0 ∧ x ≤ s.boundary x ∧ s.boundary x < x + 1000000 := by
  have hb : s.boundary x = ceilDiv x 1000000 * 1000000 := by
    unfold State.boundary
    split
    · contradiction
    · rfl
  rw [hb]
  exact ⟨Nat.mul_mod_left .., le_ceilDiv_mul x (by decide), ceilDiv_mul_lt x (by decide)⟩

/-- In RUN a boundary is the first harvest of the first task from then on. -/
theorem boundary_of_run (s : State) (x : Nat) (i : Image) (d : TaskDef) (hmode : s.modes.mode = .run)
    (hload : s.prog.loaded = some i) (htask : i.tasks.head? = some d) (hper : 0 < d.period) :
    let h := s.prog.anchor + d.harvestNs
    let b := s.boundary x
    (∃ k, b = h + k * (d.period * 10000)) ∧ x ≤ b ∧ ∀ k, x ≤ h + k * (d.period * 10000) → b ≤ h + k * (d.period * 10000) := by
  intro h b
  have hb : b = h + ceilDiv (x - h) (d.period * 10000) * (d.period * 10000) := by
    simp [b, h, State.boundary, State.harvestFrom, hmode, hload, htask]
  have hpos : 0 < d.period * 10000 := by omega
  have hle := le_ceilDiv_mul (x - h) hpos
  refine ⟨⟨_, hb⟩, by omega, fun k hk => ?_⟩
  have hceil : ceilDiv (x - h) (d.period * 10000) ≤ k := ceilDiv_le hpos (by omega)
  rw [hb]
  exact Nat.add_le_add_left (Nat.mul_le_mul_right _ hceil) h

/-! ### The swap -/

theorem le_of_any_lt {o : Option Nat} {n k a : Nat} (h : o.any (fun a => n < a + k) = false) (ha : o = some a) :
    a + k ≤ n := by
  simpa [ha] using h

theorem not_swapBusy (s : State) (h : s.swapBusy = false) : s.twin.syncActive = false ∧ s.twin.exActive = false ∧
    s.twin.drilling = false ∧ s.twin.partnerRole ≠ 3 ∧ ∀ a, s.twin.lastTakeover = some a → a + 1000000000 ≤ s.now := by
  obtain ⟨hruns, htake⟩ := Bool.or_eq_false_iff.1 h
  unfold State.swapRuns at hruns
  simp only [Bool.or_eq_false_iff, beq_eq_false_iff_ne] at hruns
  obtain ⟨⟨⟨⟨⟨-, hex⟩, hdrill⟩, -⟩, hsync⟩, hrole⟩ := hruns
  exact ⟨hsync, hex, hdrill, hrole, fun a ha => le_of_any_lt htake ha⟩

theorem loadStages_twin (s : State) : s.loadStages.twin = s.twin := by
  refine foldl_keeps (p := State.twin) (fun u n => ?_) ..
  rfl

theorem windowClaim_twin (s : State) : s.windowClaim.twin.claimDrive = true ∧ s.windowClaim.twin.claimAt = s.now ∧
    s.windowClaim.twin.aliveDrive = !s.twin.aliveLatched :=
  ⟨rfl, rfl, congrArg (fun w : Twin => !w.aliveLatched) (loadStages_twin s)⟩

theorem equinoxInstant_opens (q : Equinox) : After .equinoxInstant
    (fun u => u.twin.equinox = some q ∧ q.windowOpen = false ∧ q.e ≤ u.mt ∧ u.twin.exchange = none)
    (fun u => { u.holdOuts with twin := { u.twin with equinox := some { q with windowOpen := true } } }) :=
  after_of fun s t u hu ⟨heq, hopen, hdue, hex⟩ => by
    have htwin : u.holdOuts.twin = u.twin := rfl
    simp [execEquinoxInstant, ← hu, heq, hopen, not_lt.2 hdue, htwin, hex]

/-- At the end of the window the old lead follows. -/
theorem oldLead_follows (s : State) (q : Equinox) (hex : s.twin.exchange = none) (hrid : q.rid = none) : let u := s.oldLead q
    u.modes.role = .follow ∧ u.twin.aliveDrive = false ∧ u.twin.equinox = none ∧ u.twin.swapCause = q.cause ∧
    u.twin.swapMt = q.e + 50000 := by
  have hend (u : State) (op st res fl : Nat) : u.endReq none op st res fl = u := rfl
  simp [State.oldLead, hrid, hend, State.swapDone, hex]

/-- What the end of the window leaves of the pair: the role, and the twin link's state apart from the drill's counts. -/
def paired (s : State) : Role × Twin := (s.modes.role, { s.twin with drill := {} })

theorem paired_aside : Aside paired where
  bare h := (congrArg (fun u => paired u) h :)
  tiles _ _ := rfl
  ports _ _ := rfl
  drill _ _ := rfl
  modes _ _ _ _ _ _ _ _ := rfl

theorem newLead_leads (s : State) (q : Equinox) (hcause : q.cause ≠ 7) (hrid : q.rid = none) : let u := s.newLead q
    u.modes.role = .lead ∧ u.twin.checking = !q.reverse ∧ u.twin.equinox = none ∧ u.twin.swapCause = q.cause ∧
    u.twin.swapMt = q.e + 50000 := by
  have hend (u : State) (op st res fl : Nat) : u.endReq none op st res fl = u := rfl
  have hset (v : State) : paired (v.setRole .lead).takeChains = paired { v with modes := { v.modes with role := .lead } } :=
    (paired_aside.takeChains _).trans (setRole_keeps (p := paired) paired_aside.bare (fun _ _ => rfl) v _)
  have hu : ∃ v : State, paired (s.newLead q) = paired { v with modes := { v.modes with role := .lead } } ∧
      v.twin.checking = !q.reverse ∧ v.twin.equinox = none ∧ v.twin.swapCause = q.cause ∧ v.twin.swapMt = q.e + 50000 := by
    simp only [State.newLead, hrid, hend, bne_iff_ne, ne_eq, hcause, not_false_eq_true, if_true]
    exact ⟨_, hset _, rfl, rfl, rfl, rfl⟩
  obtain ⟨v, hv, hcheck, heq, hc, hmt⟩ := hu
  have htwin := congrArg Prod.snd hv
  exact ⟨congrArg Prod.fst hv, (congrArg Twin.checking htwin).trans hcheck, (congrArg Twin.equinox htwin).trans heq,
    (congrArg Twin.swapCause htwin).trans hc, (congrArg Twin.swapMt htwin).trans hmt⟩

theorem drillDue_of_blocked (k : Nat) : After .drillDue
    (fun u => u.drillIsDue ∧ u.drillBlocked = some k ∧ u.twin.drillPostponed = none)
    (fun u => ({ u with twin := { u.twin with drillDue := true, drillPostponed := some u.now } }).event 0x060A [k]) :=
  after_of fun s t u hu ⟨hdue, hblock, hpost⟩ => by simp [execDrillDue, ← hu, hdue, hblock, hpost]

/-- Settles O37: the instants of a swap in order, then the drills. -/
theorem equinoxAndDrill : Obligations.EquinoxAndDrill :=
  ⟨answers_of_onReq (fun _ _ => rfl) fun s r _ ⟨hbusy, haux⟩ => by simp [hbusy, haux],
   answers_of_onReq (fun _ _ => rfl) fun s r _ ⟨hbusy, hlead⟩ => by simp [hbusy, hlead],
   answers_of_onReq (fun _ _ => rfl) fun s r _ ⟨hbusy, hlead⟩ => by simp [hbusy, hlead],
   answers_of_onReq (fun _ _ => rfl) fun s r _ ⟨hbusy, hlead⟩ => by simp [hbusy, hlead],
   fun _ _ _ _ => ⟨rfl, rfl⟩,
   boundary_of_not_run, boundary_of_run, not_swapBusy, equinoxInstant_opens,
   fun q => after_of fun s t u hu ⟨heq, hopen, hclaim, hrole, hdue⟩ => by
     simp [execEquinoxClaim, ← hu, heq, hopen, hclaim, hrole, not_lt.2 hdue],
   windowClaim_twin,
   fun q => after_of fun s t u hu ⟨heq, hopen, hdue, hrole⟩ => by
     simp [execEquinoxWindowEnd, ← hu, heq, hopen, hrole, not_lt.2 hdue],
   fun q => after_of fun s t u hu ⟨heq, hopen, hdue, hrole⟩ => by
     simp [execEquinoxWindowEnd, ← hu, heq, hopen, hrole, not_lt.2 hdue],
   oldLead_follows, newLead_leads,
   after_of fun s t u hu ⟨hdue, hblock⟩ => by simp [execDrillDue, ← hu, hdue, hblock],
   drillDue_of_blocked,
   fun a k => after_of fun s t u hu ⟨hpost, hblock, hdue⟩ => by
     simp [execDrillPostponed, ← hu, hpost, hblock, not_lt.2 hdue],
   fun terminal => after_of fun s t u hu ⟨hcheck, hrole, hfail, hover⟩ => by
     simp [execDrillCheck, ← hu, hcheck, hrole, hfail, hover],
   fun terminal k => after_of fun s t u hu ⟨hcheck, hrole, hfail⟩ => by
     simp [execDrillCheck, ← hu, hcheck, hrole, hfail],
   fun _ _ _ => ⟨rfl, rfl, rfl, rfl⟩,
   fun _ _ => ⟨_, rfl, rfl, rfl, rfl⟩⟩

end Sys2Proof.Proofs
end

section
/-! PROOFS. DETACH of a DORMANT lead (R128, R372). -/

namespace Sys2Proof.Proofs

open Sys2Proof.Machine

/-- DETACH, ready. -/
def detachReq : Req := { rid := 0, opcode := 0x0105, phase := .ready }

/-- A DORMANT lead that wakes on a trip, whose watchdog source asserts at the next evaluation, with a chain on port 0. -/
def dormantLead : State :=
  { State.reset with
    host := { State.reset.host with reqs := [detachReq] }
    modes := { State.reset.modes with mode := .dormant, role := .lead, settle := .settled, wakeOnTrip := true }
    cells := { State.reset.cells with plan := some { ports := [{}] } }
    trip := { State.reset.trip with loaded := true, watchdog := true } }

theorem dormantLead_ready : dormantLead.ready 0 0x0105 detachReq := ⟨rfl, rfl, rfl, rfl⟩

/-- DETACH takes the far end of the chain, which settles the trip term, and the source that asserts wakes the module. -/
theorem detach_wakes (v : State) (h : exec (.detach 0) dormantLead = .next v) : v.modes.mode = .hold := by
  have hmode : (match exec (.detach 0) dormantLead with | .next u => u.modes.mode | _ => .dormant) = .hold := by
    decide +kernel
  rwa [h] at hmode

/-- Refutes O38: its first clause says that DETACH leaves the mode of any lead; a DORMANT one can wake in the same
command, since taking the far ends of the chains settles the trip term. -/
theorem not_joinAndExchange : ¬ Obligations.JoinAndExchange := by
  intro h
  obtain ⟨hdetach, -⟩ := h
  obtain ⟨v, hexec, -, -, -, hmode⟩ := hdetach dormantLead 0 detachReq dormantLead_ready rfl rfl rfl
  have hdormant : v.modes.mode = .dormant := hmode
  exact absurd ((detach_wakes v hexec).symm.trans hdormant) (by decide)

end Sys2Proof.Proofs
end

section
/-! PROOFS. Tile power, reset and counters (R36 to R39, R47) and the ramps (R504 to R510). -/

namespace Sys2Proof.Proofs

open Sys2Proof.Machine

/-! ### The end of a drain -/

theorem inOrder_eq_nil {α : Type} {key : α → Claim} {xs : List α} (h : inOrder key xs = []) : xs = [] := by
  rcases List.eq_nil_or_concat xs with hnil | ⟨ys, x, rfl⟩
  · exact hnil
  · simp [inOrder] at h

theorem retract_tiles (s : State) (n : Nat) : (s.retract n).tiles = s.tiles := by
  refine (foldl_keeps (p := State.tiles) (fun u x => ?_) ..).trans rfl
  split
  · exact congrArg (·.tiles) (settled_complete ..)
  · rfl

theorem cancelOwn_tiles (s : State) (n : Nat) : (s.cancelOwn n).tiles = s.tiles := by
  refine (foldl_keeps (p := State.tiles) (fun u e => ?_) ..).trans (foldl_keeps (p := State.tiles) (fun u d => ?_) ..) <;> rfl

/-- The end of a drain resets the die under the next epoch, with what was under way counted as retracted. -/
theorem drainEnd_resets (die : Fin 8) (n f : Nat) (s : State) (t : Nat) (hdie : die ≠ 0) (hpres : s.diePresent die.val = true)
    (hfence : (s.tile die.val).fencedAt = some f) (hdue : (n = 0 ∧ s.atDie die.val = []) ∨ f + 10000 ≤ (s.tick t).now) :
    ∃ u, exec (.drainEnd t die n) s = .next u ∧ (u.tile die.val).state = .reset ∧ (u.tile die.val).fencedAt = none ∧
      (u.tile die.val).epoch = ((s.tile die.val).epoch + 1) % 256 ∧
      (u.tile die.val).retracted =
        min 0xFFFFFFFF ((s.tile die.val).retracted + (s.fabric.filter (fun x => x.die == die.val)).length + n) := by
  have hfence' : ((s.tick t).tile die.val).fencedAt = some f := hfence
  have hover : ¬ (die.val = 0 || !((s.tick t).diePresent die.val) || ((s.tick t).now < f + 10000 &&
      n + ((s.tick t).fabric.filter (fun x => x.die == die.val)).length != 0)) = true := by
    have hpres' : (s.tick t).diePresent die.val = true := hpres
    have hzero : die.val ≠ 0 := fun h => hdie (Fin.ext h)
    rcases hdue with ⟨rfl, hat⟩ | hdue
    · have hfab : (s.tick t).fabric.filter (fun x => x.die == die.val) = [] := inOrder_eq_nil hat
      simp only [hfab]
      simp [hpres', hzero]
    · simp [hpres', hzero, not_lt.2 hdue]
  have htile (m : Nat) : (((s.tick t).retract m).cancelOwn m).tile m = s.tile m := by
    unfold State.tile
    rw [cancelOwn_tiles, retract_tiles]
    rfl
  simp only [exec_drainEnd, execDrainEnd, hfence', if_neg hover]
  refine ⟨_, rfl, ?_⟩
  simp only [State.setTile_tile, htile, if_true]
  exact ⟨trivial, trivial, trivial, rfl⟩

/-- Settles O39: each command's branch is the one its premises name; the end of a drain leaves the die's other counts. -/
theorem tilePowerAndReset : Obligations.TilePowerAndReset :=
  ⟨answers_of_onReq (fun _ _ => rfl) fun s r _ ⟨hpres, hoff⟩ => by
     by_cases h : bits r.aux.toNat 0 2 = 2 <;> simp_all [State.tileDenied],
   answers_of_onReq (fun _ _ => rfl) fun s r _ ⟨hpres, hoff, hload, hmode⟩ => by
     simp [hpres, hoff, State.tileDenied, hload, hmode],
   answers_of_onReq (fun _ _ => rfl) fun s r _ h => by simp [h],
   answers_of_onReq (fun _ _ => rfl) fun s r _ ⟨hpres, hfree⟩ => by
     rcases hfree with hfree | hfree <;> simp [hpres, State.tileDenied, hfree],
   answers_of_onReq (fun _ _ => rfl) fun s r _ ⟨hpres, hmode, hload⟩ => by simp [hpres, State.tileDenied, hmode, hload],
   drainEnd_resets,
   fun die e hdie => after_of fun s t u hu ⟨hpres, hepoch⟩ => by
     simp [execStaleReply, ← hu, hpres, hepoch, hdie],
   fun die hdie => after_of fun s t u hu h => by simp [execCorrectedLinkError, ← hu, h, hdie]⟩

/-! ### Ramps -/

theorem startSpring_of_gated {s : State} {n : Nat} (h : (s.tile n).state = .gated) :
    s.startSpring n = s.setTile n { s.tile n with state := .spring, div := 0, pll := false, stepAt := s.now, dwell := s.clk.dwell } := by
  simp [State.startSpring, h]

theorem startAutumn_of_on {s : State} {n : Nat} (h : (s.tile n).state = .on) :
    s.startAutumn n = s.setTile n { s.tile n with state := .autumn, div := 2, stepAt := s.now, dwell := s.clk.dwell } := by
  simp [State.startAutumn, h]

theorem autumnRamp_of_idle (die : Fin 8) (next : Option Nat) (hdie : die ≠ 0) : After (.autumnRamp · die next)
    (fun u => u.diePresent die.val ∧ (u.tile die.val).state = .on ∧ u.modes.mode ≠ .startup ∧ u.dieBusy die.val = false ∧
      (u.tile die.val).policy = 0 ∧ u.nextDue die.val = next ∧ (∀ due, next = some due → u.mt + 2 * u.wakeLead ≤ due))
    (fun u => u.setTile die.val { u.tile die.val with state := .autumn, div := 2, stepAt := u.now, dwell := u.clk.dwell }) :=
  after_of fun s t u hu ⟨hpres, hon, hmode, hbusy, hpol, hnext, hdue⟩ => by
    have hgate : u.mayGate die.val = true := by
      cases next with
      | none => simp [State.mayGate, hmode, hbusy, hpol, hnext]
      | some d => simp [State.mayGate, hmode, hbusy, hpol, hnext, hdue d rfl]
    simp [execAutumnRamp, ← hu, hpres, hon, hnext, hgate, hdie, startAutumn_of_on hon]

/-- Settles O40: a ramp begins where its tile may run, and each step takes the branch of its state and divider. -/
theorem ramps : Obligations.Ramps :=
  ⟨fun die due hdie => after_of fun s t u hu ⟨hpres, hrun, hpol, hnext, hdue, hgated⟩ => by
     simp [execSpringRamp, ← hu, hpres, hrun, hpol, hnext, hdue, hdie, startSpring_of_gated hgated],
   fun die hdie => after_of fun s t u hu ⟨hpres, hrun, hpol, hgated⟩ => by
     simp [execAsyncWake, ← hu, hpres, hrun, hpol, hdie, startSpring_of_gated hgated],
   autumnRamp_of_idle,
   fun die => after_of fun s t u hu ⟨hspring, hpll⟩ => by simp [execPllLocked, ← hu, hspring, hpll],
   fun die busy =>
     ⟨after_of fun s t u hu ⟨hdue, hspring, hrun, hpll, hdiv⟩ => by
        simp [execRampStep, ← hu, not_lt.2 hdue, hspring, hrun, hpll, hdiv],
      after_of fun s t u hu ⟨hdue, hspring, hrun, hpll, hdiv⟩ => by
        simp [execRampStep, ← hu, not_lt.2 hdue, hspring, hrun, hpll, not_le.2 hdiv],
      after_of fun s t u hu ⟨hdue, hautumn, hdiv⟩ => by simp [execRampStep, ← hu, not_lt.2 hdue, hautumn, hdiv]⟩⟩

end Sys2Proof.Proofs
end

section
/-! PROOFS. The clock monitor (R512 to R516). -/

namespace Sys2Proof.Proofs

open Sys2Proof.Machine

/-! ### The windows and the references in use -/

theorem windowOk_iff (s : State) (n : Nat) :
    (s.windowOk 0 n = true ↔ 774 ≤ n ∧ n ≤ 789) ∧ (s.windowOk 2 n = true ↔ 3032 ≤ n ∧ n ≤ 3218) ∧
    (s.cfg.ee.refFreq = false → (s.windowOk 1 n = true ↔ 310 ≤ n ∧ n ≤ 315)) ∧
    (s.cfg.ee.refFreq = true → (s.windowOk 1 n = true ↔ 774 ≤ n ∧ n ≤ 789)) := by
  refine ⟨?_, ?_, fun h => ?_, fun h => ?_⟩ <;> simp_all [State.windowOk]

theorem refInUse_iff (s : State) (r : Nat) : s.refInUse r = true ↔
    s.clk.source = r ∨ ∃ n, 1 ≤ n ∧ n < 8 ∧ s.diePresent n = true ∧ (s.tile n).src = r := by
  simp only [State.refInUse, Bool.or_eq_true, beq_iff_eq, List.any_eq_true, List.mem_range, Bool.and_eq_true, bne_iff_ne, ne_eq]
  refine or_congr_right (exists_congr fun n => ?_)
  rw [Nat.one_le_iff_ne_zero]
  tauto

/-- The references in use whose counts are outside their windows. -/
def badRefs (s : State) (a b c : Nat) : List (Nat × Nat) :=
  [(0, a), (1, b), (2, c)].filter (fun (r, n) => s.refInUse r && !(s.windowOk r n))

theorem clockMonitorWindow_eq {t : Nat} (a b c : Nat) {s u : State} (hu : u = s.tick t) (hpow : u.modes.powered = true)
    (hreset : u.modes.inReset = false) : exec (.clockMonitorWindow t a b c) s = .next (
      if (badRefs u a b c).isEmpty then
        match (u.judgeWindows a b).wantedSource with
        | some w => (u.judgeWindows a b).plannedSwitch w
        | none => u.judgeWindows a b
      else ((badRefs u a b c).foldl (fun (st : State) (x : Nat × Nat) => st.clockFailed x.1 x.2) (u.judgeWindows a b)).diagnose
        .clock) := by
  subst hu
  exact congrArg Host.Outcome.next (if_neg (by rw [hpow, hreset]; decide))

theorem clockMonitorWindow_of_good (a b c : Nat) : After (.clockMonitorWindow · a b c)
    (fun u => u.modes.powered ∧ u.modes.inReset = false ∧
      ∀ x ∈ [(0, a), (1, b), (2, c)], u.refInUse x.1 = true → u.windowOk x.1 x.2 = true)
    (fun u => match (u.judgeWindows a b).wantedSource with
      | some w => (u.judgeWindows a b).plannedSwitch w
      | none => u.judgeWindows a b) := after_of fun s t u hu ⟨hpow, hreset, hgood⟩ => by
  have hbad : badRefs u a b c = [] := List.filter_eq_nil_iff.2 fun x hx => by simpa using hgood x hx
  rw [clockMonitorWindow_eq a b c hu hpow hreset, hbad]
  rfl

/-- One reference that fails is the one whose failure is handled. -/
theorem badRefs_of_one {s : State} {a b c r n : Nat} (hx : (r, n) ∈ [(0, a), (1, b), (2, c)]) (huse : s.refInUse r = true)
    (hbad : s.windowOk r n = false)
    (hrest : ∀ x ∈ [(0, a), (1, b), (2, c)], x.1 ≠ r → s.refInUse x.1 = true → s.windowOk x.1 x.2 = true) :
    badRefs s a b c = [(r, n)] := by
  have h0 := hrest (0, a) (by simp)
  have h1 := hrest (1, b) (by simp)
  have h2 := hrest (2, c) (by simp)
  simp only [List.mem_cons, Prod.mk.injEq, List.not_mem_nil, or_false] at hx
  rcases hx with ⟨rfl, rfl⟩ | ⟨rfl, rfl⟩ | ⟨rfl, rfl⟩ <;> simp_all [badRefs]

theorem clockMonitorWindow_of_bad (a b c r n : Nat) (hx : (r, n) ∈ [(0, a), (1, b), (2, c)]) :
    After (.clockMonitorWindow · a b c)
    (fun u => u.modes.powered ∧ u.modes.inReset = false ∧ u.refInUse r ∧ u.windowOk r n = false ∧
      ∀ x ∈ [(0, a), (1, b), (2, c)], x.1 ≠ r → u.refInUse x.1 = true → u.windowOk x.1 x.2 = true)
    (fun u => ((u.judgeWindows a b).clockFailed r n).diagnose .clock) := after_of fun s t u hu ⟨hpow, hreset, huse, hbad, hrest⟩ => by
  rw [clockMonitorWindow_eq a b c hu hpow hreset, badRefs_of_one hx huse hbad hrest]
  rfl

theorem judgeWindows_int25 (s : State) (a b : Nat) :
    (s.windowOk 0 a = false → (s.judgeWindows a b).clk.int25Ok = false ∧ (s.judgeWindows a b).clk.int25Run = 0) ∧
    (s.windowOk 0 a = true → ((s.judgeWindows a b).clk.int25Ok = true ↔ s.clk.int25Ok = true ∨ 15 ≤ s.clk.int25Run)) := by
  have hite (p : Prop) [Decidable p] (u : State) (k : Nat) : (if p then u.event k else u).clk = u.clk := by
    split_ifs <;> rfl
  unfold State.judgeWindows
  dsimp only
  rw [hite]
  refine ⟨fun h => by simp [h], fun h => ?_⟩
  simp only [h, if_true, Bool.true_and, Bool.or_eq_true, beq_iff_eq]
  refine or_congr_right ?_
  omega

theorem wantedSource_of_int25 (s : State) (hint : s.onInternal = false) (hsrc : s.clk.source = 0) :
    s.wantedSource = if s.clk.refCtrl.getLsbD 0 && s.cfg.ee.refPresent && s.clk.refJudged && s.clk.refOk then some 1
      else none := by
  simp [State.wantedSource, hint, hsrc]

/-! ### What a switch of the clock leaves alone -/

/-- Settling the clocks writes FALLBACK and the clock's trip source, and then settles the trip term. -/
theorem clockSettle_keeps {β : Type} {p : State → β}
    (hwrite : ∀ (u : State) x y, p { u with clk := { u.clk with fallback := x }, trip := { u.trip with clockFail := y } } = p u)
    {s : State} (htrip : ∀ u, u.modes = s.modes → p (State.tripSettle u) = p u) : p s.clockSettle = p s := by
  refine ite_keeps ((htrip _ ?_).trans (hwrite s _ _)) (hwrite s _ _)
  rfl

theorem clockSettle_of_internal {s : State} (h : s.clk.source = 2) :
    s.clockSettle = { s with clk := { s.clk with fallback := true } } := by
  have hint : s.onInternal = true := by simp [State.onInternal, h]
  simp [State.clockSettle, hint]

theorem startAutumn_keeps {β : Type} {p : State → β} (htile : ∀ u n x, p (State.setTile u n x) = p u) (s : State) (n : Nat) :
    p (s.startAutumn n) = p s := by
  unfold State.startAutumn
  dsimp only
  split
  · exact htile ..
  · exact ite_keeps (htile ..) (htile ..)
  · rfl

/-- A tile that switches takes its source, is counted and recorded, and then the clocks settle. -/
theorem tileSwitched_settles {β : Type} {p : State → β}
    (hcount : ∀ (u : State) x, p { u with clk := { u.clk with switches := x } } = p u)
    (hevent : ∀ u k d, p (State.event u k d) = p u) (s : State) (n src : Nat) :
    ∃ u, s.tileSwitched n src = u.clockSettle ∧ p u = p (s.setTile n { s.tile n with src := src, switchTo := none }) :=
  ⟨_, rfl, (opt_keeps (hevent ..)).trans (hcount ..)⟩

theorem tileSwitched_keeps {β : Type} {p : State → β} (htile : ∀ u n x, p (State.setTile u n x) = p u)
    (hcount : ∀ (u : State) x, p { u with clk := { u.clk with switches := x } } = p u)
    (hevent : ∀ u k d, p (State.event u k d) = p u) {s : State} (hsettle : ∀ u, p u = p s → p (State.clockSettle u) = p s)
    (n src : Nat) : p (s.tileSwitched n src) = p s := by
  obtain ⟨u, hu, hp⟩ := tileSwitched_settles hcount hevent s n src
  rw [hu]
  exact hsettle u (hp.trans (htile ..))

/-- The fall back on INTERNAL switches the keel and then the tiles of the reference that failed, and settles the clocks. -/
theorem fallBack_settles {β : Type} {p : State → β} (htile : ∀ u n x, p (State.setTile u n x) = p u)
    (hevent : ∀ u k d, p (State.event u k d) = p u)
    {s : State} {b : β} {old : Nat}
    (hkeel : p { s with clk := { s.clk with
      source := if s.clk.source == old then 2 else s.clk.source
      switches := min 0xFFFFFFFF (s.clk.switches + if s.clk.source == old then 2 else 0) } } = b)
    (hswitch : ∀ u n, p u = b → p (State.tileSwitched u n 2) = b) : ∃ u, p u = b ∧ s.fallBack old = u.clockSettle := by
  refine ⟨_, ?_, rfl⟩
  refine ((foldl_keeps_where (C := (· = b)) (fun u n hu => ?_) _ _ ((hevent ..).trans hkeel)).trans
    ((hevent ..).trans hkeel))
  have hauto : p (u.startAutumn n) = b := (startAutumn_keeps htile u n).trans hu
  refine Eq.trans ?_ hu.symm
  dsimp only
  split
  · exact ite_keeps (hswitch _ _ hauto) ((htile ..).trans hauto)
  · exact ite_keeps (hswitch _ _ hauto) ((htile ..).trans hauto)
  · exact ite_keeps (hswitch _ _ hauto) ((htile ..).trans hauto)
  · exact hswitch _ _ hu

/-! ### The failure of a reference -/

theorem clk_aside : Aside State.clk where
  bare h := (congrArg (fun u => u.clk) h :)
  tiles _ _ := rfl
  ports _ _ := rfl
  drill _ _ := rfl
  modes _ _ _ _ _ _ _ _ := rfl

theorem clockFail_aside : Aside (fun s : State => s.trip.clockFail) where
  bare h := (congrArg (fun u => u.trip.clockFail) h :)
  tiles _ _ := rfl
  ports _ _ := rfl
  drill _ _ := rfl
  modes _ _ _ _ _ _ _ _ := rfl

/-- A failure is marked, recorded and told before the clock falls back. -/
theorem clockFailed_eq (s : State) (r n : Nat) : ∃ v : State, s.clockFailed r n = (if r = 2 then v else v.fallBack r) ∧
    v.clk = { s.clk with failed := true } ∧ v.trip.clockFail = true ∧ (.nonMaskable :: s.out) <:+ v.out :=
  ⟨_, rfl, clk_aside.tripSettle _, clockFail_aside.tripSettle _,
    (State.tripSettle_keeps _ (State.event_keeps _ _ _ (Keeps.refl (s.emit .nonMaskable)).upd)).sent⟩

theorem clockFailed_failed (s : State) (r n : Nat) :
    (s.clockFailed r n).clk.failed = true ∧ (.nonMaskable :: s.out) <:+ (s.clockFailed r n).out := by
  obtain ⟨v, hv, hclk, -, hout⟩ := clockFailed_eq s r n
  have hfail : v.clk.failed = true := congrArg Clk.failed hclk
  have hsettle (u : State) : u.clockSettle.clk.failed = u.clk.failed :=
    clockSettle_keeps (p := fun u => u.clk.failed) (fun _ _ _ => rfl) (fun u _ => congrArg Clk.failed (clk_aside.tripSettle u))
  have hswitch (u : State) (m : Nat) (h : u.clk.failed = true) : (u.tileSwitched m 2).clk.failed = true :=
    (tileSwitched_keeps (p := fun u => u.clk.failed) (fun _ _ _ => rfl) (fun _ _ => rfl) (fun _ _ _ => rfl)
      (fun v hv => (hsettle v).trans hv) m 2).trans h
  obtain ⟨u, hu, hfall⟩ := fallBack_settles (p := fun u => u.clk.failed) (b := true) (fun _ _ _ => rfl) (fun _ _ _ => rfl)
    (old := r) (s := v) hfail hswitch
  rw [hv]
  refine ⟨ite_keeps (p := fun u => u.clk.failed) hfail ?_, hout.trans ?_⟩
  · rw [hfall]
    exact (hsettle u).trans hu
  · split_ifs
    · exact List.suffix_refl _
    · exact (State.fallBack_keeps v r (.refl v)).sent

/-- The source of the keel, and the clock's trip source. -/
def keel (s : State) : Nat × Bool := (s.clk.source, s.trip.clockFail)

theorem clockFailed_fallsBack (s : State) (r n : Nat) (hr : r < 2) (hsrc : s.clk.source = r) : let u := s.clockFailed r n
    u.clk.source = 2 ∧ u.clk.fallback = true ∧ u.trip.clockFail = true := by
  obtain ⟨v, hv, hclk, hfail, -⟩ := clockFailed_eq s r n
  have hsettle (u : State) (h : keel u = (2, true)) : u.clockSettle = { u with clk := { u.clk with fallback := true } } :=
    clockSettle_of_internal (congrArg Prod.fst h)
  have hswitch (u : State) (m : Nat) (h : keel u = (2, true)) : keel (u.tileSwitched m 2) = (2, true) :=
    (tileSwitched_keeps (p := keel) (fun _ _ _ => rfl) (fun _ _ => rfl) (fun _ _ _ => rfl)
      (fun v hv => by rw [hsettle v (hv.trans h)]; exact hv) m 2).trans h
  have hsource : v.clk.source = r := (congrArg Clk.source hclk).trans hsrc
  obtain ⟨u, hu, hfall⟩ := fallBack_settles (p := keel) (b := (2, true)) (fun _ _ _ => rfl) (fun _ _ _ => rfl)
    (old := r) (s := v) (by simp [keel, hsource, hfail]) hswitch
  intro w
  have hw : w = { u with clk := { u.clk with fallback := true } } := by
    rw [← hsettle u hu, ← hfall]
    exact hv.trans (if_neg (by omega))
  rw [hw]
  exact ⟨congrArg Prod.fst hu, rfl, congrArg Prod.snd hu⟩

/-! ### A clock that stops -/

theorem stoppedClock_keel (s : State) (t : Nat) (hpow : s.modes.powered = true) (hreset : s.modes.inReset = false)
    (hpres : s.diePresent 0 = true) (hsrc : s.clk.source ≠ 2) :
    ∃ u, exec (.stoppedClock t 0) s = .next u ∧ u.clk.source = 2 ∧ u.clk.forced = true := by
  have hgo : ¬ ((!(s.tick t).modes.powered || (s.tick t).modes.inReset || !((s.tick t).diePresent (0 : Fin 8).val)) = true) := by
    simp [hpow, hreset, show (s.tick t).diePresent 0 = true from hpres]
  refine ⟨_, congrArg Host.Outcome.next ((if_neg hgo).trans ((if_pos rfl).trans (if_neg hsrc))), ?_⟩
  rw [clockSettle_of_internal rfl]
  exact ⟨rfl, rfl⟩

theorem tileSwitched_tile {s : State} (h : s.modes.mode ≠ .dormant) (n src : Nat) :
    (s.tileSwitched n src).tile n = { s.tile n with src := src, switchTo := none } := by
  have htrip (u : State) (hu : u.modes = s.modes) : u.tripSettle.tiles = u.tiles :=
    (congrArg (fun v => v.tiles) (bare_tripSettle (hu ▸ h)) :)
  have hsettle (u : State) (hu : u.modes = s.modes) : u.clockSettle.tile n = u.tile n :=
    clockSettle_keeps (p := fun u => u.tile n) (fun _ _ _ => rfl)
      (fun v hv => congrArg (fun x : Tab Tile => tget x n {}) (htrip v (hv.trans hu)))
  obtain ⟨u, hu, hp⟩ := tileSwitched_settles (p := fun u => (u.modes, u.tile n)) (fun _ _ => rfl) (fun _ _ _ => rfl) s n src
  rw [hu, hsettle u (congrArg Prod.fst hp)]
  exact (congrArg Prod.snd hp).trans ((State.setTile_tile ..).trans (if_pos rfl))

/-- A tile that the stopped clock switches has its new source, and keeps its ramp. -/
theorem forcedTile_switched {s v : State} {n : Nat} (hv : v.modes = s.modes) (hmode : s.modes.mode ≠ .dormant)
    (hstate : (v.tile n).state = .spring) (hdiv : (v.tile n).div = 16) (src : Nat) :
    let w := v.tileSwitched n src
    let u := ({ w with clk := { w.clk with forced := true } } : State).event 0x0103 [n]
    (u.tile n).state = .spring ∧ (u.tile n).div = 16 ∧ (u.tile n).src = src ∧ (u.tile n).switchTo = none ∧
      u.clk.forced = true := by
  intro w u
  have hu : u.tile n = { v.tile n with src := src, switchTo := none } :=
    (State.event_tile ..).trans (tileSwitched_tile (hv ▸ hmode) n src)
  rw [hu]
  exact ⟨hstate, hdiv, rfl, rfl, congrArg Clk.forced (State.event_clk ..)⟩

theorem stoppedClock_tile (die : Fin 8) (s : State) (t : Nat) (hdie : die ≠ 0) (hrun : s.tilesRun = true)
    (hpres : s.diePresent die.val = true) (hdiv : (s.tile die.val).div ≠ 0)
    (hsrc : (s.tile die.val).src ≠ (s.tile die.val).switchTo.getD 2) :
    ∃ u, exec (.stoppedClock t die) s = .next u ∧ (u.tile die.val).state = .spring ∧ (u.tile die.val).div = 16 ∧
      (u.tile die.val).src = (s.tile die.val).switchTo.getD 2 ∧ (u.tile die.val).switchTo = none ∧ u.clk.forced = true := by
  have hrun' : (s.tick t).tilesRun = true := hrun
  have hpres' : (s.tick t).diePresent die.val = true := hpres
  obtain ⟨⟨⟨hpow, hreset⟩, hmode⟩, -⟩ : ((s.modes.powered = true ∧ s.modes.inReset = false) ∧ s.modes.mode ≠ .dormant) ∧
      s.modes.mode ≠ .recovery := by simpa [State.tilesRun] using hrun
  have hevent (c : Prop) [Decidable c] (u : State) (d : List Nat) : (if c then u.event 0x0101 d else u).modes = u.modes ∧
      (if c then u.event 0x0101 d else u).tile die.val = u.tile die.val := 
    ⟨opt_keeps (p := State.modes) (State.event_modes ..), opt_keeps (p := fun u => u.tile die.val) (State.event_tile ..)⟩
  have hlive : ¬ (!(s.tick t).modes.powered || (s.tick t).modes.inReset || !((s.tick t).diePresent die.val)) = true := by
    simp [hpow, hreset, hpres']
  have hzero : ¬ die.val = 0 := Fin.val_ne_of_ne hdie
  have hgo : ¬ (((s.tick t).tile die.val).div = 0 || ((s.tick t).tile die.val).src =
      ((s.tick t).tile die.val).switchTo.getD 2) = true := by
    simpa using ⟨hdiv, hsrc⟩
  simp only [exec_stoppedClock, execStoppedClock, if_neg hlive, if_neg hzero, if_neg hgo, if_pos hrun']
  refine ⟨_, rfl, ?_⟩
  refine forcedTile_switched (s := s) ?_ hmode ?_ ?_ _
  · exact (hevent ..).1.trans (State.setTile_modes ..)
  · rw [(hevent ..).2, State.setTile_tile, if_pos rfl]
  · rw [(hevent ..).2, State.setTile_tile, if_pos rfl]

/-- Settles O41: the window's failures, the switch that each one forces, and the trial of REFCLK. -/
theorem clockMonitor : Obligations.ClockMonitor :=
  ⟨clockMonitorWindow_of_good, clockMonitorWindow_of_bad, windowOk_iff, refInUse_iff, judgeWindows_int25, clockFailed_failed,
   clockFailed_fallsBack,
   fun s hint href => by simp_all [State.wantedSource],
   wantedSource_of_int25,
   after_of fun s t u hu ⟨hpow, hreset, hpres, hsrc⟩ => by simp [execStoppedClock, ← hu, hpow, hreset, hpres, hsrc],
   stoppedClock_keel, stoppedClock_tile,
   after_of fun s t u hu ⟨hpow, hdone, hjudged, hfail, href, hen, hdue⟩ => by
     simp_all [execRefclkDelayExpiry]⟩

end Sys2Proof.Proofs
end

section
/-! PROOFS. RTC, backup domain and alarm (R524 to R533). -/

namespace Sys2Proof.Proofs

open Sys2Proof.Machine

theorem rtcCheck_of_close (d : Int) (hd : d.natAbs < 500000000) : After (.rtcCheck · d)
    (fun u => u.clk.valid ∧ u.rtc.lastCheck + 60000000000 ≤ u.now)
    (fun u => { u with rtc := { u.rtc with
      lastCheck := u.now, base := ((u.mt : Int) - mt2000 + d).toNat, baseAt := u.now } }) :=
  after_of fun s t u hu ⟨hvalid, hdue⟩ => by
    simp only [exec_rtcCheck, execRtcCheck, ← hu, hvalid, decide_eq_false (not_lt.2 hdue), Bool.not_true, Bool.or_self,
      Bool.false_eq_true, if_false, if_neg (not_le.2 hd)]

/-- The loss of the backup rail clears the RTC, the backup memory and the alarm, and nothing else. -/
theorem backupLost_clears (mv dur : Nat) (s : State) (t : Nat) (hmv : mv < 1600) (hdur : 1000 ≤ dur) :
    ∃ u, exec (.backupLost t mv dur) s = .next u ∧ u = { s.tick t with rtc := u.rtc } ∧ u.rtc.backupLost = true ∧
      u.rtc.osf = true ∧ u.rtc.bkup = [] ∧ u.rtcNs = 0 ∧ u.rtc.alarmBuf = zeros 16 :=
  ⟨_, congrArg Host.Outcome.next (if_neg (by simp [not_le.2 hmv, not_lt.2 hdur])), rfl, rfl, rfl, rfl,
    by simp [State.rtcNs], rfl⟩

/-- An alarm that is hit while the module is off is marked in the backup domain alone. -/
theorem alarmFire_of_off (s : State) (t : Nat) : let u := s.tick t
    bit (rd s.rtc.alarmBuf 7 1) 0 = true → u.rtcSub = 0 → alarmHit s.rtc.alarmBuf u.rtcCivil = true →
    s.rtc.alarmFired ≠ some (u.rtcNs / 1000000000) → s.modes.powered = false →
    ∃ v, exec (.alarmFire t) s = .next v ∧ v.rtc.alarm = true ∧ v.rtc.alarmFired = some (u.rtcNs / 1000000000) ∧
      v = { u with rtc := v.rtc } := by
  intro u hen hsub hhit hnew hoff
  have hfires : ¬ (!bit (rd u.rtc.alarmBuf 7 1) 0 || u.rtcSub != 0 || !alarmHit u.rtc.alarmBuf u.rtcCivil ||
      u.rtc.alarmFired == some (u.rtcNs / 1000000000)) = true := by
    have hbuf : u.rtc = s.rtc := rfl
    simp [hbuf, hen, hsub, hhit, hnew]
  have hpow : (!u.modes.powered) = true := by
    have hmodes : u.modes = s.modes := rfl
    simp [hmodes, hoff]
  refine ⟨_, congrArg Host.Outcome.next ((if_neg hfires).trans (if_pos hpow)), rfl, rfl, rfl⟩

/-- Settles O44: each command of the backup domain takes the branch its premises name. -/
theorem rtcAndAlarm : Obligations.RtcAndAlarm :=
  ⟨fun s t _ => rfl, rtcCheck_of_close,
   fun c hc => after_of fun s t u hu ⟨hstaged, hdue⟩ => by
     simp only [exec_rtcCommit, execRtcCommit, ← hu, hstaged, if_neg (not_le.2 hdue), hc, if_true],
   fun c hc => after_of fun s t u hu ⟨hstaged, hdue⟩ => by
     simp only [exec_rtcCommit, execRtcCommit, ← hu, hstaged, if_neg (not_le.2 hdue), hc, Bool.false_eq_true, if_false],
   backupLost_clears,
   fun gap hgap => after_of fun s t u hu _ => by
     simp only [exec_osf, execOsf, ← hu, if_neg (not_lt.2 hgap)],
   answers_of_onReq (fun _ _ => rfl) fun s r _ h => by simp [h],
   answers_of_onReq (fun _ _ => rfl) fun s r _ ⟨hwake, hvar⟩ => by simp [hwake, hvar],
   alarmFire_of_off,
   fun a => after_of fun s t u hu ⟨hout, hdue⟩ => by
     simp only [exec_wakeTimeout, execWakeTimeout, ← hu, hout, if_neg (not_lt.2 hdue)]⟩

end Sys2Proof.Proofs
end

section
/-! PROOFS. Task cycles: latch, speculation, harvest, warning and watchdog (R150 to R165). -/

namespace Sys2Proof.Proofs

open Sys2Proof.Machine

/-! ### Latches -/

theorem cycleStart_of_follower (task : Fin 64) (d : TaskDef) (img : Mem) (s : State) (t : Nat) :
    let u := (s.tick t).harvestDue none
    u.taskDef task.val = some d → u.runsTasks = true → u.modes.role = .follow →
    u.cycleAt d (u.task task.val).nextN ≤ u.mt → (u.task task.val).cyc = none → u.tileWaits d.die = false →
    (u.task task.val).mirrored = some ((u.task task.val).nextN, img) →
    exec (.cycleStart t task) s = .next ((u.syncForces task.val 0).latch d (u.task task.val)
      (u.cycleAt d (u.task task.val).nextN) img (u.task task.val).mirrorLat) := by
  intro u hdef hruns hrole hdue hcyc htile hmirror
  simp [execCycleStart, u, hdef, hruns, hrole, not_lt.2 hdue, hcyc, htile, hmirror]

theorem cycleStart_of_simplex (task : Fin 64) (d : TaskDef) (s : State) (t : Nat) :
    let u := (s.tick t).harvestDue none
    u.taskDef task.val = some d → u.runsTasks = true → u.modes.role = .simplex → u.leadsPair = false →
    u.cycleAt d (u.task task.val).nextN ≤ u.mt → (u.task task.val).cyc = none → u.tileWaits d.die = false →
    exec (.cycleStart t task) s = .next ((u.syncForces task.val 0).latch d (u.task task.val)
      (u.cycleAt d (u.task task.val).nextN)
      ((u.syncForces task.val 0).acquire (u.cycleAt d (u.task task.val).nextN) d (u.task task.val)) 0) := by
  intro u hdef hruns hrole hpair hdue hcyc htile
  have hpair' : (u.syncForces task.val 0).leadsPair = false := hpair
  simp [execCycleStart, u, hdef, hruns, hrole, hpair', not_lt.2 hdue, hcyc, htile]

/-- A latch on a task without a cycle in hand starts a cycle on the forced image. -/
theorem latch_of_idle (s : State) (d : TaskDef) (tk : Task) (st : Nat) (raw : Mem) (lat : Nat) (h : tk.cyc = none) :
    let u := s.latch d tk st raw lat
    (u.task d.task).cyc = some { freshCycle d tk tk.nextN st (s.forceOver d.task 0 raw) false with lat := lat } ∧
    (u.task d.task).nextN = tk.nextN + 1 ∧ (u.task d.task).img = s.forceOver d.task 0 raw := by
  simp [State.latch, h]

theorem speculationStart_of_room (task : Fin 64) (d : TaskDef) (i : Image) : After (.speculationStart · task)
    (fun u => u.prog.loaded = some i ∧ u.taskDef task.val = some d ∧ u.runsTasks ∧ d.horizon ≠ 0 ∧
      (u.task task.val).nextN ≠ 0 ∧ (u.task task.val).cyc = none ∧ u.mt < u.cycleAt d (u.task task.val).nextN ∧
      u.cycleAt d (u.task task.val).nextN ≤ u.mt + d.horizon * d.period * 100 ∧
      u.coreWaits i d (freshCycle d (u.task task.val) (u.task task.val).nextN
        (u.cycleAt d (u.task task.val).nextN) (u.task task.val).img true) = false)
    (fun u => u.setTask task.val { u.task task.val with cyc := some (freshCycle d (u.task task.val) (u.task task.val).nextN
      (u.cycleAt d (u.task task.val).nextN) (u.task task.val).img true) }) :=
  after_of fun s t u hu ⟨hload, hdef, hruns, hhor, hnext, hcyc, hahead, hroom, hcore⟩ => by
    simp [execSpeculationStart, ← hu, hload, hdef, hruns, hhor, hnext, hcyc, not_le.2 hahead, not_lt.2 hroom, hcore]

/-- A fresh cycle starts at its entry, with an empty call stack, the task's variables, and the stack pointer alone set. -/
theorem freshCycle_starts (d : TaskDef) (tk : Task) (n st : Nat) (img : Mem) (sp : Bool) : let c := freshCycle d tk n st img sp
    c.n = n ∧ c.start = st ∧ c.spec = sp ∧ c.pc = d.entry ∧ c.img = img ∧ c.sp.stk = [] ∧ c.sp.var = tk.sp.var ∧
    c.reg 30 = BitVec.ofNat 64 d.stkSize ∧ (∀ r, r ≠ 30 → c.reg r = 0) ∧ (∀ p, p ≠ 0 → c.pred p = false) := by
  intro c
  refine ⟨rfl, rfl, rfl, rfl, rfl, rfl, rfl, rfl, fun r hr => ?_, fun p hp => ?_⟩
  · have hne : r.toNat ≠ 30 := fun h => hr (BitVec.eq_of_toNat_eq h)
    have hget : tget c.regs r.toNat 0 = 0 := by
      rw [show c.regs = tset [] 30 (BitVec.ofNat 64 d.stkSize) from rfl, tget_tset, if_neg hne]
      rfl
    unfold Cyc.reg
    split_ifs
    · rfl
    · exact hget
  · have hpreds : c.preds = 0 := rfl
    simp [Cyc.pred, hpreds, hp]

/-! ### Harvests -/

theorem harvestAt_of_due (s : State) (d : TaskDef) (c : Cyc) (hcyc : (s.task d.task).cyc = some c) (hspec : c.spec = false)
    (hdue : c.start + d.harvestNs ≤ s.mt) : s.harvestAt d = some (c.start + d.harvestNs) := by
  simp [State.harvestAt, hcyc, hspec, not_lt.2 hdue]

/-- The one task of a program is harvested alone. -/
theorem harvestDue_of_one {s : State} {up : Option Nat} {i : Image} {d : TaskDef} {hp : Nat} (hload : s.prog.loaded = some i)
    (htasks : i.tasks = [d]) (hup : up = none ∨ up = some d.task) (hruns : s.runsTasks = true) (hat : s.harvestAt d = some hp) :
    s.harvestDue up = s.harvestOne i d := by
  have hdue : s.dueHarvests i = [(hp, d)] := by simp [State.dueHarvests, htasks, hat, insertHarvest]
  rcases hup with rfl | rfl <;> simp [State.harvestDue, hload, hruns, hdue]

theorem harvestDue_outcome (s : State) (up : Option Nat) (i : Image) (d : TaskDef) (c : Cyc) (hload : s.prog.loaded = some i)
    (htasks : i.tasks = [d]) (hup : up = none ∨ up = some d.task) (hruns : s.runsTasks = true)
    (hcyc : (s.task d.task).cyc = some c) (hspec : c.spec = false) (hdue : c.start + d.harvestNs ≤ s.mt) :
    (c.done = true → s.tileWaits d.die = false → s.harvestDue up = s.harvest i d c (c.start + d.harvestNs)) ∧
    (c.done = false → c.start + d.harvestNs + c.lat ≤ s.mt →
      s.harvestDue up = (s.drawCharge d c).2.watchdogTrip d.task (s.drawCharge d c).1) := by
  have hat := harvestAt_of_due s d c hcyc hspec hdue
  rw [harvestDue_of_one hload htasks hup hruns hat]
  exact ⟨fun hdone htile => by simp [State.harvestOne, hcyc, hat, hdone, htile],
    fun hdone hlate => by simp [State.harvestOne, hcyc, hat, hdone, not_lt.2 hlate]⟩

/-! ### The watchdog -/

theorem cycles_aside : Aside cycles where
  bare h := (congrArg (fun u => cycles u) h :)
  tiles _ _ := rfl
  ports _ _ := rfl
  drill _ _ := rfl
  modes _ _ _ _ _ _ _ _ := rfl

theorem cycles_stationHold (s : State) (cause task : Nat) : cycles (s.stationHold cause task) = cycles s := by
  have habandon (u : State) : cycles u.abandonTrans = cycles u := by
    unfold State.abandonTrans
    dsimp only
    split
    · rfl
    · exact (cycles_aside.complete ..).trans rfl
  have hbegin (u : State) (b : Nat) : cycles (u.beginHold cause task none b) = cycles u :=
    ite_keeps (p := cycles) rfl rfl
  have hfault (u : State) : cycles (u.faultHold cause task) = cycles u := by
    unfold State.faultHold
    split
    · rfl
    · rfl
    · exact ite_keeps (p := cycles) ((hbegin ..).trans (habandon _)) (habandon _)
  exact (hfault _).trans (opt_keeps (p := cycles) rfl)

theorem watchdogTrip_cyc (s : State) (n q : Nat) : ((s.watchdogTrip n q).task n).cyc = none := by
  have htrip (u : State) (x : Trip) : cycles { u with trip := x } = cycles u := rfl
  change cycles (s.watchdogTrip n q) n = none
  unfold State.watchdogTrip
  dsimp only
  rw [cycles_stationHold, cycles_aside.tripSettle, htrip, cycles_aside.event]
  simp [cycles]

/-- Settles O45: latch, speculation, harvest and watchdog, each in the branch its premises name. -/
theorem cycleEvents : Obligations.CycleEvents :=
  ⟨cycleStart_of_follower, cycleStart_of_simplex, latch_of_idle, speculationStart_of_room,
   fun task q d c => after_of fun s t u hu ⟨hdef, hcyc, hruns, hspec, hwarn, hdone, hq⟩ => by
     simp [execBudgetWarning, ← hu, hdef, hcyc, hruns, hspec, hwarn, hdone, not_lt.2 hq],
   fun task q d c => after_of fun s t u hu ⟨hdef, hcyc, hruns, hspec, hdone, hq⟩ => by
     simp [execWatchdogTrip, ← hu, hdef, hcyc, hruns, hspec, hdone, not_lt.2 hq],
   fun task d hp => after_of fun s t u hu ⟨hdef, hat⟩ => by simp [execHarvestPoint, ← hu, hdef, hat],
   harvestAt_of_due, harvestDue_outcome, freshCycle_starts, watchdogTrip_cyc⟩

end Sys2Proof.Proofs
end

section
/-! PROOFS. Program, forces, variables and their subscriptions (R141, R170 to R191). -/

namespace Sys2Proof.Proofs

open Sys2Proof.Machine

/-! ### Loading and changing the program -/

/-- A request that goes on running keeps everything but the request itself and the fabric. -/
theorem settled_running (s : State) (rid : Nat) : settled (s.running rid) = settled s := by
  unfold State.running State.mirrorReq
  dsimp only
  split
  · split_ifs <;> rfl
  · rfl

theorem running_prog (s : State) (rid : Nat) : (s.running rid).prog = s.prog :=
  (congrArg (fun u => u.prog) (settled_running s rid) :)

theorem running_modes (s : State) (rid : Nat) : (s.running rid).modes = s.modes :=
  (congrArg (fun u => u.modes) (settled_running s rid) :)

theorem imageStatus_of_good {s : State} {b : List Byte} {i : Image} (hauth : s.imageAuth b = true)
    (hpres : s.imagePresent i = true) : s.imageStatus b i = 0 := by
  simp [State.imageStatus, hauth, hpres]

/-- With no set in hand a set that waits in RUN starts at once. -/
theorem startSets_of_one {s : State} (o : OcSet) (hrun : s.prog.running = [])
    (hmode : s.modes.mode = .run) : ({ s with prog := { s.prog with waiting := [o] } } : State).startSets =
      { s with prog := { s.prog with waiting := [], running := [o] } } := by
  simp [State.startSets, hrun, hmode]

theorem onlineChange_of_run : Answers .onlineChange 0x0203
    (fun s r => s.badEntry .change (varEntries r.buf) = none ∧ s.modes.mode = .run ∧ s.prog.running = [] ∧ s.prog.waiting = [])
    (fun s r =>
      let es := varEntries r.buf
      let o : OcSet := { rid := r.rid, entries := es, acc := s.accMt r
                         left := (es.map (fun e => handleTask e.handle)).eraseDups }
      let u := s.running r.rid
      { u with prog := { u.prog with running := [o] } }) :=
  answers_of_onReq (fun _ _ => rfl) fun s r _ ⟨hbad, hmode, hrun, hwait⟩ => by
    have hmode' : (s.running r.rid).modes.mode = .run := (congrArg Modes.mode (running_modes ..)).trans hmode
    have hrun' : (s.running r.rid).prog.running = [] := (congrArg Prog.running (running_prog ..)).trans hrun
    have hwait' : (s.running r.rid).prog.waiting = [] := (congrArg Prog.waiting (running_prog ..)).trans hwait
    simp only [hbad, hmode, hwait', bne_self_eq_false, Bool.false_eq_true, if_false, List.filter_nil, List.nil_append,
      List.foldl_nil]
    exact startSets_of_one _ hrun' hmode'

/-! ### Forces -/

/-- Every force that stood or was set stands afterwards, within the limit of the table. -/
theorem addForces_stand (acc : Nat) (fs : List Force) (es : List VarEntry) (gs : List Force) (h : addForces acc fs es = some gs)
    (k : BitVec 32) (w : Nat) : gs.length ≤ 1024 ∧
    ((∃ f ∈ fs, f.handle = k ∧ f.width = w) ∨ (∃ e ∈ es, e.handle = k ∧ e.width = w) →
      ∃ g ∈ gs, g.handle = k ∧ g.width = w) := by
  induction es generalizing fs with
  | nil =>
    simp only [addForces, Option.ite_none_right_eq_some, Option.some.injEq] at h
    obtain ⟨hlen, rfl⟩ := h
    exact ⟨hlen, fun hk => by simpa using hk⟩
  | cons e r ih =>
    simp only [addForces] at h
    split at h
    · exact absurd h (by simp)
    · obtain ⟨hlen, hstand⟩ := ih _ h
      refine ⟨hlen, fun hk => hstand ?_⟩
      by_cases he : e.handle = k ∧ e.width = w
      · exact .inl ⟨_, List.mem_append_right _ (List.mem_singleton_self _), he⟩
      · rcases hk with ⟨f, hf, hfk⟩ | ⟨g, hg, hgk⟩
        · refine .inl ⟨f, List.mem_append_left _ (List.mem_filter.2 ⟨hf, ?_⟩), hfk⟩
          obtain ⟨rfl, rfl⟩ := hfk
          simp only [Bool.not_eq_true', Bool.and_eq_false_iff, beq_eq_false_iff_ne]
          by_contra hne
          push Not at hne
          exact he ⟨hne.1.symm, hne.2.symm⟩
        · rcases List.mem_cons.1 hg with rfl | hg
          · exact absurd hgk he
          · exact .inr ⟨g, hg, hgk⟩

theorem forcesChanged_forces (s : State) (hs : List (BitVec 32)) : (s.forcesChanged hs).prog.forces = s.prog.forces := by
  refine ite_keeps (p := fun u => u.prog.forces) rfl ?_
  unfold State.commitTasks
  split
  · rfl
  · refine foldl_keeps (p := fun u => u.prog.forces) (fun u d => ?_) ..
    rfl

theorem forceRelease_of_some (s : State) (rid : Nat) (r : Req) (hready : s.ready rid 0x0205 r)
    (hsome : r.kind = 0 ∨ (∃ f ∈ s.prog.forces, f.handle.toNat = r.value)) :
    ∃ v, exec (.forceRelease rid) s = .next v ∧
      v.prog.forces = s.prog.forces.filter (fun f => !(r.kind == 0 || f.handle.toNat == r.value)) := by
  have hgone : ((s.prog.forces.filter (fun f => r.kind == 0 || f.handle.toNat == r.value)).isEmpty && !(r.kind == 0)) = false := by
    rcases hsome with hall | ⟨f, hf, hval⟩
    · simp [hall]
    · have hmem : f ∈ s.prog.forces.filter (fun f => r.kind == 0 || f.handle.toNat == r.value) :=
        List.mem_filter.2 ⟨hf, by simp [hval]⟩
      simp [List.isEmpty_eq_false_iff.2 (List.ne_nil_of_mem hmem)]
  have hevents (l : List Force) (u : State) :
      (l.foldl (fun (st : State) (f : Force) => st.event 0x0706 [f.handle.toNat]) u).prog = u.prog :=
    foldl_keeps (p := State.prog) (fun _ _ => State.event_prog ..) ..
  refine ⟨_, congrArg Host.Outcome.next ((onReq_of_ready hready _).trans (if_neg (by simpa using hgone))), ?_⟩
  rw [complete_prog, forcesChanged_forces, hevents]

/-- In MAINTENANCE the forces are laid every millisecond, and nothing but the tasks' images changes. -/
theorem forceRefresh_lays (s : State) (t : Nat) (hmode : s.modes.mode = .maintenance)
    (hdue : s.prog.refreshed + 1000000 ≤ (s.tick t).now) :
    ∃ v, exec (.forceRefresh t) s = .next v ∧ v.prog.refreshed = (s.tick t).now ∧ v.prog.effForces = s.prog.forces ∧
      v.prog.forces = s.prog.forces ∧ v.modes = s.modes ∧ v.out = s.out := by
  have hlay (l : Tab Task) (u : State) (f : State → Nat × Task → Nat) (g : State → Nat × Task → Task) :
      let v := l.foldl (fun st e => st.setTask (f st e) (g st e)) u
      v.prog.refreshed = u.prog.refreshed ∧ v.prog.effForces = u.prog.effForces ∧ v.prog.forces = u.prog.forces ∧
        v.modes = u.modes ∧ v.out = u.out := by
    induction l generalizing u with
    | nil => exact ⟨rfl, rfl, rfl, rfl, rfl⟩
    | cons e r ih => exact ih _
  exact ⟨_, congrArg Host.Outcome.next (if_neg (by simp [hmode, hdue])), hlay _ _ (fun _ e => e.1) _⟩

/-! ### Variables -/

theorem badEntry_first (s : State) (u : VarUse) (es : List VarEntry) (k : Nat) (h : s.badEntry u es = some k) :
    ∃ e, es[k]? = some e ∧ s.varValid u e.handle e.width = false ∧
      ∀ j f, j < k → es[j]? = some f → s.varValid u f.handle f.width = true := by
  obtain ⟨hlt, hbad, hgood⟩ := List.findIdx?_eq_some_iff_getElem.1 h
  refine ⟨es[k], List.getElem?_eq_getElem hlt, by simpa using hbad, fun j f hj hf => ?_⟩
  obtain ⟨hjl, rfl⟩ := List.getElem?_eq_some_iff.1 hf
  simpa using hgood j hj

theorem varSubscribe_of_valid (h : BitVec 32) : Answers (.varSubscribe · h) 0x0208
    (fun s r => ∀ e ∈ varEntries r.buf,
      s.varValid .read e.handle e.width = true ∧ handleTask e.handle = bits r.aux.toNat 8 24)
    (fun s r =>
      let x : Sub := { handle := h, opcode := 0x0208, ctx := bits r.aux.toNat 0 8, target := bits r.aux.toNat 8 24
                       entries := varEntries r.buf }
      s.subscribe r x) :=
  answers_of_onReq (fun _ _ => rfl) fun s r _ hvalid => by
    have hnone : (varEntries r.buf).findIdx? (fun e => !(s.varValid .read e.handle e.width) ||
        handleTask e.handle != bits r.aux.toNat 8 24) = none :=
      List.findIdx?_eq_none_iff.2 fun e he => by simp [hvalid e he]
    simp [hnone]

/-- Settles O46: program, online change, forces and variables, each in the branch its premises name. -/
theorem programAndVariables : Obligations.ProgramAndVariables :=
  ⟨answers_of_onReq (fun _ _ => rfl) fun s r _ _ => rfl,
   fun i => answers_of_onReq (fun _ _ => rfl) fun s r _ ⟨hidle, hparse, hauth, hpres⟩ => by
     simp [hidle, hparse, imageStatus_of_good hauth hpres],
   answers_of_onReq (fun _ _ => rfl) fun s r _ ⟨hidle, hparse⟩ => by simp [hidle, hparse],
   fun i => answers_of_onReq (fun _ _ => rfl) fun s r _ ⟨hidle, hparse, hauth⟩ => by
     simp [hidle, hparse, State.imageStatus, hauth, stAuthFail],
   fun i => answers_of_onReq (fun _ _ => rfl) fun s r _ ⟨hidle, hparse, hauth, hpres⟩ => by
     simp [hidle, hparse, State.imageStatus, hauth, hpres, stNotPresent],
   fun k => answers_of_onReq (fun _ _ => rfl) fun s r _ h => by simp [h],
   answers_of_onReq (fun _ _ => rfl) fun s r _ ⟨hbad, hmode⟩ => by simp [hbad, hmode],
   onlineChange_of_run,
   fun k => answers_of_onReq (fun _ _ => rfl) fun s r _ h => by simp [h],
   answers_of_onReq (fun _ _ => rfl) fun s r _ ⟨hbad, hadd⟩ => by simp [hbad, hadd],
   fun fs => answers_of_onReq (fun _ _ => rfl) fun s r _ ⟨hbad, hadd⟩ => by simp [hbad, hadd],
   fun acc fs es gs h => ⟨(addForces_stand acc fs es gs h 0 0).1, fun e he =>
     (addForces_stand acc fs es gs h e.handle e.width).2 (.inr ⟨e, he, rfl, rfl⟩)⟩,
   forceRelease_of_some,
   answers_of_onReq (fun _ _ => rfl) fun s r _ ⟨hkind, hnone⟩ => if_pos (by simpa [hkind] using hnone),
   answers_of_onReq (fun _ _ => rfl) fun s r _ _ => rfl,
   forceRefresh_lays,
   answers_of_onReq (fun _ _ => rfl) fun s r _ h => by simp [h],
   fun k => answers_of_onReq (fun _ _ => rfl) fun s r _ h => by simp [h],
   varSubscribe_of_valid, badEntry_first,
   answers_of_onReq (fun _ _ => rfl) fun s r _ _ => rfl,
   answers_of_onReq (fun _ _ => rfl) fun s r _ _ => rfl⟩

end Sys2Proof.Proofs
end

section
/-! PROOFS. The loop engine (R226 to R267). -/

namespace Sys2Proof.Proofs

open Sys2Proof.Machine

/-! ### Samples and commits -/

theorem loopSample_takes (h : BitVec 16) (l : Loop) (s : State) (t : Nat) :
    let u := ((s.tick t).harvestDue none).outerFirst h.toNat
    u.loop h.toNat = some l → u.modes.mode = .run → u.modes.role ≠ .follow → u.leadsPair = false → l.smp = none →
    l.lrec.isSample u.mt = true → u.modes.rstMt ≤ u.mt →
    ∃ m : LoopSmp, exec (.loopSample t h) s = .next (u.takeSample h.toNat m) ∧ m.mt = u.mt ∧
      m.y = (u.loopSource u.mt l.lrec.sampleSrc l.lrec.period).1 ∧ m.sp = (u.loopSource u.mt l.lrec.spSrc l.lrec.period).1 ∧
      m.dyn = (u.clampOf u.mt l).1 := by
  simp only [exec_loopSample, execLoopSample]
  generalize ((s.tick t).harvestDue none).outerFirst h.toNat = u
  intro hloop hmode hrole hpair hsmp his hrst
  have hgo : ¬ (u.modes.mode != .run || u.modes.role == .follow || l.smp.isSome || !(l.lrec.isSample u.mt) ||
      u.mt < u.modes.rstMt) = true := by
    simp [hmode, hrole, hsmp, his, hrst]
  simp only [hloop, if_neg hgo, hpair, Bool.false_eq_true, if_false]
  exact ⟨_, rfl, rfl, rfl, rfl, rfl⟩

theorem commitDue_of_due (s : State) (l : Loop) (m : LoopSmp) (hsmp : l.smp = some m) (hmode : s.modes.mode = .run)
    (htile : s.tileWaits (bits l.handle 13 3) = false) (hmt : s.mt = m.mt + 160) : s.commitDue l = some m := by
  simp [State.commitDue, hsmp, hmode, htile, hmt]

theorem commitSample_of_lost (s : State) (l : Loop) (m : LoopSmp) (h : m.lost = true) :
    (l.lrec.lostSafe = true → s.commitSample l m = ({ l with
      smp := none, srcLost := true, pend := some (l.lrec.outputAt m.mt, none), status := l.status ||| 0x200 }, s, false)) ∧
    (l.lrec.lostSafe = false → s.commitSample l m = (l.commitAgain m true, s, true)) :=
  ⟨fun hsafe => by simp [State.commitSample, h, hsafe], fun hsafe => by simp [State.commitSample, h, hsafe]⟩

/-- A commit keeps its loop's handle, mode and running parameter set, and the loops of the state. -/
theorem commitSample_keeps (s : State) (l : Loop) (m : LoopSmp) : (s.commitSample l m).1.lrec = l.lrec ∧
    (s.commitSample l m).1.mode = l.mode ∧ (s.commitSample l m).1.parRun = l.parRun := by
  unfold State.commitSample
  split_ifs <;> exact ⟨rfl, rfl, rfl⟩

theorem loopDigest_loops (s : State) (l : Loop) : (s.loopDigest l).loops.loops = s.loops.loops := by
  have hd (d : Nat) (v : BitVec 64) : (s.digest .loop d v).loops = s.loops := opt_keeps (p := State.loops) rfl
  unfold State.loopDigest
  exact ite_keeps (p := fun u => u.loops.loops) rfl (congrArg Loops.loops (hd ..))

theorem postLoop_loops (s : State) (l : Loop) (stamp : Nat) : (s.postLoop l stamp).loops = s.loops := by
  have hdeliver (u : State) (h : BitVec 32) (m : Nat) (i : List (List Byte)) : (u.deliver h m i).loops = u.loops :=
    (congrArg State.loops (settled_deliver u h m i) :)
  unfold State.postLoop
  refine foldl_keeps (p := State.loops) (fun u x => ?_) ..
  exact ite_keeps rfl (ite_keeps rfl (hdeliver ..))

theorem setLoop_loop (s : State) (l : Loop) (h : Nat) : (s.setLoop l).loop h = if h = l.handle then some l else s.loop h :=
  tfind_tset ..

theorem parDue_of_none (s : State) (h m : Nat) (pe : Option (F × F)) (l : Loop) (hl : s.loop h = some l)
    (hp : l.parRun = none) : s.parDue h m pe = s := by
  simp [State.parDue, hl, hp]

theorem commitLoop_loop (s : State) (l : Loop) (m : LoopSmp) (hpar : l.parRun = none) (hmode : l.mode ≠ 2) :
    let x := s.commitSample l m
    (s.commitLoop l m).loop l.handle =
      some ((if x.2.2 then x.1.show_ else x.1).runAhead m (LoopConst.of l.lrec.period l.par).t) := by
  obtain ⟨hrec, hm, hp⟩ := commitSample_keeps s l m
  unfold State.commitLoop
  generalize s.commitSample l m = x at hrec hm hp ⊢
  obtain ⟨l1, s1, commits⟩ := x
  dsimp only at hrec hm hp ⊢
  -- the loop that stands in the state after the commit's own changes
  obtain ⟨l2, hl2⟩ : ∃ l2, l2 = if commits then l1.show_ else l1 := ⟨_, rfl⟩
  have hrec2 : l2.lrec = l.lrec ∧ l2.mode = l.mode ∧ l2.parRun = l.parRun := by
    subst hl2
    cases commits <;> exact ⟨hrec, hm, hp⟩
  obtain ⟨hrec2, hm2, hp2⟩ := hrec2
  have hh : l.handle = l2.handle := by rw [Loop.handle, Loop.handle, hrec2]
  rw [← hl2]
  have hloop : (if commits then ((s1.setLoop l1.show_).loopDigest l1).postLoop l1 m.mt else s1.setLoop l1).loop l.handle = some l2 := by
    have hset : (s1.setLoop l2).loop l.handle = some l2 := by rw [setLoop_loop, if_pos hh]
    subst hl2
    cases commits
    case false => exact hset
    case true =>
      refine Eq.trans (congrArg (tfind · l.handle) ?_) hset
      exact (congrArg Loops.loops (postLoop_loops ..)).trans (loopDigest_loops ..)
  rw [parDue_of_none _ _ _ _ l2 hloop (hp2.trans hpar)]
  have hrun (t : F) : (l2.runAhead m t).handle = l2.handle := by
    unfold Loop.runAhead
    split_ifs <;> rfl
  simp only [hloop, if_neg (hm2.trans_ne hmode)]
  rw [setLoop_loop, if_pos (by rw [hrun, hh])]

/-! ### Outputs -/

theorem loopOutput_drives (h : BitVec 16) (l : Loop) (a : Nat) (x : F × F) : After (.loopOutput · h)
    (fun u => u.loop h.toNat = some l ∧ l.pend = some (a, some x) ∧ l.ext = none ∧ u.modes.mode = .run ∧ a ≤ u.mt ∧
      u.tileWaits (bits l.handle 13 3) = false)
    (fun u => (u.setLoop { l with pend := none }).loopDrive a l.lrec.dest (some x.1) l.srcLost) :=
  after_of fun s t u hu ⟨hloop, hpend, hext, hmode, hdue, htile⟩ => by
    simp [execLoopOutput, ← hu, hloop, State.outputLoop, hpend, hext, hmode, not_lt.2 hdue, htile]

theorem loopDrive_of_fao (s : State) (a : Nat) (w : BitVec 32) (v : F) (b : Bool) (h : srcKind w = 1) :
    s.loopDrive a w (some v) b = s.setFao (bits (srcRef w) 0 2) ((s.fao (bits (srcRef w) 0 2)).commit v) ∧
    s.loopDrive a w none b = s.setFao (bits (srcRef w) 0 2) { s.fao (bits (srcRef w) 0 2) with committed := false } := by
  unfold State.loopDrive
  rw [h]
  exact ⟨rfl, rfl⟩

theorem loopDrive_of_cl (s : State) (a : Nat) (w : BitVec 32) (v : F) (b : Bool) (h : srcKind w = 2) :
    s.loopDrive a w (some v) b = s.setCl (bits (srcRef w) 0 3) ((s.cl (bits (srcRef w) 0 3)).commit v) ∧
    s.loopDrive a w none b = s.setCl (bits (srcRef w) 0 3) { s.cl (bits (srcRef w) 0 3) with committed := false } := by
  unfold State.loopDrive
  rw [h]
  exact ⟨rfl, rfl⟩

theorem loopDrive_fao (s : State) (a : Nat) (w : BitVec 32) (v : F) (b : Bool) (h : srcKind w = 1) :
    let n := bits (srcRef w) 0 2
    (s.loopDrive a w (some v) b).fao n = (s.fao n).commit v ∧
    (s.loopDrive a w none b).fao n = { s.fao n with committed := false } := by
  obtain ⟨hsome, hnone⟩ := loopDrive_of_fao s a w v b h
  rw [hsome, hnone]
  simp

theorem loopDrive_cl (s : State) (a : Nat) (w : BitVec 32) (v : F) (b : Bool) (h : srcKind w = 2) :
    let n := bits (srcRef w) 0 3
    (s.loopDrive a w (some v) b).cl n = (s.cl n).commit v ∧
    (s.loopDrive a w none b).cl n = { s.cl n with committed := false } := by
  obtain ⟨hsome, hnone⟩ := loopDrive_of_cl s a w v b h
  rw [hsome, hnone]
  simp

/-- Settles O47: requests, samples and commits in the branches their premises name, and the laws by type. -/
theorem loops : Obligations.Loops :=
  ⟨answers_of_onReq (fun _ _ => rfl) fun s r _ ⟨hdie, hadm⟩ => by simp [hdie, hadm],
   answers_of_onReq (fun _ _ => rfl) fun s r _ h => by simp [h],
   fun i k => answers_of_onReq (fun _ _ => rfl) fun s r _ ⟨hdie, hadm⟩ => by simp [hdie, hadm],
   fun l => answers_of_onReq (fun _ _ => rfl) fun s r _ ⟨hloop, hmode, hpar⟩ => by simp [hloop, hmode, hpar],
   fun l => answers_of_onReq (fun _ _ => rfl) fun s r _ ⟨hloop, hmode⟩ => by simp [hloop, hmode],
   fun l => answers_of_onReq (fun _ _ => rfl) fun s r _ ⟨hloop, houter, hmode⟩ => by
     by_cases h2 : r.aux.toNat = 2 <;> simp_all,
   fun l => answers_of_onReq (fun _ _ => rfl) fun s r _ ⟨hloop, houter, hmode⟩ => by
     by_cases h2 : r.aux.toNat = 2 <;> simp_all,
   fun l => answers_of_onReq (fun _ _ => rfl) fun s r _ h => by simp [h],
   fun l h => answers_of_onReq (fun _ _ => rfl) fun s r _ h => by simp [h],
   loopSample_takes,
   fun h l m => after_of fun s t u hu ⟨hloop, hdue⟩ => by simp [execLoopCommit, ← hu, hloop, hdue],
   commitDue_of_due, commitSample_of_lost,
   fun s l m hlost hsrc hbad hdyn => by simp [State.commitSample, hlost, hsrc, hbad, hdyn],
   commitLoop_loop, loopOutput_drives, loopDrive_fao, loopDrive_cl,
   fun l k r y z h => by simp [Loop.law, h],
   fun l k r y z h => by simp [Loop.law, h],
   fun l k r y z h => by simp [Loop.law, Loop.pid, Loop.prevOf, h],
   fun l m h => by
     intro t hdyn
     simp [Loop.commitNormal, h, hdyn, t],
   fun lo hi rate t out target raw hbad hraw hrate => by simp [shape, hbad, hraw, hrate]⟩

end Sys2Proof.Proofs
end

section
/-! PROOFS. The chains of the string ports (R275 to R306): frames, enumeration and balancing. -/

namespace Sys2Proof.Proofs

open Sys2Proof.Machine

/-! ### Bytes of a frame -/

theorem leNat_leBytes (n v : Nat) : leNat (leBytes n v) = v % 256 ^ n := by
  induction n generalizing v with
  | zero => simp [leBytes, leNat, Nat.mod_one]
  | succ n ih =>
    have hhead : (BitVec.ofNat 8 v).toNat = v % 256 := BitVec.toNat_ofNat ..
    rw [leBytes, leNat, ih, hhead, pow_succ', Nat.mod_mul]

/-- A field read where it was written. -/
theorem rd_append (a c : List Byte) (n v k : Nat) (hk : k = a.length) : rd (a ++ (leBytes n v ++ c)) k n = v % 256 ^ n := by
  subst hk
  simp [rd, slice, leNat_leBytes]

theorem chainFrame_length (cmd : Nat) (endB ack : Bool) (addr : Nat) (payload : List Byte) :
    (chainFrame cmd endB ack addr payload).length = 12 + payload.length := by
  simp [chainFrame]
  omega

theorem chainGood_chainFrame (cmd : Nat) (endB ack : Bool) (addr : Nat) (payload : List Byte) (h : payload.length < 65536) :
    chainGood (chainFrame cmd endB ack addr payload) = true := by
  have hlen := chainFrame_length cmd endB ack addr payload
  obtain ⟨body, hbody⟩ : ∃ body, body = u8 cmd ++ u8 (b2n endB + fld 1 1 (b2n ack)) ++ u16 addr ++ u16 0 ++
      u16 payload.length ++ payload := ⟨_, rfl⟩
  have hframe : chainFrame cmd endB ack addr payload = body ++ leBytes 4 (crc32 body).toNat := by rw [hbody]; rfl
  have hb : body.length = 8 + payload.length := by simp [hbody]; omega
  have hcrc : rd (body ++ leBytes 4 (crc32 body).toNat) body.length 4 = (crc32 body).toNat := by
    have := rd_append body [] 4 (crc32 body).toNat _ rfl
    rw [List.append_nil] at this
    rw [this]
    exact Nat.mod_eq_of_lt (crc32 body).isLt
  have hsize : rd (body ++ leBytes 4 (crc32 body).toNat) 6 2 = payload.length := by
    have := rd_append (u8 cmd ++ u8 (b2n endB + fld 1 1 (b2n ack)) ++ u16 addr ++ u16 0)
      (payload ++ leBytes 4 (crc32 body).toNat) 2 payload.length 6 (by simp)
    rw [Nat.mod_eq_of_lt (show payload.length < 256 ^ 2 from h)] at this
    rw [← this, hbody]
    simp only [List.append_assoc]
    rfl
  have hwhole : (body ++ leBytes 4 (crc32 body).toNat).length = body.length + 4 := by simp
  simp only [chainGood, hframe, hwhole, Nat.add_sub_cancel, hcrc, hsize, List.take_left', beq_self_eq_true]
  simp
  omega

/-! ### What a module without a partner reports -/

/-- Nothing that the chains do changes whether the module leads a pair. -/
theorem leadsPair_aside : Aside State.leadsPair where
  bare h := (congrArg (fun u => u.leadsPair) h :)
  tiles _ _ := rfl
  ports _ _ := rfl
  drill _ _ := rfl
  modes _ _ _ _ _ _ _ _ := rfl

/-- A trip source that asserts may wake the module; the string ports stay as they are. -/
theorem ports_unwoken : Unwoken State.ports where
  bare h := (congrArg (fun u => u.ports) h :)
  tiles _ _ := rfl
  modes _ _ _ _ _ _ _ _ := rfl

theorem reportPort_of_alone {s : State} (h : s.leadsPair = false) (was : Port) (n : Nat) : s.reportPort was n = s := by
  simp [State.reportPort, h]

theorem setPort_port_same (s : State) (n : Nat) (x : Port) : (s.setPort n x).port n = x := by simp

theorem tripSettle_port (s : State) (n : Nat) : s.tripSettle.port n = s.port n :=
  congrArg (fun x : Tab Port => tget x n {}) (ports_unwoken.tripSettle s)

theorem judgeTone_port_of_unguarded {s : State} {n : Nat} (h : s.guarded n = none) : (s.judgeTone n).port n =
    { s.port n with tripSrc := 0, gapSince := none, toneWhole := false, alarmed := false } := by
  have : s.judgeTone n = (s.setPort n { s.port n with
      tripSrc := 0, gapSince := none, toneWhole := false, alarmed := false }).tripSettle := by
    simp only [State.judgeTone, h]
  rw [this, tripSettle_port, setPort_port_same]

/-! ### Enumeration -/

theorem startEnum_port (s : State) (n rid : Nat) (hpair : s.leadsPair = false) (hsweeps : (s.port n).sweeps = [])
    (hguard : s.guarded n = none) (_ : n < 16) :
    ((s.startEnum n (some rid)).port n).enumerating = true ∧ ((s.startEnum n (some rid)).port n).ready = false ∧
    ((s.startEnum n (some rid)).port n).chain = 4 ∧ ((s.startEnum n (some rid)).port n).enumRid = some rid ∧
    ((s.startEnum n (some rid)).port n).awaiting = none ∧ ((s.startEnum n (some rid)).port n).enumA = 0 := by
  have hclose : s.closeOpen n = s := by simp [State.closeOpen, Port.current, hsweeps]
  have halone (x : Port) : ((s.setPort n x).judgeTone n).leadsPair = false :=
    (leadsPair_aside.judgeTone _ n).trans hpair
  unfold State.startEnum
  dsimp only
  rw [hclose, reportPort_of_alone (halone _), judgeTone_port_of_unguarded (s := s.setPort n _) hguard, setPort_port_same]
  exact ⟨rfl, rfl, rfl, rfl, rfl, rfl⟩

theorem enumSettle_port (s : State) (n : Nat) (hon : (s.port n).enumerating = true) (ha : (s.port n).enumDoneA = true)
    (hb : (s.port n).enumDoneB = true) (htodo : (s.port n).cfgTodo = []) (hrid : (s.port n).enumRid = none) (_ : n < 16) :
    ((s.enumSettle n).port n).enumerating = false ∧
    ((s.enumSettle n).port n).ready = (match s.portPlan n with | some e => e.sats == (s.port n).found | none => false) := by
  cases hplan : s.portPlan n with
  | none => simp [State.enumSettle, hon, ha, hb, htodo, hrid, hplan]
  | some e => simp [State.enumSettle, hon, ha, hb, htodo, hrid, hplan, bne]

/-! ### Frames -/

theorem chainAsk_leadsPair (s : State) (n : Nat) (endB : Bool) (f : ChainSend) (again : Bool) (dur : Nat) (b : List Byte) :
    (s.chainAsk n endB f again dur b).leadsPair = s.leadsPair :=
  (leadsPair_aside.setPort ..).trans (leadsPair_aside.sendFrame ..)

theorem chainAsk_port (s : State) (n : Nat) (endB : Bool) (f : ChainSend) (again : Bool) (dur : Nat) (b : List Byte) :
    ((s.chainAsk n endB f again dur b).port n).awaiting = some { f := f, endB := endB, sentAt := s.now, again := again } := by
  simp [State.chainAsk]

theorem sendFrame_now (s : State) (n : Nat) (endB : Bool) (dur : Nat) (b : List Byte) :
    (s.sendFrame n endB dur b).now = s.now :=
  ite_keeps (p := State.now) rfl (ite_keeps (p := State.now) rfl rfl)

theorem sendFrame_out_of_held (s : State) (n dur : Nat) (endB : Bool) (bytes : List Byte) (h : s.holdsEnd endB = true) :
    (s.sendFrame n endB dur bytes).out = .chain n endB bytes :: s.out := by
  simp only [State.sendFrame, State.chainOut, h, if_true]
  rfl

theorem chainFrameSend_asks (port : Fin 16) (endB : Bool) (f : ChainSend) (hf : ∃ i, f = .enum i ∨ f = .cfg i) :
    After (.chainFrameSend · port endB f)
      (fun u => u.bonded port.val ∧ u.drivesChain ∧ u.frameMode f ∧ u.canSend endB ∧ u.chainBusy port.val = false ∧
        u.frameSlot port.val endB f ∧ u.frameDue port.val endB f ∧ u.frameWins port.val f ∧ u.leadsPair = false)
      (fun u => u.chainAsk port.val endB f false (u.frameTime port.val endB f) (u.satFrame port.val endB f)) :=
  after_of fun s t u hu ⟨hbond, hdrive, hmode, hcan, hbusy, hslot, hdue, hwins, hpair⟩ => by
    have hrep (d b w) := reportPort_of_alone ((chainAsk_leadsPair u port.val endB f false d b).trans hpair) w port.val
    obtain ⟨i, rfl | rfl⟩ := hf <;>
      simp [execChainFrameSend, ← hu, hbond, hdrive, hmode, hcan, hbusy, hslot, hdue, hwins, hrep]

/-- A frame that asks for a reply leaves its wait, whatever the port noted before it. -/
theorem asked (u : State) (n : Nat) (endB : Bool) (f : ChainSend) (hpair : u.leadsPair = false) (x p : Port) (d : Nat)
    (b : List Byte) : ∃ v, Host.Outcome.next (φ := Fault) (ρ := Refusal)
      (((u.setPort n x).chainAsk n endB f false d b).reportPort p n) = .next v ∧ v.now = u.now ∧
      (v.port n).awaiting = some { f := f, endB := endB, sentAt := u.now, again := false } := by
  have halone : ((u.setPort n x).chainAsk n endB f false d b).leadsPair = false :=
    (chainAsk_leadsPair (u.setPort n x) ..).trans hpair
  rw [reportPort_of_alone halone]
  exact ⟨_, rfl, sendFrame_now (u.setPort n x) n endB d b, chainAsk_port (u.setPort n x) ..⟩

theorem chainFrameSend_awaits (port : Fin 16) (endB : Bool) (f : ChainSend) (s : State) (t : Nat) : let u := s.tick t
    (∃ i, f = .bal i ∨ (f = .heartbeat i ∧ i ≠ 0x3FF)) → u.bonded port.val = true → u.drivesChain = true →
    u.frameMode f = true → u.canSend endB = true → u.chainBusy port.val = false → u.frameSlot port.val endB f = true →
    u.frameDue port.val endB f = true → u.frameWins port.val f = true → u.leadsPair = false →
    ∃ v, exec (.chainFrameSend t port endB f) s = .next v ∧ v.now = u.now ∧
      (v.port port.val).awaiting = some { f := f, endB := endB, sentAt := u.now, again := false } := by
  simp only [exec_chainFrameSend, execChainFrameSend]
  generalize s.tick t = u
  intro hf hbond hdrive hmode hcan hbusy hslot hdue hwins hpair
  have hgo : ¬ (!(u.bonded port.val) || !u.drivesChain || !(u.frameMode f) || !(u.canSend endB) || u.chainBusy port.val ||
      !(u.frameSlot port.val endB f) || !(u.frameDue port.val endB f) || !(u.frameWins port.val f)) = true := by
    simp [hbond, hdrive, hmode, hcan, hbusy, hslot, hdue, hwins]
  rw [if_neg hgo]
  obtain ⟨i, rfl | ⟨rfl, hi⟩⟩ := hf
  · exact asked u port.val endB _ hpair ..
  · simp only [if_neg hi]
    exact asked u port.val endB _ hpair ..

theorem chainFrameSend_stop (port : Fin 16) (endB : Bool) : After (.chainFrameSend · port endB .balStop)
    (fun u => u.bonded port.val ∧ u.drivesChain ∧ u.sweepMode ∧ u.canSend endB ∧ u.chainBusy port.val = false ∧
      u.frameSlot port.val endB .balStop ∧ (u.port port.val).stopEnds.contains endB ∧ u.frameWins port.val .balStop ∧
      u.leadsPair = false)
    (fun u => (u.setPort port.val { u.port port.val with
      stopEnds := (u.port port.val).stopEnds.filter (· != endB) }).sendFrame port.val endB (u.castTime port.val 4)
        (chainFrame 0x05 endB false 0x3FF (zeros 4))) :=
  after_of fun s t u hu ⟨hbond, hdrive, hmode, hcan, hbusy, hslot, hdue, hwins, hpair⟩ => by
    have hdue' : u.frameDue port.val endB .balStop = true := hdue
    have hmode' : u.frameMode .balStop = true := by simp [State.frameMode, hmode]
    have hrep (x d b w) := reportPort_of_alone
      (((leadsPair_aside.sendFrame (u.setPort port.val x) port.val endB d b).trans hpair)) w port.val
    simp only [exec_chainFrameSend, execChainFrameSend, ← hu, hbond, hdrive, hmode', hcan, hbusy, hslot, hdue', hwins, Bool.not_true,
      Bool.false_or, Bool.false_eq_true, if_false]
    exact congrArg Host.Outcome.next (hrep ..)

theorem chainReply_settles (port : Fin 16) (endB : Bool) (rtt : Nat) (bytes : List Byte) (w : ChainWait) (sat : Nat) :
    After (.chainReply · port endB rtt bytes)
      (fun u => u.live ∧ u.bonded port.val ∧ u.holdsEnd endB ∧ chainGood bytes ∧ u.follows = false ∧ u.drivesChain ∧
        u.leadsPair = false ∧ (u.port port.val).awaiting = some w ∧ w.endB = endB ∧ w.f = .cfg sat ∧ bytes.length ≠ 28 ∧
        rd bytes 0 1 = 0x82 ∧ bit (rd bytes 1 1) 2 = false ∧ bit (rd bytes 1 1) 3 = false ∧
        (u.port port.val).reaches endB sat)
      (fun u => (u.setPort port.val { u.port port.val with
        awaiting := none, cfgTodo := (u.port port.val).cfgTodo.filter (· != sat)
        resetSeen := (u.port port.val).resetSeen.filter (· != sat) }).enumSettle port.val) :=
  after_of fun s t u hu ⟨hlive, hbond, hhold, hgood, hfol, hdrive, hpair, hwait, hend, hf, hlen, hcmd, hreset, hnack, hreach⟩ => by
    have hseen : u.reachSeen port.val endB sat = u := by simp [State.reachSeen, hreach]
    have hrep (x w) := reportPort_of_alone
      ((leadsPair_aside.enumSettle (u.setPort port.val x) port.val).trans hpair) w port.val
    simp [execChainReply, ← hu, hlive, hbond, hhold, hgood, hfol, hdrive, State.chainIn, State.chainAnswer, hwait, hend, hf, hlen,
      hcmd, chainSat, hreset, hnack, hseen, hrep]

theorem replyTimeout_asks (port : Fin 16) (w : ChainWait) (sat len : Nat) : After (.replyTimeout · port)
    (fun u => (u.port port.val).awaiting = some w ∧ ackOf w.f = some (sat, len) ∧ w.again = false ∧ u.drivesChain ∧
      w.sentAt + u.chainDur port.val w.endB sat len 0 + 10000 ≤ u.now ∧ u.frameDue port.val w.endB w.f ∧ u.frameMode w.f ∧
      u.frameSlot port.val w.endB w.f ∧ u.canSend w.endB ∧ u.leadsPair = false)
    (fun u => u.chainAsk port.val w.endB w.f true (u.frameTime port.val w.endB w.f) (u.satFrame port.val w.endB w.f)) :=
  after_of fun s t u hu ⟨hwait, hack, hagain, hdrive, hlate, hdue, hmode, hslot, hcan, hpair⟩ => by
    have hrep (d b p) := reportPort_of_alone ((chainAsk_leadsPair u port.val w.endB w.f true d b).trans hpair) p port.val
    simp [execReplyTimeout, ← hu, hwait, hack, hdrive, not_lt.2 hlate, State.replyLate, hagain, hdue, hmode, hslot, hcan, hrep]

theorem replyTimeout_gives_up (port : Fin 16) (w : ChainWait) (sat len : Nat) : After (.replyTimeout · port)
    (fun u => (u.port port.val).awaiting = some w ∧ w.f = .cfg sat ∧ ackOf w.f = some (sat, len) ∧ w.again ∧ u.drivesChain ∧
      w.sentAt + u.chainDur port.val w.endB sat len 0 + 10000 ≤ u.now ∧ u.leadsPair = false)
    (fun u => (u.setPort port.val { u.port port.val with
      timeouts := satInc (u.port port.val).timeouts, awaiting := none
      cfgTodo := (u.port port.val).cfgTodo.filter (· != sat) }).enumSettle port.val) :=
  after_of fun s t u hu ⟨hwait, hf, hack, hagain, hdrive, hlate, hpair⟩ => by
    have hrep (x p) := reportPort_of_alone
      ((leadsPair_aside.enumSettle (u.setPort port.val x) port.val).trans hpair) p port.val
    rw [hf] at hack
    simp [execReplyTimeout, ← hu, hwait, hf, hack, hdrive, not_lt.2 hlate, State.replyLate, hagain, hrep]

theorem enumTimeout_counts (port : Fin 16) (endB : Bool) (pos a : Nat) (ag : Bool) : After (.enumTimeout · port endB)
    (fun u => (u.port port.val).awaiting = some { f := .enum pos, endB := endB, sentAt := a, again := ag } ∧ a + 200000 ≤ u.now ∧
      (u.port port.val).enumerating ∧ u.leadsPair = false ∧
      (if endB then (u.port port.val).enumDoneB else (u.port port.val).enumDoneA) = false)
    (fun u => (u.setPort port.val { u.port port.val with
      awaiting := none, enumDoneA := (u.port port.val).enumDoneA || !endB
      enumDoneB := (u.port port.val).enumDoneB || endB }).enumCounted port.val) :=
  after_of fun s t u hu ⟨hwait, hlate, hon, hpair, hdone⟩ => by
    have hrep (x p) := reportPort_of_alone
      ((leadsPair_aside.enumCounted (u.setPort port.val x) port.val).trans hpair) p port.val
    simp only [exec_enumTimeout, execEnumTimeout, ← hu, hwait, hon, hdone, bne_self_eq_false, Bool.false_or, decide_eq_true_eq,
      if_neg (not_lt.2 hlate), Bool.not_false, Bool.and_self, if_true]
    exact congrArg Host.Outcome.next (hrep ..)

/-- Settles O48: enumeration, balancing, the frames of a chain and what ends the wait for a reply. -/
theorem chains : Obligations.Chains :=
  ⟨answers_of_onReq (fun _ _ => rfl) fun s r _ h => by simp [h],
   startEnum_port,
   fun e => answers_of_onReq (fun _ _ => rfl) fun s r _ ⟨hplan, hbad, hmode⟩ => by simp [hplan, hbad, hmode],
   fun e => answers_of_onReq (fun _ _ => rfl) fun s r _ ⟨hplan, hbad, hmode⟩ => by simp [hplan, hbad, hmode, stOk_eq_zero],
   fun e i => answers_of_onReq (fun _ _ => rfl) fun s r _ ⟨hplan, hbad⟩ => by simp [hplan, hbad],
   answers_of_onReq (fun _ _ => rfl) fun s r _ h => by simp [h],
   fun port b => after_of fun s t u hu ⟨hplan, hon, hend, hdue⟩ => by simp [execBalEnd, ← hu, hplan, hon, hend, hdue],
   fun s n _ hon hplan => by simp [State.balStop, hon, hplan],
   chainFrameSend_asks, chainFrameSend_stop, chainFrameSend_awaits,
   fun s n dur endB bytes => sendFrame_out_of_held s n dur endB bytes,
   fun s n endB sat => rfl,
   fun port endB f => after_of fun s t u hu h => by simp [execChainFrameSend, ← hu, h],
   fun port endB rtt bytes => after_of fun s t u hu ⟨hlive, hbond, hhold, hgood⟩ => by
     simp [execChainReply, ← hu, hlive, hbond, hhold, hgood],
   chainReply_settles, enumSettle_port, replyTimeout_asks, replyTimeout_gives_up, enumTimeout_counts,
   chainFrame_length, chainGood_chainFrame⟩

end Sys2Proof.Proofs
end

section
/-! PROOFS. Sweeps of the chains and the fault tone (R282 to R305). -/

namespace Sys2Proof.Proofs

open Sys2Proof.Machine

/-! ### Sweeps of a port -/

theorem setSweep_sweeps (p : Port) (w x : Sweep) (h : p.sweeps = [w]) (hseq : w.seq = x.seq) : (p.setSweep x).sweeps = [x] := by
  simp [Port.setSweep, h, hseq]

theorem current_of_single (p : Port) (w : Sweep) (h : p.sweeps = [w]) (hskip : w.skip = false) (hdead : w.dead = false) :
    p.current = some w := by
  simp [Port.current, h, hskip, hdead]

theorem sendFrame_sweeps (s : State) (n : Nat) (endB : Bool) (dur : Nat) (b : List Byte) :
    ((s.sendFrame n endB dur b).port n).sweeps = (s.port n).sweeps := by
  have hout : (s.chainOut n endB b).port n = s.port n :=
    ite_keeps (p := fun u => u.port n) rfl (ite_keeps (p := fun u => u.port n) rfl rfl)
  simp only [State.sendFrame, setPort_port_same, hout]

theorem Unwoken.balDone {β : Type} {p : State → β} (hp : Unwoken p) (s : State) (rid result : Nat) :
    p (s.balDone rid result) = p s := by
  unfold State.balDone
  split
  · exact ite_keeps (hp.complete ..) rfl
  · rfl

theorem balStart_sweeps (s : State) (n : Nat) (b : BalPlan) : ((s.balStart n b).port n).sweeps = (s.port n).sweeps := by
  have hports (u v : State) (h : u.ports = v.ports) : (u.port n).sweeps = (v.port n).sweeps :=
    congrArg (fun x : Tab Port => (tget x n {}).sweeps) h
  have hevent (x : Port) (c : Nat) (d : List Nat) (hx : x.sweeps = (s.port n).sweeps) :
      (((s.setPort n x).event c d).port n).sweeps = (s.port n).sweeps :=
    (hports _ _ (ports_unwoken.event ..)).trans ((congrArg Port.sweeps (setPort_port_same ..)).trans hx)
  unfold State.balStart
  dsimp only
  refine ite_keeps (p := fun u => (u.port n).sweeps) ?_ (hevent _ _ _ rfl)
  exact (hports _ _ (ports_unwoken.balDone ..)).trans (hevent _ _ _ rfl)

theorem balPeriod_sweeps (s : State) (n : Nat) : ((s.balPeriod n).port n).sweeps = (s.port n).sweeps := by
  unfold State.balPeriod
  refine ite_keeps (p := fun u => (u.port n).sweeps) rfl ?_
  split
  · refine ite_keeps (p := fun u => (u.port n).sweeps) ?_ rfl
    rw [balStart_sweeps, setPort_port_same]
  · split
    · exact ite_keeps (p := fun u => (u.port n).sweeps) rfl (balStart_sweeps ..)
    · rfl

/-! ### SAMPLE and READ -/

/-- Counting a sweep writes the number of the next one alone. -/
theorem sweepCount_rest (s : State) (a : Nat) : { (s.sweepCount a).2 with cells := s.cells } = s := by
  unfold State.sweepCount
  dsimp only
  split <;> rfl

theorem sweepCount_of_new (s : State) (a : Nat) (h : s.cells.seqMt ≠ some a) : (s.sweepCount a).1 = s.cells.seqNext ∧
    (s.sweepCount a).2.cells.seqNext = s.cells.seqNext + 1 ∧ ((s.sweepCount a).2.sweepCount a).1 = s.cells.seqNext := by
  simp [State.sweepCount, h]

theorem sampleSend_sends (port : Fin 16) (c : CellPlan) (e : PortPlan) (s : State) (t : Nat) : let u := s.tick t
    u.cells.plan = some c → u.portPlan port.val = some e → c.isInstant (u.mt + 400000) = true → u.sweepMode = true →
    (u.port port.val).ready = true → (u.port port.val).sweeps = [] → (u.port port.val).probing = false →
    (u.port port.val).broken = false → u.drivesChain = true → u.leadsPair = false → u.holdsEnd u.cmdEnd = true →
    ∃ v w, exec (.sampleSend t port) s = .next v ∧ v.now = u.now ∧ (v.port port.val).sweeps = [w] ∧
      w.seq = (u.sweepCount (u.mt + 400000)).1 ∧ w.mt = u.mt + 400000 ∧ w.readSent = false ∧ w.closed = false ∧
      w.skip = false ∧ w.cmdB = u.cmdEnd ∧
      Output.chain port.val u.cmdEnd (sampleFrame u.cmdEnd (u.sweepCount (u.mt + 400000)).1 none) ∈ v.out := by
  simp only [exec_sampleSend, execSampleSend]
  generalize s.tick t = u
  intro hplan hport hinst hmode hready hsweeps hprobing hbroken hdrive hpair hhold
  have hrest := sweepCount_rest u (u.mt + 400000)
  generalize u.sweepCount (u.mt + 400000) = x at hrest ⊢
  obtain ⟨seq, s1⟩ := x
  dsimp only at hrest
  have hp1 (k : Nat) : s1.port k = u.port k := congrArg (fun v => v.port k) hrest
  have hcmd1 : s1.cmdEnd = u.cmdEnd := congrArg (fun v => v.cmdEnd) hrest
  have hdrive1 : s1.drivesChain = true := (congrArg (fun v => v.drivesChain) hrest :).trans hdrive
  have hhold1 : s1.holdsEnd u.cmdEnd = true := (congrArg (fun v => v.holdsEnd u.cmdEnd) hrest :).trans hhold
  have hnow1 : s1.now = u.now := congrArg (fun v => v.now) hrest
  have hclose : s1.closeOpen port.val = s1 := by simp [State.closeOpen, Port.current, hp1, hsweeps]
  have hgroup : (u.port port.val).nextGroup = none := by simp [Port.nextGroup, hprobing]
  simp only [hplan, hport, hinst, hmode, hready, hsweeps, Bool.not_true, Bool.true_or, Bool.or_self, Bool.false_eq_true, if_false,
    List.any_nil, hclose, hp1, hbroken, Bool.false_and, hgroup]
  obtain ⟨w, hw⟩ : ∃ w : Sweep, w = {
      seq := seq, mt := u.mt + 400000, cmdB := u.cmdEnd, noPrev := !false, lost := true
      trip := (u.port port.val).tripSrc != 0, both := false, probe := none } := ⟨_, rfl⟩
  rw [← hw]
  have hcmd3 (x : Port) : (s1.setPort port.val x).cmdEnd = u.cmdEnd := hcmd1
  have hdrive3 (x : Port) : (s1.setPort port.val x).drivesChain = true := hdrive1
  simp only [hcmd3, hdrive3, if_true, Bool.and_false, Bool.false_eq_true, if_false, hw]
  obtain ⟨s3, hs3⟩ : ∃ s3, s3 = s1.setPort port.val ((u.port port.val).openSweep w) := ⟨_, rfl⟩
  rw [← hw, ← hs3]
  have hsend := sendFrame_out_of_held s3 port.val (s3.castTime port.val 8) u.cmdEnd (sampleFrame u.cmdEnd seq none)
    (by rw [hs3]; exact hhold1)
  have hkeep := State.balPeriod_keeps (s3.sendFrame port.val u.cmdEnd (s3.castTime port.val 8) (sampleFrame u.cmdEnd seq none))
    port.val (Keeps.refl _)
  have hsw : (s3.port port.val).sweeps = [w] := by
    rw [hs3, setPort_port_same]
    simp [Port.openSweep, hsweeps]
  refine ⟨_, w, rfl, hkeep.now.trans ((sendFrame_now ..).trans ?_), (balPeriod_sweeps ..).trans ((sendFrame_sweeps ..).trans hsw),
    ?_, ?_, ?_, ?_, ?_, ?_, hkeep.sent.subset (by rw [hsend]; exact List.mem_cons_self ..)⟩
  · rw [hs3]; exact hnow1
  all_goals rw [hw]

theorem readSend_reads (port : Fin 16) (w : Sweep) (s : State) (t : Nat) : let u := s.tick t
    (u.port port.val).sweeps = [w] → w.skip = false → w.dead = false → w.readSent = false → w.closed = false →
    w.probe = none → w.both = false → u.mt = w.mt + 30000 → u.sweepMode = true → u.drivesChain = true →
    u.leadsPair = false → u.holdsEnd u.cmdEnd = true → 0 < u.sats port.val →
    ∃ v x, exec (.readSend t port) s = .next v ∧ v.now = u.now ∧ (v.port port.val).sweeps = [x] ∧ x.readSent = true ∧
      x.reads = w.reads ++ [{ endB := u.cmdEnd, sentAt := u.now, first := 0, count := u.sats port.val }] ∧
      v.out = .chain port.val u.cmdEnd (readFrame u.cmdEnd w.seq 0 (u.sats port.val) false) :: u.out := by
  simp only [exec_readSend, execReadSend]
  generalize s.tick t = u
  intro hsweeps hskip hdead hread hclosed hprobe hboth hmt hmode hdrive hpair hhold hsats
  have hcur := current_of_single _ w hsweeps hskip hdead
  have hat : u.mt = w.readAt := by simp [Sweep.readAt, hprobe, hmt]
  have hgo : ¬ (w.readSent || w.closed || u.mt != w.readAt || !u.sweepMode) = true := by
    simp [hread, hclosed, hat, hmode]
  simp only [hcur, if_neg hgo]
  rw [if_neg (by simp [hboth])]
  obtain ⟨s1, hs1⟩ : ∃ s1, s1 = u.setPort port.val ((u.port port.val).setSweep { w with readSent := true }) := ⟨_, rfl⟩
  rw [← hs1]
  have hcmd : s1.cmdEnd = u.cmdEnd := by rw [hs1]; rfl
  have hdrive1 : s1.drivesChain = true := by rw [hs1]; exact hdrive
  have hsw1 : (s1.port port.val).sweeps = [{ w with readSent := true }] := by
    rw [hs1, setPort_port_same]; exact setSweep_sweeps _ w _ hsweeps rfl
  have hcur1 := current_of_single (s1.port port.val) _ hsw1 hskip hdead
  have hhold1 : s1.holdsEnd u.cmdEnd = true := by rw [hs1]; exact hhold
  have hnow1 : s1.now = u.now := by rw [hs1]; rfl
  have hout1 : s1.out = u.out := by rw [hs1]; rfl
  obtain ⟨x, hx⟩ : ∃ x : Sweep, x = { w with
    readSent := true, reads := w.reads ++ [{ endB := u.cmdEnd, sentAt := u.now, first := 0, count := u.sats port.val }] } :=
      ⟨_, rfl⟩
  have hread1 : s1.readFrom port.val u.cmdEnd 0 (u.sats port.val) =
      let s2 := s1.sendFrame port.val u.cmdEnd (5000 + w.blockTime * u.sats port.val)
        (readFrame u.cmdEnd w.seq 0 (u.sats port.val) false)
      s2.setPort port.val ((s2.port port.val).setSweep x) := by
    have hfalse : w.probe.isSome = false := by rw [hprobe]; rfl
    unfold State.readFrom
    simp only [hcur1, if_neg hsats.ne', hdrive1, if_true, hfalse, hnow1, hx]
    rfl
  rw [hcmd, hread1]
  refine ⟨_, x, rfl, ?_, ?_, by rw [hx], by rw [hx], ?_⟩
  · exact (sendFrame_now s1 port.val u.cmdEnd (5000 + w.blockTime * u.sats port.val) _).trans hnow1
  · rw [setPort_port_same]
    exact setSweep_sweeps _ { w with readSent := true } x ((sendFrame_sweeps ..).trans hsw1) (by rw [hx])
  · exact (sendFrame_out_of_held s1 port.val (5000 + w.blockTime * u.sats port.val) u.cmdEnd _ hhold1).trans (by rw [hout1])

/-! ### Blocks -/

theorem Aside.satReset {β : Type} {p : State → β} (hp : Aside p) (s : State) (n sat : Nat) : p (s.satReset n sat) = p s :=
  ite_keeps rfl ((hp.event ..).trans (hp.setPort ..))

theorem Aside.reachSeen {β : Type} {p : State → β} (hp : Aside p) (s : State) (n : Nat) (endB : Bool) (sat : Nat) :
    p (s.reachSeen n endB sat) = p s :=
  ite_keeps rfl ((hp.judgeTone ..).trans (hp.setPort ..))

theorem Aside.useChainBlock {β : Type} {p : State → β} (hp : Aside p) (s : State) (n : Nat) (endB : Bool) (b : List Byte) :
    p (s.useChainBlock n endB b) = p s := by
  unfold State.useChainBlock
  dsimp only
  split
  · refine ite_keeps rfl ?_
    have hseen (x : Port) (c : Prop) [Decidable c] (d : Prop) [Decidable d] (k : Nat) (l : List Nat) (e : Bool) (i : Nat) :
        p ((if d then (if c then (s.setPort n x).event k l else s.setPort n x).satReset n i
          else if c then (s.setPort n x).event k l else s.setPort n x).reachSeen n e i) = p s := by
      have hev : p (if c then (s.setPort n x).event k l else s.setPort n x) = p s :=
        ite_keeps ((hp.event ..).trans (hp.setPort ..)) (hp.setPort ..)
      exact (hp.reachSeen ..).trans (ite_keeps ((hp.satReset ..).trans hev) hev)
    exact ite_keeps ((hp.closeSweep ..).trans (hseen ..)) (hseen ..)
  · rfl

theorem Aside.locate {β : Type} {p : State → β} (hp : Aside p) (s : State) (n : Nat) (a b : Option Nat) :
    p (s.locate n a b) = p s :=
  (hp.judgeTone ..).trans (ite_keeps (hp.setPort ..) (ite_keeps (hp.setPort ..) ((hp.event ..).trans (hp.setPort ..))))

theorem rd_lt (b : List Byte) (off n : Nat) : rd b off n < 2 ^ (8 * n) :=
  (leNat_lt _).trans_le (Nat.pow_le_pow_right (by omega) (by simp [slice]))

theorem useChainBlock_sweeps (s : State) (n : Nat) (endB : Bool) (b : List Byte) (w : Sweep) (sat : Nat) (_ : n < 16)
    (hsweeps : (s.port n).sweeps = [w]) (hskip : w.skip = false) (hdead : w.dead = false) (hread : w.readSent = true)
    (hclosed : w.closed = true) (hgot : tfind w.got sat = none)
    (hsat : satAt (s.sats n) endB (bits (rd b 0 2) 0 10) = some sat) (hreset : bit (rd b 0 2) 10 = false)
    (htmo : bit (rd b 0x46 2) 14 = false) (henum : (s.port n).enumerating = true) :
    ((s.useChainBlock n endB b).port n).sweeps = [{ w with
      got := tset w.got sat (SatSample.read b (if endB == w.cmdB then 0 else if endB then 2 else 1)) }] := by
  have hcur := current_of_single _ w hsweeps hskip hdead
  have hstate (k : Nat) : (SatSample.read b k).state ≠ 2 := by
    simp only [SatSample.read, hreset, Bool.false_eq_true, if_false]
    split_ifs <;> decide
  have hstatus (k : Nat) : bit (SatSample.read b k).status.toNat 14 = false := by
    have : (SatSample.read b k).status.toNat = rd b 0x46 2 := Nat.mod_eq_of_lt (rd_lt b 0x46 2)
    rw [this, htmo]
  have hseen (u : State) (h : (u.port n).enumerating = true) : u.reachSeen n endB sat = u := by
    simp [State.reachSeen, h]
  unfold State.useChainBlock
  simp only [hcur, hsat, hread, hgot, Bool.not_true, Option.isSome_none, Bool.or_self, Bool.false_eq_true, if_false, hstatus,
    if_neg (hstate _), hclosed, Bool.false_and]
  rw [hseen _ (by rw [setPort_port_same]; exact henum), setPort_port_same]
  exact setSweep_sweeps _ w _ hsweeps rfl

/-! ### The fault tone and the trip source -/

theorem locate_port (s : State) (n a b : Nat) (_ : n < 16) (hguard : s.guarded n = none) (ha : s.canSend false = true)
    (hb : s.canSend true = true) (hb0 : b ≠ 0) (hbroken : (s.port n).broken = false) :
    ((s.locate n (some a) (some b)).port n).broken = true ∧ ((s.locate n (some a) (some b)).port n).reachA = some a ∧
    ((s.locate n (some a) (some b)).port n).reachB = some b ∧
    ((s.locate n (some a) (some b)).port n).breaks = satInc (s.port n).breaks ∧
    ((s.locate n (some a) (some b)).port n).chain = (if b ≤ a + 1 then 2 else 3) := by
  have hjudge (x : Port) (c : Nat) (d : List Nat) : (((s.setPort n x).event c d).judgeTone n).port n =
      { x with tripSrc := 0, gapSince := none, toneWhole := false, alarmed := false } := by
    have hport : ((s.setPort n x).event c d).port n = x := by simp
    have hg : ((s.setPort n x).event c d).guarded n = none := by simpa [State.guarded] using hguard
    rw [judgeTone_port_of_unguarded hg, hport]
  have hwhole : ((!(s.canSend false) || some a == some (s.sats n - 1)) && (!(s.canSend true) || some b == some 0)) = false := by
    simp [hb, hb0]
  unfold State.locate
  simp only [ha, hb, if_true, Bool.not_true, Bool.false_or] at hwhole ⊢
  simp only [hwhole, hbroken, Bool.false_and, Bool.false_eq_true, if_false, hjudge]
  simp [Port.reachedAll]

theorem putTone_tones (s : State) (n : Nat) (endB : Bool) (tone : Tone) (_ : n < 16) (hguard : s.guarded n = none) :
    ((s.putTone n endB tone).port n).toneB = (if endB then tone else (s.port n).toneB) ∧
    ((s.putTone n endB tone).port n).toneA = (if endB then (s.port n).toneA else tone) := by
  have hjudge (x : Port) : ((s.setPort n x).judgeTone n).port n =
      { x with tripSrc := 0, gapSince := none, toneWhole := false, alarmed := false } := by
    rw [judgeTone_port_of_unguarded (s := s.setPort n x) hguard, setPort_port_same]
  unfold State.putTone
  simp only [hguard, Option.isSome_none, Bool.and_false, Bool.false_eq_true, if_false, hjudge]
  cases endB <;> exact ⟨rfl, rfl⟩

/-- Judging the break alarm of a port leaves what its tones and its gap are judged by. -/
theorem judgeAlarm_keeps (s : State) (n : Nat) {β : Type} {p : State → β} (hevent : ∀ u c d, p (State.event u c d) = p u)
    (hport : ∀ a w, p (s.setPort n { s.port n with alarmed := a, toneWhole := w }) = p s) : p (s.judgeAlarm n) = p s :=
  ite_keeps (ite_keeps rfl ((hevent ..).trans (hport ..))) (hport ..)

theorem toneAt_setPort (s : State) (n : Nat) (a w : Bool) (e : Bool) :
    (s.setPort n { s.port n with alarmed := a, toneWhole := w }).toneAt n e = s.toneAt n e := by
  have hport : (s.setPort n { s.port n with alarmed := a, toneWhole := w }).port n =
      { s.port n with alarmed := a, toneWhole := w } := setPort_port_same ..
  unfold State.toneAt
  rw [hport]
  rfl

theorem judgeAlarm_toneAt (s : State) (n : Nat) (e : Bool) : (s.judgeAlarm n).toneAt n e = s.toneAt n e :=
  judgeAlarm_keeps s n (p := fun u => u.toneAt n e) (fun _ _ _ => rfl) (fun a w => toneAt_setPort s n a w e)

theorem judgeAlarm_port {β : Type} {f : Port → β} (hf : ∀ (p : Port) a w, f { p with alarmed := a, toneWhole := w } = f p)
    (s : State) (n : Nat) : f ((s.judgeAlarm n).port n) = f (s.port n) :=
  judgeAlarm_keeps s n (p := fun u => f (u.port n)) (fun _ _ _ => rfl)
    (fun _ _ => (congrArg f (setPort_port_same ..)).trans (hf ..))

theorem judgeAlarm_now (s : State) (n : Nat) : (s.judgeAlarm n).now = s.now :=
  judgeAlarm_keeps s n (p := State.now) (fun _ _ _ => rfl) (fun _ _ => rfl)

theorem judgeAlarm_faultTone (s : State) (n : Nat) : (s.judgeAlarm n).faultTone n = s.faultTone n := by
  simp only [State.faultTone, judgeAlarm_toneAt]

theorem gapNow_setPort (s : State) (n : Nat) (a w : Bool) :
    (s.setPort n { s.port n with alarmed := a, toneWhole := w }).gapNow n = s.gapNow n := by
  have hport : (s.setPort n { s.port n with alarmed := a, toneWhole := w }).port n =
      { s.port n with alarmed := a, toneWhole := w } := setPort_port_same ..
  unfold State.gapNow State.covered State.dataGap State.sats
  simp only [toneAt_setPort, hport]
  rfl

theorem judgeAlarm_gapNow (s : State) (n : Nat) : (s.judgeAlarm n).gapNow n = s.gapNow n :=
  judgeAlarm_keeps s n (p := fun u => u.gapNow n) (fun _ _ _ => rfl) (fun a w => gapNow_setPort s n a w)

theorem judgeTone_of_fault (s : State) (n : Nat) (g : Nat × Nat) (_ : n < 16) (hguard : s.guarded n = some g)
    (hfault : s.faultTone n = true) : ((s.judgeTone n).port n).tripSrc = 1 := by
  unfold State.judgeTone
  simp only [hguard, judgeAlarm_faultTone, hfault, if_true, tripSettle_port, setPort_port_same]

theorem judgeTone_of_gap (s : State) (n k d a : Nat) (_ : n < 16) (hguard : s.guarded n = some (k, d))
    (hfault : s.faultTone n = false) (hgap : s.gapNow n = true) (hsince : (s.port n).gapSince = some a)
    (hold : a + d * 1000000 ≤ s.now) : ((s.judgeTone n).port n).tripSrc = 2 := by
  have hsince' : ((s.judgeAlarm n).port n).gapSince = some a := (judgeAlarm_port (fun _ _ _ => rfl) s n).trans hsince
  unfold State.judgeTone
  simp only [hguard, judgeAlarm_faultTone, hfault, judgeAlarm_gapNow, hgap, hsince', judgeAlarm_now, hold, decide_true,
    Bool.or_true, Bool.and_self, if_true, Bool.false_eq_true, if_false, tripSettle_port]
  by_cases h2 : ((s.judgeAlarm n).port n).tripSrc = 2
  · simp [h2]
  · simp [h2, State.loopOpened]

theorem judgeTone_of_whole (s : State) (n : Nat) (g : Nat × Nat) (_ : n < 16) (hguard : s.guarded n = some g)
    (hfault : s.faultTone n = false) (hgap : s.gapNow n = false) : ((s.judgeTone n).port n).tripSrc = 0 := by
  unfold State.judgeTone
  simp only [hguard, judgeAlarm_faultTone, hfault, judgeAlarm_gapNow, hgap, Bool.false_and, Bool.false_eq_true, if_false,
    tripSettle_port, setPort_port_same]

theorem blockReceive_uses (port : Fin 16) (endB : Bool) (bytes : List Byte) : After (.blockReceive · port endB bytes)
    (fun u => u.live ∧ u.bonded port.val ∧ u.holdsEnd endB ∧ bytes.length = 74 ∧
      (crc16 (bytes.take 72)).toNat = rd bytes 72 2 ∧ u.follows = false ∧ u.leadsPair = false)
    (fun u => u.useChainBlock port.val endB bytes) :=
  after_of fun s t u hu ⟨hlive, hbond, hhold, hlen, hcrc, hfol, hpair⟩ => by
    have hrep (p) := reportPort_of_alone ((leadsPair_aside.useChainBlock u port.val endB bytes).trans hpair) p port.val
    simp [execBlockReceive, ← hu, hlive, hbond, hhold, hlen, hcrc, hfol, hpair, hrep]

theorem blockMissing_locates (port : Fin 16) (a b : Option Nat) : After (.blockMissing · port a b)
    (fun u => u.portPlan port.val ≠ none ∧ (u.port port.val).ready ∧ u.sweepMode ∧ u.drivesChain ∧ u.leadsPair = false ∧
      ((u.port port.val).suspect ∨ u.lateRead port.val false ≠ none ∨ u.lateRead port.val true ≠ none) ∧
      ((u.locate port.val (u.reachNow port.val false a) (u.reachNow port.val true b)).port port.val).current = none)
    (fun u => u.locate port.val (u.reachNow port.val false a) (u.reachNow port.val true b)) :=
  after_of fun s t u hu ⟨hplan, hready, hmode, hdrive, hpair, hsus, hcur⟩ => by
    have hrep (x y p) := reportPort_of_alone ((leadsPair_aside.locate u port.val x y).trans hpair) p port.val
    have hsus' (c : Bool) : ((u.port port.val).suspect || c || (u.lateRead port.val false).isSome ||
        (u.lateRead port.val true).isSome) = true := by
      rcases hsus with h | h | h
      · simp [h]
      · simp [Option.isSome_iff_ne_none.2 h]
      · simp [Option.isSome_iff_ne_none.2 h]
    simp only [exec_blockMissing, execBlockMissing, ← hu, hsus', hready, hmode, hdrive,
      Option.isNone_eq_false_iff.2 (Option.isSome_iff_ne_none.2 hplan),
      Bool.not_true, Bool.or_self, Bool.false_eq_true, if_false, hcur, hrep]

/-- Settles O49: sweeps and their blocks, the tone at the ends and the trip source of a port. -/
theorem sweepsAndTone : Obligations.SweepsAndTone :=
  ⟨answers_of_onReq (fun _ _ => rfl) fun s r _ ⟨hplan, hprobing⟩ => by simp [hplan, hprobing],
   answers_of_onReq (fun _ _ => rfl) fun s r _ ⟨hplan, hprobing⟩ => by simp [hplan, hprobing],
   answers_of_onReq (fun _ _ => rfl) fun s r _ hplan => by simp [hplan],
   sampleSend_sends, sweepCount_of_new, readSend_reads,
   fun endB seq first count probe => rfl,
   fun port endB bytes => after_of fun s t u hu ⟨hlive, hbond, hhold, h74, h106⟩ => by
     simp [execBlockReceive, ← hu, hlive, hbond, hhold, h74, h106],
   fun port endB bytes => after_of fun s t u hu ⟨hlive, hbond, hhold, hlen, hcrc⟩ => by
     simp [execBlockReceive, ← hu, hlive, hbond, hhold, hlen, hcrc],
   blockReceive_uses, useChainBlock_sweeps, blockMissing_locates, locate_port,
   fun port endB tone => after_of fun s t u hu ⟨hlive, hbond, hhold⟩ => by
     simp [execToneStateChange, ← hu, hlive, hbond, hhold],
   fun port endB tone => after_of fun s t u hu ⟨hlive, hbond, hhold, hup⟩ => by
     simp [execToneReport, ← hu, hlive, hbond, hhold, hup],
   fun port => after_of fun s t u hu ⟨hslots, hold, htone⟩ => by
     cases hb : u.slotB <;> simp_all [execToneReportStale, ← hu],
   putTone_tones,
   fun port => after_of fun s t u hu ⟨hlive, hbond⟩ => by simp [execLoopOpen, ← hu, hlive, hbond],
   fun s n _ hguard => by rw [judgeTone_port_of_unguarded hguard],
   judgeTone_of_fault, judgeTone_of_gap, judgeTone_of_whole,
   fun n => ⟨rfl, rfl, rfl, rfl⟩,
   fun n i hi => by
     have hne : (i == 0x3FF) = false := beq_eq_false_iff_ne.2 hi
     simp only [coverA, coverB, hne, Bool.false_eq_true, if_false, and_self]⟩

end Sys2Proof.Proofs
end

section
/-! PROOFS. Cells, estimation and contactors (R310 to R350). -/

namespace Sys2Proof.Proofs

open Sys2Proof.Machine

theorem tfind_tset_same {α : Type} (t : Tab α) (k : Nat) (v : α) : tfind (tset t k v) k = some v := by
  rw [tfind_tset, if_pos rfl]

theorem bits_of_lt (v n : Nat) (h : v < 2 ^ n) : bits v 0 n = v := by
  simp [bits, Nat.mod_eq_of_lt h]

/-! ### Contactors -/

theorem contOut_cells (s : State) : s.contOut.cells = s.cells := contOut_keeps (p := State.cells) (fun _ _ => rfl) s

theorem contTake_conts (s : State) (cs : List Contactor) (crc : BitVec 32) :
    (s.contTake cs crc).cells.conts = cs.map (s.contStart s.mt) := by
  have htell (u : State) : u.tellConts.cells = u.cells := opt_keeps (p := State.cells) rfl
  have h : (s.contTake cs crc).cells = { s.cells with conts := cs.map (s.contStart s.mt), contCrc := crc } :=
    (State.event_cells ..).trans ((htell _).trans (contOut_cells _))
  rw [h]

theorem contDue_of_none (s : State) (at_ : Nat) (h : s.cells.contWait = []) : s.contDue at_ = s := by
  simp only [State.contDue, h, List.filter_nil, List.foldl_nil]
  rw [← h]

theorem contRun_of_single (s : State) (at_ : Nat) (k : ContactorRun) (bus : BitVec 32) (fb : Option Bool)
    (hone : s.cells.conts = [k]) (hstay : k.leaving = false) : (s.contRun at_ [(bus, fb)]).cells.conts =
    [match s.contNext at_ k bus fb with | some (n, c) => (s.contMove at_ k n c).1 | none => k] := by
  unfold State.contRun
  rw [contOut_cells, hone]
  cases hnext : s.contNext at_ k bus fb with
  | none => simp [hnext, hstay]
  | some x => simp [hnext, State.contMove, hstay]

theorem contNext_of_trip (s : State) (at_ : Nat) (k : ContactorRun) (bus : BitVec 32) (fb : Option Bool) (h1 : 1 ≤ k.state)
    (h4 : k.state ≤ 4) (htrip : (s.port k.plan.port).tripSrc ≠ 0) : s.contNext at_ k bus fb = some (5, 0) := by
  simp [State.contNext, h1, h4, htrip]

theorem contNext_of_no_request (s : State) (at_ : Nat) (k : ContactorRun) (bus : BitVec 32) (fb : Option Bool)
    (hstate : k.state = 1 ∨ k.state = 2) (hreq : (s.varValue k.plan.req 1).1 = 0) : s.contNext at_ k bus fb = some (5, 0) := by
  rcases hstate with h | h <;> simp [State.contNext, h, hreq]

theorem contNext_of_closed (s : State) (at_ : Nat) (k : ContactorRun) (bus : BitVec 32) (fb : Option Bool) (hstate : k.state = 3)
    (htrip : (s.port k.plan.port).tripSrc = 0) :
    s.contNext at_ k bus fb = if (s.varValue k.plan.req 1).1 = 0 then some (4, 0) else none := by
  by_cases hreq : (s.varValue k.plan.req 1).1 = 0 <;> simp [State.contNext, hstate, htrip, hreq]

/-! ### Currents, estimation and publication -/

theorem latchCurrent_adds (s : State) (n mt : Nat) (v : F) (lost : Bool) (hplan : s.cells.plan = none)
    (hsweeps : (s.port n).sweeps = []) (hmt : mt % 100000 = 0) :
    ((s.latchCurrent n mt v lost).cur n).cnt = (s.cur n).cnt + 1 ∧
    ((s.latchCurrent n mt v lost).cur n).sum = BitVec.ofNat 64 (f64.add (s.cur n).sum.toNat (f64of v)) := by
  have hset (u : State) (c : Cur) : (u.setCur n c).cur n = c := by simp [State.cur, State.setCur, tget_tset]
  have hport (x : Port) : (s.setPort n x).cur n = s.cur n := rfl
  unfold State.latchCurrent
  simp only [hplan, hsweeps, List.any_nil, Bool.false_eq_true, if_false, hmt, if_true, hset, hport, and_self]

theorem currentLatch_latches (port : Fin 16) (e : EstPlan) (c : CellPlan) : After (.currentLatch · port)
    (fun u => u.estPlan port.val = some e ∧ u.cells.plan = some c ∧ u.modes.role ≠ .follow ∧ u.leadsPair = false ∧ u.sweepMode ∧
      (u.mt % 100000 = 0 ∨ c.isInstant u.mt))
    (fun u =>
      let v := u.source u.mt e.iSrc
      let a := ffma e.iScale v.1 e.iOffset
      u.latchCurrent port.val u.mt a (v.2 || fbad v.1)) :=
  after_of fun s t u hu ⟨hest, hplan, hrole, hpair, hmode, hmt⟩ => by
    have hdue (b : Bool) : (u.mt % 100000 == 0 || c.isInstant u.mt || b) = true := by rcases hmt with h | h <;> simp [h]
    have hgo (b : Bool) : ¬ (u.modes.role == .follow || !u.sweepMode || !(u.mt % 100000 == 0 || c.isInstant u.mt || b)) = true := by
      rw [hdue]; simp [hrole, hmode]
    simp only [exec_currentLatch, execCurrentLatch, ← hu, hest, hplan, if_neg (hgo _), hpair, Bool.false_eq_true, if_false]

theorem estimation_estimates (port : Fin 16) (plan : CellPlan) (p : PortPlan) (e : EstPlan) (w : Sweep) (s : State) (t : Nat) :
    let u := s.tick t
    u.cells.plan = some plan → u.portPlan port.val = some p → u.estPlan port.val = some e → u.sweepMode = true →
    u.portWaits p = false → (u.port port.val).sweeps = [w] → w.estimated = false → w.mt < u.mt → w.closed = true →
    exec (.estimation t port) s = .next ((u.setPort port.val ((u.port port.val).setSweep { w with estimated := true })).estimateSweep
      port.val plan p e w) := by
  simp only [exec_estimation, execEstimation]
  generalize s.tick t = u
  intro hplan hport hest hmode hwaits hsweeps hdone hmt hclosed
  have hclose : u.closeSweep port.val w = u := by simp [State.closeSweep, hclosed]
  have hlast : ((u.port port.val).sweeps.filter (fun w => !w.estimated && w.mt < u.mt)).getLast? = some w := by
    simp [hsweeps, hdone, hmt]
  have hfind : (u.port port.val).sweeps.find? (fun x => x.seq == w.seq) = some w := by simp [hsweeps]
  have hgo : ¬ (!u.sweepMode || u.portWaits p) = true := by simp [hmode, hwaits]
  simp only [hplan, hport, hest, if_neg hgo, hlast, hclose, hfind]

theorem estimateSweep_fin (s : State) (n : Nat) (plan : CellPlan) (p : PortPlan) (e : EstPlan) (w : Sweep) :
    ∃ d, (s.estimateSweep n plan p e w).cells.fin.head? = some d ∧ d.mt = w.mt ∧ d.seq = w.seq ∧ d.port = n :=
  ⟨_, rfl, rfl, rfl, rfl⟩

theorem postEstimates_cells (s : State) (p : PortPlan) (a q : Nat) : (s.postEstimates p a q).cells = s.cells := by
  have hdeliver (u : State) (h : BitVec 32) (m : Nat) (i : List (List Byte)) : (u.deliver h m i).cells = u.cells :=
    (congrArg State.cells (settled_deliver u h m i) :)
  unfold State.postEstimates
  refine foldl_keeps (p := State.cells) (fun u x => ?_) ..
  exact ite_keeps rfl (ite_keeps (hdeliver ..) (hdeliver ..))

theorem digest_cells (s : State) (k : DigestKind) (id : Nat) (v : BitVec 64) : (s.digest k id v).cells = s.cells :=
  opt_keeps (p := State.cells) rfl

theorem publication_publishes (c : CellPlan) (p : PortPlan) (d : EstDone) (s : State) (t : Nat) : let u := s.tick t
    u.cells.plan = some c → c.ports = [p] → u.cells.fin = [d] → d.port = p.port →
    u.mt = d.mt + c.sweepPeriod * 1000000 + 500000 → c.isInstant d.mt = true → u.cells.lastPub ≠ d.mt → u.sweepMode = true →
    ∃ v : State, exec (.publication t) s = .next v ∧
      v.cells.lastPub = d.mt ∧ v.cells.pubNow = u.now ∧ v.cells.aggPub = [(p.port, d.item)] ∧
      v.cells.pub = d.cells.foldl (fun (m : Tab Cell) e => tset m e.1 e.2) u.cells.pub := by
  simp only [exec_publication, execPublication]
  generalize s.tick t = u
  intro hplan hports hfin hport hmt hinst hlast hmode
  have hat : u.mt - c.sweepPeriod * 1000000 - 500000 = d.mt := by omega
  have hgo : ¬ (!(c.isInstant d.mt) || d.mt == u.cells.lastPub || !u.sweepMode) = true := by
    simp [hinst, hmode, Ne.symm hlast]
  have hdone : u.estDone d.mt p.port = some d := by simp [State.estDone, hfin, hport]
  have hfind : u.cells.fin.find? (fun x => x.mt == d.mt) = some d := by simp [hfin]
  have hskip : (c.ports.foldl (fun (st : State) q =>
      if (st.estDone d.mt q.port).isSome then st else st.unswept c q d.mt d.seq) u) = u := by simp [hports, hdone]
  have hgot : c.ports.filterMap (fun q => u.estDone d.mt q.port) = [d] := by simp [hports, hdone]
  simp only [hplan, hat, hfind, if_neg hgo, hskip, hgot, List.map_cons, List.map_nil, List.foldl_cons, List.foldl_nil]
  refine ⟨_, rfl, ?_⟩
  have hpost (u : State) (l : List PortPlan) :
      (l.foldl (fun (st : State) q => st.postEstimates q d.mt d.seq) u).cells = u.cells :=
    foldl_keeps (p := State.cells) (fun u q => postEstimates_cells u q _ _) ..
  have hdigest (u : State) (l : List PortPlan) :
      (l.foldl (fun (st : State) q => st.digest .sweep q.port (st.sweepDigest q)) u).cells = u.cells :=
    foldl_keeps (p := State.cells) (fun u q => digest_cells u ..) ..
  simp only [hpost, hdigest, apply_ite State.cells, State.event_cells, ite_self, hport, and_self]

/-- Settles O50: plans and reads of the cells, the sweep's current, estimate and publication, and the contactors. -/
theorem cellsAndContactors : Obligations.CellsAndContactors :=
  ⟨answers_of_onReq (fun _ _ => rfl) fun s r _ h => by simp [h, stOk_eq_zero],
   fun a b => answers_of_onReq (fun _ _ => rfl) fun s r _ h => by simp [h],
   answers_of_onReq (fun _ _ => rfl) fun s r _ _ => rfl,
   fun s c => tfind_tset_same ..,
   answers_of_onReq (fun _ _ => rfl) fun s r _ ⟨hok, hmode⟩ => by simp [hok, hmode, stOk_eq_zero],
   answers_of_onReq (fun _ _ => rfl) fun s r _ ⟨hok, hmode⟩ => by simp [hok, hmode],
   fun st i => answers_of_onReq (fun _ _ => rfl) fun s r _ h => by simp [h],
   contTake_conts,
   fun h => answers_of_onReq (fun _ _ => rfl) fun s r _ _ => rfl,
   fun p => answers_of_onReq (fun _ _ => rfl) fun s r _ ⟨hlt, hplan, hsat⟩ => by
     simp [bits_of_lt _ _ hlt, hplan, not_le.2 hsat, stOk_eq_zero],
   fun p => answers_of_onReq (fun _ _ => rfl) fun s r _ ⟨hlt, hplan, hsat⟩ => by
     simp [bits_of_lt _ _ hlt, hplan, hsat],
   fun x i => by simp [Cell.bytes],
   currentLatch_latches, latchCurrent_adds, estimation_estimates, estimateSweep_fin,
   after_of fun s t u hu h => by
     rcases h with h | h
     · simp [execPublication, ← hu, h]
     · cases hplan : u.cells.plan <;> simp [execPublication, ← hu, hplan, h],
   publication_publishes,
   after_of fun s t u hu h => by simp [execCellCommit, ← hu, not_lt.2 h],
   after_of fun s t u hu h => by simp [execCellCommit, ← hu, h],
   after_of fun s t u hu ⟨hmode, hmt, hfol, hpair⟩ => by simp [execContactorTick, ← hu, hmode, hmt, hfol, hpair],
   contDue_of_none, contRun_of_single, contNext_of_trip, contNext_of_no_request, contNext_of_closed,
   fun s at_ k n c => rfl, rfl, rfl, rfl, rfl, rfl, rfl, rfl⟩

end Sys2Proof.Proofs
end

section
/-! PROOFS. The trip network and the safety functions (R389 to R410). -/

namespace Sys2Proof.Proofs

open Sys2Proof.Machine

/-! ### The trip network -/

theorem termOf_iff (o : TripOut) (src : BitVec 32) : o.termOf src = true ↔
    (∃ k, k < 32 ∧ src.getLsbD k ∧ o.orMask.getLsbD k) ∨
    (o.andMask ≠ 0 ∧ ∀ k, o.andMask.getLsbD k = true → src.getLsbD k = true) := by
  have hor : (src &&& o.orMask) ≠ 0 ↔ ∃ k, k < 32 ∧ src.getLsbD k ∧ o.orMask.getLsbD k := by
    constructor
    · intro h
      by_contra hno
      push Not at hno
      refine h (BitVec.eq_of_getLsbD_eq fun k hk => ?_)
      have := hno k hk
      cases hs : src.getLsbD k <;> simp_all
    · rintro ⟨k, hk, hs, ho⟩ h0
      have := congrArg (fun v => v.getLsbD k) h0
      simp [hs, ho] at this
  have hand : (src &&& o.andMask) = o.andMask ↔ ∀ k, o.andMask.getLsbD k = true → src.getLsbD k = true := by
    constructor
    · intro h k hk
      have := congrArg (fun v => v.getLsbD k) h
      simpa [hk] using this
    · intro h
      refine BitVec.eq_of_getLsbD_eq fun k hk => ?_
      have := h k
      cases ha : o.andMask.getLsbD k <;> simp_all
  simp only [TripOut.termOf, Bool.or_eq_true, Bool.and_eq_true, bne_iff_ne, beq_iff_eq, hor, hand]

theorem dieTemperature_trips (die : Fin 8) (deg : BitVec 16) : After (.dieTemperature · die deg)
    (fun u => u.diePresent die.val ∧ 920 < deg.toInt ∧ u.trip.overTemp ∧ u.pwr.temps = [])
    (fun u => ({ u with pwr := { u.pwr with temps := tset u.pwr.temps die.val deg }
                        trip := { u.trip with overTemp := true } }).tripSettle) :=
  after_of fun s t u hu ⟨hdie, hdeg, hover, htemps⟩ => by
    have hot : (tset u.pwr.temps die.val deg).any (fun e => 920 < e.2.toInt) = true := by simp [htemps, tset, hdeg]
    simp only [exec_dieTemperature, execDieTemperature, ← hu, hdie, hot, hover, Bool.not_true, Bool.true_or, Bool.and_false,
      Bool.false_eq_true, if_false]

/-- Settles O51: what each command of the trip network leaves, and the term, latch and coil of an output. -/
theorem tripNetwork : Obligations.TripNetwork :=
  ⟨answers_of_onReq (fun _ _ => rfl) fun s r _ h => by simp [h],
   answers_of_onReq (fun _ _ => rfl) fun s r _ h => by simp [h, stOk_eq_zero],
   fun p1 p2 => answers_of_onReq (fun _ _ => rfl) fun s r _ _ => rfl,
   answers_of_onReq (fun _ _ => rfl) fun s r _ _ => rfl,
   fun n level d h => after_of fun s t u hu _ => by simp [execTripInputEdge, ← hu, not_lt.2 h],
   fun n level d h => after_of fun s t u hu _ => by simp [execTripInputEdge, ← hu, h],
   dieTemperature_trips,
   fun n => after_of fun s t u hu ⟨hcoil, hpulse, hdue⟩ => by simp [execPulseTest, ← hu, hcoil, hpulse, hdue],
   fun n high d h => after_of fun s t u hu ⟨harmed, hfault⟩ => by simp [execSwitchFault, ← hu, h, harmed, hfault],
   fun src => after_of fun s t u hu ⟨hover, hnone⟩ => by simp [execProofDue, ← hu, hover, hnone],
   fun o term => ⟨rfl, rfl, rfl⟩,
   termOf_iff,
   fun s n h => by simp [State.coil, h],
   fun s n h => by simp [State.coil, TripOut.energised, h],
   fun s => rfl,
   fun s n h8 h24 => by simp [State.srcBit, not_lt.2 h8, h24]⟩

end Sys2Proof.Proofs
end

section
/-! PROOFS. Safety functions and the ward outputs (R402 to R410). -/

namespace Sys2Proof.Proofs

open Sys2Proof.Machine

/-! ### Masks -/

theorem mask_succ (n : Nat) (f : Nat → Bool) : mask (n + 1) f = if f n then 2 ^ n + mask n f else mask n f := by
  simp [mask, List.range_succ, Nat.add_comm]

theorem mask_lt (n : Nat) (f : Nat → Bool) : mask n f < 2 ^ n := by
  induction n with
  | zero => simp [mask]
  | succ n ih =>
    rw [mask_succ, pow_succ]
    split_ifs <;> omega

theorem testBit_mask (n : Nat) (f : Nat → Bool) (k : Nat) : (mask n f).testBit k = (decide (k < n) && f k) := by
  induction n with
  | zero => simp [mask]
  | succ n ih =>
    rcases Nat.lt_trichotomy k n with h | rfl | h
    · have : (mask (n + 1) f).testBit k = (mask n f).testBit k := by
        rw [mask_succ]
        split_ifs
        · exact Nat.testBit_two_pow_add_gt h _
        · rfl
      simp [this, ih, h, Nat.lt_succ_of_lt h]
    · have hk : (mask k f).testBit k = false := Nat.testBit_lt_two_pow (mask_lt k f)
      rw [mask_succ]
      cases hf : f k <;> simp [hk, Nat.testBit_two_pow_add_eq]
    · have hk : (mask (n + 1) f).testBit k = false :=
        Nat.testBit_lt_two_pow ((mask_lt _ f).trans_le (Nat.pow_le_pow_right (by omega) h))
      have : ¬ k < n + 1 := by omega
      simp [hk, this]

/-! ### The safety period -/

/-- The events of a function leave the trip network and the field I/O. -/
theorem safeEvents_keeps {β : Type} {p : State → β} (hevent : ∀ u c d, p (State.event u c d) = p u) (old new : SafeFn) (s : State) :
    p (old.events new s) = p s := by
  have htests : p (((old.tested.zip new.tested).zipIdx).foldl (fun st ((a, b), i) =>
      if !a && b then st.event 0x0406 [new.func, i] else st) s) = p s :=
    foldl_keeps (fun u e => opt_keeps (hevent ..)) ..
  exact ite_keeps ((hevent ..).trans htests) (ite_keeps ((hevent ..).trans htests) htests)

theorem safetyPeriod_decides (f : SafeFn) (s : State) (t : Nat) : let u := s.tick t
    u.trip.evaluating = true → u.trip.periodAt + u.trip.period * 1000 ≤ u.now → u.trip.newFns = none → u.trip.fns = [f] →
    ∃ v : State, exec (.safetyPeriod t) s = .next v.wardEval ∧ v.trip.fns = [u.evalFn f] ∧ v.trip.wardPeriodDone = true ∧
      v.trip.periodAt = u.now ∧ v.trip.levels = u.trip.levels ∧ v.fio = u.fio := by
  simp only [exec_safetyPeriod, execSafetyPeriod]
  generalize s.tick t = u
  intro heval hdue hnew hfns
  have hgo : ¬ (!u.trip.evaluating || u.now < u.trip.periodAt + u.trip.period * 1000) = true := by
    simp [heval, not_lt.2 hdue]
  simp only [if_neg hgo, hnew, hfns, List.map_cons, List.map_nil, List.zip_cons_cons, List.zip_nil_right, List.foldl_cons,
    List.foldl_nil]
  have hkeep {β : Type} {p : State → β} (hevent : ∀ u c d, p (State.event u c d) = p u) (g : SafeFn) (u : State) :
      p (f.events g u) = p u := safeEvents_keeps hevent f g u
  refine ⟨_, rfl, rfl, rfl, ?_, ?_, ?_⟩
  · exact hkeep (p := fun u => u.trip.periodAt) (fun _ _ _ => rfl) ..
  · exact hkeep (p := fun u => u.trip.levels) (fun _ _ _ => rfl) ..
  · exact hkeep (p := State.fio) (fun _ _ _ => rfl) ..

theorem wardNow_getLsbD (t : Trip) (n : Nat) (heval : t.evaluating = true) (hgood : t.safetyBad = false)
    (hdone : t.wardPeriodDone = true) (hn : n < 4) :
    t.wardNow.getLsbD n = t.fns.any (fun f => !f.isDo && f.idx == n && f.demand) := by
  have hward : t.wardNow = BitVec.ofNat 4 (mask 4 (fun n => t.fns.any (fun f => !f.isDo && f.idx == n && f.demand))) := by
    simp [Trip.wardNow, heval, hgood, hdone]
  rw [hward, BitVec.getLsbD_ofNat, testBit_mask]
  simp [hn]

/-- Settles O52: the configuration and the status of the safety functions, a safety period and the ward outputs. -/
theorem safetyFunctions : Obligations.SafetyFunctions :=
  ⟨answers_of_onReq (fun _ _ => rfl) fun s r _ ⟨hin, hpst⟩ => by
     dsimp only
     rw [if_neg (by rw [hin]; exact Bool.false_ne_true), hpst]
     rfl,
   fun f => answers_of_onReq (fun _ _ => rfl) fun s r _ ⟨hin, hpst⟩ => by
     dsimp only
     rw [if_neg (by rw [hin]; exact Bool.false_ne_true), hpst],
   answers_of_onReq (fun _ _ => rfl) fun s r _ _ => rfl,
   fun p fs => after_of fun s t u hu ⟨heval, hdue, hnew⟩ => by
     simp [execSafetyPeriod, ← hu, heval, not_lt.2 hdue, hnew],
   safetyPeriod_decides,
   fun s f => ⟨rfl, rfl⟩,
   fun t h => by rcases h with h | h <;> simp [Trip.wardNow, h],
   wardNow_getLsbD,
   fun s i was hkind hcond => by simp [State.safeInDemand, hkind, hcond],
   fun s i was hkind hcond => by simp [State.safeInDemand, hkind, hcond]⟩

end Sys2Proof.Proofs
end

section
/-! PROOFS. The ring's own actions (R419 to R449). -/

namespace Sys2Proof.Proofs

open Sys2Proof.Machine

/-! ### Lengths and cycles -/

@[simp] theorem length_beBytes (n v : Nat) : (beBytes n v).length = n := by simp [beBytes]

/-- A list of `n` parts of one length. -/
theorem length_flatMap_const {α β : Type} (l : List α) (f : α → List β) (k : Nat) (h : ∀ x, (f x).length = k) :
    (l.flatMap f).length = l.length * k := by
  simp [List.length_flatMap, h]

theorem ringStatus_answers (s : State) (rid : Nat) (r : Req) (h : s.ready rid 0x0500 r) : ∃ b : List Byte,
    b.length = 64 + 64 * 16 + ((List.range 64).flatMap (fun n => tget s.ring.trips n (zeros 8))).length ∧
    exec (.ringStatus rid) s = .next (s.complete r 0 0 0 (some b)) := by
  simp only [exec_ringStatus, execRingStatus]
  rw [onReq_of_ready h]
  refine ⟨_, ?_, rfl⟩
  simp only [List.length_append, length_u32, length_u64, length_zeros]
  rw [length_flatMap_const _ _ 16 (fun n => by simp [zeros])]
  simp

theorem unwrapCycle_bounds (c : Nat) : unwrapCycle c % 16 = 0 ∧ c + 32 ≤ unwrapCycle c ∧ unwrapCycle c < c + 48 := by
  have hlt := ceilDiv_mul_lt (c + 32) (b := 16) (by decide)
  exact ⟨Nat.mul_mod_left .., le_ceilDiv_mul (c + 32) (by decide), by unfold unwrapCycle; omega⟩

/-! ### Relays and links -/

theorem setLink_link (s : State) (east : Bool) (l : RingLink) : (s.setLink east l).link east = l := by
  cases east <;> rfl

theorem setLink_link_other (s : State) (east : Bool) (l : RingLink) : (s.setLink east l).link (!east) = s.link (!east) := by
  cases east <;> rfl

theorem setLink_self (s : State) (east : Bool) : s.setLink east (s.link east) = s := by
  cases east <;> rfl

theorem relayTarget_iff (s : State) (east : Bool) :
    s.relayTarget east = true ↔ (s.ringActive = false ∨ s.pwr.warn ≠ none ∨ (s.link east).forced = true) := by
  simp [State.relayTarget, Option.isSome_iff_ne_none, or_assoc]

theorem relaySense_ends (ec wc : Bool) (rid due : Nat) (r : Req) (s : State) (t : Nat) (hrid : s.ring.bypassRid = some (rid, due))
    (hfind : s.findReq rid = some r) (hec : ec = s.relayTarget true) (hwc : wc = s.relayTarget false)
    (he : s.ring.e.relayClosed = ec) (hw : s.ring.w.relayClosed = wc) :
    exec (.relaySense t ec wc) s = .next (({ s.tick t with ring := { s.ring with bypassRid := none } }).complete r 0) := by
  have hput (east : Bool) : (s.tick t).setLink east { (s.tick t).link east with
      relayClosed := ((s.tick t).link east).relayClosed } = s.tick t := setLink_self ..
  have hput1 : (s.tick t).setLink true { (s.tick t).link true with relayClosed := ec } = s.tick t := by rw [← he]; exact hput true
  have hput2 : (s.tick t).setLink false { (s.tick t).link false with relayClosed := wc } = s.tick t := by rw [← hw]; exact hput false
  have he' : (((s.tick t).link true).relayClosed == ec) = true := beq_iff_eq.2 he
  have hw' : (((s.tick t).link false).relayClosed == wc) = true := beq_iff_eq.2 hw
  have hec' : (ec == (s.tick t).relayTarget true) = true := beq_iff_eq.2 hec
  have hwc' : (wc == (s.tick t).relayTarget false) = true := beq_iff_eq.2 hwc
  have hrid' : (s.tick t).ring.bypassRid = some (rid, due) := hrid
  have hfind' : ({ s.tick t with ring := { (s.tick t).ring with bypassRid := none } } : State).findReq rid = some r := hfind
  simp only [exec_relaySense, execRelaySense, hput1, he', if_true, hput2, hw', hrid', hec', hwc', hfind', Bool.and_self,
    Bool.not_true, Bool.false_and, Bool.false_eq_true, if_false]
  rfl

/-- A loss of isolation, or an end of it, leaves the links and their counts. -/
theorem isolationChange_keeps {β : Type} {p : State → β} (hevent : ∀ u c d, p (State.event u c d) = p u) (old new : State)
    (htime : ∀ x, p { new with ring := { new.ring with timeState := x } } = p new) : p (State.isolationChange old new) = p new :=
  ite_keeps ((hevent ..).trans (htime _)) (ite_keeps (hevent ..) rfl)

theorem loseLink_keeps {β : Type} {p : State → β} (hevent : ∀ u c d, p (State.event u c d) = p u)
    (htime : ∀ u x, p { u with ring := { u.ring with timeState := x } } = p u) (s : State) (east : Bool) (l : RingLink) :
    p (s.loseLink east l) =
      let s1 := s.setLink east { l with up := false, lost := true, turned := true, seen := false, goodRun := 0, unwrapAt := none }
      p { s1 with ring := { s1.ring with wraps := satInc s1.ring.wraps } } :=
  (isolationChange_keeps hevent s _ (htime _)).trans ((opt_keeps' (hevent ..)).trans (hevent ..))

theorem loseLink_link (s : State) (east : Bool) (l : RingLink) : (s.loseLink east l).link east =
    { l with up := false, lost := true, turned := true, seen := false, goodRun := 0, unwrapAt := none } :=
  (loseLink_keeps (p := fun u => u.link east) (fun _ _ _ => rfl) (fun _ _ => rfl) s east l).trans (setLink_link s east _)

theorem loseLink_link_other (s : State) (east : Bool) (l : RingLink) : (s.loseLink east l).link (!east) = s.link (!east) :=
  (loseLink_keeps (p := fun u => u.link (!east)) (fun _ _ _ => rfl) (fun _ _ => rfl) s east l).trans (setLink_link_other s east _)

theorem loseLink_wraps (s : State) (east : Bool) (l : RingLink) : (s.loseLink east l).ring.wraps = satInc s.ring.wraps := by
  refine (loseLink_keeps (p := fun u => u.ring.wraps) (fun _ _ _ => rfl) (fun _ _ => rfl) s east l).trans ?_
  cases east <;> rfl

theorem linkLost_of_phy (east : Bool) (s : State) (t : Nat) : let u := s.tick t
    u.ringActive = true → (u.link east).up = true →
    ∃ v, exec (.linkLost t { east := east, phyUp := false }) s = .next v ∧ (v.link east).up = false ∧ (v.link east).lost = true ∧
      (v.link east).turned = true ∧ v.ring.wraps = satInc u.ring.wraps ∧ v.link (!east) = u.link (!east) := by
  simp only [exec_linkLost, execLinkLost]
  generalize s.tick t = u
  intro hact hup
  simp only [hact, hup, Bool.not_true, Bool.and_false, Bool.false_eq_true, if_false]
  exact ⟨_, rfl, by rw [loseLink_link], by rw [loseLink_link], by rw [loseLink_link], loseLink_wraps .., loseLink_link_other ..⟩

theorem linkLost_of_silence (east : Bool) (s : State) (t : Nat) : let u := s.tick t
    u.ringActive = true → (u.link east).up = true → (u.link east).lastRx + u.cycles 4 ≤ u.mt →
    ∃ v, exec (.linkLost t { east := east, phyUp := true }) s = .next v ∧ (v.link east).up = false ∧ (v.link east).lost = true ∧
      (v.link east).turned = true ∧ v.ring.wraps = satInc u.ring.wraps ∧ v.link (!east) = u.link (!east) := by
  simp only [exec_linkLost, execLinkLost]
  generalize s.tick t = u
  intro hact hup hold
  simp only [hact, hup, hold, decide_true, Bool.and_self, Bool.not_true, Bool.false_eq_true, if_false, if_true]
  exact ⟨_, rfl, by rw [loseLink_link], by rw [loseLink_link], by rw [loseLink_link], loseLink_wraps .., loseLink_link_other ..⟩

theorem unwrapPort_of_due (s : State) (east : Bool) (c : Nat) (hat : (s.link east).unwrapAt = some c)
    (hdue : s.ring.applied.opening c ≤ s.mt) (hturned : (s.link east).turned = true) (hwhole : (s.link east).whole = true) :
    s.unwrapPort east =
      (s.setLink east { s.link east with turned := false, lost := false, unwrapAt := none }).event 0x0503 [portNum east, c] := by
  simp [State.unwrapPort, hat, not_lt.2 hdue, hturned, hwhole]

/-! ### Cycles and time -/

theorem ite_bnot {α : Type} (b : Bool) (x y : α) : (if (!b) = true then x else y) = if b = true then y else x := by
  cases b <;> rfl

/-- Outputs that no task has written since the last cycle leave the ring as it is. -/
theorem noTaskVals (h : State) (hv : h.ring.taskVals = []) : ({ h with ring := { h.ring with
    outVals := h.ring.taskVals.foldl (fun (t : Tab (BitVec 32 × Bool)) (e : Nat × BitVec 32) => tset t e.1 (e.2, false)) h.ring.outVals
    taskVals := [] } } : State) = h := by
  simp only [hv, List.foldl_nil]
  rw [← hv]

/-- RING_CYCLE_OPEN on the state that the harvests due have left, with the tasks' outputs taken. -/
def ringOpened (idle s0 : State) : State :=
  if !s0.ringActive || s0.mt % s0.cycles 1 != 0 then idle
  else
    let s1 := match s0.ring.pendingApply with
      | some (at_, c) =>
        if at_ ≤ s0.mt then
          ({ s0 with ring := { s0.ring with applied := c, pendingApply := none, applyResult := 1 } }).event 0x0509
        else s0
      | none => s0
    let s2 := { s1 with ring := { s1.ring with cycleNum := s1.mt / (s1.ring.applied.period * 1000) } }
    let s3 := s2.electMaster.unwrapDue
    if !s3.ringEmits then s3 else s3.sendSync.sendDrops.sendBlocks

theorem exec_ringCycleOpen_of_idle (t : Nat) (s : State) (hvals : ((s.tick t).harvestDue none).ring.taskVals = []) :
    exec (.ringCycleOpen t) s = .next (ringOpened (s.tick t) ((s.tick t).harvestDue none)) :=
  congrArg (fun s0 => Host.Outcome.next (ringOpened (s.tick t) s0)) (noTaskVals _ hvals)

theorem ringCycleOpen_plain : After .ringCycleOpen
    (fun u =>
      let h := u.harvestDue none
      h.ringActive ∧ h.mt % h.cycles 1 = 0 ∧ h.ring.pendingApply = none ∧ h.ring.taskVals = [])
    (fun u =>
      let h := u.harvestDue none
      let v := ({ h with ring := { h.ring with cycleNum := h.mt / (h.ring.applied.period * 1000) } }).electMaster.unwrapDue
      if v.ringEmits then v.sendSync.sendDrops.sendBlocks else v) :=
  after_of fun s t u hu ⟨hact, hmt, hpend, hvals⟩ => by
    have hgo : ¬ (!(u.harvestDue none).ringActive || (u.harvestDue none).mt % (u.harvestDue none).cycles 1 != 0) = true := by
      simp [hact, hmt]
    rw [exec_ringCycleOpen_of_idle t s (by rwa [← hu]), ← hu]
    simp only [ringOpened, if_neg hgo, hpend, ite_bnot]

theorem ringCycleOpen_applies (a : Nat) (c : RingCfg) : After .ringCycleOpen
    (fun u =>
      let h := u.harvestDue none
      h.ringActive ∧ h.mt % h.cycles 1 = 0 ∧ h.ring.pendingApply = some (a, c) ∧ a ≤ h.mt ∧ h.ring.taskVals = [])
    (fun u =>
      let h := u.harvestDue none
      let w := ({ h with ring := { h.ring with applied := c, pendingApply := none, applyResult := 1 } }).event 0x0509
      let v := ({ w with ring := { w.ring with cycleNum := w.mt / (w.ring.applied.period * 1000) } }).electMaster.unwrapDue
      if v.ringEmits then v.sendSync.sendDrops.sendBlocks else v) :=
  after_of fun s t u hu ⟨hact, hmt, hpend, hdue, hvals⟩ => by
    have hgo : ¬ (!(u.harvestDue none).ringActive || (u.harvestDue none).mt % (u.harvestDue none).cycles 1 != 0) = true := by
      simp [hact, hmt]
    rw [exec_ringCycleOpen_of_idle t s (by rwa [← hu]), ← hu]
    simp only [ringOpened, if_neg hgo, hpend, hdue, if_true,
      ite_bnot]

theorem electMaster_of_master (s : State) (hmaster : s.ring.master = s.ownNode) (hprio : s.ownPrio ≠ 255) :
    s.electMaster.ring.master = s.ownNode ∧ s.electMaster.ring.timeState = 1 := by
  have h : s.electMaster = s.setMaster s.ownNode s.ownPrio 1 := by simp [State.electMaster, hmaster, hprio]
  rw [h]
  exact ⟨opt_keeps' (p := fun u => u.ring.master) rfl, opt_keeps' (p := fun u => u.ring.timeState) rfl⟩

theorem c1Slot_sends (slot : Fin 64) (left n : Nat) (x : RingSlot) : After (.c1Slot · slot left)
    (fun u =>
      let v := u.outputsDue
      v.ring.applied.used.find? (fun e => e.1 == slot.val) = some (n, x) ∧ v.ringEmits ∧
        v.mt = v.ring.applied.opening v.ring.cycleNum + x.offset ∧ left ≤ v.mt + 2000)
    (fun u =>
      let v := u.outputsDue
      v.ringSend 1 1 n v.mt (x.ids.flatMap (fun i =>
        match tfind v.ring.outVals i with
        | some y => beBytes 2 i ++ beBytes 1 (fld 1 1 (b2n y.2)) ++ zeros 1 ++ beBytes 4 y.1.toNat
        | none => beBytes 2 i ++ beBytes 1 2 ++ zeros 5))) :=
  after_of fun s t u hu ⟨hslot, hemits, hmt, hleft⟩ => by
    have hgo : ¬ (!u.outputsDue.ringEmits || u.outputsDue.mt != u.outputsDue.mt) = true := by simp [hemits]
    simp only [exec_c1Slot, execC1Slot, ← hu, hslot, ← hmt, if_neg hgo, if_neg (not_lt.2 hleft)] <;> rfl

theorem syncTimeout_of_locking (c : Nat) : After .syncTimeout
    (fun u => u.ring.lastSync = some c ∧ u.ringActive ∧ c + u.cycles 4 ≤ u.now ∧ u.ring.timeState = 2)
    (fun u => { u with ring := { u.ring with timeState := 5, lockRun := 0 } }) :=
  after_of fun s t u hu ⟨hsync, hact, hold, htime⟩ => by
    simp [execSyncTimeout, ← hu, State.syncHeard, hsync, hact, not_lt.2 hold, htime]

theorem syncTimeout_of_locked (c : Nat) : After .syncTimeout
    (fun u => u.ring.lastSync = some c ∧ u.ringActive ∧ c + u.cycles 4 ≤ u.now ∧ u.ring.timeState = 3)
    (fun u => ({ u with ring := { u.ring with timeState := 5, lockRun := 0 } }).event 0x0508 [ev u.ring.timeOffset]) :=
  after_of fun s t u hu ⟨hsync, hact, hold, htime⟩ => by
    simp [execSyncTimeout, ← hu, State.syncHeard, hsync, hact, not_lt.2 hold, htime]

/-! ### Values and images -/

theorem valueLost_of_class1 (id : BitVec 16) (v : RingVal) : After (.valueLost · id)
    (fun u => tfind u.ring.vals id.toNat = some v ∧ id.toNat < 0x8000 ∧ v.rxAt + u.cycles 4 ≤ u.now ∧
      tfind u.ring.vals (echoKey id.toNat) = none)
    (fun u => u.setVal id.toNat { v with lost := true }) :=
  after_of fun s t u hu ⟨hval, hid, hold, hecho⟩ => by
    have hlose : u.loseVal id.toNat (u.cycles 4) = u.setVal id.toNat { v with lost := true } := by
      simp [State.loseVal, hval, hold]
    have hnext (w : Nat) : (u.setVal id.toNat { v with lost := true }).loseVal (echoKey id.toNat) w =
        u.setVal id.toNat { v with lost := true } := by
      have hkey : echoKey id.toNat ≠ id.toNat := by unfold echoKey; omega
      have : tfind (u.setVal id.toNat { v with lost := true }).ring.vals (echoKey id.toNat) = none :=
        (tfind_tset ..).trans (by rw [if_neg hkey, hecho])
      simp only [State.loseVal, this]
    simp only [exec_valueLost, execValueLost, ← hu, if_pos hid, hlose, hnext]

theorem dropLost_loses (node : Fin 64) (v : RingVal) : After (.dropLost · node)
    (fun u => tfind u.ring.images node.val = some v ∧ u.ring.applied.dropIn node.val ∧ v.lost = false ∧
      v.rxAt + u.cycles (u.ring.applied.dropTimeout node.val) ≤ u.now)
    (fun u => ({ u with ring := { u.ring with
      images := tset u.ring.images node.val { v with lost := true } } }).event 0x050D [node.val]) :=
  after_of fun s t u hu ⟨himg, hin, hlost, hold⟩ => by
    have hget : tget u.ring.images node.val {} = v := by rw [tget_eq_tfind, himg]; rfl
    simp only [exec_dropLost, execDropLost, ← hu, hget, hin, hlost, hold, decide_true, Bool.true_or, Bool.not_false, Bool.and_self,
      if_true]

/-- Settles O53: requests, the cycle of the ring, the module's own frames and what ends a link, a value or an image. -/
theorem ringActions : Obligations.RingActions :=
  ⟨ringStatus_answers,
   answers_of_onReq (fun _ _ => rfl) fun s r _ ⟨hfree, hrelay⟩ => by
     dsimp only at hrelay ⊢
     rw [if_neg (by simp [hfree]), if_neg fun h => hrelay (beq_iff_eq.1 (Bool.and_eq_true_iff.1 h).1)],
   answers_of_onReq (fun _ _ => rfl) fun s r _ ⟨hfree, he, hw⟩ => by
     dsimp only at he hw ⊢
     rw [if_neg (by simp [hfree]), if_pos (Bool.and_eq_true_iff.2 ⟨beq_iff_eq.2 he, beq_iff_eq.2 hw⟩), stOk_eq_zero],
   relaySense_ends, relayTarget_iff,
   fun h => answers_of_onReq (fun _ _ => rfl) fun s r _ hin => by simp [hin],
   fun h => answers_of_onReq (fun _ _ => rfl) fun s r _ hin => by simp [hin],
   fun w hw => after_of fun s t u hu ⟨hok, hpair⟩ => by
     have hpair' (x : Ring) : ({ u with ring := x } : State).leadsPair = false := hpair
     simp [execApply, ← hu, State.ringApply, hw, State.mirrorWrite, hpair, hok, hpair'],
   fun w k i hw => after_of fun s t u hu ⟨hbad, hpair⟩ => by
     simp [execApply, ← hu, State.ringApply, hw, State.mirrorWrite, hpair, hbad],
   ringCycleOpen_plain, ringCycleOpen_applies, electMaster_of_master, c1Slot_sends,
   after_of fun s t u hu ⟨hact, hmt⟩ => by simp [execLinkFrameSend, ← hu, hact, hmt],
   after_of fun s t u hu ⟨hemits, hnone, _⟩ => by simp [execTripFrameSend, ← hu, hemits, hnone],
   syncTimeout_of_locking, syncTimeout_of_locked, linkLost_of_phy, linkLost_of_silence,
   fun east => after_of fun s t u hu h => by simp [execRingLinkUp, ← hu, h],
   after_of fun s t u hu _ => by rw [hu]; rfl,
   unwrapPort_of_due,
   fun s east h => by simp [State.unwrapPort, h],
   valueLost_of_class1,
   fun id v => after_of fun s t u hu ⟨hval, hlo, hhi, hold⟩ => by
     simp [execValueLost, ← hu, not_lt.2 hlo, hhi, State.loseVal, hval, hold],
   dropLost_loses,
   fun c n => length_beBytes n c,
   unwrapCycle_bounds⟩

end Sys2Proof.Proofs
end

section
/-! PROOFS. Frames on the ring (R414 to R445). -/

namespace Sys2Proof.Proofs

open Sys2Proof.Machine

/-! ### Sending and taking a frame -/

theorem frameHeader_length (f : RingFrame) : (frameHeader f).length = 24 := by simp [frameHeader]

theorem ringStart_emits (s : State) (east : Bool) (f : RingFrame) (h : f.kind ≠ 7) : s.ringStart east f = s.emit (.ring east f) := by
  simp [State.ringStart, h]

theorem ringOut_wrapped (s : State) (east : Bool) (f : RingFrame) (h : (s.link east).turned = true)
    (hother : (s.link (!east)).turned = false) (hkind : f.kind ≠ 7) :
    s.ringOut east f = s.emit (.ring (!east) { f with wrapped := true }) := by
  have hstart := ringStart_emits s (!east) { f with wrapped := true } hkind
  simp [State.ringOut, h, hother, hstart]

theorem ringOut_straight (s : State) (east : Bool) (f : RingFrame) (h : (s.link east).turned = false) (hkind : f.kind ≠ 7) :
    s.ringOut east f = s.emit (.ring east f) := by
  simp [State.ringOut, h, ringStart_emits s east f hkind]

/-- A SIMPLEX module uses a frame itself and tells no partner. -/
theorem ringUse_of_simplex (s : State) (f : RingFrame) (use : State → State) (h : s.modes.role = .simplex) :
    s.ringUse f use = use s := by
  simp [State.ringUse, State.leadsPair, h]

theorem ringAccept_uses (s : State) (t : Nat) (east : Bool) (f : RingFrame) (kind : Nat) (use : State → State) : let u := s.tick t
    u.ringActive = true → f.kind = kind → frameGood f = true → f.src ≠ u.ownNode → (u.ringIn east f).seqNew f = true →
    (u.ringIn east f).modes.role = .simplex → s.ringAccept t east f kind use = use ((u.ringIn east f).seqTake f) := by
  intro u hact hkind hgood hsrc hnew hrole
  have huse := ringUse_of_simplex ((u.ringIn east f).seqTake f) f use hrole
  have hgo : ¬ (!u.ringActive || f.kind != kind) = true := by simp [hact, hkind]
  have hgo' : ¬ (!frameGood f || f.src == u.ownNode || !((u.ringIn east f).seqNew f)) = true := by simp [hgood, hsrc, hnew]
  exact (if_neg hgo).trans ((if_neg hgo').trans huse)

theorem ringAccept_drops (s : State) (t : Nat) (east : Bool) (f : RingFrame) (kind : Nat) (use : State → State) : let u := s.tick t
    u.ringActive = true → f.kind = kind → frameGood f = false ∨ f.src = u.ownNode →
    s.ringAccept t east f kind use = u.ringIn east f := by
  intro u hact hkind hbad
  have hgo : ¬ (!u.ringActive || f.kind != kind) = true := by simp [hact, hkind]
  have hbad' : (!frameGood f || f.src == u.ownNode || !((u.ringIn east f).seqNew f)) = true := by
    rcases hbad with h | h <;> simp [h]
  exact (if_neg hgo).trans (if_pos hbad')

theorem ringAccept_idle (s : State) (t : Nat) (east : Bool) (f : RingFrame) (kind : Nat) (use : State → State)
    (h : (s.tick t).ringActive = false) : s.ringAccept t east f kind use = s.tick t := by
  simp [State.ringAccept, h]

/-- What the commands of one kind of frame do: they use a good, new frame, drop a bad or an own one, and idle off the ring. -/
theorem receives (i : Nat → Bool → RingFrame → Instr) (kind : Nat) (use : State → RingFrame → State)
    (hexec : ∀ t east f s, f.kind = kind → exec (i t east f) s = .next (s.ringAccept t east f kind (fun x => use x f)))
    (hidle : ∀ t east f s, (s.tick t).ringActive = false → exec (i t east f) s = .next (s.tick t)) :
    (∀ east f, After (i · east f)
      (fun u => u.ringActive ∧ f.kind = kind ∧ frameGood f ∧ f.src ≠ u.ownNode ∧ (u.ringIn east f).seqNew f ∧
        (u.ringIn east f).modes.role = .simplex)
      (fun u => use ((u.ringIn east f).seqTake f) f)) ∧
    (∀ east f, After (i · east f) (fun u => u.ringActive ∧ f.kind = kind ∧ (frameGood f = false ∨ f.src = u.ownNode))
      (fun u => u.ringIn east f)) ∧
    (∀ east f, After (i · east f) (fun u => u.ringActive = false) (fun u => u)) :=
  ⟨fun east f s t ⟨hact, hkind, hgood, hsrc, hnew, hrole⟩ => by
     rw [hexec _ _ _ _ hkind, ringAccept_uses s t east f kind _ hact hkind hgood hsrc hnew hrole],
   fun east f s t ⟨hact, hkind, hbad⟩ => by rw [hexec _ _ _ _ hkind, ringAccept_drops s t east f kind _ hact hkind hbad],
   fun east f s t hidle' => hidle t east f s hidle'⟩

theorem framesReceived : ∀ p ∈ [(Instr.dataFrameReceive, 1, State.useData), (.blockFrameReceive, 2, State.useBlock),
      (.dropImageReceive, 3, State.useDrop), (.tripFrameReceive, 5, State.useTrip), (.serviceFrameReceive, 7, fun s _ => s)],
    (∀ east f, After (p.1 · east f)
      (fun u => u.ringActive ∧ f.kind = p.2.1 ∧ frameGood f ∧ f.src ≠ u.ownNode ∧ (u.ringIn east f).seqNew f ∧
        (u.ringIn east f).modes.role = .simplex)
      (fun u => p.2.2 ((u.ringIn east f).seqTake f) f)) ∧
    (∀ east f, After (p.1 · east f) (fun u => u.ringActive ∧ f.kind = p.2.1 ∧ (frameGood f = false ∨ f.src = u.ownNode))
      (fun u => u.ringIn east f)) ∧
    (∀ east f, After (p.1 · east f) (fun u => u.ringActive = false) (fun u => u)) := by
  have hidle (t : Nat) (east : Bool) (f : RingFrame) (kind : Nat) (use : State → State) (s : State) (h : (s.tick t).ringActive = false) :
      Host.Outcome.next (φ := Fault) (ρ := Refusal) (s.ringAccept t east f kind use) = .next (s.tick t) :=
    congrArg _ (ringAccept_idle s t east f kind use h)
  simp only [List.forall_mem_cons, List.not_mem_nil, false_imp_iff, implies_true, and_true]
  refine ⟨receives _ _ _ (fun _ _ _ _ _ => rfl) fun _ _ _ _ h => hidle _ _ _ _ _ _ h,
    receives _ _ _ (fun _ _ _ _ _ => rfl) fun _ _ _ _ h => hidle _ _ _ _ _ _ h,
    receives _ _ _ (fun _ _ _ _ _ => rfl) fun _ _ _ _ h => hidle _ _ _ _ _ _ h,
    receives _ _ _ (fun _ _ _ _ _ => rfl) fun _ _ _ _ h => hidle _ _ _ _ _ _ h,
    receives .serviceFrameReceive 7 (fun s _ => s) (fun t east f s hkind => ?_) fun t east f s h => ?_⟩
  · simp [execServiceFrameReceive, hkind]
  · simp only [exec_serviceFrameReceive, execServiceFrameReceive, ringAccept_idle _ _ _ _ _ _ h, ite_self]

/-! ### What the forwarding of a frame leaves -/

theorem ringDrain_of_none (s : State) (h : s.ring.heldC3 = []) : s.ringDrain = s := by
  simp only [State.ringDrain, h, List.filter_nil, List.foldl_nil]
  rw [← h]

theorem ringForward_of_end (s : State) (east : Bool) (f : RingFrame) (h : f.hops ≤ 1 ∨ f.src = s.ownNode) :
    s.ringForward east f = s := by
  rcases h with h | h <;> simp [State.ringForward, h]

theorem ringIn_of_bad (s : State) (east : Bool) (f : RingFrame) (hbad : frameGood f = false) (hhops : f.hops ≤ 1)
    (hheld : s.ring.heldC3 = []) : (s.ringIn east f).ring.crcErr = satInc s.ring.crcErr ∧ (s.ringIn east f).out = s.out := by
  have hend (u : State) : u.ringForward east f = u := ringForward_of_end u east f (.inl hhops)
  simp only [State.ringIn, ringDrain_of_none s hheld, hbad, Bool.false_eq_true, if_false, hend, ite_self, and_self]

theorem ringIn_of_own (s : State) (east : Bool) (f : RingFrame) (hsrc : f.src = s.ownNode) (hheld : s.ring.heldC3 = []) :
    (s.ringIn east f).out = s.out := by
  have hend (u : State) (h : u.ownNode = s.ownNode) : (u.ringForward east f).out = u.out :=
    congrArg _ (ringForward_of_end u east f (.inr (hsrc.trans h.symm)))
  unfold State.ringIn
  rw [ringDrain_of_none s hheld]
  exact ite_keeps (p := State.out) rfl (hend _ rfl)

/-! ### Module time -/

theorem ring_aside : Aside State.ring where
  bare h := (congrArg (fun u => u.ring) h :)
  tiles _ _ := rfl
  ports _ _ := rfl
  drill _ _ := rfl
  modes _ _ _ _ _ _ _ _ := rfl

theorem Aside.stepSweeps {β : Type} {p : State → β} (hp : Aside p) (hcells : ∀ (s : State) x, p { s with cells := x } = p s)
    (s : State) : p s.stepSweeps = p s := by
  refine (hcells ..).trans (foldl_keeps (fun u n => ?_) ..)
  exact (hp.setPort ..).trans (hp.closeOpen ..)

theorem timeValid_keeps {β : Type} {p : State → β} (hevent : ∀ u c d, p (State.event u c d) = p u)
    (hclk : ∀ (s : State) x, p { s with clk := x } = p s) (s : State) : p s.timeValid = p s :=
  ite_keeps rfl ((hevent ..).trans (hclk ..))

/-- The correction that a master's offset asks for: the whole of it in a step, else as much as the slew rate allows. -/
def slewed (s : State) (off : Int) (since : Nat) : Int :=
  if s.modes.mode != .run && (decide (1000 < off) || decide (off < -1000)) then off
  else max (-((since / 5000 : Nat) : Int)) (min ((since / 5000 : Nat) : Int) off)

theorem discipline_mtOff (s : State) (off : Int) (since : Nat) :
    (s.discipline off since false).mtOff = s.offset - slewed s off since := by
  have hvalid (u : State) : u.timeValid.mtOff = u.mtOff :=
    timeValid_keeps (p := State.mtOff) (fun _ _ _ => rfl) (fun _ _ => rfl) u
  have hevent (u : State) (c : Nat) (d : List Nat) : (u.event c d).mtOff = u.mtOff := State.event_mtOff ..
  unfold State.discipline
  refine (ite_keeps (p := State.mtOff) ((hvalid _).trans (hevent ..)) (opt_keeps (hevent ..))).trans ?_
  simp only [Bool.false_eq_true, if_false, add_zero]
  rfl

/-- Whether an offset counts as close. -/
def near (off : Int) : Bool := decide (-20 ≤ off) && decide (off ≤ 20)

theorem discipline_ring (s : State) (off : Int) (since : Nat) : (s.discipline off since false).ring = { s.ring with
    timeOffset := off, lockRun := if !near off then 0 else s.ring.lockRun + 1, syncSince := since, syncCorr := slewed s off since
    timeState := if near off && (s.ring.timeState == 3 || 64 ≤ (if !near off then 0 else s.ring.lockRun + 1)) then 3 else 2 } := by
  have hvalid (u : State) : u.timeValid.ring = u.ring :=
    timeValid_keeps (p := State.ring) (fun _ _ _ => rfl) (fun _ _ => rfl) u
  have hevent (u : State) (c : Nat) (d : List Nat) : (u.event c d).ring = u.ring := State.event_ring ..
  have hstep (c : Prop) [Decidable c] : (if c then s.stepSweeps else s).ring = s.ring :=
    opt_keeps (p := State.ring) (ring_aside.stepSweeps (fun _ _ => rfl) s)
  unfold State.discipline
  refine (ite_keeps (p := State.ring) ((hvalid _).trans (hevent ..)) (opt_keeps (hevent ..))).trans ?_
  simp only [hstep, Bool.false_eq_true, if_false]
  rfl

theorem slewed_of_step (s : State) (off : Int) (since : Nat) (hmode : s.modes.mode ≠ .run) (hbig : 1000 < off ∨ off < -1000) :
    slewed s off since = off := by
  simp [slewed, hmode, hbig]

theorem slewed_bounds (s : State) (off : Int) (since : Nat) (hmode : s.modes.mode = .run) :
    -((since / 5000 : Nat) : Int) ≤ slewed s off since ∧ slewed s off since ≤ ((since / 5000 : Nat) : Int) := by
  have h : slewed s off since = max (-((since / 5000 : Nat) : Int)) (min ((since / 5000 : Nat) : Int) off) := by
    simp [slewed, hmode]
  rw [h]
  omega

theorem useSync_hears (s : State) (east : Bool) (f : RingFrame) (hprio : s.ownPrio = 255) (hfollows : s.followsSync f = true) :
    (s.useSync east f false).ring.lastSync = some s.now ∧ (s.useSync east f false).ring.syncHops = f.hops := by
  have hhear : (s.hearMaster f).ring.lastSync = some s.now ∧ (s.hearMaster f).ring.syncHops = f.hops :=
    ⟨opt_keeps (p := fun u => u.ring.lastSync) rfl, opt_keeps (p := fun u => u.ring.syncHops) rfl⟩
  have hbody (since : Nat) : ((s.hearMaster f).discipline (s.syncOffset east f) since false).ring.lastSync = some s.now ∧
      ((s.hearMaster f).discipline (s.syncOffset east f) since false).ring.syncHops = f.hops := by
    rw [discipline_ring]
    exact hhear
  simp only [State.useSync, hprio, hfollows, bne_self_eq_false, Bool.false_and, Bool.false_eq_true, if_false, Bool.not_true]
  exact hbody _

theorem discipline_of_far (s : State) (off : Int) (since : Nat) (h : off < -20 ∨ 20 < off) :
    (s.discipline off since false).ring.timeState = 2 ∧ (s.discipline off since false).ring.lockRun = 0 := by
  have hfar : near off = false := by
    rcases h with h | h <;> simp [near, h]
  rw [discipline_ring]
  simp [hfar]

theorem discipline_of_near (s : State) (off : Int) (since : Nat) (hlo : -20 ≤ off) (hhi : off ≤ 20) :
    (s.discipline off since false).ring.lockRun = s.ring.lockRun + 1 ∧
    (s.discipline off since false).ring.timeState = (if s.ring.timeState = 3 ∨ 64 ≤ s.ring.lockRun + 1 then 3 else 2) := by
  have hnear : near off = true := by simp [near, hlo, hhi]
  rw [discipline_ring]
  simp [hnear]

theorem syncReceive_uses (east : Bool) (f : RingFrame) : After (.syncReceive · east f)
    (fun u => u.ringActive ∧ f.kind = 6 ∧ frameGood f ∧ f.src ≠ u.ownNode ∧ (u.ringIn east f).seqNew f ∧
      (u.ringIn east f).modes.role = .simplex ∧
      u.ring.seqs.any (fun (x, y, z, q, _) => x == f.src && y == 6 && z == 0 && q == f.seq) = false)
    (fun u => ((u.ringIn east f).seqTake f).useSync east f false) :=
  after_of fun s t u hu ⟨hact, hkind, hgood, hsrc, hnew, hrole, hfirst⟩ => by
    have huse (use) := ringUse_of_simplex ((u.ringIn east f).seqTake f) f use hrole
    have hgo : ¬ (!frameGood f || f.src == u.ownNode || !((u.ringIn east f).seqNew f || false)) = true := by
      simp [hgood, hsrc, hnew]
    simp only [exec_syncReceive, execSyncReceive, ← hu, hact, hkind, hfirst, Bool.not_true, bne_self_eq_false, Bool.or_self,
      Bool.false_and, Bool.false_eq_true, if_false, if_neg hgo, huse]

/-! ### Link frames -/

theorem linkFrameReceive_bad (east : Bool) (f : RingFrame) : After (.linkFrameReceive · east f)
    (fun u => u.ringActive ∧ f.kind = 8 ∧ frameGood f = false)
    (fun u => (u.ringIn east f).setLink east { (u.ringIn east f).link east with goodRun := 0 }) :=
  after_of fun s t u hu ⟨hact, hkind, hbad⟩ => by
    simp only [exec_linkFrameReceive, execLinkFrameReceive, ← hu, hact, hkind, hbad, Bool.not_true, Bool.not_false,
      bne_self_eq_false, Bool.or_self, Bool.false_eq_true, if_false, if_true]

theorem linkFrameReceive_good (east : Bool) (f : RingFrame) (s : State) (t : Nat) : let u := s.tick t
    u.ringActive = true → f.kind = 8 → frameGood f = true → f.src ≠ u.ownNode → (u.ringIn east f).seqNew f = true →
    ∃ v, exec (.linkFrameReceive t east f) s = .next v ∧ (v.link east).neighbour = beRd f.payload 0 1 ∧
      (v.link east).lastStamp = f.stamp ∧ (v.link east).lastRx = u.mt ∧ (v.link east).seen = true := by
  simp only [exec_linkFrameReceive, execLinkFrameReceive]
  generalize s.tick t = u
  intro hact hkind hgood hsrc hnew
  have hgo : ¬ (!u.ringActive || f.kind != 8) = true := by simp [hact, hkind]
  have hgood' : ¬ (!frameGood f) = true := by simp [hgood]
  have hgo' : ¬ (f.src == u.ownNode || !((u.ringIn east f).seqNew f)) = true := by simp [hsrc, hnew]
  simp only [if_neg hgo, if_neg hgood', if_neg hgo']
  refine ⟨_, rfl, ?_⟩
  have hlink (w : State) : (State.isolationChange u w).link east = w.link east :=
    isolationChange_keeps (p := fun v => v.link east) (fun _ _ _ => rfl) u w (fun _ => by cases east <;> rfl)
  have hev (c : Prop) [Decidable c] (w : State) (k : Nat) (d : List Nat) : (if c then w.event k d else w).link east = w.link east :=
    opt_keeps (p := fun v => v.link east) rfl
  rw [hlink, hev, setLink_link]
  exact ⟨rfl, rfl, rfl, rfl⟩

/-- Settles O54: own frames, what becomes of a frame that comes in, and how a master's frames discipline module time. -/
theorem ringFrames : Obligations.RingFrames :=
  ⟨fun s kind cls sub stamp payload => ⟨rfl, rfl, rfl, rfl, rfl, rfl, rfl, rfl⟩,
   frameHeader_length, ringOut_wrapped, ringOut_straight,
   fun s east f h hother => by simp [State.ringOut, h, hother],
   fun f => by simp [frameGood, and_assoc],
   framesReceived, ringIn_of_bad, ringIn_of_own,
   fun s f hlo hhi hown => by simp [State.useBlock, not_lt.2 hlo, not_le.2 hhi, hown],
   fun s f hlo hhi hown => by
     simp only [State.useBlock, not_lt.2 hlo, not_le.2 hhi, hown, decide_false, Bool.or_self, Bool.false_eq_true, if_false]
     exact ⟨_, tfind_tset_same .., rfl, rfl, rfl, rfl⟩,
   fun s f e hid hecho hown => by
     simp only [State.useEntry, not_lt.2 hid, hecho, hown, Bool.false_eq_true, if_false]
     exact ⟨_, tfind_tset_same .., rfl, rfl, rfl, rfl⟩,
   fun s f h => by simp [State.useDrop, h],
   fun s f h => by
     simp only [State.useTrip, h, beq_self_eq_true, if_true]
     exact ⟨rfl, rfl⟩,
   syncReceive_uses, useSync_hears,
   fun s off since hmode hbig => by rw [discipline_mtOff, slewed_of_step s off since hmode hbig],
   fun s off since hmode => by
     obtain ⟨hlo, hhi⟩ := slewed_bounds s off since hmode
     rw [discipline_mtOff]
     omega,
   fun s off since => by rw [discipline_ring],
   discipline_of_far, discipline_of_near, linkFrameReceive_bad, linkFrameReceive_good⟩

end Sys2Proof.Proofs
end

section
/-! PROOFS. CAN channels (R450 to R469). -/

namespace Sys2Proof.Proofs

open Sys2Proof.Machine

theorem opening0_aligned (m : CanMatrix) (mt : Nat) (hn : 0 < m.ncycles) (hl : 0 < m.bcLen) : mt ≤ m.opening0 mt ∧
    (m.opening0 mt - m.phase * 1000) % (m.ncycles * m.bcLen * 1000) = 0 := by
  have hpos : 0 < m.ncycles * m.bcLen * 1000 := Nat.mul_pos (Nat.mul_pos hn hl) (by decide)
  have hle := le_ceilDiv_mul (mt - m.phase * 1000) hpos
  refine ⟨?_, ?_⟩
  · unfold CanMatrix.opening0
    dsimp only
    omega
  · simp [CanMatrix.opening0]

/-! ### What a channel counts -/

/-- The counts of a channel's own frames. -/
def tally (c : Can) : Nat × Nat × Nat × Bool := (c.txOk, c.lastTx, c.noAckRun, c.alone)

theorem setChan_tally (s : State) (ch : Nat) (c : Can) (h : tally c = tally (s.chan ch)) :
    tally ((s.setChan ch c).chan ch) = tally (s.chan ch) := by
  simpa using h

theorem canCounters_tally (s : State) (ch tec rec : Nat) : tally ((s.canCounters ch tec rec).chan ch) = tally (s.chan ch) := by
  have hset (c : Can) (h : tally c = tally (s.chan ch)) := setChan_tally s ch c h
  have hevent (c : Can) (k : Nat) (d : List Nat) (h : tally c = tally (s.chan ch)) :
      tally (((s.setChan ch c).event k d).chan ch) = tally (s.chan ch) := by simpa using h
  unfold State.canCounters
  exact ite_keeps (p := fun u => tally (u.chan ch)) rfl (ite_keeps (p := fun u => tally (u.chan ch)) (hevent _ _ _ rfl)
    (ite_keeps (p := fun u => tally (u.chan ch)) (ite_keeps (p := fun u => tally (u.chan ch)) (hevent _ _ _ rfl) (hset _ rfl))
      (hset _ rfl)))

theorem addItem_can (s : State) (h : BitVec 32) (mt : Nat) (item : List Byte) : (s.addItem h mt item).can = s.can := by
  have hflush (u : State) (x : Sub) : (u.flushSub x).can = u.can :=
    ite_keeps (p := State.can) rfl (congrArg State.can (settled_deliver u x.handle x.firstMt x.items) :)
  unfold State.addItem
  split
  · rfl
  · exact ite_keeps (p := State.can) (hflush ..) rfl

/-- Giving a frame to its filters and subscribers writes what the filters hold. -/
theorem canDeliver_chan (s : State) (ch stamp : Nat) (f : CanFrame) (own : Bool) : let c := s.chan ch
    let hit := ((match c.matrix with | some m => m.filters | none => []).zipIdx).filter (fun ((x, _) : CanFilter × Nat) => x.hits f own)
    let new (t : Tab CanRx) (i : Nat) : CanRx :=
      { f := f, own := own, stamp := stamp, count := (tget t i {}).count + 1, at_ := s.now, lost := false }
    (s.canDeliver ch stamp f own).chan ch = { c with
      rx := hit.foldl (fun t (_, i) => tset t i (new t i)) c.rx
      rxOld := hit.foldl (fun t (_, i) => keepOld (·.at_) c.rx t i (new c.rx i)) c.rxOld } := by
  intro c hit new
  have hsubs (u : State) (l : List Sub) : (l.foldl (fun st x =>
      if x.target != ch then st
      else (x.filters.zipIdx).foldl (fun st2 (y, i) =>
        if y.hits f own then st2.addItem x.handle stamp (u64 stamp ++ frameRecord f own i) else st2) st) u).can = u.can := by
    refine foldl_keeps (p := State.can) (fun u x => ?_) ..
    refine ite_keeps (p := State.can) rfl (foldl_keeps (p := State.can) (fun u y => ?_) ..)
    exact opt_keeps (p := State.can) (addItem_can ..)
  have hchan (u v : State) (h : u.can = v.can) : u.chan ch = v.chan ch := congrArg (fun x : Tab Can => tget x ch {}) h
  unfold State.canDeliver
  dsimp only
  rw [hchan _ _ (hsubs ..)]
  simp only [State.setChan_chan, if_true]
  rfl

theorem canDeliver_tally (s : State) (ch stamp : Nat) (f : CanFrame) (own : Bool) :
    tally ((s.canDeliver ch stamp f own).chan ch) = tally (s.chan ch) := by
  rw [canDeliver_chan]
  rfl

theorem canDeliver_rx (s : State) (ch : Nat) (m : CanMatrix) (x : CanFilter) (stamp : Nat) (f : CanFrame) (own : Bool)
    (hm : (s.chan ch).matrix = some m) (hx : m.filters = [x]) (hhit : x.hits f own = true) (_ : s.subsOf 0x0505 = []) :
    ∃ v, tfind ((s.canDeliver ch stamp f own).chan ch).rx 0 = some v ∧ v.f = f ∧ v.own = own ∧ v.stamp = stamp ∧
      v.at_ = s.now ∧ v.lost = false := by
  rw [canDeliver_chan]
  simp only [hm, hx, List.zipIdx_singleton, List.filter_cons, hhit, if_true, List.filter_nil, List.foldl_cons, List.foldl_nil]
  exact ⟨_, tfind_tset_same .., rfl, rfl, rfl, rfl, rfl⟩

/-! ### The end of a frame -/

/-- What follows the outcome of a frame: the error counters and a stop that waited for it. -/
def sentEnd (s : State) (ch tec : Nat) : State :=
  let u := s.canCounters ch tec (s.chan ch).recv
  if (u.chan ch).stopping then u.setChan ch (u.chan ch).stopped else u

theorem sentEnd_tally (s : State) (ch tec : Nat) : tally ((sentEnd s ch tec).chan ch) = tally (s.chan ch) := by
  have hstop (u : State) : tally ((u.setChan ch (u.chan ch).stopped).chan ch) = tally (u.chan ch) := setChan_tally u ch _ rfl
  unfold sentEnd
  exact (opt_keeps (p := fun u => tally (u.chan ch)) (hstop _)).trans (canCounters_tally ..)

theorem exclChecked_of_not_checking (s : State) (ch : Nat) (e : CanSlot) (a : Bool) (h : s.twin.checking = false) :
    s.exclChecked ch e a = s := by
  simp [State.exclChecked, h]

theorem canAcked_tally (s : State) (ch stamp : Nat) (o : CanOpen) (h : s.twin.checking = false) :
    tally ((s.canAcked ch stamp o).chan ch) = (satInc (s.chan ch).txOk, (s.chan ch).lastTx, 0, false) := by
  have hcomplete (u : State) (r : Req) (a b : Nat) : (u.complete r a b).chan ch = u.chan ch :=
    (congrArg (fun v => v.chan ch) (settled_complete u r a b 0 none) :)
  unfold State.canAcked
  rw [exclChecked_of_not_checking s ch o.slot true h]
  dsimp only
  rw [canDeliver_tally]
  split
  · rw [hcomplete]
    split_ifs <;> simp [tally]
  · split_ifs <;> simp [tally]

theorem canNoAck_tally (s : State) (ch : Nat) : tally ((s.canNoAck ch).chan ch) =
    ((s.chan ch).txOk, (s.chan ch).lastTx, (s.chan ch).noAckRun + 1, (s.chan ch).alone || 16 ≤ (s.chan ch).noAckRun + 1) := by
  unfold State.canNoAck
  dsimp only
  split_ifs <;> simp [tally]

theorem canFrameSent_acked (ch : Fin 8) (stamp tec : Nat) (td : Option (BitVec 7)) (o : CanOpen) (s : State) (t : Nat) :
    let u := s.tick t
    (u.chan ch.val).open_ = some o → o.sent = false → o.started = true → u.twin.checking = false →
    ∃ v, exec (.canFrameSent t ch stamp .acked tec td) s = .next v ∧ v.now = u.now ∧
      (v.chan ch.val).txOk = satInc (u.chan ch.val).txOk ∧ (v.chan ch.val).lastTx = stamp / 2 * 2 ∧
      (v.chan ch.val).noAckRun = 0 ∧ (v.chan ch.val).alone = false := by
  intro u hopen hsent hstarted hcheck
  obtain ⟨c1, hv, htx, hlast⟩ : ∃ c1, execCanFrameSent t ch stamp .acked tec td s =
      .next (sentEnd ((u.setChan ch.val c1).canAcked ch.val (stamp / 2 * 2) o) ch.val tec) ∧
      c1.txOk = (u.chan ch.val).txOk ∧ c1.lastTx = stamp / 2 * 2 := by
    unfold execCanFrameSent
    simp only [show (s.tick t).chan ch.val = u.chan ch.val from rfl, hopen, hsent, hstarted, Bool.not_true, Bool.false_and,
      Bool.or_self, Bool.false_eq_true, if_false, if_true, bne_self_eq_false]
    exact ⟨_, rfl, rfl, rfl⟩
  have htally : tally ((sentEnd ((u.setChan ch.val c1).canAcked ch.val (stamp / 2 * 2) o) ch.val tec).chan ch.val) =
      (satInc (u.chan ch.val).txOk, stamp / 2 * 2, 0, false) := by
    rw [sentEnd_tally, canAcked_tally (u.setChan ch.val c1) _ _ _ hcheck]
    simp [htx, hlast]
  simp only [tally, Prod.mk.injEq] at htally
  exact ⟨_, hv, (execCanFrameSent_keeps _ _ _ _ _ _ _ hv).now, htally⟩

theorem canFrameSent_noAck (ch : Fin 8) (stamp tec : Nat) (td : Option (BitVec 7)) (o : CanOpen) (s : State) (t : Nat) :
    let u := s.tick t
    (u.chan ch.val).open_ = some o → o.sent = false → o.started = true → o.slot.kind = 2 →
    ∃ v, exec (.canFrameSent t ch stamp .noAck tec td) s = .next v ∧ v.now = u.now ∧
      (v.chan ch.val).txOk = (u.chan ch.val).txOk ∧ (v.chan ch.val).noAckRun = (u.chan ch.val).noAckRun + 1 ∧
      (v.chan ch.val).alone = ((u.chan ch.val).alone || 16 ≤ (u.chan ch.val).noAckRun + 1) := by
  intro u hopen hsent hstarted hkind
  obtain ⟨c1, hv, htx, hrun, halone⟩ : ∃ c1, execCanFrameSent t ch stamp .noAck tec td s =
      .next (sentEnd ((u.setChan ch.val c1).canNoAck ch.val) ch.val tec) ∧ c1.txOk = (u.chan ch.val).txOk ∧
      c1.noAckRun = (u.chan ch.val).noAckRun ∧ c1.alone = (u.chan ch.val).alone := by
    have hshared : (o.slot.kind == 1) = false := by rw [hkind]; rfl
    unfold execCanFrameSent
    simp only [show (s.tick t).chan ch.val = u.chan ch.val from rfl, hopen, hsent, hstarted, Bool.not_true, Bool.false_and,
      Bool.or_self, Bool.false_eq_true, if_false, if_true, hshared, Bool.and_false]
    exact ⟨_, rfl, rfl, rfl, rfl⟩
  have htally := (sentEnd_tally ((u.setChan ch.val c1).canNoAck ch.val) ch.val tec).trans (canNoAck_tally ..)
  simp only [tally, Prod.mk.injEq, State.setChan_chan, if_true, htx, hrun, halone] at htally
  obtain ⟨h1, -, h3, h4⟩ := htally
  exact ⟨_, hv, (execCanFrameSent_keeps _ _ _ _ _ _ _ hv).now, h1, h3, h4⟩

/-! ### Slots, faults and expiry -/

theorem canCounters_busOff (s : State) (ch tec rec : Nat) (hsync : (s.chan ch).synced = true) (hstate : (s.chan ch).state ≠ 2)
    (htec : 256 ≤ tec) :
    ((s.canCounters ch tec rec).chan ch).state = 2 ∧ ((s.canCounters ch tec rec).chan ch).tec = 255 := by
  simp [State.canCounters, hsync, hstate, htec]

theorem canCounters_state (s : State) (ch tec rec : Nat) (hsync : (s.chan ch).synced = true) (hstate : (s.chan ch).state ≠ 2)
    (htec : tec < 256) :
    ((s.canCounters ch tec rec).chan ch).state = (if 128 ≤ tec ∨ 128 ≤ rec then 1 else 0) := by
  by_cases hpass : 128 ≤ tec ∨ 128 ≤ rec
  · by_cases h0 : (s.chan ch).state = 0 <;> simp [State.canCounters, hsync, hstate, not_le.2 htec, hpass, h0]
  · simp [State.canCounters, hsync, hstate, not_le.2 htec, hpass]

theorem canSendExpiry_expires (ch : Fin 8) (j : CanJob) (r : Req) : After (.canSendExpiry · ch)
    (fun u => (u.chan ch.val).queue = [j] ∧ (u.chan ch.val).open_ = none ∧ j.until_ ≤ u.now ∧ u.findReq j.rid = some r)
    (fun u => ((u.setChan ch.val { u.chan ch.val with queue := [] }).event 0x0B0A [ch.val, idNum j.f.id]).complete r stBusy 1) :=
  after_of fun s t u hu ⟨hqueue, hopen, hdue, hreq⟩ => by
    have hfind (x : Can) (c : Nat) (d : List Nat) : ((u.setChan ch.val x).event c d).findReq j.rid = some r := hreq
    simp [execCanSendExpiry, ← hu, hqueue, hopen, hdue, hfind]

/-- Settles O55: the channels' requests, their control, the slots of a basic cycle, and frames sent and received. -/
theorem canChannels : Obligations.CanChannels :=
  ⟨answers_of_onReq (fun _ _ => rfl) fun s r _ h => by simp [h, stOk_eq_zero],
   fun i k => answers_of_onReq (fun _ _ => rfl) fun s r _ h => by simp [h],
   opening0_aligned,
   fun m => answers_of_onReq (fun _ _ => rfl) fun s r _ ⟨hon, hm, hq, hlen, hlife⟩ => by
     simp only [hon, hm, hq, hlife, not_le.2 hlen, Bool.not_true, Bool.or_self, Bool.false_eq_true, if_false, if_true],
   fun m => answers_of_onReq (fun _ _ => rfl) fun s r _ ⟨hon, hm, hq, hlen⟩ => by
     simp only [hon, hm, hq, hlen, Bool.not_true, Bool.or_self, Bool.false_eq_true, if_false, if_true],
   answers_of_onReq (fun _ _ => rfl) fun s r _ h => by simp [h],
   fun h => answers_of_onReq (fun _ _ => rfl) fun s r _ _ => rfl,
   fun ch a m => after_of fun s t u hu ⟨hnew, hdue, hcyc⟩ => by simp [execBasicCycleOpen, ← hu, hnew, hdue, hcyc],
   fun ch m => after_of fun s t u hu ⟨hnew, hm⟩ => by simp [execBasicCycleOpen, ← hu, hnew, hm],
   fun ch w hw0 hw1 => after_of fun s t u hu ⟨hmode, hoff, hpair, hok⟩ => by
     have hok' : (u.chan ch.val).timingOk = true := hok
     have hpair' (c : Can) : (u.setChan ch.val c).leadsPair = false := hpair
     simp only [exec_canEnable, execCanEnable, ← hu, hw0, State.canCtrl, hw1, beq_eq_false_iff_ne.2 hmode, hoff, State.mirrorWrite,
       hpair', hok', Bool.false_eq_true, if_false, if_true, Bool.not_false, Bool.and_self],
   fun ch w hw0 hw1 => after_of fun s t u hu ⟨hmode, hon, hpair, hopen⟩ => by
     have hpair' (c : Can) : (u.setChan ch.val c).leadsPair = false := hpair
     simp only [exec_canDisable, execCanDisable, ← hu, hw0, State.canCtrl, hw1, beq_eq_false_iff_ne.2 hmode, hon, State.mirrorWrite,
       hpair', hopen, Bool.false_eq_true, if_false, if_true, Bool.not_false, Bool.not_true, Bool.and_self],
   fun ch => after_of fun s t u hu ⟨hon, hsync, hmode⟩ => by simp [execCanIntegrated, ← hu, hon, hsync, hmode],
   fun ch => after_of fun s t u hu _ => by rw [hu]; rfl,
   fun c => by by_cases h : c.state = 2 <;> simp [Can.startRecovery, h],
   fun ch => after_of fun s t u hu ⟨hstate, hrec⟩ => by simp [execBusOffRecovered, ← hu, hstate, hrec],
   fun ch slot m e f job => after_of fun s t u hu ⟨hm, hopen, hsends, hslot, hmt, hframe, hfits⟩ => by
     simp only [exec_canSlotOpen, execCanSlotOpen, ← hu, hm, hslot, hsends, ← hmt, hopen, hframe, hfits, Bool.not_true,
       bne_self_eq_false, Option.isSome_none, Bool.or_self, Bool.false_eq_true, if_false, Bool.and_self, if_true],
   fun ch o => after_of fun s t u hu ⟨hopen, hclose, hsent, hkind⟩ => by
     simp [execCanSlotClose, ← hu, State.slotClose, hopen, not_lt.2 hclose, hsent, hkind],
   fun ch o => after_of fun s t u hu ⟨hopen, hclose, hsent⟩ => by
     simp [execCanSlotClose, ← hu, State.slotClose, hopen, not_lt.2 hclose, hsent],
   fun s ch e h => by simp only [State.exclMissed, exclChecked_of_not_checking s ch e false h],
   fun ch st res tec td => after_of fun s t u hu h => by simp [execCanFrameSent, ← hu, h],
   canFrameSent_acked, canFrameSent_noAck,
   fun ch stamp f rec => after_of fun s t u hu ⟨hon, hsync, hstate, hmode, hrole, hemits⟩ => by
     simp [execCanFrameReceive, ← hu, hon, hsync, hstate, hmode, hrole, hemits, State.leadsPair],
   canDeliver_rx,
   fun ch n y m => after_of fun s t u hu ⟨hm, hy, htime, hdue⟩ => by
     simp only [exec_canRxTimeout, execCanRxTimeout, ← hu, hm, Option.bind_some, hy, bne_iff_ne, ne_eq, htime, not_false_eq_true,
       hdue, decide_true, Bool.and_true, if_true],
   canSendExpiry_expires, canCounters_busOff, canCounters_state,
   by decide⟩

end Sys2Proof.Proofs
end

section
/-! PROOFS. Field inputs and outputs (R474 to R499). -/

namespace Sys2Proof.Proofs

open Sys2Proof.Machine

/-! ### Current loops -/

theorem clConversion_reads (n : Fin 8) (raw : BitVec 32) (s : State) (t : Nat) : let u := s.tick t
    let c := u.cl n.val
    let ma := c.trimmed raw
    c.isIn = true → c.startMt + c.interval * 1000 ≤ u.mt → c.burdenHz = some (u.clHighZ n.val) → u.fio.capture = none →
    ∃ v, exec (.clConversion t n raw) s = .next v ∧ v.now = u.now ∧ (v.cl n.val).ma = ma ∧ (v.cl n.val).noData = false ∧
      (v.cl n.val).value = c.charValue ma ∧ (v.cl n.val).band = clBand ma := by
  simp only [exec_clConversion, execClConversion]
  generalize s.tick t = u
  intro hin hdue hburden hcapture
  have hmode : (bits (u.cl n.val).ctrl.toNat 0 2 == 0) = false := by
    have : bits (u.cl n.val).ctrl.toNat 0 2 = 1 := beq_iff_eq.1 hin
    rw [this]; rfl
  have hsettled : (some (u.clHighZ n.val) == some (!u.clHighZ n.val)) = false := by cases u.clHighZ n.val <;> rfl
  have hevent (c : Prop) [Decidable c] (w : State) (k : Nat) (d : List Nat) :
      (if c then w.event k d else w).fio = w.fio ∧ (if c then w.event k d else w).now = w.now :=
    ⟨opt_keeps (p := State.fio) rfl, opt_keeps (p := State.now) rfl⟩
  have hcl (w : State) (x : Cl) (h : w.fio = (u.setCl n.val x).fio) : w.cl n.val = x := by
    have : w.cl n.val = (u.setCl n.val x).cl n.val := congrArg (fun y : Fio => tget y.cl n.val {}) h
    simpa using this
  have hcap (x : Cl) : (u.setCl n.val x).fio.capture = none := hcapture
  simp only [hmode, not_lt.2 hdue, decide_false, Bool.or_self, Bool.false_eq_true, if_false, hburden, hsettled, hin, if_true,
    hevent, hcap]
  refine ⟨_, rfl, ?_, ?_⟩
  · exact (hevent ..).2.trans (hevent ..).2
  · rw [hcl _ _ ((hevent ..).1.trans (hevent ..).1)]
    exact ⟨rfl, rfl, rfl, rfl⟩

/-! ### Fast analogue inputs -/

theorem faiAperture_samples (v : List (BitVec 32)) : After (.faiAperture · v)
    (fun u => u.faiDemand u.mt (u.mt + 1) ∧ u.fio.faiMt + 500 ≤ u.mt)
    (fun u => (v.take 8).zipIdx.foldl (fun (st : State) e => st.faiRead e.2 e.1) { u with fio := { u.fio with faiMt := u.mt } }) :=
  after_of fun s t u hu ⟨hdemand, hfree⟩ => by
    simp only [exec_faiAperture, execFaiAperture, ← hu, hdemand, Bool.not_true, Bool.false_and, Bool.false_eq_true, if_false,
      if_neg (not_lt.2 hfree)]

theorem faiAperture_samples_idle (v : List (BitVec 32)) : After (.faiAperture · v)
    (fun u => u.faiDemand u.mt (u.mt + 1) = false ∧ u.mt % 1000000 = 500 ∧ u.fio.faiMt + 500 ≤ u.mt ∧
      u.faiDemand u.mt (u.mt + 500) = false)
    (fun u => (v.take 8).zipIdx.foldl (fun (st : State) e => st.faiRead e.2 e.1) { u with fio := { u.fio with faiMt := u.mt } }) :=
  after_of fun s t u hu ⟨hdemand, hmt, hfree, hlater⟩ => by
    simp only [exec_faiAperture, execFaiAperture, ← hu, hdemand, hmt, hlater, bne_self_eq_false, decide_eq_false (not_lt.2 hfree),
      Bool.or_self, Bool.and_false, Bool.false_eq_true, if_false, if_neg (not_lt.2 hfree)]

/-! ### Subscriptions and tests -/

theorem fioSubscribeSample_adds (h : BitVec 32) (x : Sub) : After (.fioSubscribeSample · h)
    (fun u => u.host.subs.find? (fun y => y.handle == h && y.opcode == 0x0B01) = some x ∧ x.param ≠ 0 ∧ u.mt % (x.param * 10000) = 0)
    (fun u => (u.fioItem (x.target / 256) (x.target % 256)).2.addItem h u.mt (u.fioItem (x.target / 256) (x.target % 256)).1) :=
  after_of fun s t u hu ⟨hsub, hparam, hmt⟩ => by
    have hgo : (x.param != 0 && u.mt % (x.param * 10000) == 0) = true := by simp [hparam, hmt]
    simp only [exec_fioSubscribeSample, execFioSubscribeSample, ← hu, hsub, hgo, if_true]

theorem fioTestSettled_ends (rb : BitVec 32) (id g c due : Nat) (r : Req) : After (.fioTestSettled · rb)
    (fun u => u.fio.tests = [(id, g, c, due)] ∧ due ≤ u.now ∧ u.findReq id = some r)
    (fun u => ({ u with fio := { u.fio with tests := [] } }).complete r 0 (twos 64 rb.toInt)) :=
  after_of fun s t u hu ⟨htests, hdue, hreq⟩ => by
    have hfind : ({ u with fio := { u.fio with tests := [] } } : State).findReq id = some r := hreq
    simp only [exec_fioTestSettled, execFioTestSettled, ← hu, htests, if_neg (not_lt.2 hdue), hfind, stOk_eq_zero]

theorem fioTrim_starts : Answers .fioTrim 0x0B03 (fun s r => s.fio.trimJob = none ∧ s.fio.capture = none ∧ rd r.buf 0 1 = 0)
    (fun s r =>
      let u := s.running r.rid
      { u with fio := { u.fio with trimJob := some (some r.rid, r.fioCh, rdW r.buf 4, rdW r.buf 8) } }) :=
  answers_of_onReq (fun _ _ => rfl) fun s r _ ⟨hjob, hcapture, hop⟩ => by
    simp only [hjob, hcapture, Option.isSome_none, Bool.or_self, Bool.false_eq_true, if_false, hop]

/-- Settles O56: the inputs and outputs by kind, their watchdogs, and reads, subscriptions, tests and trims. -/
theorem fieldIo : Obligations.FieldIo :=
  ⟨fun n level d => after_of fun s t u hu ⟨hwb, hstate, hd⟩ => by
     simp [execDiDebounce, ← hu, hwb, Ne.symm hstate, hd],
   fun n level d => after_of fun s t u hu hd => by simp [execDiDebounce, ← hu, not_le.2 hd],
   fun n cur d => after_of fun s t u hu ⟨hen, hd, hlow, hwb⟩ => by
     simp only [exec_wireBreak, execWireBreak, ← hu, hen, decide_eq_false (not_lt.2 hd), hlow, hwb, Bool.not_true, Bool.not_false,
       Bool.or_self, Bool.and_self, Bool.false_eq_true, if_false, if_true],
   fun n ma d hma hd => after_of fun s t u hu hdriven => by simp [execDoShort, ← hu, hma, hd, hdriven],
   fun n => after_of fun s t u hu ⟨hshort, hterm, hdue⟩ => by simp [execDoRetry, ← hu, hshort, hterm, hdue],
   fun n rb d hd => after_of fun s t u hu _ => by simp [execMismatch, ← hu, hd],
   fun n rb d hd => after_of fun s t u hu ⟨hterm, hne, hmis⟩ => by
     have hdiff : (rb != u.doDriven n.val) = true := bne_iff_ne.2 hne
     simp only [exec_mismatch, execMismatch, ← hu, Option.isNone_eq_false_iff.2 (Option.isSome_iff_ne_none.2 hterm),
       decide_eq_false (not_lt.2 hd), hdiff, hmis, Bool.or_self, Bool.true_beq, Bool.false_eq_true, if_false,
       if_true],
   clConversion_reads,
   fun n raw => after_of fun s t u hu h => by simp [execClConversion, ← hu, h],
   fun n ma rev d hd hwire => after_of fun s t u hu hmis => by simp [execMiswire, ← hu, hd, hwire, hmis],
   fun n => after_of fun s t u hu ⟨hmis, hdue⟩ => by simp [execMiswireRetry, ← hu, hmis, hdue],
   faiAperture_samples,
   fun v => after_of fun s t u hu ⟨hdemand, hbusy⟩ => by simp [execFaiAperture, ← hu, hdemand, hbusy],
   faiAperture_samples_idle,
   fun n => after_of fun s t u hu _ => by rw [hu]; rfl,
   fun n => after_of fun s t u hu hmode => by simp [execPulseEdge, ← hu, hmode],
   fun p mt => ⟨rfl, rfl, rfl⟩,
   fun n line d hd => after_of fun s t u hu ⟨hcfg, hline⟩ => by
     simp only [exec_lineFault, execLineFault, ← hu, hcfg, hline, decide_eq_false (not_lt.2 hd), bne_self_eq_false, Bool.true_beq,
       Bool.or_self, Bool.false_eq_true, if_false, if_true],
   fun n e r => after_of fun s t u hu ⟨hedges, hold⟩ => by simp [execStalled, ← hu, hedges, hold],
   fun n => after_of fun s t u hu _ => by rw [hu]; rfl,
   fun g ch a b => after_of fun s t u hu ⟨hwd, hz, hdue⟩ => by simp [execWdExpired, ← hu, hwd, hz, hdue],
   fun g ch x => after_of fun s t u hu ⟨hwd, hz⟩ => by simp [execWdRefresh, ← hu, hwd, hz],
   answers_of_onReq (fun _ _ => rfl) fun s r _ _ => rfl,
   fun h => answers_of_onReq (fun _ _ => rfl) fun s r _ _ => rfl,
   fioSubscribeSample_adds,
   fun h x => after_of fun s t u hu ⟨hsub, hitems, hdue⟩ => by simp [execStreamRecordTimeout, ← hu, hsub, hitems, hdue],
   answers_of_onReq (fun _ _ => rfl) fun s r _ ⟨hgroup, haux⟩ => by
     dsimp only
     rw [if_neg (by simp [hgroup]), if_neg (by simp [haux])],
   answers_of_onReq (fun _ _ => rfl) fun s r _ ⟨hgroup, hout⟩ => by simp [hgroup, hout],
   fioTestSettled_ends, fioTrim_starts,
   fun c v h => by simp [Cl.commit, h],
   fun c v h => by simp [Fao.commit, h]⟩

end Sys2Proof.Proofs
end

section
/-! PROOFS. The recorder, backup memory, regions and register writes (R8, R43, R531, R536 to R549). -/

namespace Sys2Proof.Proofs

open Sys2Proof.Machine

/-! ### The recorder -/

theorem recRead_one (s : State) (rid : Nat) (r : Req) (h : s.ready rid 0x0600 r) (hone : r.aux.toNat = 1) :
    exec (.recRead rid) s = .next (({ s with free := s.free + 128 }).complete r 0
      (b2n (s.slotBytes (r.value % slotCount)).2) 0 (some (s.slotBytes (r.value % slotCount)).1)) := by
  have hrange : List.range r.aux.toNat = [0] := by rw [hone]; rfl
  simp only [exec_recRead, execRecRead, onReq_of_ready h, hrange, List.foldl_cons, List.foldl_nil, Nat.add_zero, List.nil_append,
    Nat.zero_add, stOk_eq_zero]

theorem slotBytes_of_bare (s : State) (n : Nat) (hslot : tfind s.recd.slots n = none) (hbad : n ∉ s.recd.bad) :
    s.slotBytes n = (List.replicate 512 0xFF, false) := by
  have hno : s.recd.bad.contains n = false := by simpa using hbad
  unfold State.slotBytes
  rw [hslot, hno]
  rfl

/-- Erasing a sector writes the slots, the bad slots and the count of erases. -/
theorem eraseFor_rest (r : Recorder) (slot : Nat) :
    { r.eraseFor slot with slots := r.slots, bad := r.bad, erases := r.erases } = r := by
  unfold Recorder.eraseFor
  split_ifs <;> rfl

theorem write_unverified (r : Recorder) (x : Rec) (rest : List Rec) :
    (r.write x rest false).queue = r.queue ∧ (r.write x rest false).badSlots = satInc r.badSlots := by
  have hq (k : Nat) : (r.eraseFor k).queue = r.queue := (congrArg Recorder.queue (eraseFor_rest r k) :)
  have hb (k : Nat) : (r.eraseFor k).badSlots = r.badSlots := (congrArg Recorder.badSlots (eraseFor_rest r k) :)
  unfold Recorder.write Recorder.advance
  cases r.toSafety x
  · simp [hq, hb]
  · simp

theorem write_verified_queue (r : Recorder) (x : Rec) (rest : List Rec) : (r.write x rest true).queue = rest := rfl

theorem write_safety (r : Recorder) (x : Rec) (rest : List Rec) (h : r.toSafety x = true) :
    (r.write x rest true).nextSafety = r.nextSafety + 1 ∧ (r.write x rest true).nextRoutine = r.nextRoutine ∧
    tfind (r.write x rest true).slots r.nextSafety = some { x with overflow := false } := by
  simp [Recorder.write, Recorder.advance, h, tfind_tset]

theorem recordWrite_verified (x : Rec) (rest : List Rec) : After (.recordWrite · true)
    (fun u => u.recd.queue = x :: rest ∧ u.recd.ready ∧ u.pwr.warn = none ∧ u.recd.toSafety x = safetyCode x.code)
    (fun u => ((({ u with recd := u.recd.write x rest true }).deliverRec { x with overflow := false }).logWritten x.seq).afterWrite) :=
  after_of fun s t u hu ⟨hqueue, hready, hwarn, hsafe⟩ => by
    simp [execRecordWrite, ← hu, hqueue, hready, hwarn, hsafe]

theorem summaryRecord_queues (code : BitVec 12) : After (.summaryRecord · code)
    (fun u =>
      let c := u.code code.toNat
      c.suppressed ≠ 0 ∧ c.burst ≠ 0 ∧ c.burst * tokenUnit ≤ c.refill u.now ∧ u.recd.ready ∧ routineRoom u.recd.queue)
    (fun u =>
      let c := u.code code.toNat
      let x : Rec := { u.mkRec code.toNat [] c.suppressed with items := [], partialFlag := false, summary := true }
      { u with recd := { u.recd with
        queue := u.recd.queue ++ [x], seqAssigned := u.recd.seqAssigned + 1
        cfg := tset u.recd.cfg code.toNat { c with tokens := c.burst * tokenUnit, tokensAt := u.now, suppressed := 0 } } }) :=
  after_of fun s t u hu ⟨hsup, hburst, htokens, hready, hroom⟩ => by
    have hgo : ¬ ((u.code code.toNat).suppressed = 0 || (u.code code.toNat).burst = 0 ||
        (u.code code.toNat).refill u.now < (u.code code.toNat).burst * tokenUnit || !u.recd.ready ||
        !(routineRoom u.recd.queue)) = true := by
      simp [hsup, hburst, not_lt.2 htokens, hready, hroom]
    simp only [exec_summaryRecord, execSummaryRecord, ← hu, if_neg hgo]

theorem event_of_safety (s : State) (code : Nat) (data : List Nat) (h : safetyCode code = true) :
    (s.event code data).recd.queue = s.recd.queue ++ [s.mkRec code data (s.code code).suppressed] := by
  simp [State.event, State.trigger, h]

theorem event_of_no_token (s : State) (code : Nat) (data : List Nat) (h : safetyCode code = false)
    (htoken : (s.code code).refill s.now < tokenUnit) :
    (s.event code data).recd.queue = s.recd.queue ∧ (s.event code data).recd.suppressed = satInc s.recd.suppressed := by
  simp [State.event, State.trigger, h, htoken]

/-! ### Regions and registers -/

theorem regionsMeet_zero (g : BitVec 64) : regionsMeet g 0 = false := by
  have hzero : regW 0 = 0 := rfl
  simp only [regionsMeet, hzero, lt_self_iff_false, decide_false, Bool.and_false, Bool.false_and]

theorem regionWrite_stores (n : Fin 16) (v : BitVec 64) : After (.regionWrite · n v)
    (fun u => u.live ∧ regionOk (v &&& regionMask) ∧ u.dsp.regions = [])
    (fun u => { u with dsp := { u.dsp with regions := tset u.dsp.regions n.val (v &&& regionMask) } }) :=
  after_of fun s t u hu ⟨hlive, hok, hnone⟩ => by
    have hmeet (m : Nat) : regionsMeet (v &&& regionMask) (tget u.dsp.regions m 0) = false := by
      rw [hnone]
      exact regionsMeet_zero _
    have hclear : (List.range 16).all (fun m => m == n.val ||
        !(regionsMeet (v &&& regionMask) (tget u.dsp.regions m 0))) = true :=
      List.all_eq_true.2 fun m _ => by rw [hmeet, Bool.not_false, Bool.or_true]
    simp only [exec_regionWrite, execRegionWrite, ← hu, hlive, hok, hclear, Bool.not_true, Bool.and_self, Bool.false_eq_true,
      if_false, if_true]

/-- An aligned write of four bytes is one whole word. -/
theorem wordsOf_word (off : Nat) (v : BitVec 64) (h : off % 4 = 0) :
    wordsOf off 4 v = [(off, BitVec.ofNat 32 (v.toNat % 2 ^ 32), BitVec.allOnes 32)] := by
  have hoff : off / 4 * 4 = off := by omega
  simp [wordsOf, h, hoff, ceilDiv, bits]

theorem writeBar_ignored (s : State) (off : Nat) (v : BitVec 64) (hmode : s.modes.mode = .run) (halign : off % 4 = 0)
    (hrwl : s.rwl off = true) : s.writeBar off 4 v = s.ignoreWrite := by
  have hrun : (s.modes.mode == .run) = true := beq_iff_eq.2 hmode
  simp only [State.writeBar, wordsOf_word off v halign, hrun, hrwl, List.any_cons, List.any_nil, List.foldl_cons, List.foldl_nil,
    Bool.true_or, Bool.true_and, Bool.not_true, Bool.false_and, Bool.false_eq_true, if_true, if_false]

theorem merged_whole (s : State) (off : Nat) (c : BitVec 32) : s.merged off c (BitVec.allOnes 32) = c := by
  simp [State.merged]

theorem mirrorWrite_of_alone (s : State) (off : Nat) (v : BitVec 32) (h : s.leadsPair = false) : s.mirrorWrite off v = s := by
  simp [State.mirrorWrite, h]

/-- The dwell register stands at offset 8 of the clock block, which is block 3. -/
theorem writeWord_clk (s : State) (off o : Nat) (w c : BitVec 32) (hblock : off / 0x1000 = 3) (hoff : off % 0x1000 = o)
    (habsent : s.blockAbsent off = false) : s.writeWord off w c = s.writeClk o w c := by
  simp [State.writeWord, habsent, hblock, hoff]

theorem writeClk_dwell (s : State) (w c : BitVec 32) (hpair : s.leadsPair = false) (h1 : 1 ≤ bits w.toNat 0 6)
    (h32 : bits w.toNat 0 6 ≤ 32) : s.writeClk 8 w c = { s with clk := { s.clk with dwell := bits w.toNat 0 6 } } := by
  have halone (off : Nat) := mirrorWrite_of_alone { s with clk := { s.clk with dwell := bits w.toNat 0 6 } } off w hpair
  simp only [State.writeClk, State.ranged, halone, h1, h32, decide_true, Bool.and_self, if_true]

theorem clear_dwell (x : Clk) : (x.clear 8).dwell = x.dwell := rfl

theorem clearCounter_dwell (s : State) (off : Nat) (hblock : off / 0x1000 = 3) (hoff : off % 0x1000 = 8) :
    (s.clearCounter off).clk.dwell = s.clk.dwell := by
  unfold State.clearCounter
  refine ite_keeps (p := fun u => u.clk.dwell) rfl ?_
  simp [hblock, hoff, clear_dwell]

theorem writeBar_dwell (s : State) (w : Nat) (habsent : s.blockAbsent 0x3008 = false) (hmode : s.modes.mode ≠ .run)
    (hpair : s.leadsPair = false) (h33 : w < 33) (h0 : 0 < w) :
    (s.writeBar 0x3008 4 (BitVec.ofNat 64 w)).clk.dwell = w := by
  have hv : (BitVec.ofNat 64 w).toNat % 2 ^ 32 = w := by
    rw [BitVec.toNat_ofNat, Nat.mod_eq_of_lt (show w < 2 ^ 64 by omega), Nat.mod_eq_of_lt (by omega)]
  have hbits : bits (BitVec.ofNat 32 w).toNat 0 6 = w := by
    rw [BitVec.toNat_ofNat, Nat.mod_eq_of_lt (show w < 2 ^ 32 by omega)]
    exact bits_of_lt w 6 (by omega)
  have hrun : (s.modes.mode == .run) = false := beq_eq_false_iff_ne.2 hmode
  have hblock : 0x3008 / 0x1000 = 3 := by norm_num
  have hoff : 0x3008 % 0x1000 = 8 := by norm_num
  have hword : s.writeWord 0x3008 (BitVec.ofNat 32 w) (BitVec.ofNat 32 w) = { s with clk := { s.clk with dwell := w } } := by
    have hclk := writeClk_dwell s (BitVec.ofNat 32 w) (BitVec.ofNat 32 w) hpair (by rw [hbits]; omega) (by rw [hbits]; omega)
    rw [writeWord_clk s 0x3008 8 _ _ hblock hoff habsent, hclk, hbits]
  have hlimits : (0x3008 == 0xB038 || 0x3008 == 0xB03C) = false := by decide
  unfold State.writeBar
  simp only [wordsOf_word 0x3008 (BitVec.ofNat 64 w) (by norm_num), hv, hrun, Bool.false_and, Bool.false_eq_true, if_false,
    List.foldl_cons, List.foldl_nil, merged_whole, hword, List.any_cons, List.any_nil, hlimits, Bool.or_false, Bool.and_false]
  exact ite_keeps (p := fun u => u.clk.dwell) (clearCounter_dwell _ _ hblock hoff) rfl

/-- Settles O57: the recorder, then the backup memory, the regions of the display and the registers. -/
theorem recorderAndRegisters : Obligations.RecorderAndRegisters :=
  ⟨answers_of_onReq (fun _ _ => rfl) fun s r _ _ => rfl,
   fun h => answers_of_onReq (fun _ _ => rfl) fun s r _ _ => rfl,
   recRead_one,
   fun s n x h => by simp [State.slotBytes, h],
   slotBytes_of_bare, recordWrite_verified,
   fun x rest => after_of fun s t u hu ⟨hqueue, hready, hwarn⟩ => by simp [execRecordWrite, ← hu, hqueue, hready, hwarn],
   fun r x rest => ⟨write_verified_queue r x rest, write_unverified r x rest⟩,
   write_safety, summaryRecord_queues, event_of_safety, event_of_no_token,
   fun s code data => rfl,
   fun c now => Nat.min_le_left ..,
   fun off v => after_of fun s t u hu ⟨hlive, hv⟩ => by
     simp only [exec_counterClear, execCounterClear, ← hu, hlive, bne_iff_ne.2 hv, Bool.and_self, if_true],
   fun off v => after_of fun s t u hu h => by rcases h with h | h <;> simp [execCounterClear, ← hu, h],
   fun n v => after_of fun s t u hu ⟨hlive, hbkup, hmode⟩ => by simp [execBkupWrite, ← hu, hlive, hbkup, hmode],
   fun n v => after_of fun s t u hu h => by simp [execBkupWrite, ← hu, h],
   fun n v => after_of fun s t u hu ⟨hlive, hbad⟩ => by simp [execRegionWrite, ← hu, hlive, hbad],
   regionWrite_stores,
   fun off size v => after_of fun s t u hu ⟨hlive, h1, h8, hown⟩ => by
     simp only [exec_registerWrite, execRegisterWrite, ← hu, hlive, hown, decide_eq_false (Nat.ne_zero_of_lt h1),
       decide_eq_false (not_lt.2 h8), Bool.not_true, Bool.or_self, Bool.false_eq_true, if_false],
   writeBar_ignored, writeBar_dwell,
   fun h w c => rfl,
   fun x => ⟨rfl, rfl, rfl, rfl⟩⟩

end Sys2Proof.Proofs
end

section
/-! PROOFS. The panel, its keys and the eject lever (R548 to R555, R372, R398, R485). -/

namespace Sys2Proof.Proofs

open Sys2Proof.Machine

/-! ### The display -/

theorem dspWrite_no_region : Answers .dspWrite 0x0A00 (fun s r => regW (tget s.dsp.regions r.value 0) = 0)
    (fun s r => s.complete r stNotPresent) :=
  answers_of_onReq (fun _ _ => rfl) fun s r _ hc => by simp only [hc, if_true]

theorem dspWrite_starts : Answers .dspWrite 0x0A00
    (fun s r => regW (tget s.dsp.regions r.value 0) ≠ 0 ∧ s.dsp.running = [])
    (fun s r =>
      let j : DspJob := { rid := r.rid, region := r.value, place := tget s.dsp.regions r.value 0, pixels := r.buf }
      ({ s with dsp := s.dsp.start j }).running r.rid) :=
  answers_of_onReq (fun _ _ => rfl) fun s r _ ⟨hplace, hidle⟩ => by
    simp only [if_neg hplace, hidle, List.any_nil, Bool.false_eq_true, if_false]

theorem frameStart_same_band (temp : BitVec 16) : After (.frameStart · temp)
    (fun u => u.modes.powered ∧ u.modes.inReset = false ∧ u.pwr.warn = none ∧ u.modes.mode ≠ .startup ∧
      u.dsp.bandOf temp = u.dsp.band)
    (fun u => ({ u with dsp := { u.dsp with
      temp := temp, greyUse := u.dsp.grey, scaleUse := u.dsp.scale } }).swapFrame) :=
  after_of fun s t u hu ⟨hpowered, hreset, hwarn, hmode, hband⟩ => by
    simp only [exec_frameStart, execFrameStart, ← hu, hpowered, hreset, hwarn, beq_eq_false_iff_ne.2 hmode, hband, Option.isSome_none,
      Bool.not_true, Bool.or_self, Bool.false_and, Bool.false_eq_true, if_false, if_true]

theorem frameCheck_good (scan : BitVec 32) : After (.frameCheck · scan)
    (fun u => u.modes.powered ∧ u.modes.inReset = false ∧ u.pwr.warn = none ∧ u.dsp.fault = false ∧ scan = u.dsp.expectCrc)
    (fun u => { u with dsp := { u.dsp with scanCrc := scan, on := true } }) :=
  after_of fun s t u hu ⟨hpowered, hreset, hwarn, hfault, hscan⟩ => by
    simp only [exec_frameCheck, execFrameCheck, ← hu, hpowered, hreset, hwarn, hfault, beq_iff_eq.2 hscan, Option.isSome_none,
      Bool.not_true, Bool.or_self, Bool.false_eq_true, if_false, if_true]

theorem frameCheck_bad (scan : BitVec 32) : After (.frameCheck · scan)
    (fun u => u.modes.powered ∧ u.modes.inReset = false ∧ u.pwr.warn = none ∧ u.dsp.fault = false ∧ scan ≠ u.dsp.expectCrc)
    (fun u => ({ u with dsp := { u.dsp with scanCrc := scan } }).frameFault scan) :=
  after_of fun s t u hu ⟨hpowered, hreset, hwarn, hfault, hscan⟩ => by
    simp only [exec_frameCheck, execFrameCheck, ← hu, hpowered, hreset, hwarn, hfault, beq_eq_false_iff_ne.2 hscan,
      Option.isSome_none, Bool.not_true, Bool.or_self, Bool.false_eq_true, if_false]

/-- A mismatch shows the fault pattern and is counted; the third within a minute latches it. -/
theorem frameFault_dsp (s : State) (scan : BitVec 32) :
    (s.frameFault scan).dsp.fault = true ∧ (s.frameFault scan).dsp.faults = satInc s.dsp.faults ∧
    ((s.frameFault scan).dsp.latched = true ↔ s.dsp.latched = true ∨
      2 ≤ (s.dsp.mismatches.filter (fun a => s.now < a + 60000000000)).length) := by
  unfold State.frameFault
  by_cases hthird : 2 ≤ (s.dsp.mismatches.filter (fun a => s.now < a + 60000000000)).length
  · simp [hthird, State.event_dsp]
  · simp [hthird, State.event_dsp]

/-! ### Keys and pages -/

theorem keyPress_first (key : Key) : After (.keyPress · key true)
    (fun u => u.dsp.pressed = [] ∧ u.dsp.lever = false ∧ u.modes.powered ∧ u.modes.inReset = false ∧ u.modes.mode ≠ .recovery)
    (fun u => (({ u with dsp := { u.dsp with
      pressed := [key], hold := some ([key], u.now, u.modes.mode), lastKey := u.now } }).menuKey key).keysMoved) :=
  after_of fun s t u hu ⟨hnone, hlever, hpowered, hreset, hmode⟩ => by
    simp [execKeyPress, ← hu, hnone, hlever, hpowered, hreset, hmode]

theorem keyPress_released (key : Key) : After (.keyPress · key false) (fun u => key ∈ u.dsp.pressed)
    (fun u => ({ u with dsp := { u.dsp with
      pressed := u.dsp.pressed.filter (fun k => k != key), hold := none } }).keysMoved) :=
  after_of fun s t u hu hkey => by simp [execKeyPress, ← hu, hkey]

theorem keysMoved_of_not_held (s : State) (h : s.dsp.supplyHeld = false) : s.keysMoved = s := by
  unfold State.keysMoved
  simp only [h, Bool.false_and, Bool.false_eq_true, if_false]
  rw [← h]

theorem menuNext_menu (s : State) :
    s.menuNext.dsp.menu = if s.dsp.menu < (if s.modes.mode = .maintenance then 5 else 3) then s.dsp.menu + 1 else 0 := by
  by_cases hmode : s.modes.mode = .maintenance <;> simp [State.menuNext, hmode]

theorem menuTimeout_leaves : After .menuTimeout (fun u => u.dsp.menu ≠ 0 ∧ u.dsp.lastKey + 30000000000 ≤ u.now)
    (fun u => { u with dsp := { u.dsp with menu := 0 }, fio := { u.fio with trim := {} } }) :=
  after_of fun s t u hu ⟨hmenu, hidle⟩ => by
    simp only [exec_menuTimeout, execMenuTimeout, ← hu, decide_eq_false hmenu, decide_eq_false (not_lt.2 hidle), Bool.or_self,
      Bool.false_eq_true, if_false]

theorem tripPageReset_held (p1 p2 : Bool) (a : Nat) : After (.tripPageReset · p1 p2)
    (fun u => u.dsp.held [.select, .down] .maintenance = some a ∧ u.modes.mode = .maintenance ∧ u.dsp.menu = 5 ∧
      a + 2000000000 ≤ u.now)
    (fun u => (({ u with dsp := { u.dsp with hold := none } }).resetOut u.dsp.sel 2 p1 p2).1.changeLog 0x0882 2 0xFF
      u.trip.cfgCrc.toNat u.trip.cfgCrc.toNat u.dsp.sel 0) :=
  after_of fun s t u hu ⟨hheld, hmode, hmenu, hlong⟩ => by
    simp only [exec_tripPageReset, execTripPageReset, ← hu, hheld, hmode, hmenu, bne_self_eq_false, decide_eq_false (not_lt.2 hlong),
      Bool.or_self, Bool.false_eq_true, if_false]

theorem clTrimHold_held (n : Fin 8) (a : Nat) : After (.clTrimHold · n true false)
    (fun u => u.dsp.held [.select] .maintenance = some a ∧ u.modes.mode = .maintenance ∧ u.dsp.menu = 4 ∧
      u.fio.trim.ch = n.val ∧ u.fio.trim.step ≠ 0 ∧ a + 2000000000 ≤ u.now)
    (fun u => ({ u with dsp := { u.dsp with hold := none } }).trimHold false) :=
  after_of fun s t u hu ⟨hheld, hmode, hmenu, hch, hstep, hlong⟩ => by
    simp only [exec_clTrimHold, execClTrimHold, ← hu, hheld, hmode, hmenu, hch, bne_self_eq_false, decide_eq_false hstep,
      decide_eq_false (not_lt.2 hlong), Bool.not_true, Bool.or_self, Bool.false_eq_true, if_false]

/-! ### The eject lever -/

theorem ejectLeverPulled_follow :
    After .ejectLeverPulled (fun u => u.dsp.lever = false ∧ u.modes.powered ∧ u.modes.role = .follow)
      (fun u => (({ u with dsp := { u.dsp with lever := true, hold := none } }).event 0x0D03 [roleCode u.modes.role]).ejectSafe) :=
  after_of fun s t u hu ⟨hlever, hpowered, hrole⟩ => by
    simp [execEjectLeverPulled, ← hu, hlever, hpowered, hrole, State.event_modes]

/-- A running module alone asks for confirmation before it leaves its work. -/
theorem ejectLeverPulled_prompts (s : State) (t : Nat) : let u := s.tick t
    u.dsp.lever = false → u.modes.powered = true → u.modes.role = .simplex → u.modes.detached = false → u.modes.mode = .run →
    ∃ v, exec (.ejectLeverPulled t) s = .next v ∧ v.dsp.lever = true ∧ v.dsp.eject = .prompt ∧ v.modes = u.modes := by
  simp only [exec_ejectLeverPulled, execEjectLeverPulled]
  generalize s.tick t = u
  intro hlever hpowered hrole hdetached hmode
  simp [hlever, hpowered, hrole, hdetached, hmode, State.event_modes, State.event_dsp]

theorem ejectRetry_due (a b : Nat) : After .ejectRetry (fun u => u.dsp.eject = .wait a b ∧ b ≤ u.now) (fun u => u.ejectTry a) :=
  after_of fun s t u hu ⟨hwait, hdue⟩ => by simp [execEjectRetry, ← hu, hwait, not_lt.2 hdue]

theorem ejectHold_stops (a : Nat) : After .ejectHold
    (fun u => u.dsp.eject = .prompt ∧ u.dsp.selectHeld = some a ∧ u.modes.role = .simplex ∧ u.modes.mode = .run ∧
      u.modes.trans = none ∧ a + 3000000000 ≤ u.now)
    (fun u => { u with modes := { u.modes with trans := some (.toHold 14 0 none none) }, dsp := { u.dsp with hold := none } }) :=
  after_of fun s t u hu ⟨hprompt, hheld, hrole, hmode, htrans, hlong⟩ => by
    simp only [exec_ejectHold, execEjectHold, ← hu, hprompt, hheld, hrole, hmode, htrans, bne_self_eq_false, Option.isSome_none,
      decide_eq_false (not_lt.2 hlong), Bool.or_self, Bool.false_eq_true, if_false]

/-- Settles O58: the display, then the keys and their pages, then the eject lever. -/
theorem panelCommands : Obligations.PanelCommands :=
  ⟨dspWrite_no_region, dspWrite_starts, answers_of_onReq (fun _ _ => rfl) fun s r _ _ => rfl,
   frameStart_same_band, frameCheck_good, frameCheck_bad, frameFault_dsp,
   keyPress_first, keyPress_released, keysMoved_of_not_held, menuNext_menu, menuTimeout_leaves, tripPageReset_held, clTrimHold_held,
   ejectLeverPulled_follow, ejectLeverPulled_prompts, ejectRetry_due,
   after_of fun s t u hu ⟨hlever, hpowered⟩ => by simp [execEjectCancel, ← hu, hlever, hpowered],
   ejectHold_stops⟩

end Sys2Proof.Proofs
end
